-- ==== Sys2Proof/Word.lean ====
section
/-! DEFINITION. The byte and the dictionary key: the two word types that every file shares. -/

namespace Sys2Proof

/-- One byte of content (R10). -/
abbrev Byte := BitVec 8

/-- A dictionary entry as (index << 8) | sub, the form of 1010h.05 (R72). -/
abbrev Key := Nat

/-- The key of (index, sub). -/
def keyOf (index sub : Nat) : Key := index * 256 + sub

end Sys2Proof
end

