-- ==== Sys2Proof/Syntax.lean ====
section
/-! DEFINITION. The commands of the block: one constructor of Instr for each row of spec/opcode_table.json, with the
operands that the row's rules speak of, and the types of those operands. -/

namespace Sys2Proof

/-- The door through which a dictionary access arrives (R40, R461). -/
inductive Door where
  | service (src : Nat)
  | tlaroek
  | pcie
  | spi
  deriving DecidableEq, Repr

/-- A cell of 240 body bytes behind its header (R106, R108); spare is its bits [119:118] and [80:64], which an originator
leaves 0 and forwarding leaves as they are. -/
structure Cell where
  kind : Nat
  bcast : Bool
  fromEnd : Bool
  turned : Bool
  timed : Bool
  queue : Nat
  src : Nat
  len : Nat
  first : Bool
  last : Bool
  seq : Nat
  lt : Nat
  body : List Byte
  spare : Nat
  deriving DecidableEq, Repr

/-- One block of a lane: sync header and codeword (R101). -/
structure Block where
  sync : BitVec 2
  code : BitVec 144
  deriving DecidableEq, Repr

/-- A PAM4 level on a lane (R98). -/
abbrev Level := Fin 4

/-- The shared points of R78. -/
inductive SharedPoint where
  | channel (c : Nat)
  | crossbar
  | egress (p : Nat)
  deriving DecidableEq, Repr

/-- The bus masters of R77 that are not budgeted, beside the budgeted master m of R82. -/
inductive Master where
  | budgeted (m : Nat)
  | scanFetch | previewFetch
  | timeCore | launchFetch
  | receiveWriter | compositor | captureWriter
  | ingestWriter | compressor | slicer
  | service
  deriving DecidableEq, Repr

/-- A request at the head of its master's queue at a shared point: the payload bytes of its transfer unit, the cycles
it holds the grant, whether it writes, its payload address, and whether it was issued before its master was frozen (R78, R83,
R89, R373). -/
structure BusRequest where
  master : Master
  bytes : Nat
  cycles : Nat
  isWrite : Bool
  address : Nat
  issued : Bool
  deriving DecidableEq, Repr

/-- The reset domains that a release names (R428, R435). -/
inductive Domain where
  | mem | link | core | time | scan | pipe
  deriving DecidableEq, Repr

/-- The PLLs of R434 and R453. -/
inductive Pll where
  | core | mem | serdes
  deriving DecidableEq, Repr

/-- The time sources of R177. -/
inductive Source where
  | free | ptp | pps10m | vref
  deriving DecidableEq, Repr

/-- A PTP master as its announce messages describe it: what the BMCA compares, and what 6200h shows (R178, R204). -/
structure PtpMaster where
  priority1 : Nat
  clockClass : Nat
  accuracy : Nat
  variance : Nat
  priority2 : Nat
  grandmaster : Nat
  steps : Nat
  parent : Nat
  parentPort : Nat
  utcOffset : Nat
  deriving DecidableEq, Repr

/-- The bodies of PTP messages (R178): times and corrections in 2⁻¹⁶ ns; a management or signalling message, which is ignored;
and one that is malformed, or of a mechanism that the sender does not support. -/
inductive PtpBody where
  | announce (m : PtpMaster)
  | sync (origin correction : Int) (twoStep : Bool)
  | followUp (origin correction : Int)
  | delayResp (receive correction : Int)
  | ignored
  | unsupported
  deriving DecidableEq, Repr

/-- A PTP message as it arrives (R178): its domain, its source port identity, its sequence number and its body. -/
structure PtpMessage where
  domain : Nat
  source : Nat
  sourcePort : Nat
  sequence : Nat
  body : PtpBody
  deriving DecidableEq, Repr

/-- What a sender itself sends on a 100GbE port: a Delay_Req from an IPv4 address, to a clock or multicast (R178), and an
IGMPv3 join of a group for a source, 0 for any (R212). -/
inductive NetMessage where
  | delayReq (source domain sequence : Nat) (master : Option Nat)
  | join (group source : Nat)
  deriving DecidableEq, Repr

/-- A sink of a preview output as the transmitter finds it: the lanes that its DPCD allows and its EDID (R268). -/
structure PreviewSink where
  lanes : Nat
  edid : List Byte
  deriving DecidableEq, Repr

/-- The rails that the part monitors, in mV (R430); a rail that is not named has failed. -/
structure Rails where
  vdd : Nat := 0
  vddSer : Nat := 0
  vddM : Nat := 0
  vioA : Nat := 0
  vioB : Nat := 0
  deriving DecidableEq, Repr

/-- The arrival of a message or an edge: its entry delay in cc and its phase in 1/64 cc (R183). -/
structure Arrival where
  entryDelay : Nat
  phase : Nat
  deriving DecidableEq, Repr

/-- The way of a UDP datagram: the IPv4 address and the port that sent it, and the port that it is for (R57, R59). -/
structure UdpPath where
  address : Nat
  port : Nat
  target : Nat
  deriving DecidableEq, Repr

/-- A sweep of the gateway, by its port and its tag (R125). -/
structure SweepName where
  port : Nat
  tag : Nat
  deriving DecidableEq, Repr

/-- The signal of a DisplayPort source: its format as 6001h+d.04 has it, and whether its range is full (R214, R243). -/
structure DpSignal where
  format : Nat
  fullRange : Bool
  deriving DecidableEq, Repr

/-- The loss of a DisplayPort receiver: that of its training, or silence (R211). -/
structure DpLoss where
  receiver : Nat
  trainingLost : Bool
  deriving DecidableEq, Repr

/-- The addresses of a packet of a flow: its source, its group and its UDP port (R212). -/
structure FlowPath where
  source : Nat
  group : Nat
  udpPort : Nat
  deriving DecidableEq, Repr

/-- An access of BAR4: a write, or a read of some bytes, at an offset (R218). -/
structure Bar4Access where
  isWrite : Bool
  offset : Nat
  count : Nat
  deriving DecidableEq, Repr

/-- The start of a frame of a preview output, with the sink that it finds (R268). -/
structure PreviewStart where
  output : Nat
  sink : Option PreviewSink
  deriving DecidableEq, Repr

/-- What a return lane brings: when its frame has ended, in ns after the latch marker, the 58 bits of the line before it, and
its 66-bit words (R333, R346). -/
structure ReturnWords where
  elapsed : Nat
  before : Nat
  words : List Nat
  deriving DecidableEq, Repr

/-- Triggers of a memory freeze (R387). -/
inductive FreezeTrigger where
  | dataError (syndrome : Nat)
  | writeEdc | readEdc
  | modeRegister
  deriving DecidableEq, Repr

/-- Where in memory an error was met (R372, R394). -/
structure MemPlace where
  channel : Nat
  bank : Nat
  row : Nat
  atom : Nat
  word : Nat
  inCode : Bool
  requester : Nat
  region : Nat
  deriving DecidableEq, Repr

/-- A die sensor's sample (R399, R400). -/
inductive SensorReading where
  | value (sixteenths : Int)
  | openOrShort
  deriving DecidableEq, Repr

/-- What a start finds in a base slot (R457): the fields of a bootable image. -/
structure ImageInfo where
  version : Nat
  digest : Nat
  deriving DecidableEq, Repr

/-- The commands of the block, in the order of the opcode table. -/
inductive Instr where
  -- resets and modes (R428 to R453)
  | por (vioB : Nat := 1800) | brownout (rails : Rails := {}) | nreset | nwarm
  | softwareWarm (door : Door) | softwareCold (door : Door)
  | watchdogExpiry | clockFail | startTimeout
  | linkCommandedReset (port : Nat)
  | resetHeldRelease | coldReset | warmReset
  | domainRelease (d : Domain)
  | clockNotGood (pll : Pll)
  | corePllRetry | memReady | bootCommit
  | blockReset (door : Door) | blockResetForce
  | adventClear (door : Door) | resetCounterClear (door : Door) | linkResetGo (door : Door)
  | modeRequestDark (door : Door) | modeRequestRun (door : Door) | modeRequestHold (door : Door)
  | modeRequestPassthrough (door : Door) | modeRequestBringup (door : Door)
  | modeChange | automaticHold | automaticHoldReturn | holdLimit | startConfirmation
  -- budgets (R74 to R96)
  | tickBoundary
  | arbiterGrant (point : SharedPoint) (waiting : List BusRequest)
  | budgetRelease (door : Door) (mask : Nat) | budgetCounterClear (door : Door)
  -- dictionary and doors (R34 to R73)
  | read (door : Door) (key : Key)
  | write (door : Door) (key : Key) (value : List Byte)
  | readStaged (door : Door) (key : Key)
  | domainRead (door : Door) (key : Key) (offset count : Nat)
  | domainWrite (door : Door) (key : Key) (offset : Nat) (data : List Byte)
  | registerWrite (door : Door) (key : Key) (value : List Byte)
  | immediate (door : Door) | timed (door : Door) | cancel (door : Door) | discard (door : Door)
  | commitChecksEnd | commitApply
  | tlaroekDatagram (path : UdpPath) (payload : List Byte)
  | tlaroekAnswer
  | broadcastWrite (door : Door) (key : Key) (value : List Byte)
  | gatewayTimeout (sweep : SweepName)
  | domainTransferIdle (stream : Nat)
  | bar0Access (isWrite : Bool) (offset firstByte count : Nat) (data : List Byte)
  | bar0WindowAdvance (isWrite : Bool) (data : List Byte)
  | mailboxGo (n : Nat)
  | spiFrame (frame : List Byte)
  | spiWaitTimeout | spiFrameDiscard
  | doorCounterClear (door : Door)
  -- Elxel (R97 to R143)
  | receiveSlot (port : Nat) (lanes : List (List Level))
  | alignSlotSend (port : Nat)
  | alignMissing (port : Nat) (foundElsewhere : Bool)
  | phaseSlip (port : Nat) | blockLockLoss (port lane : Nat)
  | portDownWait (port : Nat) | signalDetect (port : Nat) | eqAdapted (port : Nat)
  | lockAcquired (port polarity : Nat) (reversed : Bool) (skews : List Nat)
  | alignFound (port : Nat) (farPers farPort farHops farAddr : Nat)
  | checkPassed (port : Nat) | checkFailed (port : Nat) | trainingTimeout (port : Nat)
  | trainingBackoff (port : Nat) | portLeavesUp (port : Nat)
  | portRetrain (door : Door) (port : Nat) | portGoDown (door : Door) (port : Nat)
  | portCounterClear (door : Door) (port : Nat)
  | marginMeasure (port : Nat) (heights widths : List Nat)
  | enumeration (chains : List (Nat × Nat))
  | enumSend | enumReceive
  | deferredPerform | serviceAnsSend | serviceAnsReceive
  -- redundancy (R144 to R170)
  | queueCellReceive
  | digestSend (port tick : Nat) | digestCompare (port tick : Nat) | digestMissing (port tick : Nat)
  | yieldResume (port : Nat)
  | harvestSend | harvestReceive | deviceSilent (address : Nat)
  | clockUpstreamChange | masterTakeover | masterClaim | masterReturn | dualMaster
  | claimNow (door : Door) | handOver (door : Door)
  | firstDivergenceClear (door : Door) | redundancyCounterClear (door : Door)
  -- time (R171 to R204)
  | beaconSend (port : Nat) | beaconReceive (entryDelay phase : Nat)
  | tileHoldover | delayReqSend (port : Nat)
  | delayReqReceive (arrival : Arrival)
  | delayRespReceive (arrival : Arrival)
  | ptpMessage (netPort : Nat) (m : PtpMessage) (arrival : Arrival)
  | ppsEdge (refPresent : Bool) (entryDelay phase : Nat)
  | vrefFrame (rate : Nat × Nat) (arrival : Arrival)
  | sourceLock (src : Source)
  | firstLockStep (src : Source) | firstLockWait (src : Source)
  | sourceLost (src : Source) | sourceJump | sourceReturn | intercalationUpdate
  | reepochPlain (door : Door) | reepochForce (door : Door) | reepochCancel (door : Door) | reepochApply
  | timeCounterClear (door : Door) | ptpCounterClear (door : Door)
  -- sender ingest, flips, queues (R205 to R245)
  | dpFrameComplete (d : Nat) (signal : DpSignal) (rate : Nat) (data : List Byte) | dpFrameDrop (d : Nat)
  | dpLost (loss : DpLoss)
  | flowPacket (leg : Nat) (path : FlowPath) (seq : Nat) (marker : Bool) (payload : List Byte) | flowFrameComplete (flow : Nat) | flowLost (flow : Nat)
  | ingestCounterClear (door : Door) (key : Key)
  | bar2Access (isWrite : Bool) (address count : Nat) (data : List Byte)
  | fenceWrite (access : Bar4Access) (data : List Byte)
  | fenceReset (door : Door) (fence : Nat)
  | compressionDone (source : Nat)
  | flipDeadline
  | directLineSlice (source line : Nat) (data : List Byte)
  | launchCutoff
  | doorbell (offset : Nat) (data : List Byte)
  | timedMessageRelease (queue : Nat)
  | hostStreamDeliver (stream : Nat) | hostStreamRead (door : Door) (offset count : Nat)
  | queueReset (door : Door) | queueDisable (door : Door) | queueEnable (door : Door)
  | queueCounterClear (door : Door) (key : Key) | slicerCounterClear (door : Door)
  -- composition and previews (R246 to R280)
  | windowComplete (stream : Nat) | composeDeadline | viewComposed (view : Nat) | composeUnderrun (view : Nat)
  | captureRingEmpty (door : Door) | captureSlotRelease (door : Door)
  | directSegmentReceive (stream : Nat)
  | firstSubstitutionClear (door : Door) | composeCounterClear (door : Door) (key : Key)
  | previewBuild (o : Nat) | previewBuildAbandon (o : Nat) | previewFrameStart (start : PreviewStart)
  | previewCounterClear (door : Door) (key : Key)
  -- colour and views (R281 to R311)
  | tableMessage (stream : Nat) | tableLoaderGo (door : Door) | uploadCounterClear (door : Door)
  | plan (door : Door) | syncEdge (k : Nat) | syncStart (k : Nat)
  -- timing generators (R312 to R329)
  | slotLatch | blank (r : Nat) | matchLine (r : Nat) | done (r : Nat)
  | underrun (r : Nat) (lanes : Nat) | l7LineUnderrun (r : Nat) (row : Nat) | previewLineUnderrun (o : Nat)
  | relock
  | tgEventStatusClear (door : Door) (key : Key) (ones : Nat) | tgCounterClear (door : Door) (r : Nat)
  -- lamp drive (R330 to R368)
  | laneFrameStart (lane : Nat) | laneRowSend (lane row : Nat) | diagSend (lane : Nat)
  | laneFrameEnd (lane : Nat) | latch (lane : Nat) | diagnosticSlot (lane : Nat)
  | returnFrame (lane : Nat) (frame : ReturnWords) | returnFrameMissing (lane : Nat)
  | diodeSample (d : Nat) (reading : Option Int)
  | sweepStart | mapStore (door : Door) | mapStoreInterval | mapClear (door : Door) | mapReload (door : Door)
  | lastLocateClear (door : Door) | lampCounterClear (door : Door) (key : Key)
  -- memory (R369 to R397)
  | memoryTraining (channel : Nat) (density : Nat) (passed : Bool)
  | retrainStep (channel : Nat) (completed last : Bool) | retrainDue (channel : Nat) | refresh (channel bank : Nat)
  | deviceTempReadout (channel : Nat) (temps : List Int)
  | edcRetry (channel : Nat) | correctedRead (place : MemPlace) | scrub (place : MemPlace) (found : Nat)
  | hammerThreshold (place : MemPlace)
  | modeRegisterCheck (channel : Nat) (matched : Bool)
  | memoryFreeze (trigger : FreezeTrigger) (place : MemPlace)
  | poisonedRead (place : MemPlace) (address : Nat)
  | freezeRelease (door : Door) | freezeRecordClear (door : Door) | retrainAll (door : Door) | scrubNow (door : Door)
  | channelCountersClear (door : Door) (key : Key)
  -- heat and Equinox (R398 to R427)
  | sensorSample (sensors : List SensorReading) (rings : List Int)
  | throttle | shutdown | hardwareTrip (source : Nat) | compensationUpdate | thermalCounterClear (door : Door)
  | equinoxEvaluate | equinoxSwapIn
  | equinoxMeasurement (points : List Int)
  | equinoxSwapOut | equinoxAbort (cause : Nat)
  | equinoxCalibrateItem (door : Door) | equinoxCalibrateAll (door : Door) | calibrationStore (door : Option Door)
  | calibrationReload (door : Door) | suspectClear (door : Door) | lastResultClear (door : Door)
  | equinoxCounterClear (door : Door) | tokenGrant (token : Nat)
  -- firmware and flash (R454 to R481)
  | sessionOpen (door : Door) | sessionEraseDone | sessionChunk (door : Door) (offset : Nat) (data : List Byte)
  | sessionClose (door : Door) | sessionAbort (door : Door) | sessionIdleTimeout
  | updateBroadcast (door : Door) | firmwareBlock (stream : Nat)
  | settingsSave (door : Door) | settingsErase (door : Door)
  | storeComplete (verified : Bool) | consolidation (verified : Bool) | updateCounterClear (door : Door)
  -- Almanac (R482 to R497)
  | almanacEvent (hist bin : Nat) | pageClose | almanacFreeze (door : Door) (on : Bool)
  | almanacClear (door : Door) | almanacClosePage (door : Door) | persistNow (door : Door) | persistenceRun
  | almanacWindowAdvance (door : Door) | almanacCounterClear (door : Door)
  -- bring-up (R518 to R523)
  | portTestMode (door : Door) (port mode : Nat) | portTestCounterClear (door : Door) (port : Nat)
  | lampPattern (door : Door) (pattern : Nat)
  | memoryTestStart (door : Door) | memoryTestStop (door : Door)
  | memoryTestDone (failure : Option Nat)
  -- later rows
  | refreshWindow (channel : Nat)
  | syncStartTimeWrite (door : Door) (k time : Nat)
  deriving DecidableEq, Repr

end Sys2Proof
end

