-- ==== Sys2Proof/Config.lean ====
section
/-! DEFINITION. What an implementation fixes, and the free values: constants without a body, so that nothing in
Lean can evaluate them or prove a value of one. -/

namespace Sys2Proof.Config

/-- 1000h.07 (R72): unique per die. Log 2. -/
opaque dieIdBits : BitVec 64

/-- 1031h.05, 6000h.05 and 6000h.06 (R61, R242): fuse block. Log 2. -/
opaque macBits : Nat → BitVec 48

/-- The fuse bytes of the compensation tables 1220h.01 to 1220h.03 and of the calibration set (R409, R419).
DESIGN CHOICE, log 2. -/
opaque fuseByte : Nat → BitVec 8

/-- A fresh free value of w bits; the argument is State.free. Log 9. -/
opaque freeBits : (w : Nat) → Nat → BitVec w

/-- Steps 1 and 2 of R214: component c of the sample at x, y that unpacking, and DSC decoding where it is used, give from what
a receiver (false) or a flow (true) has taken in a format. The standards named in R209 and R212 fix it, not the spec.
Log 10. -/
opaque sample : (flow : Bool) → (format : Nat) → List (BitVec 8) → (x y c : Nat) → Nat

/-- The next rate offset that the servo of R181 asks for, in 2⁻¹⁶ ppm, before its limits: the law inside the
limits is not stated. Log 11. -/
opaque servoRate : (offset : Int) → (rate : Int) → Int

/-- The rate of the active source as the servo of R181 measures it, in 2⁻¹⁶ ppm: how it is measured is not stated.
Log 11. -/
opaque sourceRate : (offset : Int) → (rate : Int) → Int

/-- The nominal count of the RC oscillator over 1,048,576 cc (R414): its frequency is not stated. Log 16. -/
opaque rcNominal : Nat

/-- The trim error in 2⁻²⁰ of nominal that two counts of the RC oscillator show (R415). Log 16. -/
opaque rcTrimError : Int → Int → Int

def dieId : Nat := dieIdBits.toNat
def managementMac : Nat := (macBits 0).toNat
def net0Mac : Nat := (macBits 1).toNat
def net1Mac : Nat := (macBits 2).toNat

end Sys2Proof.Config
end

