-- ==== Sys2Proof/Machine/Bits.lean ====
section
/-! DEFINITION. Bit fields, signed values, byte order and saturation: the helpers that every meaning uses. -/

namespace Sys2Proof.Machine

/-- Bits [hi:lo] of a value. -/
def field (v hi lo : Nat) : Nat := v / 2 ^ lo % 2 ^ (hi - lo + 1)

/-- Bit i of a value. -/
def bitAt (v i : Nat) : Bool := v / 2 ^ i % 2 == 1

/-- The value with bit i set. -/
def withBit (v i : Nat) : Nat := if bitAt v i then v else v + 2 ^ i

/-- The value with bit i clear. -/
def withoutBit (v i : Nat) : Nat := if bitAt v i then v - 2 ^ i else v

/-- The value with field [hi:lo] replaced. -/
def withField (v hi lo x : Nat) : Nat :=
  v - field v hi lo * 2 ^ lo + x % 2 ^ (hi - lo + 1) * 2 ^ lo

/-- How many of the bits below n are set. -/
def popCount : (n v : Nat) → Nat
  | 0, _ => 0
  | n + 1, v => v % 2 + popCount n (v / 2)

/-- A two's-complement value of w bits as an integer (R11). -/
def toSigned (w v : Nat) : Int :=
  if v % 2 ^ w < 2 ^ (w - 1) then (v % 2 ^ w : Nat) else ((v % 2 ^ w : Nat) : Int) - (2 : Int) ^ w

/-- An integer as a two's-complement value of w bits (R11). -/
def ofSigned (w : Nat) (i : Int) : Nat := (i % (2 : Int) ^ w).toNat

/-- An integer brought inside the limits of an I16, I32 or I64. -/
def clampSigned (w : Nat) (i : Int) : Int :=
  max (-(2 : Int) ^ (w - 1)) (min ((2 : Int) ^ (w - 1) - 1) i)

/-- The signed 32-bit difference by which LT32 values are compared (R11). -/
def lt32Diff (a b : Nat) : Int := toSigned 32 (ofSigned 32 ((a : Int) - (b : Int)))

/-- A value as n bytes, least significant first (R10). -/
def bytesLE : (n v : Nat) → List Byte
  | 0, _ => []
  | n + 1, v => BitVec.ofNat 8 v :: bytesLE n (v / 256)

/-- The value of bytes, least significant first (R10). -/
def natLE : List Byte → Nat
  | [] => 0
  | b :: bs => b.toNat + 256 * natLE bs

/-- One more, saturating at 2^w − 1. -/
def satInc (w v : Nat) : Nat := min (2 ^ w - 1) (v + 1)

/-- n more, saturating at 2^w − 1. -/
def satAdd (w v n : Nat) : Nat := min (2 ^ w - 1) (v + n)

/-- Round to nearest, an exact half away from zero (R526). -/
def roundRat (r : Rat) : Int := if 0 ≤ r then (r + 1 / 2).floor else -((-r + 1 / 2).floor)

/-- Round an integer quotient to nearest, an exact half away from zero (R526). -/
def roundDiv (n : Int) (d : Nat) : Int :=
  if 0 ≤ n then (2 * n + d) / (2 * d) else -((-(2 * n) + d) / (2 * (d : Int)))

/-- The quotient rounded toward plus infinity. -/
def ceilDiv (n d : Nat) : Nat := (n + d - 1) / d

/-- A piece of a list. -/
def slice {α : Type} (l : List α) (start count : Nat) : List α := (l.drop start).take count

/-- n bytes of zero. -/
def zeroBytes (n : Nat) : List Byte := List.replicate n 0

/-- A list of bytes padded with zero to n bytes (R11, R58). -/
def padTo (n : Nat) (l : List Byte) : List Byte := l ++ zeroBytes (n - l.length)

/-- A value for a key in an association list. -/
def lookupKey {β : Type} : List (Nat × β) → Nat → Option β
  | [], _ => none
  | (k, v) :: r, q => if k = q then some v else lookupKey r q

/-- An association list, keys rising, with one value set. -/
def insertKey {β : Type} : List (Nat × β) → Nat → β → List (Nat × β)
  | [], q, v => [(q, v)]
  | (k, w) :: r, q, v =>
    if q < k then (q, v) :: (k, w) :: r else if q = k then (q, v) :: r else (k, w) :: insertKey r q v

/-- An association list without one key. -/
def removeKey {β : Type} (l : List (Nat × β)) (q : Nat) : List (Nat × β) := l.filter fun c => c.1 != q

/-- Every entry of the second list set over the first. -/
def overlayKeys {β : Type} (base top : List (Nat × β)) : List (Nat × β) :=
  top.foldl (fun acc c => insertKey acc c.1 c.2) base

/-- A list with its element i replaced. -/
def setAt {α : Type} : List α → Nat → α → List α
  | [], _, _ => []
  | _ :: r, 0, v => v :: r
  | x :: r, n + 1, v => x :: setAt r n v

/-- A list with its element i changed by a function. -/
def updateAt {α : Type} : List α → Nat → (α → α) → List α
  | [], _, _ => []
  | x :: r, 0, f => f x :: r
  | x :: r, n + 1, f => x :: updateAt r n f

/-- The first element that satisfies a test, and the list without it. -/
def takeFirst {α : Type} (p : α → Bool) : List α → Option (α × List α)
  | [] => none
  | x :: r => if p x then some (x, r) else (takeFirst p r).map fun q => (q.1, x :: q.2)

end Sys2Proof.Machine
end

