-- ==== Sys2Proof/Machine/Catalog.lean ====
section
/-! DEFINITION. The object dictionary as data: one Row for each row of the object tables of chapters 02 to 17, and the
lookup of an entry by its key (R6, R11, R12, R34, R39, R524). -/

namespace Sys2Proof.Machine

/-- The personality that the part holds (R1 to R3); none of the two while the strap is invalid. -/
inductive Personality where
  | tile | sender | invalid
  deriving DecidableEq, Repr

/-- The types of R11. -/
inductive Ty where
  | bool | u8 | u16 | u32 | u64 | i16 | i32 | i64 | fix16 | lt32 | time96 | str | domain
  deriving DecidableEq, Repr

/-- The access codes of R12; konst is CONST. -/
inductive Access where
  | ro | rw | wo | rws | rw1c | konst
  deriving DecidableEq, Repr

/-- Where an entry exists (R6): on either personality, on one, at the last layer only, or with its budgeted master
(R82). -/
inductive Who where
  | both | tile | sender | lastLayer | master
  deriving DecidableEq, Repr

/-- The default of a row: a value, one for a tile and one for a sender, the shares of R82, or a value for the first
index of the block alone. -/
inductive Dflt where
  | c (v : Nat) | pers (t s : Nat) | tab (f : List Nat) | first (v : Nat)
  deriving DecidableEq, Repr

/-- The values that a row allows (R524). -/
inductive Rng where
  | any | nat (lo hi : Nat) | int (lo hi : Int) | oneOf (l : List Nat) | zeros (mask : Nat)
  | blockCode | sourceList | window64 | item | txEq | ringSize | relation | dpOverride | flowFormat | hostAddress | pulls
  deriving DecidableEq, Repr

/-- One row of an object table: subindexes sub to last, type, access, the F flag of R13, where it exists, its default and
its range. -/
structure Row where
  sub : Nat
  last : Nat
  ty : Ty
  acc : Access
  fast : Bool
  who : Who
  dflt : Dflt
  range : Rng
  deriving DecidableEq, Repr

/-- The indexes base, base + 1, ... that share a table, on a tile and on a sender. -/
structure IndexBlock where
  base : Nat
  onTile : Nat
  onSender : Nat
  rows : List Row
  deriving DecidableEq, Repr

/-- The bytes of an ASCII text as a number, least significant byte first. -/
def asciiLE : List Char → Nat
  | [] => 0
  | c :: r => c.toNat + 256 * asciiLE r

/-- 1000h.02 (R72). -/
def partName : Nat := asciiLE ['L', 'M', 'F', '6', '1', '8', '0']

/-- 1000h.03 on a tile (R72). -/
def orderingTile : Nat := asciiLE ['L', 'M', 'F', '6', '1', '8', '0', '-', 'T']

/-- 1000h.03 on a sender (R72). -/
def orderingSender : Nat := asciiLE ['L', 'M', 'F', '6', '1', '8', '0', '-', 'S']

/-- The default byte shares of masters 0 to 10 (R82). -/
def byteShares : List Nat := [1311, 1311, 655, 9830, 66, 655, 1311, 1311, 66, 66, 1311]

/-- The default cycle shares of masters 0 to 10 (R82). -/
def cycleShares : List Nat := [3277, 1966, 1311, 6554, 131, 1311, 1966, 655, 131, 131, 1966]

/-- 1000h (R72). -/
def entries1000 : List Row := [
  ⟨0x01, 0x01, .u16, .konst, false, .both, .c 0x5653, .any⟩,  -- Vendor ID
  ⟨0x02, 0x02, .str, .konst, false, .both, .c partName, .any⟩,  -- Part name
  ⟨0x03, 0x03, .str, .ro, false, .both, .pers orderingTile orderingSender, .any⟩,  -- Ordering code
  ⟨0x04, 0x04, .u8, .konst, false, .both, .c 0xB0, .any⟩,  -- Silicon revision
  ⟨0x05, 0x05, .u8, .ro, false, .both, .pers 1 2, .any⟩,  -- Personality
  ⟨0x06, 0x06, .u16, .ro, true, .both, .c 0xFFFF, .any⟩,  -- Device address
  ⟨0x07, 0x07, .u64, .ro, false, .both, .c Config.dieId, .any⟩,  -- Die ID
  ⟨0x08, 0x08, .u32, .ro, false, .both, .c 0, .any⟩,  -- Firmware version
  ⟨0x09, 0x09, .u8, .ro, false, .both, .c 0, .any⟩,  -- Firmware source
  ⟨0x0A, 0x0A, .u16, .konst, false, .both, .c 0x0102, .any⟩  -- Dictionary version
  ]

/-- 1001h (R72). -/
def entries1001 : List Row := [
  ⟨0x01, 0x01, .u8, .ro, true, .both, .c 2, .any⟩,  -- Mode
  ⟨0x02, 0x02, .u8, .rw, false, .both, .c 3, .oneOf [3, 4, 5, 10, 11]⟩,  -- Mode request
  ⟨0x03, 0x03, .u8, .ro, false, .both, .c 0, .any⟩,  -- Mode entry cause
  ⟨0x04, 0x04, .u16, .ro, true, .both, .c 0, .any⟩,  -- Fault code
  ⟨0x05, 0x05, .u64, .ro, true, .both, .c 0, .any⟩,  -- Tick number
  ⟨0x06, 0x06, .u64, .ro, false, .both, .c 0, .any⟩  -- Mode entry tick
  ]

/-- 1010h (R72). -/
def entries1010 : List Row := [
  ⟨0x01, 0x01, .u8, .wo, false, .both, .c 0, .nat 1 4⟩,  -- Commit command
  ⟨0x02, 0x02, .lt32, .rw, false, .both, .c 0, .any⟩,  -- Commit time
  ⟨0x03, 0x03, .u8, .ro, true, .both, .c 0x00, .any⟩,  -- Commit status
  ⟨0x04, 0x04, .u16, .ro, false, .both, .c 0, .any⟩,  -- Commit sequence
  ⟨0x05, 0x05, .u32, .ro, false, .both, .c 0, .any⟩,  -- Failing entry
  ⟨0x06, 0x06, .u8, .ro, false, .both, .c 0, .any⟩,  -- Failing profile
  ⟨0x07, 0x07, .u8, .ro, false, .both, .c 0, .any⟩,  -- Failing phase
  ⟨0x08, 0x08, .u64, .ro, false, .both, .c 0, .any⟩,  -- Applied tick
  ⟨0x09, 0x09, .u16, .ro, false, .both, .c 0, .any⟩,  -- Staged count
  ⟨0x0A, 0x0A, .u16, .ro, false, .both, .c 0, .any⟩,  -- Pending count
  ⟨0x0B, 0x0B, .u8, .ro, false, .both, .c 0x00, .any⟩  -- Earlier commit status
  ]

/-- 1020h (R66). -/
def entries1020 : List Row := [
  ⟨0x01, 0x01, .u16, .rw, false, .sender, .c 0, .any⟩,  -- Target
  ⟨0x02, 0x02, .u32, .rw, false, .sender, .c 0, .any⟩,  -- Entry
  ⟨0x03, 0x03, .u8, .rw, false, .sender, .c 0x01, .nat 1 5⟩,  -- Op
  ⟨0x04, 0x04, .u16, .rw, false, .sender, .c 0, .nat 0 64⟩,  -- Length
  ⟨0x05, 0x05, .u32, .rw, false, .sender, .c 0, .any⟩,  -- Offset
  ⟨0x06, 0x0D, .u64, .rw, false, .sender, .c 0, .any⟩,  -- Value
  ⟨0x0E, 0x0E, .bool, .wo, false, .sender, .c 0, .any⟩,  -- Go
  ⟨0x0F, 0x0F, .u8, .ro, false, .sender, .c 0x00, .any⟩  -- Status
  ]

/-- 1030h (R72). -/
def entries1030 : List Row := [
  ⟨0x01, 0x01, .u8, .ro, false, .sender, .c 0x00, .any⟩,  -- BAR0 last status (sender)
  ⟨0x02, 0x02, .u32, .ro, false, .sender, .c 0, .any⟩,  -- BAR0 last failing entry (sender)
  ⟨0x03, 0x03, .u8, .ro, false, .tile, .c 0x00, .any⟩,  -- SPI last status (tile)
  ⟨0x04, 0x04, .u32, .ro, false, .tile, .c 0, .any⟩,  -- SPI last entry (tile)
  ⟨0x05, 0x05, .u32, .ro, false, .sender, .c 0, .any⟩,  -- Tlaroek datagrams dropped (sender)
  ⟨0x06, 0x06, .u32, .ro, false, .tile, .c 0, .any⟩,  -- SPI frames discarded (tile)
  ⟨0x07, 0x07, .u8, .wo, false, .both, .c 0, .nat 1 1⟩,  -- Counter clear
  ⟨0x08, 0x08, .u32, .ro, false, .sender, .c 0, .any⟩  -- Late gateway answers (sender)
  ]

/-- 1031h (R61). -/
def entries1031 : List Row := [
  ⟨0x01, 0x01, .u16, .rws, false, .sender, .c 31260, .nat 1 65535⟩,  -- Tlaroek UDP port
  ⟨0x02, 0x02, .u32, .rws, false, .sender, .c 0xC0A80164, .any⟩,  -- IPv4 address
  ⟨0x03, 0x03, .u8, .rws, false, .sender, .c 24, .nat 8 30⟩,  -- Prefix length
  ⟨0x04, 0x04, .u32, .rws, false, .sender, .c 0x00000000, .any⟩,  -- Default gateway
  ⟨0x05, 0x05, .u64, .ro, false, .sender, .c Config.managementMac, .any⟩  -- MAC address
  ]

/-- 1040h (R72). -/
def entries1040 : List Row := [
  ⟨0x01, 0x07, .u64, .rw, false, .sender, .c 0, .any⟩  -- Wide latch (sender)
  ]

/-- 1050h (R72). -/
def entries1050 : List Row := [
  ⟨0x01, 0x01, .u32, .rw, false, .sender, .c 0, .any⟩,  -- Window entry (sender)
  ⟨0x02, 0x02, .u32, .rw, false, .sender, .c 0, .any⟩,  -- Window offset (sender)
  ⟨0x03, 0x03, .u8, .ro, false, .sender, .c 0x00, .any⟩,  -- Window status (sender)
  ⟨0x10, 0x17, .u64, .rw, false, .sender, .c 0, .any⟩  -- Window data (sender)
  ]

/-- 1100h (R451). -/
def entries1100 : List Row := [
  ⟨0x01, 0x01, .u8, .ro, true, .both, .c 0, .any⟩,  -- Reset cause
  ⟨0x02, 0x02, .u32, .ro, false, .both, .c 0, .any⟩,  -- Resets since POR
  ⟨0x03, 0x03, .u8, .wo, false, .both, .c 0, .nat 1 2⟩,  -- Reset command
  ⟨0x04, 0x04, .u16, .rw, false, .both, .c 500, .nat 10 10000⟩,  -- Watchdog timeout
  ⟨0x05, 0x05, .u8, .ro, false, .both, .c 0, .any⟩,  -- Watchdog count
  ⟨0x06, 0x06, .u8, .ro, true, .both, .c 1, .any⟩,  -- Domain state
  ⟨0x07, 0x07, .u8, .ro, false, .both, .c 0, .any⟩,  -- Clock status
  ⟨0x08, 0x08, .u32, .ro, false, .both, .c 0, .any⟩,  -- Held resets
  ⟨0x09, 0x09, .u32, .ro, false, .both, .c 0, .any⟩,  -- Clock failures
  ⟨0x0A, 0x0A, .u8, .wo, false, .both, .c 0, .nat 1 1⟩  -- Counter clear
  ]

/-- 1101h (R451). -/
def entries1101 : List Row := [
  ⟨0x01, 0x01, .u8, .ro, true, .both, .c 0, .any⟩,  -- Advent counter
  ⟨0x02, 0x02, .u8, .wo, false, .both, .c 0, .nat 1 1⟩,  -- Advent clear
  ⟨0x03, 0x03, .u8, .konst, false, .both, .c 4, .any⟩,  -- Advent limit
  ⟨0x04, 0x04, .u8, .ro, false, .both, .c 0, .any⟩  -- Start state
  ]

/-- 1102h (R451). -/
def entries1102 : List Row := [
  ⟨0x01, 0x01, .u16, .rw, false, .sender, .c 0, .any⟩,  -- Link reset target (sender)
  ⟨0x02, 0x02, .u8, .rw, false, .sender, .c 0x02, .nat 1 2⟩,  -- Link reset kind (sender)
  ⟨0x03, 0x03, .bool, .wo, false, .sender, .c 0, .any⟩,  -- Link reset go (sender)
  ⟨0x04, 0x04, .u8, .ro, false, .sender, .c 0x00, .any⟩  -- Link reset status (sender)
  ]

/-- 1103h (R451). -/
def entries1103 : List Row := [
  ⟨0x01, 0x01, .u8, .rw, false, .both, .c 0, .blockCode⟩,  -- Block select
  ⟨0x02, 0x02, .u8, .wo, false, .both, .c 0, .nat 1 1⟩,  -- Block reset
  ⟨0x03, 0x03, .u16, .rw, false, .both, .c 10, .nat 1 1000⟩,  -- Idle timeout
  ⟨0x04, 0x04, .u8, .ro, false, .both, .c 0, .any⟩,  -- Block reset state
  ⟨0x05, 0x05, .u32, .ro, false, .both, .c 0, .any⟩,  -- Forced resets
  ⟨0x06, 0x06, .u8, .ro, false, .both, .c 0xFF, .any⟩  -- Last forced block
  ]

/-- 1110h (R451). -/
def entries1110 : List Row := [
  ⟨0x01, 0x01, .bool, .rw, false, .tile, .c 0x01, .any⟩,  -- Automatic hold (tile)
  ⟨0x02, 0x02, .u16, .rw, false, .tile, .c 60, .any⟩,  -- Hold limit (tile)
  ⟨0x03, 0x03, .u8, .ro, false, .both, .c 0x00, .any⟩,  -- Boot commit status
  ⟨0x04, 0x04, .u32, .ro, false, .both, .c 0, .any⟩  -- Boot commit failing entry
  ]

/-- 1200h (R424). -/
def entries1200 : List Row := [
  ⟨0x01, 0x01, .i16, .ro, true, .both, .c 0, .any⟩,  -- Junction temperature
  ⟨0x02, 0x02, .i16, .ro, false, .both, .c 0, .any⟩,  -- Level temperature
  ⟨0x03, 0x03, .i16, .ro, false, .both, .c 0, .any⟩,  -- Shutdown temperature
  ⟨0x04, 0x04, .u8, .ro, true, .both, .c 0x00, .any⟩,  -- Thermal state
  ⟨0x05, 0x05, .u64, .konst, false, .both, .c 0x07D00730069005F0, .any⟩  -- Levels
  ]

/-- 1201h (R424). -/
def entries1201 : List Row := [
  ⟨0x01, 0x0C, .i16, .ro, false, .both, .c 0, .any⟩  -- Sensors T0–T11
  ]

/-- 1202h (R424). -/
def entries1202 : List Row := [
  ⟨0x01, 0x04, .i16, .ro, false, .both, .c 0, .any⟩  -- RO0–RO3 estimates
  ]

/-- 1203h (R424). -/
def entries1203 : List Row := [
  ⟨0x01, 0x01, .u16, .ro, true, .both, .c 0x0000, .any⟩,  -- Broken sensors
  ⟨0x02, 0x02, .u32, .ro, false, .both, .c 0, .any⟩  -- Break causes
  ]

/-- 1204h (R424). -/
def entries1204 : List Row := [
  ⟨0x01, 0x01, .u64, .ro, false, .both, .c 0, .any⟩,  -- Thermal counts
  ⟨0x02, 0x02, .u8, .wo, false, .both, .c 0, .nat 1 1⟩  -- Counter clear
  ]

/-- 1205h (R424). -/
def entries1205 : List Row := [
  ⟨0x01, 0x01, .u8, .ro, false, .both, .c 0xFF, .any⟩  -- Last trip source
  ]

/-- 1210h (R424). -/
def entries1210 : List Row := [
  ⟨0x01, 0x01, .u8, .rw, false, .both, .c 0, .nat 0 1⟩,  -- Throttle test
  ⟨0x02, 0x02, .u8, .ro, false, .both, .c 4, .any⟩  -- Return mode
  ]

/-- 1220h (R424). -/
def entries1220 : List Row := [
  ⟨0x01, 0x01, .domain, .rw, false, .both, .c 0, .any⟩,  -- RC trim table
  ⟨0x02, 0x02, .domain, .rw, false, .both, .c 0, .any⟩,  -- Bandgap curvature table
  ⟨0x03, 0x03, .domain, .rw, false, .both, .c 0, .any⟩,  -- XCLK table
  ⟨0x04, 0x04, .u64, .ro, false, .both, .c 0, .any⟩  -- Compensation in use
  ]

/-- 1300h (R202). -/
def entries1300 : List Row := [
  ⟨0x01, 0x01, .time96, .ro, false, .both, .c 0, .any⟩,  -- Local time
  ⟨0x02, 0x02, .lt32, .ro, true, .both, .c 0, .any⟩,  -- Local LT32
  ⟨0x03, 0x03, .u8, .ro, true, .both, .c 0, .any⟩,  -- Time state
  ⟨0x04, 0x04, .i32, .ro, true, .both, .c 0, .any⟩,  -- Phase error
  ⟨0x05, 0x05, .fix16, .ro, false, .both, .c 0, .any⟩,  -- Rate offset
  ⟨0x06, 0x06, .u64, .ro, false, .both, .c 0, .any⟩,  -- Anchor tick
  ⟨0x07, 0x07, .time96, .ro, false, .both, .c 0, .any⟩,  -- Anchor time
  ⟨0x08, 0x08, .i32, .ro, false, .both, .c 0, .any⟩,  -- Grid offset
  ⟨0x09, 0x09, .u8, .ro, false, .both, .c 0, .any⟩,  -- Epoch sequence
  ⟨0x0A, 0x0A, .u16, .ro, false, .both, .c 0, .any⟩,  -- Steps
  ⟨0x0B, 0x0B, .i64, .ro, false, .both, .c 0, .any⟩  -- Grid tick offset
  ]

/-- 1301h (R202). -/
def entries1301 : List Row := [
  ⟨0x01, 0x01, .u32, .ro, false, .both, .c 0, .any⟩,  -- Late entries
  ⟨0x02, 0x02, .u16, .ro, false, .both, .c 0, .any⟩  -- Largest entry delay
  ]

/-- 1302h (R202). -/
def entries1302 : List Row := [
  ⟨0x01, 0x01, .u16, .rw, false, .both, .c 1000, .nat 100 10000⟩,  -- Beacon interval
  ⟨0x02, 0x02, .u32, .ro, false, .both, .c 0, .any⟩,  -- Beacons sent
  ⟨0x03, 0x03, .u32, .ro, false, .both, .c 0, .any⟩,  -- Beacons accepted
  ⟨0x04, 0x04, .u32, .ro, false, .both, .c 0, .any⟩,  -- Beacons rejected
  ⟨0x05, 0x05, .u16, .rw, false, .both, .c 1000, .nat 100 10000⟩,  -- Probe interval
  ⟨0x06, 0x06, .u8, .rw, false, .both, .c 3, .nat 0 8⟩,  -- Trim gain
  ⟨0x07, 0x07, .u16, .rw, false, .both, .c 64, .nat 1 1024⟩,  -- Trim limit
  ⟨0x08, 0x08, .u16, .rw, false, .both, .c 20, .nat 1 10000⟩,  -- Time alarm level
  ⟨0x09, 0x09, .u32, .ro, false, .both, .c 0, .any⟩,  -- Time alarms
  ⟨0x0A, 0x0A, .u32, .ro, false, .tile, .c 0, .any⟩,  -- Early cells (tile)
  ⟨0x0B, 0x0B, .u8, .wo, false, .both, .c 0, .nat 1 1⟩  -- Counter clear
  ]

/-- 1310h (R202). -/
def entries1310 : List Row := [
  ⟨0x01, 0x01, .u32, .ro, false, .both, .c 0, .any⟩,  -- Link delay
  ⟨0x02, 0x02, .u32, .ro, false, .both, .c 0, .any⟩,  -- Residence
  ⟨0x03, 0x03, .u32, .ro, false, .both, .c 0xFFFFFFFF, .any⟩,  -- Path delay
  ⟨0x04, 0x04, .i32, .rw, false, .both, .c 0, .int (-2000) 2000⟩,  -- Asymmetry
  ⟨0x05, 0x05, .u32, .ro, false, .both, .c 0, .any⟩,  -- Probe results
  ⟨0x06, 0x06, .u32, .ro, false, .both, .c 0, .any⟩,  -- Probe outliers
  ⟨0x07, 0x07, .u8, .ro, false, .both, .c 0, .any⟩  -- Filter fill
  ]

/-- 1320h (R202). -/
def entries1320 : List Row := [
  ⟨0x01, 0x01, .u16, .rws, false, .sender, .c 0xFF01, .sourceList⟩,  -- Source priority (sender)
  ⟨0x02, 0x02, .u8, .ro, true, .sender, .c 0, .any⟩,  -- Active source (sender)
  ⟨0x03, 0x03, .i64, .ro, false, .sender, .c 0, .any⟩,  -- Source offset (sender)
  ⟨0x04, 0x04, .u32, .rw, false, .sender, .c 2000, .nat 100 1000000⟩,  -- Jump threshold (sender)
  ⟨0x05, 0x05, .fix16, .rw, false, .sender, .c 1310720, .int 6554 13107200⟩,  -- Correction limit (sender)
  ⟨0x06, 0x06, .fix16, .rw, false, .sender, .c 131072, .int 656 3276800⟩,  -- Slew limit (sender)
  ⟨0x07, 0x07, .u32, .ro, false, .sender, .c 0, .any⟩,  -- Holdover entries (sender)
  ⟨0x08, 0x08, .u32, .ro, false, .sender, .c 0, .any⟩,  -- Jumps (sender)
  ⟨0x09, 0x09, .u64, .rw, false, .sender, .c 0, .any⟩,  -- Seconds preset (sender)
  ⟨0x0A, 0x0A, .u8, .rw, false, .sender, .c 0, .nat 0 1⟩,  -- 1PPS edge (sender)
  ⟨0x0B, 0x0B, .u8, .rw, false, .sender, .c 0, .nat 0 3⟩,  -- VREF format (sender)
  ⟨0x0C, 0x0C, .i32, .rw, false, .sender, .c 0, .any⟩,  -- VREF offset (sender)
  ⟨0x0D, 0x0D, .u16, .rw, false, .sender, .c 10, .nat 0 3600⟩  -- First-lock wait (sender)
  ]

/-- 1330h (R202). -/
def entries1330 : List Row := [
  ⟨0x01, 0x01, .u8, .wo, false, .sender, .c 0, .nat 1 3⟩,  -- Re-epoch command (sender)
  ⟨0x02, 0x02, .u64, .rw, false, .sender, .c 0, .any⟩,  -- Named tick (sender)
  ⟨0x03, 0x03, .u8, .ro, true, .both, .c 0x00, .any⟩,  -- Re-epoch status
  ⟨0x04, 0x04, .i64, .ro, false, .both, .c 0, .any⟩,  -- Delta
  ⟨0x05, 0x05, .u16, .ro, false, .both, .c 0, .any⟩,  -- Delta fraction
  ⟨0x06, 0x06, .u64, .ro, false, .both, .c 0, .any⟩  -- Re-epoch tick
  ]

/-- 1400h (R497). -/
def entries1400 : List Row := [
  ⟨0x01, 0x01, .bool, .rw, false, .both, .c 0x01, .any⟩,  -- Enable
  ⟨0x02, 0x02, .u16, .rw, false, .both, .c 960, .nat 1 4095⟩,  -- Page interval
  ⟨0x03, 0x03, .bool, .rw, false, .both, .c 0x00, .any⟩,  -- Freeze
  ⟨0x04, 0x04, .u8, .rw, false, .both, .c 0xFF, .any⟩,  -- Histogram enable
  ⟨0x05, 0x05, .u8, .wo, false, .both, .c 0, .nat 1 3⟩,  -- Command
  ⟨0x06, 0x06, .u8, .ro, true, .both, .c 0, .any⟩,  -- State
  ⟨0x07, 0x07, .u16, .ro, false, .both, .c 0, .any⟩,  -- Pages closed
  ⟨0x08, 0x08, .u32, .ro, false, .both, .c 0, .any⟩,  -- Lost count
  ⟨0x09, 0x09, .u64, .ro, false, .both, .c 0, .any⟩,  -- Open page tick
  ⟨0x0A, 0x0A, .u32, .rw, false, .both, .c 0, .any⟩,  -- Persistence interval
  ⟨0x0B, 0x0B, .u32, .ro, false, .both, .c 0, .any⟩,  -- Pages persisted
  ⟨0x0C, 0x0C, .u8, .ro, false, .both, .c 0, .any⟩,  -- Persistence state
  ⟨0x0D, 0x0D, .u8, .wo, false, .both, .c 0, .nat 1 1⟩  -- Counter clear
  ]

/-- 1401h (R497). -/
def entries1401 : List Row := [
  ⟨0x01, 0x01, .u32, .rw, false, .both, .c 0, .window64⟩,  -- Window offset
  ⟨0x02, 0x09, .u64, .ro, false, .both, .c 0, .any⟩  -- Window data
  ]

/-- 1402h (R497). -/
def entries1402 : List Row := [
  ⟨0x01, 0x01, .domain, .ro, false, .both, .c 0, .any⟩  -- Persisted log
  ]

/-- 1500h (R480). -/
def entries1500 : List Row := [
  ⟨0x01, 0x01, .u8, .wo, false, .both, .c 0, .nat 1 3⟩,  -- Session command
  ⟨0x02, 0x02, .u8, .ro, true, .both, .c 0, .any⟩,  -- Session state
  ⟨0x03, 0x03, .u16, .ro, false, .both, .c 0xF000, .any⟩,  -- Session holder
  ⟨0x04, 0x04, .u32, .rw, false, .both, .c 0, .nat 128 25165824⟩,  -- Declared length
  ⟨0x05, 0x05, .u8, .ro, false, .both, .c 0x00, .any⟩,  -- Session result
  ⟨0x06, 0x06, .u8, .ro, true, .both, .c 0, .any⟩,  -- Delta state
  ⟨0x07, 0x07, .u8, .ro, false, .both, .c 0, .any⟩,  -- Delta tries
  ⟨0x08, 0x08, .domain, .rw, false, .both, .c 0, .any⟩,  -- Delta area
  ⟨0x09, 0x09, .u8, .ro, false, .both, .c 0, .any⟩,  -- Rejection reason
  ⟨0x0A, 0x0A, .u32, .ro, false, .both, .c 0, .any⟩,  -- Delta target version
  ⟨0x0B, 0x0B, .u8, .ro, false, .both, .c 0, .any⟩,  -- Active base
  ⟨0x0C, 0x0C, .u32, .ro, false, .both, .c 0, .any⟩,  -- Base A version
  ⟨0x0D, 0x0D, .u32, .ro, false, .both, .c 0, .any⟩,  -- Base B version
  ⟨0x0E, 0x0E, .u8, .ro, false, .both, .c 0, .any⟩,  -- Consolidation state
  ⟨0x0F, 0x0F, .u8, .ro, true, .both, .c 0, .any⟩,  -- Settings state
  ⟨0x10, 0x10, .u8, .wo, false, .both, .c 0, .nat 1 2⟩,  -- Settings command
  ⟨0x11, 0x11, .u8, .ro, false, .both, .c 0x00, .any⟩,  -- Settings store status
  ⟨0x12, 0x12, .u8, .ro, false, .both, .c 0, .any⟩,  -- Confirmation progress
  ⟨0x13, 0x13, .u64, .ro, false, .both, .c 0, .any⟩,  -- Update counts
  ⟨0x14, 0x14, .u8, .wo, false, .both, .c 0, .nat 1 1⟩  -- Counter clear
  ]

/-- 1520h (R481). -/
def entries1520 : List Row := [
  ⟨0x01, 0x01, .u16, .rw, false, .sender, .c 0xFFFF, .any⟩,  -- Target
  ⟨0x02, 0x02, .u64, .rw, false, .sender, .c 0, .hostAddress⟩,  -- Delta address
  ⟨0x03, 0x03, .u32, .rw, false, .sender, .c 0, .nat 128 25165824⟩,  -- Delta length
  ⟨0x04, 0x04, .u16, .rw, false, .sender, .c 192, .nat 192 255⟩,  -- Stream
  ⟨0x05, 0x05, .bool, .wo, false, .sender, .c 0, .any⟩,  -- Go
  ⟨0x06, 0x06, .u8, .ro, false, .sender, .c 0x00, .any⟩,  -- Status
  ⟨0x07, 0x07, .u32, .rw, false, .sender, .c 131072, .nat 16384 1048576⟩,  -- Rate
  ⟨0x08, 0x08, .u16, .ro, false, .sender, .c 0, .any⟩,  -- Tiles accepted
  ⟨0x09, 0x09, .u16, .ro, false, .sender, .c 0, .any⟩,  -- Tiles refused
  ⟨0x0A, 0x0A, .domain, .ro, false, .sender, .c 0, .any⟩  -- Refused mask
  ]

/-- 1600h (R426). -/
def entries1600 : List Row := [
  ⟨0x01, 0x01, .bool, .rws, false, .both, .c 0x01, .any⟩,  -- Equinox enable
  ⟨0x02, 0x02, .u16, .rw, false, .both, .c 48, .nat 8 480⟩,  -- Temperature step
  ⟨0x03, 0x03, .u8, .wo, false, .both, .c 0, .nat 1 5⟩,  -- Equinox command
  ⟨0x04, 0x04, .u8, .rw, false, .both, .c 0, .item⟩,  -- Command item
  ⟨0x05, 0x05, .u32, .rw, false, .both, .c 3600, .any⟩,  -- Store interval
  ⟨0x06, 0x06, .u8, .ro, true, .both, .c 0, .any⟩,  -- Equinox state
  ⟨0x07, 0x07, .u8, .ro, false, .both, .c 0xFF, .any⟩,  -- Current item
  ⟨0x08, 0x08, .u64, .ro, true, .tile, .c 0, .any⟩,  -- Suspect channels (tile)
  ⟨0x09, 0x09, .u8, .ro, false, .both, .c 0x00, .any⟩,  -- Set state
  ⟨0x0A, 0x0A, .u64, .ro, false, .both, .c 0, .any⟩,  -- Equinox counts
  ⟨0x0B, 0x0B, .u64, .rw1c, false, .both, .c 0, .any⟩,  -- Last result
  ⟨0x0D, 0x0D, .u8, .wo, false, .both, .c 0, .nat 1 1⟩  -- Counter clear
  ]

/-- 1610h (R426). -/
def entries1610 : List Row := [
  ⟨0x01, 0x01, .domain, .ro, false, .both, .c 0, .any⟩  -- Calibration set
  ]

/-- 1620h (R426). -/
def entries1620 : List Row := [
  ⟨0x01, 0x01, .u8, .ro, true, .both, .c 0x00, .any⟩,  -- Tokens held
  ⟨0x02, 0x02, .u64, .ro, false, .both, .c 0xFFFFFFFFFFFFFFFF, .any⟩,  -- Token holders
  ⟨0x03, 0x03, .u8, .ro, false, .both, .c 0x00, .any⟩,  -- Queued activities
  ⟨0x04, 0x04, .u32, .ro, false, .both, .c 0, .any⟩  -- Deferrals
  ]

/-- 1640h (R95). -/
def entries1640 : List Row := [
  ⟨0x01, 0x0B, .u16, .rws, false, .master, .tab byteShares, .any⟩  -- Byte share
  ]

/-- 1641h (R95). -/
def entries1641 : List Row := [
  ⟨0x01, 0x0B, .u16, .rws, false, .master, .tab cycleShares, .any⟩  -- Cycle share
  ]

/-- 1642h (R95). -/
def entries1642 : List Row := [
  ⟨0x01, 0x0B, .u64, .ro, false, .master, .c 0, .any⟩  -- Budget
  ]

/-- 1643h (R95). -/
def entries1643 : List Row := [
  ⟨0x01, 0x0B, .u32, .ro, false, .master, .c 0, .any⟩  -- Overrun count
  ]

/-- 1644h (R95). -/
def entries1644 : List Row := [
  ⟨0x01, 0x01, .u16, .ro, true, .both, .c 0x0000, .any⟩,  -- Frozen mask
  ⟨0x02, 0x02, .u16, .wo, false, .both, .c 0, .any⟩,  -- Release
  ⟨0x03, 0x03, .u16, .rw, false, .both, .c 0x07FF, .any⟩,  -- Auto-release mask
  ⟨0x04, 0x04, .u8, .rw, false, .both, .c 3, .nat 1 255⟩,  -- Auto-release limit
  ⟨0x05, 0x05, .u16, .ro, true, .both, .c 0x0000, .any⟩,  -- Held mask
  ⟨0x06, 0x06, .u8, .rws, false, .both, .c 80, .nat 50 90⟩,  -- Planning fraction
  ⟨0x07, 0x07, .u8, .ro, false, .both, .c 0, .any⟩,  -- Tightest region
  ⟨0x08, 0x08, .u64, .ro, false, .both, .c 0, .any⟩,  -- C0–C3 demand
  ⟨0x09, 0x09, .u64, .ro, false, .both, .c 0, .any⟩,  -- Capacity
  ⟨0x0A, 0x0A, .u32, .ro, false, .sender, .c 0, .any⟩,  -- Surface writes discarded (sender)
  ⟨0x0B, 0x0B, .u32, .ro, false, .tile, .c 0, .any⟩,  -- Tile underruns (tile)
  ⟨0x0C, 0x0C, .u32, .ro, false, .sender, .c 0, .any⟩,  -- Launch underruns (sender)
  ⟨0x0D, 0x0D, .u8, .wo, false, .both, .c 0, .nat 1 1⟩  -- Counter clear
  ]

/-- 2000h (R137). -/
def entries2000 : List Row := [
  ⟨0x01, 0x01, .bool, .rws, false, .both, .c 0x01, .any⟩,  -- Port enable
  ⟨0x02, 0x02, .u8, .ro, true, .both, .c 0, .any⟩,  -- Link state
  ⟨0x03, 0x03, .u32, .ro, false, .both, .c 0x00FFFF00, .any⟩,  -- Far end
  ⟨0x04, 0x04, .u8, .wo, false, .both, .c 0, .nat 1 2⟩,  -- Port command
  ⟨0x05, 0x05, .u16, .ro, false, .both, .c 0x0000, .any⟩,  -- Lane map
  ⟨0x06, 0x06, .u32, .rw, false, .both, .c 0x80043408, .txEq⟩,  -- TX equalization
  ⟨0x07, 0x07, .u32, .ro, false, .both, .c 0, .any⟩,  -- Lane skew
  ⟨0x08, 0x0B, .u32, .ro, false, .both, .c 0, .any⟩,  -- Corrected bits, lanes 0–3
  ⟨0x0C, 0x0C, .u32, .ro, false, .both, .c 0, .any⟩,  -- Uncorrectable blocks
  ⟨0x0D, 0x0D, .u32, .ro, false, .both, .c 0, .any⟩,  -- Poisoned blocks received
  ⟨0x0E, 0x0E, .u32, .ro, false, .both, .c 0, .any⟩,  -- Idle bit errors
  ⟨0x0F, 0x0F, .u64, .ro, false, .both, .c 0, .any⟩,  -- Eye margins
  ⟨0x10, 0x10, .u32, .ro, false, .both, .c 0, .any⟩,  -- Link events
  ⟨0x11, 0x11, .u8, .rw, false, .both, .c 12, .nat 1 255⟩,  -- Margin alarm height
  ⟨0x12, 0x12, .u8, .wo, false, .both, .c 0, .nat 1 1⟩  -- Counter clear
  ]

/-- 2100h (R167). -/
def entries2100 : List Row := [
  ⟨0x01, 0x01, .u8, .ro, true, .both, .pers 0x10 0, .any⟩,  -- Role
  ⟨0x02, 0x02, .u16, .ro, true, .both, .c 0xFFFF, .any⟩,  -- Timing master
  ⟨0x03, 0x03, .u8, .ro, true, .both, .pers 0 0xFF, .any⟩,  -- Clock-upstream port
  ⟨0x04, 0x04, .u8, .wo, false, .sender, .c 0, .nat 1 2⟩,  -- Mastership command (sender)
  ⟨0x05, 0x05, .bool, .rw, false, .sender, .c 0x01, .any⟩,  -- Auto-return (sender)
  ⟨0x06, 0x06, .u16, .ro, false, .sender, .c 0, .any⟩,  -- Clean ticks (sender)
  ⟨0x07, 0x07, .u8, .rw, false, .sender, .c 16, .nat 1 255⟩,  -- Resume ticks (sender)
  ⟨0x08, 0x08, .u32, .ro, false, .sender, .c 0, .any⟩  -- Pair events (sender)
  ]

/-- 2101h (R167). -/
def entries2101 : List Row := [
  ⟨0x01, 0x01, .u32, .ro, false, .tile, .c 0, .any⟩,  -- Duplicates discarded (tile)
  ⟨0x02, 0x02, .u32, .ro, false, .tile, .c 0, .any⟩,  -- Digests compared (tile)
  ⟨0x03, 0x03, .u32, .ro, false, .tile, .c 0, .any⟩,  -- Divergences (tile)
  ⟨0x04, 0x04, .u32, .ro, false, .tile, .c 0, .any⟩,  -- Too-old discards (tile)
  ⟨0x05, 0x05, .u32, .ro, false, .tile, .c 0, .any⟩,  -- Window restarts (tile)
  ⟨0x06, 0x06, .u32, .ro, false, .tile, .c 0, .any⟩,  -- Dual-master ticks (tile)
  ⟨0x07, 0x07, .u32, .ro, false, .tile, .c 0, .any⟩,  -- Uncompared duplicates (tile)
  ⟨0x08, 0x08, .u64, .rw1c, false, .tile, .c 0, .any⟩,  -- First divergence (tile)
  ⟨0x09, 0x09, .u8, .wo, false, .tile, .c 0, .nat 1 1⟩  -- Counter clear (tile)
  ]

/-- 2102h (R167). -/
def entries2102 : List Row := [
  ⟨0x02, 0x02, .u16, .ro, true, .sender, .c 0x0000, .any⟩,  -- Yield mask (sender)
  ⟨0x03, 0x03, .u32, .ro, false, .sender, .c 0, .any⟩,  -- Digest mismatches (sender)
  ⟨0x04, 0x04, .u32, .ro, false, .sender, .c 0, .any⟩,  -- Digests missing (sender)
  ⟨0x05, 0x05, .u16, .ro, true, .sender, .c 0x0000, .any⟩,  -- Self-check (sender)
  ⟨0x06, 0x06, .u32, .ro, false, .sender, .c 0, .any⟩,  -- Configuration digest (sender)
  ⟨0x07, 0x07, .u32, .ro, false, .sender, .c 0, .any⟩,  -- Peer configuration digest (sender)
  ⟨0x0B, 0x0B, .u8, .wo, false, .sender, .c 0, .nat 1 1⟩  -- Counter clear (sender)
  ]

/-- 2110h (R167). -/
def entries2110 : List Row := [
  ⟨0x01, 0x01, .domain, .ro, false, .sender, .c 0, .any⟩,  -- Harvest table (sender)
  ⟨0x02, 0x02, .u16, .ro, true, .sender, .c 0, .any⟩  -- Silent devices (sender)
  ]

/-- 2111h (R167). -/
def entries2111 : List Row := [
  ⟨0x01, 0x20, .u16, .ro, false, .sender, .c 0x0000, .any⟩  -- Silent mask (sender)
  ]

/-- 2200h (R241). -/
def entries2200 : List Row := [
  ⟨0x01, 0x01, .u32, .rw, false, .sender, .c 0, .nat 0 262143⟩,  -- Queue select (sender)
  ⟨0x02, 0x02, .u64, .rw, false, .sender, .c 0, .any⟩,  -- Ring base (sender)
  ⟨0x03, 0x03, .u32, .rw, false, .sender, .c 16, .ringSize⟩,  -- Ring size (sender)
  ⟨0x04, 0x04, .u32, .ro, false, .sender, .c 0, .any⟩,  -- Head (sender)
  ⟨0x05, 0x05, .u32, .rw, false, .sender, .c 0, .any⟩,  -- Tail (sender)
  ⟨0x06, 0x06, .u32, .ro, false, .sender, .c 0, .any⟩,  -- Next SEQ (sender)
  ⟨0x07, 0x07, .u8, .ro, false, .sender, .c 0, .any⟩,  -- Queue state (sender)
  ⟨0x08, 0x08, .u32, .ro, false, .sender, .c 0, .any⟩,  -- Cells sent (sender)
  ⟨0x09, 0x09, .u8, .wo, false, .sender, .c 0, .nat 1 3⟩  -- Queue command (sender)
  ]

/-- 2201h (R241). -/
def entries2201 : List Row := [
  ⟨0x01, 0x01, .u32, .ro, false, .sender, .c 0, .any⟩,  -- Active queues (sender)
  ⟨0x02, 0x02, .u32, .ro, false, .sender, .c 0, .any⟩,  -- Bad descriptors (sender)
  ⟨0x03, 0x03, .u8, .wo, false, .sender, .c 0, .nat 1 1⟩  -- Counter clear (sender)
  ]

/-- 2202h (R311). -/
def entries2202 : List Row := [
  ⟨0x01, 0x01, .u16, .rw, false, .sender, .c 0, .any⟩,  -- Target
  ⟨0x02, 0x02, .u16, .rw, false, .sender, .c 64, .nat 64 127⟩,  -- Stream
  ⟨0x03, 0x03, .u64, .rw, false, .sender, .c 0, .hostAddress⟩,  -- Message address
  ⟨0x04, 0x04, .u32, .rw, false, .sender, .c 0, .nat 32 16777216⟩,  -- Message length
  ⟨0x05, 0x05, .bool, .wo, false, .sender, .c 0, .any⟩,  -- Go
  ⟨0x06, 0x06, .u8, .ro, false, .sender, .c 0x00, .any⟩  -- Status
  ]

/-- 2210h (R241). -/
def entries2210 : List Row := [
  ⟨0x01, 0x01, .u16, .rw, false, .tile, .c 0, .nat 0 511⟩,  -- Receive queue select (tile)
  ⟨0x02, 0x02, .u32, .ro, false, .tile, .c 0, .any⟩,  -- Cells taken (tile)
  ⟨0x03, 0x03, .u32, .ro, false, .tile, .c 0, .any⟩,  -- Bytes waiting (tile)
  ⟨0x04, 0x04, .u32, .ro, false, .tile, .c 0, .any⟩,  -- Messages dropped (tile)
  ⟨0x05, 0x05, .domain, .ro, false, .tile, .c 0, .any⟩,  -- Host stream data (tile)
  ⟨0x06, 0x06, .u8, .wo, false, .tile, .c 0, .nat 1 1⟩  -- Counter clear (tile)
  ]

/-- 3000h (R393). -/
def entries3000 : List Row := [
  ⟨0x01, 0x01, .u32, .ro, false, .both, .c 0, .any⟩,  -- Population
  ⟨0x02, 0x02, .u16, .rw, false, .both, .pers 160 200, .nat 100 200⟩,  -- Pin rate
  ⟨0x03, 0x03, .u8, .ro, true, .both, .c 0, .any⟩,  -- Controller state
  ⟨0x04, 0x04, .u64, .ro, false, .both, .c 0, .any⟩,  -- Payload size
  ⟨0x05, 0x05, .u64, .ro, false, .both, .c 0, .any⟩,  -- Halved refresh
  ⟨0x06, 0x06, .u32, .ro, false, .sender, .c 0, .any⟩  -- Unmapped accesses (sender)
  ]

/-- 3001h (R393). -/
def entries3001 : List Row := [
  ⟨0x01, 0x01, .u8, .wo, false, .both, .c 0, .nat 1 5⟩  -- Memory command
  ]

/-- 3002h (R393). -/
def entries3002 : List Row := [
  ⟨0x01, 0x01, .u64, .ro, true, .both, .c 0, .any⟩,  -- Freeze record
  ⟨0x02, 0x02, .u16, .ro, false, .both, .c 0, .any⟩,  -- Failing syndrome
  ⟨0x03, 0x03, .u64, .ro, false, .both, .c 0, .any⟩  -- Freeze tick
  ]

/-- 3010h (R395). -/
def entries3010 : List Row := [
  ⟨0x01, 0x01, .bool, .rws, false, .both, .first 1, .any⟩,  -- Enable
  ⟨0x02, 0x02, .u64, .rws, false, .both, .c 0, .any⟩,  -- Base
  ⟨0x03, 0x03, .u64, .rws, false, .both, .c 0, .any⟩,  -- Size
  ⟨0x04, 0x04, .u64, .rws, false, .both, .c 0, .any⟩,  -- Channel mask
  ⟨0x05, 0x05, .u8, .rws, false, .both, .c 12, .nat 8 16⟩,  -- Grain
  ⟨0x06, 0x06, .u64, .rws, false, .both, .c 0, .any⟩,  -- Channel offset
  ⟨0x07, 0x07, .u64, .ro, false, .both, .c 0, .any⟩  -- Capacity
  ]

/-- 3020h (R393). -/
def entries3020 : List Row := [
  ⟨0x01, 0x01, .u32, .rws, false, .tile, .c 0, .zeros 0x88888888⟩  -- Placement (tile)
  ]

/-- 3030h (R396). -/
def entries3030 : List Row := [
  ⟨0x01, 0x01, .u32, .ro, true, .both, .c 0, .any⟩,  -- Channel status
  ⟨0x02, 0x02, .u64, .ro, false, .both, .c 0, .any⟩,  -- Code counts
  ⟨0x03, 0x03, .u64, .ro, false, .both, .c 0, .any⟩,  -- Link counts
  ⟨0x04, 0x04, .u32, .ro, false, .both, .c 0, .any⟩,  -- Hammer counts
  ⟨0x05, 0x05, .u64, .ro, false, .both, .c 0, .any⟩,  -- Last training tick
  ⟨0x06, 0x06, .i16, .ro, false, .both, .c 0, .any⟩,  -- Training temperature
  ⟨0x07, 0x07, .u8, .wo, false, .both, .c 0, .nat 1 1⟩  -- Counter clear
  ]

/-- 3060h (R393). -/
def entries3060 : List Row := [
  ⟨0x01, 0x01, .domain, .ro, false, .both, .c 0, .any⟩  -- Command history
  ]

/-- 3070h (R393). -/
def entries3070 : List Row := [
  ⟨0x01, 0x01, .u16, .rws, false, .both, .c 4096, .nat 1024 32768⟩,  -- Hammer threshold
  ⟨0x02, 0x02, .u32, .rws, false, .both, .c 12500, .nat 1000 1000000⟩,  -- Throttle spacing
  ⟨0x03, 0x03, .u32, .ro, false, .both, .c 0, .any⟩,  -- Least floor spacing
  ⟨0x04, 0x04, .i16, .rw, false, .both, .c 1360, .any⟩  -- Refresh halving level
  ]

/-- 3080h (R393). -/
def entries3080 : List Row := [
  ⟨0x01, 0x01, .u32, .rw, false, .both, .c 3600, .any⟩,  -- Scrub period
  ⟨0x02, 0x02, .u32, .ro, false, .both, .c 0, .any⟩,  -- Scrub position
  ⟨0x03, 0x03, .u32, .rw, false, .both, .c 600, .any⟩,  -- Retrain interval
  ⟨0x04, 0x04, .u16, .rw, false, .both, .c 128, .nat 16 640⟩,  -- Retrain temperature step
  ⟨0x05, 0x05, .u16, .rw, false, .both, .c 16, .nat 1 65535⟩  -- Retrain retry level
  ]

/-- 4000h (R325). -/
def entries4000 : List Row := [
  ⟨0x01, 0x01, .bool, .rws, false, .both, .c 0x00, .any⟩,  -- Enable
  ⟨0x02, 0x02, .u64, .rws, false, .both, .pers 0 0x07800058002C0094, .any⟩,  -- Horizontal timing
  ⟨0x03, 0x03, .u64, .rws, false, .both, .pers 0 0x0438000400050024, .any⟩,  -- Vertical timing
  ⟨0x04, 0x04, .u32, .rws, false, .tile, .c 0x00000000, .any⟩,  -- Lane mask (tile)
  ⟨0x05, 0x05, .u32, .rws, false, .sender, .c 148500, .any⟩,  -- Pixel clock (sender)
  ⟨0x06, 0x06, .u8, .rws, false, .sender, .c 0x03, .any⟩,  -- Sync polarity (sender)
  ⟨0x07, 0x07, .u16, .rws, false, .both, .c 0, .any⟩,  -- Line match
  ⟨0x08, 0x08, .u8, .rw, false, .both, .c 0x08, .any⟩,  -- Event record mask
  ⟨0x09, 0x09, .u8, .rw1c, true, .both, .c 0x00, .any⟩,  -- Event status
  ⟨0x0A, 0x0A, .u32, .ro, false, .both, .c 0, .any⟩,  -- Frames
  ⟨0x0B, 0x0B, .u16, .ro, true, .both, .c 0, .any⟩,  -- Current line
  ⟨0x0C, 0x0C, .u16, .ro, false, .tile, .c 0, .any⟩,  -- On-time limit (tile)
  ⟨0x0D, 0x0D, .u32, .ro, false, .tile, .c 0, .any⟩,  -- Blanking (tile)
  ⟨0x0E, 0x0E, .u32, .ro, false, .tile, .c 0, .any⟩,  -- Shift margin (tile)
  ⟨0x0F, 0x0F, .u64, .ro, false, .both, .c 0, .any⟩,  -- Event counts
  ⟨0x10, 0x10, .u32, .rw1c, false, .tile, .c 0x00000000, .any⟩,  -- Underrun lanes (tile)
  ⟨0x11, 0x11, .u64, .ro, false, .tile, .c 0, .any⟩,  -- Last underrun (tile)
  ⟨0x12, 0x12, .u32, .ro, false, .tile, .c 0, .any⟩,  -- Clipped lamps (tile)
  ⟨0x13, 0x13, .u8, .wo, false, .both, .c 0, .nat 1 1⟩  -- Counter clear
  ]

/-- 4008h: the profile B copies of 4000h + r (R325). -/
def entries4008 : List Row := [
  ⟨0x01, 0x01, .bool, .rws, false, .tile, .c 0, .any⟩,  -- Enable
  ⟨0x02, 0x02, .u64, .rws, false, .tile, .pers 0 0x07800058002C0094, .any⟩,  -- Horizontal timing
  ⟨0x03, 0x03, .u64, .rws, false, .tile, .pers 0 0x0438000400050024, .any⟩,  -- Vertical timing
  ⟨0x04, 0x04, .u32, .rws, false, .tile, .c 0, .any⟩,  -- Lane mask
  ⟨0x07, 0x07, .u16, .rws, false, .tile, .c 0, .any⟩  -- Line match
  ]

/-- 4010h (R325). -/
def entries4010 : List Row := [
  ⟨0x01, 0x01, .u32, .ro, false, .tile, .c 0, .any⟩,  -- Smallest blanking A (tile)
  ⟨0x02, 0x02, .u32, .ro, false, .tile, .c 0, .any⟩,  -- Smallest blanking B (tile)
  ⟨0x03, 0x03, .u32, .ro, false, .both, .c 0, .any⟩  -- Re-locks
  ]

/-- 4100h (R273). -/
def entries4100 : List Row := [
  ⟨0x01, 0x01, .u64, .rws, false, .tile, .c 0, .any⟩,  -- Tile region
  ⟨0x02, 0x02, .u64, .rws, false, .tile, .c 0, .zeros 0xFFFF000000000000⟩,  -- Background
  ⟨0x03, 0x03, .u16, .ro, false, .tile, .c 0, .any⟩,  -- Pool in use
  ⟨0x04, 0x04, .u16, .ro, false, .tile, .c 0, .any⟩,  -- Pool checked
  ⟨0x05, 0x05, .u16, .konst, false, .tile, .c 1504, .any⟩,  -- Pool for layers
  ⟨0x06, 0x06, .u8, .ro, true, .tile, .c 0x00, .any⟩,  -- Late layers
  ⟨0x07, 0x07, .u8, .ro, true, .tile, .c 0x00, .any⟩,  -- Stale layers
  ⟨0x08, 0x08, .u32, .ro, false, .tile, .c 0, .any⟩,  -- Compose margin
  ⟨0x09, 0x09, .u8, .wo, false, .tile, .c 0, .nat 1 1⟩,  -- Counter clear
  ⟨0x0A, 0x0A, .u8, .ro, true, .tile, .c 0, .any⟩,  -- Compose state
  ⟨0x0B, 0x0B, .u64, .rw1c, false, .tile, .c 0, .any⟩,  -- First substitution
  ⟨0x0C, 0x0C, .u64, .ro, false, .tile, .c 0, .any⟩,  -- First substitution tick
  ⟨0x0D, 0x0D, .u32, .ro, false, .tile, .c 0, .any⟩,  -- Receive need
  ⟨0x0E, 0x0E, .u32, .ro, false, .tile, .c 0, .any⟩  -- Receive capacity
  ]

/-- 4102h (R273). -/
def entries4102 : List Row := [
  ⟨0x01, 0x01, .domain, .rws, false, .tile, .c 0, .any⟩  -- Custom kernels
  ]

/-- 4110h (R277). -/
def entries4110 : List Row := [
  ⟨0x01, 0x01, .bool, .rws, false, .tile, .c 0x00, .any⟩,  -- Enable
  ⟨0x02, 0x02, .u32, .rws, false, .tile, .c 0, .any⟩,  -- Destination origin
  ⟨0x03, 0x03, .u32, .rws, false, .tile, .c 0, .any⟩,  -- Destination size
  ⟨0x04, 0x04, .u32, .rws, false, .tile, .c 0, .any⟩,  -- Source origin
  ⟨0x05, 0x05, .u32, .rws, false, .tile, .c 0, .any⟩,  -- Source size
  ⟨0x06, 0x06, .u8, .rws, false, .tile, .c 24, .oneOf [12, 16, 24, 48]⟩,  -- Format
  ⟨0x07, 0x07, .u8, .rws, false, .tile, .c 0x01, .any⟩,  -- View mask
  ⟨0x08, 0x08, .u8, .rws, false, .tile, .c 1, .oneOf [1, 2, 4, 8]⟩,  -- Taps H
  ⟨0x09, 0x09, .u8, .rws, false, .tile, .c 1, .oneOf [1, 2, 4, 8]⟩,  -- Taps V
  ⟨0x0A, 0x0A, .u8, .rws, false, .tile, .c 0, .nat 0 2⟩,  -- Filter H
  ⟨0x0B, 0x0B, .u8, .rws, false, .tile, .c 0, .nat 0 2⟩,  -- Filter V
  ⟨0x0C, 0x0C, .u8, .rws, false, .tile, .c 0, .nat 0 2⟩,  -- Blend
  ⟨0x0D, 0x0D, .u16, .rws, false, .tile, .c 65535, .any⟩,  -- Opacity
  ⟨0x0E, 0x0E, .bool, .rws, false, .lastLayer, .c 0x00, .any⟩,  -- Direct
  ⟨0x0F, 0x0F, .u16, .ro, false, .tile, .c 0, .any⟩,  -- Line-buffer need
  ⟨0x10, 0x10, .u64, .ro, false, .tile, .c 0, .any⟩,  -- Receive counts
  ⟨0x11, 0x11, .u64, .ro, false, .tile, .c 0, .any⟩,  -- Show counts
  ⟨0x12, 0x12, .u8, .wo, false, .tile, .c 0, .nat 1 1⟩  -- Counter clear
  ]

/-- 4180h (R279). -/
def entries4180 : List Row := [
  ⟨0x01, 0x01, .bool, .rws, false, .tile, .c 0x00, .any⟩,  -- Capture enable
  ⟨0x02, 0x02, .u8, .rws, false, .tile, .c 0, .nat 0 7⟩,  -- Capture view
  ⟨0x03, 0x03, .u16, .rws, false, .tile, .c 1, .nat 1 65535⟩,  -- Capture interval
  ⟨0x04, 0x04, .u8, .rws, false, .tile, .c 4, .nat 1 16⟩,  -- Ring slots
  ⟨0x05, 0x05, .u8, .rws, false, .tile, .c 0, .nat 0 1⟩,  -- Ring mode
  ⟨0x06, 0x06, .domain, .ro, false, .tile, .c 0, .any⟩,  -- Capture ring
  ⟨0x07, 0x07, .u8, .ro, true, .tile, .c 0, .any⟩,  -- Next slot
  ⟨0x08, 0x08, .u32, .ro, false, .tile, .c 0, .any⟩,  -- Captures
  ⟨0x09, 0x09, .u32, .ro, false, .tile, .c 0, .any⟩,  -- Captures skipped
  ⟨0x0A, 0x0A, .u8, .wo, false, .tile, .c 0, .nat 1 2⟩,  -- Ring command
  ⟨0x0B, 0x0B, .u8, .ro, false, .tile, .c 0xFF, .any⟩  -- Held slot
  ]

/-- 4200h (R305). -/
def entries4200 : List Row := [
  ⟨0x01, 0x01, .u8, .rws, false, .tile, .c 3, .nat 3 4⟩,  -- Lamps per pixel
  ⟨0x02, 0x02, .i16, .rws, false, .tile, .c 400, .int (-640) 2400⟩,  -- Reference temperature
  ⟨0x03, 0x03, .u8, .rws, false, .tile, .c 3, .nat 0 3⟩,  -- Dither mode
  ⟨0x04, 0x04, .u32, .ro, false, .tile, .c 0, .any⟩,  -- Clipped lamps
  ⟨0x05, 0x05, .fix16, .ro, false, .tile, .c 0, .any⟩  -- Peak drive
  ]

/-- 4201h (R305). -/
def entries4201 : List Row := [
  ⟨0x01, 0x01, .u8, .rws, false, .tile, .c 0xFF, .oneOf [0, 1, 255]⟩,  -- Binning bank
  ⟨0x02, 0x02, .u8, .rws, false, .tile, .c 0xFF, .oneOf [0, 1, 255]⟩,  -- Lamp table bank
  ⟨0x03, 0x03, .u8, .ro, false, .tile, .c 0x00, .any⟩  -- Bank states
  ]

/-- 4204h (R305). -/
def entries4204 : List Row := [
  ⟨0x01, 0x01, .u32, .ro, false, .tile, .c 0, .any⟩,  -- Upload messages
  ⟨0x02, 0x02, .u32, .ro, false, .tile, .c 0, .any⟩,  -- Upload errors
  ⟨0x03, 0x03, .u8, .ro, false, .tile, .c 0, .any⟩,  -- Last upload error
  ⟨0x04, 0x04, .u8, .wo, false, .tile, .c 0, .nat 1 1⟩  -- Counter clear
  ]

/-- 4210h (R305). -/
def entries4210 : List Row := [
  ⟨0x01, 0x01, .u8, .rws, false, .tile, .c 255, .nat 1 255⟩,  -- Current code
  ⟨0x02, 0x02, .domain, .rws, false, .tile, .c 0, .any⟩  -- Global matrix
  ]

/-- 4300h (R307). -/
def entries4300 : List Row := [
  ⟨0x01, 0x01, .u32, .rws, false, .both, .c 60, .any⟩,  -- Tick numerator
  ⟨0x02, 0x02, .u32, .rws, false, .both, .c 1, .any⟩,  -- Tick denominator
  ⟨0x03, 0x03, .u8, .rws, false, .both, .c 1, .nat 1 32⟩,  -- Slots
  ⟨0x04, 0x04, .u64, .rws, false, .both, .c 0, .any⟩,  -- Slot map, S0–S15
  ⟨0x05, 0x05, .u64, .rws, false, .both, .c 0, .any⟩,  -- Slot map, S16–S31
  ⟨0x06, 0x06, .u8, .rws, false, .both, .c 1, .nat 1 32⟩,  -- Profile B slots
  ⟨0x07, 0x07, .u64, .rws, false, .both, .c 0, .any⟩,  -- Profile B map, S0–S15
  ⟨0x08, 0x08, .u64, .rws, false, .both, .c 0, .any⟩,  -- Profile B map, S16–S31
  ⟨0x09, 0x09, .u8, .ro, true, .both, .c 0x01, .any⟩,  -- Views in use
  ⟨0x0A, 0x0A, .u8, .ro, true, .both, .c 0xFF, .any⟩,  -- Current slot
  ⟨0x0B, 0x0B, .u8, .ro, true, .both, .c 0, .any⟩  -- Profile in effect
  ]

/-- 4310h (R308). -/
def entries4310 : List Row := [
  ⟨0x01, 0x01, .bool, .rws, false, .sender, .c 0x00, .any⟩,  -- Enable
  ⟨0x02, 0x02, .u8, .rws, false, .sender, .c 0, .nat 0 7⟩,  -- View
  ⟨0x03, 0x03, .u8, .rws, false, .sender, .c 0, .nat 0 1⟩,  -- Timing
  ⟨0x04, 0x04, .u8, .rws, false, .sender, .c 0, .nat 0 7⟩,  -- SYNC output
  ⟨0x05, 0x05, .u16, .rws, false, .sender, .c 0x0001, .relation⟩,  -- Rate relation
  ⟨0x06, 0x06, .i32, .rws, false, .sender, .c 0, .any⟩,  -- Exposure start
  ⟨0x07, 0x07, .u32, .rws, false, .sender, .c 0, .any⟩,  -- Exposure length
  ⟨0x08, 0x08, .u32, .rws, false, .sender, .c 2000, .nat 0 1000000⟩,  -- Guard
  ⟨0x09, 0x09, .u32, .ro, false, .sender, .c 0, .any⟩,  -- Touched slots
  ⟨0x0A, 0x0A, .u32, .ro, false, .sender, .c 0, .any⟩,  -- Partial slots
  ⟨0x0B, 0x0B, .u32, .ro, false, .sender, .c 0, .any⟩  -- Touched slots B
  ]

/-- 4320h (R309). -/
def entries4320 : List Row := [
  ⟨0x01, 0x01, .u8, .wo, false, .sender, .c 0, .nat 1 1⟩,  -- Plan command
  ⟨0x02, 0x02, .u8, .ro, false, .sender, .c 0x00, .any⟩,  -- Plan status
  ⟨0x03, 0x03, .u64, .ro, false, .sender, .c 0, .any⟩,  -- Planned map, S0–S15
  ⟨0x04, 0x04, .u64, .ro, false, .sender, .c 0, .any⟩,  -- Planned map, S16–S31
  ⟨0x05, 0x05, .u64, .ro, false, .sender, .c 0, .any⟩,  -- Planned B map, S0–S15
  ⟨0x06, 0x06, .u64, .ro, false, .sender, .c 0, .any⟩,  -- Planned B map, S16–S31
  ⟨0x07, 0x07, .u8, .rw, false, .sender, .c 0, .nat 0 8⟩,  -- Free view
  ⟨0x08, 0x08, .u32, .rws, false, .sender, .c 0, .any⟩  -- Scheduling blanking
  ]

/-- 4330h (R310). -/
def entries4330 : List Row := [
  ⟨0x01, 0x01, .u8, .rws, false, .sender, .c 0, .nat 0 2⟩,  -- Mode
  ⟨0x02, 0x02, .u16, .rws, false, .sender, .c 0x0001, .relation⟩,  -- Rate relation
  ⟨0x03, 0x03, .u8, .rws, false, .sender, .c 0, .any⟩,  -- Phase
  ⟨0x04, 0x04, .u32, .rws, false, .sender, .c 0, .any⟩,  -- Edge offset
  ⟨0x05, 0x05, .u32, .rws, false, .sender, .c 1000, .any⟩,  -- Width
  ⟨0x06, 0x06, .u8, .rws, false, .sender, .c 0, .nat 0 1⟩,  -- Polarity
  ⟨0x07, 0x07, .lt32, .rw, false, .sender, .c 0, .any⟩,  -- Start time
  ⟨0x08, 0x08, .u8, .ro, false, .sender, .c 0x00, .any⟩,  -- Start status
  ⟨0x09, 0x09, .u32, .ro, false, .sender, .c 0, .any⟩  -- Edges sent
  ]

/-- 5000h (R363). -/
def entries5000 : List Row := [
  ⟨0x01, 0x01, .u8, .ro, true, .tile, .c 0, .any⟩,  -- LAMP_EN
  ⟨0x03, 0x03, .i16, .rws, false, .tile, .c 800, .int 0 1600⟩,  -- Derate knee
  ⟨0x04, 0x04, .u16, .rws, false, .tile, .c 150, .nat 0 1000⟩,  -- Derate slope
  ⟨0x05, 0x05, .u32, .rws, false, .tile, .c 26214, .nat 6554 65536⟩,  -- Derate floor
  ⟨0x06, 0x06, .i16, .rws, false, .tile, .c 1440, .any⟩,  -- Diode substitute
  ⟨0x07, 0x07, .u64, .rws, false, .tile, .c 0xFFFFAAAA55550000, .any⟩,  -- Derate regions
  ⟨0x08, 0x08, .u64, .ro, true, .tile, .c 0xFFFFFFFFFFFFFFFF, .any⟩,  -- Derate factors
  ⟨0x09, 0x09, .u64, .ro, false, .tile, .c 0, .any⟩,  -- Panel temperatures
  ⟨0x0A, 0x0A, .u8, .ro, true, .tile, .c 0x00, .any⟩,  -- Diode status
  ⟨0x0B, 0x0B, .u8, .rw, false, .tile, .c 0, .nat 0 1⟩,  -- LAMP_EN hold
  ⟨0x0C, 0x0C, .u32, .ro, false, .tile, .c 0, .any⟩,  -- Diode faults
  ⟨0x0D, 0x0D, .u8, .wo, false, .tile, .c 0, .nat 1 1⟩,  -- Counter clear
  ⟨0x0E, 0x0E, .fix16, .rws, false, .tile, .c 66060, .int 58983 78643⟩  -- Diode ideality
  ]

/-- 5001h (R363). -/
def entries5001 : List Row := [
  ⟨0x01, 0x40, .u16, .rws, false, .tile, .c 1600, .nat 160 4096⟩  -- Full scale CR0–CR63
  ]

/-- 5100h (R364). -/
def entries5100 : List Row := [
  ⟨0x01, 0x01, .u8, .rws, false, .tile, .c 0, .nat 0 2⟩,  -- SL output level
  ⟨0x02, 0x02, .u8, .rws, false, .tile, .c 32, .nat 8 60⟩,  -- Return deadline
  ⟨0x03, 0x03, .u8, .wo, false, .tile, .c 0, .nat 1 1⟩  -- Counter clear
  ]

/-- 5110h (R364). -/
def entries5110 : List Row := [
  ⟨0x01, 0x01, .u32, .rws, false, .tile, .c 0, .any⟩,  -- Lane origin
  ⟨0x02, 0x02, .u32, .rws, false, .tile, .c 0, .any⟩,  -- Lane size
  ⟨0x03, 0x03, .u32, .ro, true, .tile, .c 0x0000F0C0, .any⟩,  -- Lane status
  ⟨0x04, 0x04, .u64, .ro, false, .tile, .c 0, .any⟩,  -- Lane counts
  ⟨0x05, 0x05, .u64, .ro, false, .tile, .c 0, .any⟩  -- Array status
  ]

/-- 5200h (R366). -/
def entries5200 : List Row := [
  ⟨0x01, 0x01, .bool, .rws, false, .tile, .c 0x01, .any⟩,  -- Diagnosis enable
  ⟨0x02, 0x02, .u8, .rws, false, .tile, .c 32, .nat 1 255⟩,  -- Diagnostic current
  ⟨0x03, 0x03, .u32, .rw, false, .tile, .c 600, .any⟩,  -- Sweep interval
  ⟨0x04, 0x04, .u8, .rws, false, .tile, .c 4, .nat 1 31⟩,  -- Bypass limit
  ⟨0x05, 0x05, .u8, .rw, false, .tile, .c 3, .nat 1 8⟩,  -- Locate attempts
  ⟨0x06, 0x06, .u32, .ro, true, .tile, .c 0, .any⟩,  -- Lamps bypassed
  ⟨0x07, 0x07, .u8, .ro, true, .tile, .c 0x00, .any⟩,  -- Map state
  ⟨0x08, 0x08, .domain, .ro, false, .tile, .c 0, .any⟩,  -- Lamp map
  ⟨0x09, 0x09, .u8, .wo, false, .tile, .c 0, .nat 1 3⟩,  -- Map command
  ⟨0x0A, 0x0A, .u64, .rw1c, false, .tile, .c 0, .any⟩,  -- Last locate
  ⟨0x0B, 0x0B, .u64, .ro, false, .tile, .c 0, .any⟩,  -- Diagnosis counts
  ⟨0x0C, 0x0C, .u16, .ro, false, .tile, .c 0, .any⟩,  -- Suspect strings
  ⟨0x0D, 0x0D, .u16, .ro, false, .tile, .c 0, .any⟩,  -- Disabled strings
  ⟨0x0E, 0x0E, .u32, .rw, false, .tile, .c 3600, .any⟩,  -- Store interval
  ⟨0x0F, 0x0F, .u8, .wo, false, .tile, .c 0, .nat 1 1⟩,  -- Counter clear
  ⟨0x10, 0x10, .u16, .ro, false, .tile, .c 0, .any⟩,  -- Locate queue
  ⟨0x11, 0x11, .u8, .ro, false, .tile, .c 0, .any⟩,  -- Sweep position
  ⟨0x12, 0x12, .u8, .ro, false, .tile, .c 0, .any⟩  -- Upload state
  ]

/-- 6000h (R242). -/
def entries6000 : List Row := [
  ⟨0x01, 0x01, .u32, .rw, false, .sender, .c 0xC0A80A64, .any⟩,  -- NET0 IPv4 address
  ⟨0x02, 0x02, .u8, .rw, false, .sender, .c 24, .nat 8 30⟩,  -- NET0 prefix
  ⟨0x03, 0x03, .u32, .rw, false, .sender, .c 0xC0A80B64, .any⟩,  -- NET1 IPv4 address
  ⟨0x04, 0x04, .u8, .rw, false, .sender, .c 24, .nat 8 30⟩,  -- NET1 prefix
  ⟨0x05, 0x05, .u64, .ro, false, .sender, .c Config.net0Mac, .any⟩,  -- NET0 MAC
  ⟨0x06, 0x06, .u64, .ro, false, .sender, .c Config.net1Mac, .any⟩,  -- NET1 MAC
  ⟨0x07, 0x07, .u8, .ro, true, .sender, .c 0x00, .any⟩,  -- NET link state
  ⟨0x08, 0x08, .u32, .ro, false, .sender, .c 0, .any⟩  -- Packets dropped
  ]

/-- 6001h (R242). -/
def entries6001 : List Row := [
  ⟨0x01, 0x01, .bool, .rws, false, .sender, .c 0x01, .any⟩,  -- DP enable
  ⟨0x02, 0x02, .u8, .rws, false, .sender, .c 3, .nat 0 3⟩,  -- DP highest rate
  ⟨0x03, 0x03, .u8, .ro, true, .sender, .c 0, .any⟩,  -- DP state
  ⟨0x04, 0x04, .u64, .ro, false, .sender, .c 0, .any⟩,  -- DP format
  ⟨0x05, 0x05, .fix16, .ro, false, .sender, .c 0, .any⟩,  -- DP frame rate
  ⟨0x06, 0x06, .u64, .ro, false, .sender, .c 0, .any⟩,  -- DP counters
  ⟨0x07, 0x07, .u8, .rws, false, .sender, .c 0xFF, .dpOverride⟩,  -- DP overrides
  ⟨0x08, 0x08, .domain, .rw, false, .sender, .c 0, .any⟩,  -- DP EDID
  ⟨0x09, 0x09, .u8, .wo, false, .sender, .c 0, .nat 1 1⟩  -- DP counter clear
  ]

/-- 6010h (R242). -/
def entries6010 : List Row := [
  ⟨0x01, 0x01, .u8, .rws, false, .sender, .c 0x00, .nat 0 3⟩,  -- Flow legs
  ⟨0x02, 0x02, .u64, .rws, false, .sender, .c 0, .any⟩,  -- Leg 0 address
  ⟨0x03, 0x03, .u64, .rws, false, .sender, .c 0, .any⟩,  -- Leg 1 address
  ⟨0x04, 0x04, .u16, .rws, false, .sender, .c 5004, .any⟩,  -- UDP port
  ⟨0x05, 0x05, .u64, .rws, false, .sender, .c 0, .flowFormat⟩,  -- Flow format
  ⟨0x06, 0x06, .u8, .rws, false, .sender, .c 1, .nat 0 5⟩,  -- Transfer function
  ⟨0x07, 0x07, .u8, .ro, true, .sender, .c 0, .any⟩,  -- Flow state
  ⟨0x08, 0x08, .u64, .ro, false, .sender, .c 0, .any⟩,  -- Flow counters
  ⟨0x09, 0x09, .u8, .wo, false, .sender, .c 0, .nat 1 1⟩  -- Flow counter clear
  ]

/-- 6020h (R242). -/
def entries6020 : List Row := [
  ⟨0x01, 0x01, .u8, .ro, false, .sender, .c 0, .any⟩,  -- PCIe link
  ⟨0x02, 0x02, .u32, .ro, false, .sender, .c 0, .any⟩,  -- Reserved-area writes
  ⟨0x03, 0x03, .u32, .ro, false, .sender, .c 0, .any⟩,  -- Fences refused
  ⟨0x04, 0x04, .u32, .ro, false, .sender, .c 0, .any⟩,  -- Doorbells refused
  ⟨0x05, 0x05, .u8, .wo, false, .sender, .c 0, .nat 1 1⟩  -- Counter clear
  ]

/-- 6030h (R242). -/
def entries6030 : List Row := [
  ⟨0x01, 0x01, .domain, .rws, false, .sender, .c 0, .any⟩  -- Surface table
  ]

/-- 6031h (R242). -/
def entries6031 : List Row := [
  ⟨0x01, 0x01, .domain, .ro, false, .sender, .c 0, .any⟩,  -- Fences
  ⟨0x02, 0x02, .u8, .wo, false, .sender, .c 0, .any⟩  -- Fence reset
  ]

/-- 6100h (R245). -/
def entries6100 : List Row := [
  ⟨0x01, 0x01, .domain, .rws, false, .sender, .c 0, .any⟩,  -- Binding table
  ⟨0x02, 0x02, .domain, .rws, false, .sender, .c 0, .any⟩  -- Tile map
  ]

/-- 6101h (R245). -/
def entries6101 : List Row := [
  ⟨0x01, 0x01, .u32, .rws, false, .sender, .c 2000, .nat 500 100000⟩,  -- Guard
  ⟨0x02, 0x02, .u8, .rws, false, .sender, .c 90, .nat 50 95⟩  -- Link planning fraction
  ]

/-- 6102h (R245). -/
def entries6102 : List Row := [
  ⟨0x01, 0x01, .u64, .rw, false, .sender, .c 0, .any⟩,  -- MSI-X enable
  ⟨0x02, 0x02, .domain, .ro, false, .sender, .c 0, .any⟩,  -- Shown frames
  ⟨0x03, 0x03, .u32, .ro, false, .sender, .c 0, .any⟩,  -- Group holds
  ⟨0x04, 0x04, .u32, .ro, false, .sender, .c 0, .any⟩  -- Group advances
  ]

/-- 6103h (R245). -/
def entries6103 : List Row := [
  ⟨0x01, 0x01, .domain, .rws, false, .sender, .c 0, .any⟩  -- Clip table
  ]

/-- 6104h (R245). -/
def entries6104 : List Row := [
  ⟨0x01, 0x01, .u32, .ro, false, .sender, .c 0, .any⟩,  -- Compressor demand
  ⟨0x02, 0x02, .u32, .ro, false, .sender, .c 0, .any⟩,  -- Frames compressed
  ⟨0x03, 0x03, .u32, .ro, false, .sender, .c 0, .any⟩,  -- Frames not ready
  ⟨0x04, 0x04, .u32, .ro, false, .sender, .c 0, .any⟩  -- Frames replaced
  ]

/-- 6105h (R245). -/
def entries6105 : List Row := [
  ⟨0x01, 0x01, .u32, .ro, false, .sender, .c 0, .any⟩,  -- Windows sliced
  ⟨0x02, 0x02, .u32, .ro, false, .sender, .c 0, .any⟩,  -- Stale windows
  ⟨0x03, 0x03, .u8, .wo, false, .sender, .c 0, .nat 1 1⟩  -- Counter clear
  ]

/-- 6106h (R245). -/
def entries6106 : List Row := [
  ⟨0x01, 0x10, .u32, .ro, false, .sender, .c 0, .any⟩,  -- Port need
  ⟨0x11, 0x11, .u32, .ro, false, .sender, .c 0, .any⟩  -- Port capacity
  ]

/-- 6200h (R204). -/
def entries6200 : List Row := [
  ⟨0x01, 0x01, .bool, .rws, false, .sender, .c 0x01, .any⟩,  -- PTP enable
  ⟨0x02, 0x02, .u8, .rws, false, .sender, .c 0, .nat 0 2⟩,  -- PTP port
  ⟨0x03, 0x03, .u8, .rws, false, .sender, .c 127, .nat 0 127⟩,  -- Domain
  ⟨0x04, 0x04, .u8, .rws, false, .sender, .c 0, .nat 0 1⟩,  -- Delay_Req mode
  ⟨0x05, 0x05, .u8, .ro, true, .sender, .c 1, .any⟩,  -- Port state
  ⟨0x06, 0x06, .u64, .ro, false, .sender, .c 0, .any⟩,  -- Parent clock identity
  ⟨0x07, 0x07, .u16, .ro, false, .sender, .c 0, .any⟩,  -- Parent port number
  ⟨0x08, 0x08, .u64, .ro, false, .sender, .c 0, .any⟩,  -- Grandmaster identity
  ⟨0x09, 0x09, .i64, .ro, false, .sender, .c 0, .any⟩,  -- Offset from master
  ⟨0x0A, 0x0A, .i64, .ro, false, .sender, .c 0, .any⟩,  -- Mean path delay
  ⟨0x0B, 0x0B, .u16, .ro, false, .sender, .c 0, .any⟩,  -- Steps removed
  ⟨0x0C, 0x0C, .u16, .ro, false, .sender, .c 0, .any⟩,  -- UTC offset
  ⟨0x0D, 0x0D, .u8, .rws, false, .sender, .c 3, .nat 2 10⟩,  -- Announce receipt timeout
  ⟨0x0E, 0x0E, .u32, .ro, false, .sender, .c 0, .any⟩,  -- Messages received
  ⟨0x0F, 0x0F, .u32, .ro, false, .sender, .c 0, .any⟩,  -- Messages dropped
  ⟨0x10, 0x10, .u8, .wo, false, .sender, .c 0, .nat 1 1⟩  -- Counter clear
  ]

/-- 6300h (R280). -/
def entries6300 : List Row := [
  ⟨0x01, 0x01, .bool, .rws, false, .sender, .c 0x00, .any⟩,  -- Enable
  ⟨0x02, 0x02, .u8, .rws, false, .sender, .c 0, .nat 0 7⟩,  -- View
  ⟨0x03, 0x03, .u32, .rws, false, .sender, .c 0, .any⟩,  -- Wall rectangle origin
  ⟨0x04, 0x04, .u32, .rws, false, .sender, .c 0, .any⟩,  -- Wall rectangle size
  ⟨0x05, 0x05, .domain, .rws, false, .sender, .c 0, .any⟩,  -- Matrix
  ⟨0x06, 0x06, .u8, .rws, false, .sender, .c 1, .nat 1 3⟩,  -- Transfer function
  ⟨0x07, 0x07, .fix16, .rws, false, .sender, .c 65536, .int 66 65536000⟩,  -- Gain
  ⟨0x08, 0x08, .u8, .rws, false, .sender, .c 10, .oneOf [8, 10]⟩,  -- Bit depth
  ⟨0x09, 0x09, .u8, .rws, false, .sender, .c 0x07, .any⟩,  -- Overlay
  ⟨0x0A, 0x0A, .u8, .rws, false, .sender, .c 4, .oneOf [1, 2, 4]⟩,  -- Link limit
  ⟨0x0B, 0x0B, .u8, .ro, true, .sender, .c 0, .any⟩,  -- State
  ⟨0x0C, 0x0C, .u32, .ro, false, .sender, .c 0, .any⟩,  -- Frames sent
  ⟨0x0D, 0x0D, .u32, .ro, false, .sender, .c 0, .any⟩,  -- Lines repeated
  ⟨0x0E, 0x0E, .domain, .ro, false, .sender, .c 0, .any⟩,  -- Sink EDID
  ⟨0x0F, 0x0F, .u64, .ro, false, .sender, .c 0, .any⟩,  -- Last build tick
  ⟨0x10, 0x10, .u8, .wo, false, .sender, .c 0, .nat 1 1⟩  -- Counter clear
  ]

/-- 6302h (R280). -/
def entries6302 : List Row := [
  ⟨0x01, 0x01, .u64, .rw, false, .sender, .c 0x00003C0000000000, .zeros 0xFFFF000000000000⟩,  -- Silent colour
  ⟨0x02, 0x02, .u64, .rw, false, .sender, .c 0x00003C003C000000, .zeros 0xFFFF000000000000⟩,  -- Late colour
  ⟨0x03, 0x03, .u64, .rw, false, .sender, .c 0x0000380038003800, .zeros 0xFFFF000000000000⟩,  -- Grid colour
  ⟨0x04, 0x04, .u32, .ro, false, .sender, .c 0, .any⟩,  -- Preview demand
  ⟨0x05, 0x05, .u32, .ro, false, .sender, .c 0, .any⟩,  -- Builds
  ⟨0x06, 0x06, .u32, .ro, false, .sender, .c 0, .any⟩,  -- Builds abandoned
  ⟨0x07, 0x07, .u8, .ro, false, .sender, .c 0, .any⟩,  -- Engine state
  ⟨0x08, 0x08, .u8, .wo, false, .sender, .c 0, .nat 1 1⟩  -- Counter clear
  ]

/-- 7010h (R519). -/
def entries7010 : List Row := [
  ⟨0x01, 0x01, .u8, .rw, false, .both, .c 0, .nat 0 4⟩,  -- Test mode
  ⟨0x02, 0x02, .u64, .ro, false, .both, .c 0, .any⟩,  -- Lane errors
  ⟨0x03, 0x03, .u64, .ro, false, .both, .c 0, .any⟩,  -- Bits checked
  ⟨0x04, 0x04, .u8, .ro, true, .both, .c 0x00, .any⟩,  -- Checker lock
  ⟨0x05, 0x05, .u8, .wo, false, .both, .c 0, .nat 1 1⟩  -- Counter clear
  ]

/-- 7020h (R520). -/
def entries7020 : List Row := [
  ⟨0x01, 0x01, .u8, .rw, false, .tile, .c 0, .nat 0 5⟩,  -- Pattern
  ⟨0x02, 0x02, .u16, .rw, false, .tile, .c 2048, .nat 0 4095⟩,  -- Code
  ⟨0x03, 0x03, .u8, .rw, false, .tile, .c 0, .nat 0 3⟩  -- Lamp
  ]

/-- 7030h (R521). -/
def entries7030 : List Row := [
  ⟨0x01, 0x01, .u8, .wo, false, .both, .c 0, .nat 1 2⟩,  -- Test command
  ⟨0x02, 0x02, .u8, .rw, false, .both, .c 1, .nat 0 7⟩,  -- Test region
  ⟨0x03, 0x03, .u8, .ro, true, .both, .c 0, .any⟩,  -- Test state
  ⟨0x04, 0x04, .u64, .ro, false, .both, .c 0, .any⟩,  -- First failure
  ⟨0x05, 0x05, .u32, .ro, false, .both, .c 0, .any⟩  -- Passes
  ]

/-- 7040h (R522). -/
def entries7040 : List Row := [
  ⟨0x01, 0x01, .u16, .rws, false, .both, .c 0x0000, .any⟩,  -- Direction
  ⟨0x02, 0x02, .u16, .rw, false, .both, .c 0x0000, .any⟩,  -- Output
  ⟨0x03, 0x03, .u16, .ro, true, .both, .c 0, .any⟩,  -- Input
  ⟨0x04, 0x04, .u32, .rws, false, .both, .c 0x00000000, .any⟩,  -- Drive
  ⟨0x05, 0x05, .u32, .rws, false, .both, .c 0x55555555, .pulls⟩  -- Pull
  ]

/-- Index blocks 1000h to 1302h (R39). -/
def blocks0 : List IndexBlock := [
  ⟨0x1000, 1, 1, entries1000⟩,
  ⟨0x1001, 1, 1, entries1001⟩,
  ⟨0x1010, 1, 1, entries1010⟩,
  ⟨0x1020, 0, 8, entries1020⟩,
  ⟨0x1030, 1, 1, entries1030⟩,
  ⟨0x1031, 1, 1, entries1031⟩,
  ⟨0x1040, 1, 1, entries1040⟩,
  ⟨0x1050, 1, 1, entries1050⟩,
  ⟨0x1100, 1, 1, entries1100⟩,
  ⟨0x1101, 1, 1, entries1101⟩,
  ⟨0x1102, 1, 1, entries1102⟩,
  ⟨0x1103, 1, 1, entries1103⟩,
  ⟨0x1110, 1, 1, entries1110⟩,
  ⟨0x1200, 1, 1, entries1200⟩,
  ⟨0x1201, 1, 1, entries1201⟩,
  ⟨0x1202, 1, 1, entries1202⟩,
  ⟨0x1203, 1, 1, entries1203⟩,
  ⟨0x1204, 1, 1, entries1204⟩,
  ⟨0x1205, 1, 1, entries1205⟩,
  ⟨0x1210, 1, 1, entries1210⟩,
  ⟨0x1220, 1, 1, entries1220⟩,
  ⟨0x1300, 1, 1, entries1300⟩,
  ⟨0x1301, 1, 1, entries1301⟩,
  ⟨0x1302, 1, 1, entries1302⟩]

/-- Index blocks 1310h to 2201h (R39). -/
def blocks1 : List IndexBlock := [
  ⟨0x1310, 2, 16, entries1310⟩,
  ⟨0x1320, 1, 1, entries1320⟩,
  ⟨0x1330, 1, 1, entries1330⟩,
  ⟨0x1400, 1, 1, entries1400⟩,
  ⟨0x1401, 1, 1, entries1401⟩,
  ⟨0x1402, 1, 1, entries1402⟩,
  ⟨0x1500, 1, 1, entries1500⟩,
  ⟨0x1520, 1, 1, entries1520⟩,
  ⟨0x1600, 1, 1, entries1600⟩,
  ⟨0x1610, 1, 1, entries1610⟩,
  ⟨0x1620, 1, 1, entries1620⟩,
  ⟨0x1640, 1, 1, entries1640⟩,
  ⟨0x1641, 1, 1, entries1641⟩,
  ⟨0x1642, 1, 1, entries1642⟩,
  ⟨0x1643, 1, 1, entries1643⟩,
  ⟨0x1644, 1, 1, entries1644⟩,
  ⟨0x2000, 2, 16, entries2000⟩,
  ⟨0x2100, 1, 1, entries2100⟩,
  ⟨0x2101, 1, 1, entries2101⟩,
  ⟨0x2102, 1, 1, entries2102⟩,
  ⟨0x2110, 1, 1, entries2110⟩,
  ⟨0x2111, 1, 1, entries2111⟩,
  ⟨0x2200, 1, 1, entries2200⟩,
  ⟨0x2201, 1, 1, entries2201⟩]

/-- Index blocks 2202h to 4320h (R39). -/
def blocks2 : List IndexBlock := [
  ⟨0x2202, 1, 1, entries2202⟩,
  ⟨0x2210, 1, 1, entries2210⟩,
  ⟨0x3000, 1, 1, entries3000⟩,
  ⟨0x3001, 1, 1, entries3001⟩,
  ⟨0x3002, 1, 1, entries3002⟩,
  ⟨0x3010, 8, 8, entries3010⟩,
  ⟨0x3020, 1, 1, entries3020⟩,
  ⟨0x3030, 8, 36, entries3030⟩,
  ⟨0x3060, 1, 1, entries3060⟩,
  ⟨0x3070, 1, 1, entries3070⟩,
  ⟨0x3080, 1, 1, entries3080⟩,
  ⟨0x4000, 4, 2, entries4000⟩,
  ⟨0x4008, 4, 0, entries4008⟩,
  ⟨0x4010, 1, 1, entries4010⟩,
  ⟨0x4100, 1, 1, entries4100⟩,
  ⟨0x4102, 1, 1, entries4102⟩,
  ⟨0x4110, 8, 0, entries4110⟩,
  ⟨0x4180, 1, 1, entries4180⟩,
  ⟨0x4200, 1, 1, entries4200⟩,
  ⟨0x4201, 1, 1, entries4201⟩,
  ⟨0x4204, 1, 1, entries4204⟩,
  ⟨0x4210, 8, 0, entries4210⟩,
  ⟨0x4300, 1, 1, entries4300⟩,
  ⟨0x4310, 0, 8, entries4310⟩,
  ⟨0x4320, 1, 1, entries4320⟩]

/-- Index blocks 4330h to 7020h (R39). -/
def blocks3 : List IndexBlock := [
  ⟨0x4330, 0, 8, entries4330⟩,
  ⟨0x5000, 1, 1, entries5000⟩,
  ⟨0x5001, 1, 1, entries5001⟩,
  ⟨0x5100, 1, 1, entries5100⟩,
  ⟨0x5110, 32, 0, entries5110⟩,
  ⟨0x5200, 1, 1, entries5200⟩,
  ⟨0x6000, 1, 1, entries6000⟩,
  ⟨0x6001, 0, 4, entries6001⟩,
  ⟨0x6010, 0, 16, entries6010⟩,
  ⟨0x6020, 1, 1, entries6020⟩,
  ⟨0x6030, 1, 1, entries6030⟩,
  ⟨0x6031, 1, 1, entries6031⟩,
  ⟨0x6100, 1, 1, entries6100⟩,
  ⟨0x6101, 1, 1, entries6101⟩,
  ⟨0x6102, 1, 1, entries6102⟩,
  ⟨0x6103, 1, 1, entries6103⟩,
  ⟨0x6104, 1, 1, entries6104⟩,
  ⟨0x6105, 1, 1, entries6105⟩,
  ⟨0x6106, 1, 1, entries6106⟩,
  ⟨0x6200, 1, 1, entries6200⟩,
  ⟨0x6300, 0, 2, entries6300⟩,
  ⟨0x6302, 1, 1, entries6302⟩,
  ⟨0x7010, 2, 16, entries7010⟩,
  ⟨0x7020, 1, 1, entries7020⟩]

/-- Index blocks 7030h to 7040h (R39). -/
def blocks4 : List IndexBlock := [
  ⟨0x7030, 1, 1, entries7030⟩,
  ⟨0x7040, 1, 1, entries7040⟩]

/-- Every index block of the range map (R39). -/
def indexBlocks : List IndexBlock := blocks0 ++ (blocks1 ++ (blocks2 ++ (blocks3 ++ blocks4)))

/-- Whether a part of this personality holds the budgeted master m (R82). A part whose strap is invalid is taken as a
tile here and below: log 12. -/
def hasMaster (p : Personality) (m : Nat) : Bool :=
  if p = .sender then [0, 3, 4, 6, 7, 8, 9, 10].contains m else [0, 1, 2, 4, 5, 6, 7, 8, 9, 10].contains m

/-- How many indexes a block has on a personality. -/
def IndexBlock.count (b : IndexBlock) (p : Personality) : Nat := if p = .sender then b.onSender else b.onTile

/-- Whether a row's subindex exists on a personality (R6). -/
def Row.exists (r : Row) (p : Personality) (index sub : Nat) : Bool :=
  match r.who with
  | .both => true
  | .tile => p != .sender
  | .sender => p == .sender
  | .lastLayer => p != .sender && index == 0x4117
  | .master => hasMaster p (sub - 1)

/-- The block of an index. -/
def blockOf (p : Personality) (index : Nat) : Option IndexBlock :=
  indexBlocks.find? fun b => b.base ≤ index && index < b.base + b.count p

/-- The row of a subindex among the rows of its block. -/
def rowIn (p : Personality) (index sub : Nat) (rows : List Row) : Option Row :=
  rows.find? fun r => r.sub ≤ sub && sub ≤ r.last && r.exists p index sub

/-- Whether the block holds an entry of this personality: an index whose entries all belong to the other one is absent
(R6). -/
def IndexBlock.present (b : IndexBlock) (p : Personality) (index : Nat) : Bool :=
  b.rows.any fun r => (List.range (r.last + 1 - r.sub)).any fun i => r.exists p index (r.sub + i)

/-- The rows of an index that exists (R6, R34). -/
def rowsOf (p : Personality) (index : Nat) : Option (List Row) :=
  match blockOf p index with
  | some b => if b.present p index then some b.rows else none
  | none => none

/-- The row of an entry that exists, subindex 00 apart. -/
def rowAt (p : Personality) (k : Key) : Option Row :=
  match rowsOf p (k / 256) with
  | some rows => rowIn p (k / 256) (k % 256) rows
  | none => none

/-- The highest subindex in use at an index (R34). -/
def highestSub (p : Personality) (index : Nat) : Nat :=
  match rowsOf p index with
  | some rows => rows.foldl (fun m r =>
      (List.range (r.last + 1 - r.sub)).foldl (fun m i =>
        if r.exists p index (r.sub + i) then max m (r.sub + i) else m) m) 0
  | none => 0

/-- The size of a type in bytes (R11). -/
def Ty.size : Ty → Nat
  | .bool | .u8 => 1
  | .u16 | .i16 => 2
  | .u32 | .i32 | .fix16 | .lt32 => 4
  | .u64 | .i64 => 8
  | .time96 => 12
  | .str => 64
  | .domain => 0

/-- The width of a type in bits. -/
def Ty.width (t : Ty) : Nat := 8 * t.size

/-- The default of a row at an index and subindex (R35), whose block starts at base. -/
def Row.default (r : Row) (p : Personality) (base index sub : Nat) : Nat :=
  match r.dflt with
  | .c v => v
  | .pers t s => if p = .sender then s else t
  | .tab l => l.getD (sub - 1) 0
  | .first v => if index = base then v else 0

/-- What an entry reads as after a POR or a cold reset (R35); 0 where the entry does not exist. -/
def defaultOf (p : Personality) (k : Key) : Nat :=
  match blockOf p (k / 256) with
  | some b =>
    match rowIn p (k / 256) (k % 256) b.rows with
    | some r => r.default p b.base (k / 256) (k % 256) % 2 ^ r.ty.width
    | none => 0
  | none => 0

/-- The resettable blocks of R440. -/
def blockCodes (p : Personality) : List Nat :=
  if p = .sender then [0x01, 0x10, 0x11, 0x12, 0x13, 0x18, 0x19, 0x1C, 0x20, 0x21, 0x22, 0x30]
  else [0x01, 0x02, 0x03, 0x28]

/-- The codes before the 0xF that ends the list of 1320h.01 are those of R177. -/
def sourcesListed (v : Nat) : List Nat :=
  ((List.range 4).map fun i => field v (4 * i + 3) (4 * i)).takeWhile (· != 0xF)

/-- The end of the host area (R217). -/
def hostArea : Nat := 0x1A00000000

/-- Whether a value lies in a row's range (R524). -/
def Rng.holds (p : Personality) (w : Nat) (v : Nat) : Rng → Bool
  | .any => true
  | .nat lo hi => lo ≤ v && v ≤ hi
  | .int lo hi => lo ≤ toSigned w v && toSigned w v ≤ hi
  | .oneOf l => l.contains v
  | .zeros mask => v &&& mask == 0
  | .blockCode => (blockCodes p).contains v
  | .sourceList => (sourcesListed v).all (· ≤ 3)
  | .window64 => v % 64 == 0 && v ≤ 524224
  | .item => if p = .sender then v == 65 else v ≤ 65
  | .txEq => field v 23 16 ≤ 16 && (24 ≤ field v 15 8 && field v 15 8 ≤ 64) && field v 7 0 ≤ 24 &&
      field v 23 16 + field v 15 8 + field v 7 0 ≤ 64 && field v 30 24 == 0
  | .ringSize => (List.range 13).any fun i => v == 2 ^ (i + 4)
  | .relation => field v 15 8 ≤ 1 && (1 ≤ field v 7 0 && field v 7 0 ≤ 32)
  | .dpOverride => (field v 7 4 ≤ 5 || field v 7 4 == 15) && (field v 3 0 ≤ 1 || field v 3 0 == 15)
  | .hostAddress => v % 256 == 0 && v < hostArea
  | .pulls => (List.range 16).all fun g => field v (2 * g + 1) (2 * g) != 3
  | .flowFormat => field v 31 16 == 0 && field v 15 12 ≤ 2 && field v 11 8 ≤ 4 && field v 7 4 ≤ 1 && field v 3 0 ≤ 1

end Sys2Proof.Machine
end

