-- ==== Sys2Proof/Machine/Sparse.lean ====
section
/-! DEFINITION. Sparse stores: lists of (key, value) pairs in one canonical form, keys strictly rising and no entry
equal to what an unlisted key reads as. Memory and the dictionary values are two of them. -/

namespace Sys2Proof.Machine.Sparse

variable {β : Type} [DecidableEq β]

/-- The value at a key; d gives what an unlisted key reads as. -/
def get (d : Nat → β) : List (Nat × β) → Nat → β
  | [], q => d q
  | (k, v) :: r, q => if q = k then v else if q < k then d q else get d r q

/-- The store with a value at a key; writing what an unlisted key reads as removes the entry. -/
def put (d : Nat → β) : List (Nat × β) → Nat → β → List (Nat × β)
  | [], q, v => if v = d q then [] else [(q, v)]
  | (k, w) :: r, q, v =>
    if q < k then (if v = d q then (k, w) :: r else (q, v) :: (k, w) :: r)
    else if q = k then (if v = d q then r else (q, v) :: r)
    else (k, w) :: put d r q v

/-- The store with every entry of [lo, hi) back at what an unlisted key reads as. -/
def clearRange (lo hi : Nat) (m : List (Nat × β)) : List (Nat × β) :=
  m.filter fun c => c.1 < lo || hi ≤ c.1

/-- The canonical form: every key of the list is above lo, keys rise, no entry equals the default. -/
def wfFrom (d : Nat → β) : Nat → List (Nat × β) → Bool
  | _, [] => true
  | lo, (k, v) :: r => decide (lo ≤ k) && decide (v ≠ d k) && wfFrom d (k + 1) r

/-- The canonical form of a store. -/
def wf (d : Nat → β) (m : List (Nat × β)) : Bool := wfFrom d 0 m

/-- The store with bytes or values at consecutive keys. -/
def putAll (d : Nat → β) : List (Nat × β) → Nat → List β → List (Nat × β)
  | m, _, [] => m
  | m, q, v :: vs => putAll d (put d m q v) (q + 1) vs

/-- The values at n consecutive keys. -/
def getAll (d : Nat → β) (m : List (Nat × β)) (q n : Nat) : List β :=
  (List.range n).map fun i => get d m (q + i)

end Sys2Proof.Machine.Sparse
end

