-- ==== Sys2Proof/Machine/Store.lean ====
section
/-! DEFINITION. The two stores of the state: byte memory in named spaces, and the dictionary values. What an unlisted
address or entry reads as is said here once. -/

namespace Sys2Proof.Machine

/-- The byte spaces of R29: payload memory, the content of DOMAIN entries, the raw flash, the windows and tables that
the part lays out itself. Each is 2^56 bytes of one address space (log 3). -/
inductive Space where
  | payload | content | flash | banks | drive | capture | lampMap | upload | almanac | lineStore | firmware | streams
  | tableBuild
  deriving DecidableEq, Repr

/-- The number of a space. -/
def Space.number : Space → Nat
  | .payload => 0 | .content => 1 | .flash => 2 | .banks => 3 | .drive => 4 | .capture => 5 | .lampMap => 6
  | .upload => 7 | .almanac => 8 | .lineStore => 9 | .firmware => 10 | .streams => 11
  | .tableBuild => 12

/-- The address of an offset of a space. -/
def Space.at (sp : Space) (offset : Nat) : Nat := sp.number * 2 ^ 56 + offset

/-- Where the content of a DOMAIN entry lies in a space of contents. -/
def contentOffset (k : Key) (offset : Nat) : Nat := k * 2 ^ 28 + offset

/-- Byte i of a row-major 3 × 3 identity of FIX16 (R305, R280). -/
def identityByte (i : Nat) : Byte := if i % 4 = 2 && i / 4 % 4 == 0 then 1 else 0

/-- The content that a DOMAIN entry has by default: the identity for 4210h+v.02 and 6300h+o.05, the fuse block for the
compensation tables (R409), zero for the others. Log 2, log 3. -/
def defaultContent (k : Key) (offset : Nat) : Byte :=
  if k % 256 = 2 && 0x4210 ≤ k / 256 && k / 256 < 0x4218 then identityByte offset
  else if k % 256 = 5 && 0x6300 ≤ k / 256 && k / 256 < 0x6302 then identityByte offset
  else if k / 256 = 0x1220 then Config.fuseByte (k % 256 * 64 + offset)
  else 0

/-- What an unlisted address reads as: erased flash 0xFF, the default content of the dictionary, zero elsewhere
(DESIGN CHOICE, log 3). -/
def memDefault (a : Nat) : Byte :=
  if a / 2 ^ 56 = Space.flash.number then 0xFF
  else if a / 2 ^ 56 = Space.content.number then defaultContent (a % 2 ^ 56 / 2 ^ 28) (a % 2 ^ 28)
  else 0

/-- A byte of memory. -/
def memGet (m : List Host.Cell) (a : Nat) : Byte := Sparse.get memDefault m a

/-- Bytes from an address. -/
def memRead (m : List Host.Cell) (a n : Nat) : List Byte := Sparse.getAll memDefault m a n

/-- Memory with bytes at an address. -/
def memWrite (m : List Host.Cell) (a : Nat) (bs : List Byte) : List Host.Cell := Sparse.putAll memDefault m a bs

/-- The canonical form of memory. -/
abbrev Memory.wf (m : List Host.Cell) : Bool := Sparse.wf memDefault m

/-- The dictionary values: what each entry holds where that is not its default. -/
abbrev Values := List (Nat × Nat)

/-- The value of an entry. -/
def valueOf (p : Personality) (r : Values) (k : Key) : Nat := Sparse.get (defaultOf p) r k

/-- The values with one entry set: an absent or CONST entry keeps what it reads as, and a value is cut to the entry's
width. -/
def setValue (p : Personality) (r : Values) (k : Key) (v : Nat) : Values :=
  match rowAt p k with
  | some row => if row.acc = .konst then r else Sparse.put (defaultOf p) r k (v % 2 ^ row.ty.width)
  | none => r

/-- The values of a part that takes personality q: its defaults, but for the entries kept from before (R35, R429). -/
def resetValues (p q : Personality) (keep : List Key) (r : Values) : Values :=
  keep.foldl (fun acc k => setValue q acc k (valueOf p r k)) []

end Sys2Proof.Machine
end

