-- ==== Sys2Proof/Machine/State.lean ====
section
/-! DEFINITION. State as plain data: the queue of waiting commands, the dictionary values, memory, and what the spec
gives the part beside its dictionary, one structure for each block. -/

namespace Sys2Proof.Machine

/-- A fault of the part. No command of the block ends in one: every stop of the spec is a status code, an event or a
mode of the state. -/
inductive Fault where
  deriving DecidableEq, Repr

/-- Why a step is not taken. -/
inductive Refusal where
  /-- Raised by an arm of exec whose command has no meaning yet; safe, for nothing is claimed of it. -/
  | notModelled (mnemonic : String)
  deriving DecidableEq, Repr

/-- What the part gives to the outside: the model's own record, oldest first (log 6). A slot is the sixteen blocks that
leave a port as the symbols of its lanes (R98), an event names the rule that raises it, a pin its ball, net a message on a
100GbE port, a pulse the level of a SYNC ball from an instant in 1/64 cc of local time on for a width in ns (R300), a lane its
66-bit blocks after 58 bits of its line that stand before them (R333), and diagnose the currents that the references of a lane
take in a diagnostic slot (R354). -/
inductive Output where
  | answer (door : Door) (status : Nat) (value : List Byte)
  | datagram (address port : Nat) (payload : List Byte)
  | net (port : Nat) (message : NetMessage)
  | spi (bytes : List Byte)
  | completion (data : List Byte) (poisoned : Bool)
  | slot (port : Nat) (lanes : List (List Level))
  | event (rule detail : Nat)
  | vector (n : Nat)
  | lane (lane before : Nat) (words : List Nat)
  | diagnose (lane : Nat) (currents : List Nat)
  | pin (rule number : Nat) (level : Bool)
  | pulse (number : Nat) (level : Bool) (start : Int) (width : Nat)
  | pixels (output : Nat) (data : List Byte)
  deriving DecidableEq, Repr

/-- A commit: its entries, its staged DOMAIN content by address of Space.content, T of a TIMED one, whether it is the
boot commit, the tick at which it is due once its checks have passed, and the entry with which it failed step 2 at the command
(R45 to R49, R436). -/
structure Commit where
  entries : List (Nat × Nat)
  content : List (Nat × Byte)
  time : Option Nat
  boot : Bool
  due : Nat
  late : Option Nat
  deriving DecidableEq, Repr

/-- The commit engine (R45 to R50): the staging set, the commit under check, the command that waits (true for TIMED)
and the pending commit. -/
structure CommitState where
  staged : List (Nat × Nat)
  content : List (Nat × Byte)
  checking : Option Commit
  waiting : Option Bool
  pend : Option Commit
  deriving DecidableEq, Repr

/-- The reset controller (R430 to R436): the reset asserted and whether it is held by a flash pulse, whether a warm
reset holds CORE, the interrupted mode, whether the settings have been read and the boot commit has run, the nature of the
start in progress, the PLLs that have failed (0 core, 1 memory, 2 SerDes), whether a trip holds the domains (R407),
whether the choice of the image waits for MEM (R468), the block that is asked to go idle (R440), and when the part came to a mode that allows a commit, in ns (R470). -/
structure ResetState where
  request : Option Nat
  scope : Nat
  held : Bool
  coreHeld : Bool
  interrupted : Nat
  warmStart : Bool
  settingsRead : Bool
  bootRan : Bool
  failed : List Nat
  tripped : Bool
  imagePending : Bool
  block : Nat
  confirmFrom : Nat
  deriving DecidableEq, Repr

/-- Mode changes in preparation (R402, R444, R445). -/
structure ModeState where
  request : Option (Nat × Nat)
  automatic : Option Nat
  missed : Nat
  seen : Nat
  byEnum : Bool
  throttleTick : Option (Bool × Nat)
  deriving DecidableEq, Repr

/-- The tick grid (R174) with the slot count of the beacons (R192). -/
structure Grid where
  anchorTick : Nat
  anchor : Int
  rn : Nat
  rd : Nat
  slots : Nat
  deriving DecidableEq, Repr

/-- A re-epoch announced (R197, R198): delta in 2⁻¹⁶ ns. -/
structure Reepoch where
  plain : Bool
  tick : Nat
  delta : Int
  deriving DecidableEq, Repr

/-- A time source of a sender (R177, R182, R528): its offset in 2⁻¹⁶ ns, source minus local, whether it has been locked since
POR or cold reset, and its last edges, newest first, by the cycle counter in 1/64 cc. -/
structure SourceState where
  locked : Bool
  hadLock : Bool
  passed : Bool
  good : Nat
  bad : Nat
  offset : Option Int
  edges : List Int
  deriving DecidableEq, Repr

/-- The PTP clock of a sender (R178, R179): the best master heard on each 100GbE port, the port in use and whether it has
changed since the last offset, a Sync that waits for its Follow_Up with its arrival, a Delay_Req that waits for its answer with
its departure, the last master-to-slave delay and the mean path delay in 2⁻¹⁶ ns, the number of the next Delay_Req, and the
domain. -/
structure PtpState where
  best : List (Option PtpMaster)
  port : Nat
  moved : Bool
  sync : Option (Nat × Int)
  asked : Option (Nat × Int)
  span : Int
  path : Option Int
  sequence : Nat
  domain : Nat
  deriving DecidableEq, Repr

/-- The time core: local time in units of 1/(5·2¹⁶) ns, so that 1 cc is 262144 units (R9, R172); the steering rates of the last
10 s by the cycle from which each held, newest first, and when the steering last changed (R181, R182); and the phase trim in
progress: its first cycle, its amount and what of it has been made, in 2⁻¹⁶ ns (R192). -/
structure TimeState where
  now : Nat
  cycles : Nat
  grid : Option Grid
  accepted : Nat
  alarmRun : Nat
  reepoch : Option Reepoch
  beaconSrcs : List Nat
  beaconSource : Nat
  ptp : PtpState
  vrefRate : Nat × Nat
  sources : List SourceState
  rateHeld : Int
  rates : List (Nat × Int)
  relockAt : Option Nat
  held : Bool
  tjLog : List Int
  rateAt : Nat
  trimFrom : Nat
  trimTotal : Int
  trimDone : Int
  deriving DecidableEq, Repr

/-- One direction of a port: the scrambler seeds of its four lanes from its last ALIGN slot, and the slots since (R105,
R112). -/
structure Line where
  seeds : List Nat
  slot : Nat
  deriving DecidableEq, Repr

/-- What waits for a slot: a cell with the blocks that are to leave poisoned, or a RESET slot (R111, R115, R236). -/
inductive Burden where
  | cell (c : Cell) (poison : List Nat)
  | reset (target kind : Nat)
  deriving DecidableEq, Repr

/-- A burden in the queue of a port: its place in the order of R115 or R236, the local time in ns before which it does not
leave, and the queue whose ring moves on when it has left (R233). -/
structure Waiting where
  rank : Nat
  burden : Burden
  after : Nat
  ring : Option Nat
  deriving DecidableEq, Repr

/-- One Elxel port (R97 to R136) and its hop probe (R190): its two directions, whether it waits for an ALIGN slot (R116), the
number of the next slot of its own grid, what waits for one, own cells in the group of 32, free slots owed to it (R117), the
queue served last at each priority (R236), and the taps in use with the status of the last request (R120). -/
structure PortState where
  tx : Line
  rx : Line
  lost : Bool
  slots : Nat
  egress : List Waiting
  used : Nat
  owed : Nat
  turns : List (Nat × Nat)
  taps : List Nat
  eqStatus : Nat
  heldDown : Bool
  failures : Nat
  fromUp : Bool
  wasUp : Bool
  hops : Nat
  rst : Option (Nat × Nat × Nat)
  rstReady : Option Nat
  lowRun : List Nat
  margin : Bool
  filter : List Int
  pathValid : Bool
  probeSeq : Nat
  beaconSeq : Nat
  beaconTick : Bool
  missRun : Nat
  hitRun : Nat
  deriving DecidableEq, Repr

/-- A deferred service entry (R126 to R131). -/
structure Deferred where
  port : Nat
  tag : Nat
  src : Nat
  fromEnd : Bool
  op : Nat
  key : Nat
  label : Nat
  value : List Byte
  silent : Bool
  blocks : Nat
  deriving DecidableEq, Repr

/-- A sweep of which the tile owes an answer cell: entries answered so far, each with its continuations, how many still wait, and the SEQ of the sweep (R108, R129). -/
structure SweepAnswer where
  port : Nat
  tag : Nat
  src : Nat
  fromEnd : Bool
  left : Nat
  done : List (List Byte)
  seq : Nat
  deriving DecidableEq, Repr

/-- The link as a whole: cells taken and not yet handled, with the port that took them, the deferred queue and the
answers owed, and the enumeration (R18, R126 to R131). -/
structure LinkState where
  rx : List (Nat × Cell)
  deferred : List Deferred
  owed : List SweepAnswer
  addresses : List (Nat × Nat × Nat)
  enumerated : Bool
  chains : List (Nat × Nat)
  deriving DecidableEq, Repr

/-- What a gateway's request was sent for: a mailbox (R66), a record of a datagram (R59), or the update distribution
(R466). -/
inductive Asker where
  | mailbox (n : Nat)
  | record (datagram index : Nat)
  | update
  deriving DecidableEq, Repr

/-- A request that the gateway has sent (R53 to R55): its tag and port, the stream of a DOMAIN op, and when it was sent, in
ns. -/
structure Request where
  tag : Nat
  port : Nat
  asker : Asker
  target : Nat
  op : Nat
  key : Nat
  stream : Option Nat
  sentAt : Nat
  deriving DecidableEq, Repr

/-- One record of a Tlaroek datagram, its 16 bytes and what follows, and its answer (R58, R59). -/
structure RecordState where
  request : List Byte
  status : Option Nat
  value : List Byte
  deriving DecidableEq, Repr

/-- A Tlaroek datagram in progress, with the source address and port of its request (R59). -/
structure Datagram where
  number : Nat
  address : Nat
  port : Nat
  transaction : Nat
  records : List RecordState
  deriving DecidableEq, Repr

/-- An open DOMAIN transfer (R56): its stream, the other end, its entry, and when it was last used, in ns. -/
structure Transfer where
  stream : Nat
  target : Nat
  key : Nat
  touched : Nat
  deriving DecidableEq, Repr

/-- The doors and the gateway (R53 to R71), with the count of service cells sent (R108) and the result of an SPI frame that is
still to be answered (R68). -/
structure DoorState where
  requests : List Request
  datagrams : List Datagram
  nextTag : Nat
  nextDatagram : Nat
  transfers : List Transfer
  cells : Nat
  spiWrite : Option (Nat × List Byte)
  deriving DecidableEq, Repr

/-- The budgets (R82 to R92): the byte budgets in full, byte and cycle charges, overrun streaks, the masters that overran in the
tick, the releases that wait for the boundary, and how many requests that were issued before a freeze may still be granted. -/
structure BudgetState where
  limits : List Nat
  bytes : List Nat
  cycles : List Nat
  streak : List Nat
  overran : Nat
  release : Nat
  compute : Bool
  turn : List (Nat × Nat)
  flight : List Nat
  deriving DecidableEq, Repr

/-- A discard window: high mark and bitmap, bit i for H − i (R149). -/
structure Window where
  high : Nat
  seen : Nat
  deriving DecidableEq, Repr

/-- A run of cells of one stream with consecutive SEQ, from start to stop, and whether it begins with FIRST and ends with
LAST: part of a message being gathered (R250, R290). -/
structure Gathering where
  start : Nat
  stop : Nat
  first : Bool
  last : Bool
  lt : Nat
  src : Nat
  bytes : List Byte
  deriving DecidableEq, Repr

/-- A complete message. -/
structure Message where
  stream : Nat
  bytes : List Byte
  lt : Nat
  src : Nat
  deriving DecidableEq, Repr

/-- A digest of the sender pair (R153). -/
structure TickDigest where
  port : Nat
  tick : Nat
  xor : Nat
  count : Nat
  failed : Bool
  sent : Bool
  deriving DecidableEq, Repr

/-- What is counted in one tick, for Harvest and the Almanac (R158, R486). -/
structure TickCounts where
  linkBits : Nat
  memErrors : Nat
  duplicates : Nat
  divergences : Nat
  underruns : Nat
  harvests : Nat
  ports : List Nat
  corrected : List Nat
  uncorrectable : List Nat
  idle : List Nat
  cells : List Nat
  diverged : Bool
  holdover : Bool
  deriving DecidableEq, Repr

/-- The redundancy of looped chains and the sender pair (R149 to R165): beside windows and digests, whether a condition of the
self-check held in the tick, whether the tile has been on a loop, a handover asked for or shown by the peer, and what the last
tick boundary decided: a takeover, and the clock-upstream port. -/
structure PairState where
  windows : List (Nat × Window)
  digests : List (Nat × Nat × Nat)
  own : List TickDigest
  peer : List TickDigest
  agree : List Nat
  yields : List (Nat × Nat)
  selfHold : Nat
  silent : Nat
  harvestBad : Nat
  claim : Option Nat
  peerClean : Bool
  peerMaster : Bool
  dual : Bool
  heard : List (Nat × Nat)
  lastFlips : Nat
  selfSeen : Bool
  loop : Bool
  handing : Bool
  handed : Bool
  takeover : Bool
  upstream : Option Nat
  deriving DecidableEq, Repr

/-- An extreme of an Almanac page (R483). -/
structure Extreme where
  min : Int
  max : Int
  minOff : Nat
  maxOff : Nat
  deriving DecidableEq, Repr

/-- The open page of the Almanac (R483). -/
structure Page where
  tick : Nat
  gridless : Bool
  time : Nat
  ticks : Nat
  interval : Nat
  bins : List Nat
  ext : List Extreme
  loss : Bool
  deriving DecidableEq, Repr

/-- The Almanac engine (R482 to R495): the open page, the close in progress with its reason, the shadow bins and
extremes of R490, and the next slot to persist. -/
structure AlmanacState where
  page : Option Page
  closing : Option Nat
  shadow : List Nat
  shadowExt : List (Nat × Int)
  shadowLoss : Bool
  frozenLoss : Bool
  persisted : Nat
  queued : Bool
  deriving DecidableEq, Repr

/-- A queue context of the sender (R232, R241). -/
structure QueueContext where
  base : Nat
  size : Nat
  head : Nat
  tail : Nat
  seq : Option Nat
  state : Nat
  cells : Nat
  deriving DecidableEq, Repr

/-- A frame of a DisplayPort or ST 2110 source, stored as RGB48F (R210, R214): the source's own count of complete
frames, its size and its pixels. -/
structure Frame where
  count : Nat
  width : Nat
  height : Nat
  pixels : List Byte
  deriving DecidableEq, Repr

/-- A frame that the compressor has to take (R221, R227): its source code, its number, the frame itself for a DisplayPort or
ST 2110 source, the pixels of each band that no engine has taken yet, whether one has, since when the frame may be compressed,
and when the last band taken is done, both in 1/20 ns. -/
structure CompressJob where
  source : Nat
  number : Nat
  frame : Option Frame
  bands : List Nat
  started : Bool
  ready : Option Nat
  finish : Nat
  deriving DecidableEq, Repr

/-- A ST 2110 flow (R212, R213): the addresses that its legs have joined, since when it waits and when each leg delivered last,
the sequence numbers taken in the last 2 ms with their times, the packets of the frame in progress, the first and last numbers
of that frame where they are known, the legs that delivered some of it, and when the last one was complete with the time
between the last two, in ns. -/
structure FlowState where
  joined : List (Option Nat)
  since : Nat
  seenAt : List Nat
  taken : List (Nat × Nat)
  packets : List (Nat × List Byte)
  first : Option Nat
  last : Option Nat
  legs : Nat
  completedAt : Option Nat
  period : Option Nat
  deriving DecidableEq, Repr

/-- A preview output (R268, R269): the bytes of its sink's EDID, the tick it is being built for, whether a frame has started
since its last build, the bank that the output reads and the two banks. -/
structure PreviewState where
  edid : Nat
  building : Option Nat
  fresh : Bool
  built : Bool
  bank : Nat
  banks : List (List Byte)
  deriving DecidableEq, Repr

/-- Sender ingest, flips and queues (R205 to R240): the newest complete frame, the newest compressed one and the one in
use of each source code, the compressor's frames, the clips with their frame and the advances since it was taken, the
groups held stale, the layer cells of the tick in launch, the last tick sliced, the cells of each direct queue in a tick,
the queue contexts, LT of a held message by queue, the previews, and the last edge of each SYNC output in 1/64 cc; when each of the
four compressor engines is free, in 1/20 ns; and for each DisplayPort receiver the HPD level, whether it signals full range, and
when it was last asserted or complete, in ns. -/
structure IngestState where
  engines : List Nat
  hpd : List Bool
  full : List Bool
  dpAt : List Nat
  flows : List FlowState
  counts : List (Nat × Nat)
  newest : List (Nat × Frame)
  ready : List (Nat × Frame)
  used : List (Nat × Frame)
  jobs : List CompressJob
  clips : List (Nat × Nat × Nat)
  stale : Nat
  launchTick : Nat
  sliced : Option Nat
  direct : List (Nat × Nat)
  directTick : Nat
  queues : List (Nat × QueueContext)
  held : List (Nat × Nat)
  previews : List PreviewState
  edges : List (Nat × Int)
  deriving DecidableEq, Repr

/-- A window in a bank (R249 to R255): its tick, the bank, its descriptor, its blocks, whether the compositor has read them, and
the blocks that it found bad and could not substitute. -/
structure Surface where
  tick : Nat
  bank : Nat
  descriptor : List Byte
  blocks : List Byte
  read : Bool
  bad : List Nat
  deriving DecidableEq, Repr

/-- A view's drive image (R282): the tick it was composed for, the bank, and one value for each lamp. -/
structure Image where
  tick : Nat
  bank : Nat
  lamps : List Nat
  deriving DecidableEq, Repr

/-- One line of the L7 line store: wall line, first pixel, 8 bytes a pixel as colour and coverage (R267). -/
structure StoredLine where
  view : Nat
  y : Nat
  pixels : List (List Byte × Nat)
  deriving DecidableEq, Repr

/-- The receive path and the compositor of a tile (R249 to R267). -/
structure ComposeState where
  gathering : List (Nat × Gathering)
  messages : List Message
  taken : List (Nat × Nat)
  streams : List (Nat × List Byte)
  fresh : List (Nat × Surface)
  current : List (Nat × Surface)
  previous : List (Nat × Surface)
  mismatchTick : Option Nat
  tick : Option Nat
  late : List Nat
  stale : List Nat
  todo : List Nat
  images : List (Nat × Image)
  older : List (Nat × Image)
  lines : List StoredLine
  margins : List Nat
  substituted : List (Nat × Nat)
  captureFrom : Option Nat
  captureFull : Nat
  firstAfter : Option Nat
  deriving DecidableEq, Repr

/-- A bank of a coefficient table (R289, R291): the TOTAL of its START and the order in which its last load began. -/
structure BankLoad where
  total : Nat
  began : Nat
  deriving DecidableEq, Repr

/-- The colour tables (R289 to R294). -/
structure ColourState where
  loads : List BankLoad
  order : Nat
  uploadTotal : Nat
  deriving DecidableEq, Repr

/-- One lane of the scan path (R335 to R345): the frame in progress. -/
structure LaneState where
  frame : Nat
  started : Bool
  ended : Bool
  rows : Nat
  blocks : Nat
  data : List Byte
  view : Nat
  slot : Nat
  dark : Bool
  shortRun : Nat
  deriving DecidableEq, Repr

/-- A string queued for locating or under test (R355). -/
structure Locate where
  lane : Nat
  array : Nat
  string : Nat
  attempts : Nat
  sweep : Bool
  mask : Nat
  pulsed : Bool
  deriving DecidableEq, Repr

/-- A panel diode (R351): its last valid samples, runs of bad and good ones, and whether it has been good. -/
structure DiodeState where
  samples : List Int
  bad : Nat
  good : Nat
  known : Bool
  deriving DecidableEq, Repr

/-- The scan path, the lanes, the lamp map and the diagnosis (R314 to R361, R298). Td and the derate factors stand for the tick
tdTick, and beside them those of the tick before (R284, R352); refs are the currents of CR0 to CR63 and CRS (R350); frameAt is the cycle count at each preview frame start (R317). -/
structure ScanState where
  running : Bool
  tick : Nat
  slot : Nat
  lanes : List LaneState
  margins : List (List Nat)
  clipped : List Nat
  darkRun : Nat
  kinds : List Nat
  refs : List Nat
  diodes : List DiodeState
  tds : List Int
  tdsBefore : List Int
  tdTick : Nat
  targets : List Nat
  queue : List Locate
  testing : List Locate
  recent : List (Nat × Nat)
  suspects : List Nat
  sweeping : Bool
  sweepAt : List Nat
  dark : Option (Nat × Nat)
  results : List (Locate × Nat)
  mapLoaded : Bool
  derateNow : List Nat
  derateBefore : List Nat
  maps : List Nat
  codes : List Nat
  dither : Nat
  frameAt : List Nat
  deriving DecidableEq, Repr

/-- An entry of a row tracker (R385). -/
structure Tracked where
  channel : Nat
  bank : Nat
  row : Nat
  count : Nat
  requester : Nat
  deriving DecidableEq, Repr

/-- The row open in a bank, with the code atoms in its code buffer and those that have changed, one bit each (R373). -/
structure OpenRow where
  row : Nat
  filled : Nat
  dirty : Nat
  deriving DecidableEq, Repr

/-- The memory controller (R371 to R391): write-backs queued for each channel, the retries of the last second as channel and
uptime, the trackers, the throttles by channel and requester, the floor spacings of the last commit check by profile, requester and
channel, the windows to be halved, the poisoned words, the place of the freeze, the open rows by 16 × channel + bank, the pin rate
in effect, and the training: attempts by channel, channels done, the uptime at each channel's last one, and whether a release
waits for it. -/
structure MemoryState where
  writeBacks : List Nat
  retries : List (Nat × Nat)
  trackers : List Tracked
  throttles : List (Nat × Nat)
  floors : List (Nat × Nat)
  halving : List Bool
  poison : List Nat
  failing : Option MemPlace
  freezeKind : Nat
  scrubNow : Bool
  retraining : Option Nat
  rate : Nat
  rows : List (Nat × OpenRow)
  attempts : List Nat
  trained : Nat
  trainedAt : List Nat
  releasing : Bool
  deriving DecidableEq, Repr

/-- A die sensor's runs of failing and passing samples, and whether a cold reset lets it become valid again (R400). -/
structure SensorState where
  opened : Nat
  range : Nat
  differ : Nat
  passed : Nat
  eligible : Bool
  deriving DecidableEq, Repr

/-- One Equinox run (R415): its item, phase and measurements, in 2⁻¹⁶ µA or counts. -/
structure EquinoxRun where
  item : Nat
  pair : Nat
  first : Option (List Int)
  agreed : Option (List Int)
  startTj : Int
  aborted : Option Nat
  diff : Nat
  deriving DecidableEq, Repr

/-- The thermal monitor, Equinox and the maintenance arbiter (R398 to R423). -/
structure HeatState where
  sensors : List SensorState
  run : Option EquinoxRun
  bandgapNext : Option Nat
  commanded : List Nat
  waiting : List Nat
  bandgapAt : Nat
  shutdownWaits : Bool
  rcTcal : Int
  deriving DecidableEq, Repr

/-- The update session (its declared length, chunks gathered, written and programmed, and when it was last used), the store in progress with
its repeats, the stores that wait, the repeats of a consolidation, and the sender's distribution: its stage, the targets
left, refused and done with the stage, the bytes sent and when the stage began, in ns (R461 to R478). -/
structure UpdateState where
  dlen : Nat
  buffer : List (Nat × List Byte)
  written : List Nat
  programmed : List Nat
  touched : Nat
  store : Option (Nat × Nat)
  storeQueue : List Nat
  consolidate : Nat
  targets : List Nat
  refused : List Nat
  ready : List Nat
  stage : Nat
  sentTo : Nat
  since : Nat
  deriving DecidableEq, Repr

/-- What the spec gives the part beside its dictionary, block by block; last the pins of AON: LAMP_EN as it is driven, the clamp
of the CR outputs, XSPI_RESET_N driven low (R502), the 3.3 V levels of VIO_B (R504), and EXTEST in the TAP (R514). -/
structure Hidden where
  commit : CommitState
  reset : ResetState
  mode : ModeState
  time : TimeState
  ports : List PortState
  link : LinkState
  doors : DoorState
  budget : BudgetState
  pair : PairState
  counts : TickCounts
  lastCounts : TickCounts
  almanac : AlmanacState
  ingest : IngestState
  compose : ComposeState
  colour : ColourState
  scan : ScanState
  memory : MemoryState
  heat : HeatState
  update : UpdateState
  lampEn : Bool
  clamped : Bool
  flashReset : Bool
  vioHigh : Bool
  extest : Bool
  deriving DecidableEq, Repr

/-- The state of the block: the waiting commands, first in first out, the record of what has gone out, the strap and
the personality, the dictionary values, memory, the rest of the part, and the counter of free values (log 9). -/
structure State where
  pending : List Instr
  outputs : List Output
  strap : BitVec 2
  pers : Personality
  regs : Values
  mem : List Host.Cell
  hid : Hidden
  free : Nat
  deriving DecidableEq, Repr

def CommitState.initial : CommitState := ⟨[], [], none, none, none⟩

def ResetState.initial : ResetState where
  request := none
  scope := 0
  held := false
  coreHeld := false
  interrupted := 2
  warmStart := false
  settingsRead := false
  bootRan := false
  failed := []
  tripped := false
  imagePending := false
  block := 0
  confirmFrom := 0

def ModeState.initial : ModeState := ⟨none, none, 0, 0, false, none⟩

def SourceState.initial : SourceState := ⟨false, false, false, 0, 0, none, []⟩

def PtpState.initial : PtpState where
  best := [none, none]
  port := 0
  moved := false
  sync := none
  asked := none
  span := 0
  path := none
  sequence := 0
  domain := 127

def TimeState.initial : TimeState where
  now := 0
  cycles := 0
  grid := none
  accepted := 0
  alarmRun := 0
  reepoch := none
  beaconSrcs := []
  beaconSource := 0
  ptp := PtpState.initial
  vrefRate := (0, 0)
  sources := List.replicate 4 SourceState.initial
  rateHeld := 0
  rates := []
  relockAt := none
  held := true
  tjLog := []
  rateAt := 0
  trimFrom := 0
  trimTotal := 0
  trimDone := 0

def Line.initial : Line := ⟨[0, 0, 0, 0], 0⟩

def PortState.initial : PortState where
  tx := Line.initial
  rx := Line.initial
  lost := false
  slots := 0
  egress := []
  used := 0
  owed := 0
  turns := []
  taps := [4, 52, 8]
  eqStatus := 0
  heldDown := false
  failures := 0
  fromUp := false
  wasUp := false
  hops := 0x3F
  rst := none
  rstReady := none
  lowRun := [0, 0, 0, 0]
  margin := false
  filter := []
  pathValid := false
  probeSeq := 0
  beaconSeq := 0
  beaconTick := false
  missRun := 0
  hitRun := 0

def LinkState.initial : LinkState := ⟨[], [], [], [], false, []⟩

def DoorState.initial : DoorState := ⟨[], [], 0, 0, [], 0, none⟩

def BudgetState.initial : BudgetState :=
  ⟨List.replicate 11 0, List.replicate 11 0, List.replicate 11 0, List.replicate 11 0, 0, 0, true, [], List.replicate 11 0⟩

def TickCounts.initial : TickCounts where
  linkBits := 0
  memErrors := 0
  duplicates := 0
  divergences := 0
  underruns := 0
  harvests := 0
  ports := []
  corrected := List.replicate 16 0
  uncorrectable := List.replicate 16 0
  idle := List.replicate 16 0
  cells := List.replicate 16 0
  diverged := false
  holdover := false

def PairState.initial : PairState where
  windows := []
  digests := []
  own := []
  peer := []
  agree := List.replicate 16 0
  yields := []
  selfHold := 0
  silent := 0
  harvestBad := 0
  claim := none
  peerClean := false
  peerMaster := false
  dual := false
  heard := []
  lastFlips := 0
  selfSeen := false
  loop := false
  handing := false
  handed := false
  takeover := false
  upstream := none

def AlmanacState.initial : AlmanacState := ⟨none, none, List.replicate 64 0, [], false, false, 0, false⟩

def FlowState.initial : FlowState := ⟨[none, none], 0, [0, 0], [], [], none, none, 0, none, none⟩

def QueueContext.initial : QueueContext := ⟨0, 16, 0, 0, none, 0, 0⟩

def PreviewState.initial : PreviewState := ⟨0, none, false, false, 0, [[], []]⟩

def IngestState.initial : IngestState where
  engines := [0, 0, 0, 0]
  hpd := [false, false, false, false]
  full := [false, false, false, false]
  dpAt := [0, 0, 0, 0]
  flows := List.replicate 16 FlowState.initial
  counts := []
  newest := []
  ready := []
  used := []
  jobs := []
  clips := []
  stale := 0
  launchTick := 0
  sliced := none
  direct := []
  directTick := 0
  queues := []
  held := []
  previews := List.replicate 2 PreviewState.initial
  edges := []

def ComposeState.initial : ComposeState where
  gathering := []
  messages := []
  taken := []
  streams := []
  fresh := []
  current := []
  previous := []
  mismatchTick := none
  tick := none
  late := []
  stale := []
  todo := []
  images := []
  older := []
  lines := []
  margins := []
  substituted := []
  captureFrom := none
  captureFull := 0
  firstAfter := none

def ColourState.initial : ColourState := ⟨List.replicate 4 ⟨0, 0⟩, 0, 0⟩

def LaneState.initial : LaneState :=
  ⟨0, false, false, 0, 0, [], 0, 0, false, 0⟩

def DiodeState.initial : DiodeState := ⟨[], 0, 0, false⟩

def ScanState.initial : ScanState where
  running := false
  tick := 0
  slot := 255
  lanes := List.replicate 32 LaneState.initial
  margins := List.replicate 4 []
  clipped := List.replicate 4 0
  darkRun := 0
  kinds := List.replicate 32 3
  refs := List.replicate 65 0
  diodes := List.replicate 4 DiodeState.initial
  tds := [1440, 1440, 1440, 1440]
  tdsBefore := [1440, 1440, 1440, 1440]
  tdTick := 0
  targets := List.replicate 4 65536
  queue := []
  testing := []
  recent := []
  suspects := []
  sweeping := false
  sweepAt := List.replicate 128 48
  dark := none
  results := []
  mapLoaded := false
  derateNow := List.replicate 4 65536
  derateBefore := List.replicate 4 65536
  maps := [0, 0, 0, 0]
  codes := List.replicate 8 255
  dither := 3
  frameAt := [0, 0]

def MemoryState.initial : MemoryState where
  writeBacks := List.replicate 36 0
  retries := []
  trackers := []
  throttles := []
  floors := []
  halving := List.replicate 36 false
  poison := []
  failing := none
  freezeKind := 0
  scrubNow := false
  retraining := none
  rate := 160
  rows := []
  attempts := List.replicate 36 0
  trained := 0
  trainedAt := List.replicate 36 0
  releasing := false

def SensorState.initial : SensorState := ⟨0, 0, 0, 0, true⟩

def HeatState.initial : HeatState :=
  ⟨List.replicate 12 SensorState.initial, none, none, [], [], 0, false, 0⟩

def UpdateState.initial : UpdateState where
  dlen := 0
  buffer := []
  written := []
  programmed := []
  touched := 0
  store := none
  storeQueue := []
  consolidate := 0
  targets := []
  refused := []
  ready := []
  stage := 0
  sentTo := 0
  since := 0

def Hidden.initial : Hidden where
  commit := CommitState.initial
  reset := ResetState.initial
  mode := ModeState.initial
  time := TimeState.initial
  ports := List.replicate 16 PortState.initial
  link := LinkState.initial
  doors := DoorState.initial
  budget := BudgetState.initial
  pair := PairState.initial
  counts := TickCounts.initial
  lastCounts := TickCounts.initial
  almanac := AlmanacState.initial
  ingest := IngestState.initial
  compose := ComposeState.initial
  colour := ColourState.initial
  scan := ScanState.initial
  memory := MemoryState.initial
  heat := HeatState.initial
  update := UpdateState.initial
  lampEn := false
  clamped := true
  flashReset := true
  vioHigh := false
  extest := false

/-- The part right after reset: a tile (DESIGN CHOICE, log 1), in BOOT, with AON released only (R429, R435, R446) and an
empty queue. -/
def State.reset : State where
  pending := []
  outputs := []
  strap := 0b01
  pers := .tile
  regs := []
  mem := []
  hid := Hidden.initial
  free := 0

end Sys2Proof.Machine
end

