-- ==== Sys2Proof/Machine/Ops.lean ====
section
/-! DEFINITION. What a command can do to the state, said once: the primitive acts, and effects built from them. An
effect never touches the queue of waiting commands. -/

namespace Sys2Proof.Machine

/-- The primitive changes of the state. -/
inductive Act where
  /-- An entry takes a value, cut to its width; an absent or CONST entry keeps its own. -/
  | reg (k : Key) (v : Nat)
  /-- The configuration store and the counters go to their defaults, but for the entries kept (R35, R429). -/
  | resetRegs (p : Personality) (keep : List Key)
  /-- Bytes are stored. -/
  | store (a : Nat) (bs : List Byte)
  /-- Bytes of [lo, hi) go back to what an unlisted address reads as. -/
  | erase (lo hi : Nat)
  /-- The state beside the dictionary changes. -/
  | hid (f : Hidden → Hidden)
  /-- Something goes to the outside. -/
  | out (o : Output)
  /-- A free value has been used (log 9). -/
  | fresh

/-- One act. -/
def Act.apply : Act → State → State
  | .reg k v, s => { s with regs := setValue s.pers s.regs k v }
  | .resetRegs p keep, s => { s with pers := p, regs := resetValues s.pers p keep s.regs }
  | .store a bs, s => { s with mem := memWrite s.mem a bs }
  | .erase lo hi, s => { s with mem := Sparse.clearRange lo hi s.mem }
  | .hid f, s => { s with hid := f s.hid }
  | .out o, s => { s with outputs := s.outputs ++ [o] }
  | .fresh, s => { s with free := s.free + 1 }

/-- An effect: acts in sequence, and choices that look at the state at that point. -/
inductive Effect where
  | nothing
  | act (a : Act)
  | seq (a b : Effect)
  | look (f : State → Effect)

/-- The state after an effect. -/
def Effect.run : Effect → State → State
  | .nothing, s => s
  | .act a, s => a.apply s
  | .seq a b, s => b.run (a.run s)
  | .look f, s => (f s).run s

/-- Effects one after the other. -/
def Effect.all : List Effect → Effect
  | [] => .nothing
  | [e] => e
  | e :: es => .seq e (all es)

/-- An effect under a condition on values already read. -/
def Effect.when (c : Bool) (e : Effect) : Effect := if c then e else .nothing

/-- An effect under a condition on the state. -/
def Effect.if' (c : State → Bool) (a : Effect) (b : Effect := .nothing) : Effect :=
  .look fun s => if c s then a else b

/-- One effect for each element of a list, in order. -/
def Effect.each {α : Type} (f : α → Effect) : List α → Effect
  | [] => .nothing
  | x :: xs => .seq (f x) (each f xs)

/-- The value of entry index.sub: its value in effect (R40). -/
def State.reg (s : State) (index sub : Nat) : Nat := valueOf s.pers s.regs (keyOf index sub)

/-- A flag of an entry. -/
def State.flag (s : State) (index sub bit : Nat) : Bool := bitAt (s.reg index sub) bit

/-- A signed entry of w bits. -/
def State.int (s : State) (w index sub : Nat) : Int := toSigned w (s.reg index sub)

/-- A byte of memory. -/
def State.byte (s : State) (a : Nat) : Byte := memGet s.mem a

/-- Bytes of memory. -/
def State.bytes (s : State) (a n : Nat) : List Byte := memRead s.mem a n

/-- A number of n bytes in memory. -/
def State.word (s : State) (a n : Nat) : Nat := natLE (s.bytes a n)

/-- The next free value of w bits; the effect that uses it also performs Act.fresh (log 9). -/
def State.freeValue (s : State) (w : Nat) : Nat := (Config.freeBits w s.free).toNat

/-- Entry index.sub takes a value. -/
def set (index sub v : Nat) : Effect := .act (.reg (keyOf index sub) v)

/-- A signed entry of w bits takes a value, brought inside its limits. -/
def setInt (w index sub : Nat) (v : Int) : Effect := set index sub (ofSigned w (clampSigned w v))

/-- Entry index.sub takes a value computed from the state. -/
def setBy (index sub : Nat) (f : State → Nat) : Effect := .look fun s => set index sub (f s)

/-- Entry index.sub of w bits adds n and saturates. -/
def addTo (w index sub n : Nat) : Effect := setBy index sub fun s => satAdd w (s.reg index sub) n

/-- Entry index.sub of w bits counts one and saturates. -/
def count (w index sub : Nat) : Effect := addTo w index sub 1

/-- Field [hi:lo] of entry index.sub takes a value. -/
def setField (index sub hi lo v : Nat) : Effect :=
  setBy index sub fun s => withField (s.reg index sub) hi lo v

/-- Field [hi:lo] of entry index.sub counts n and saturates. -/
def addField (index sub hi lo n : Nat) : Effect :=
  setBy index sub fun s =>
    withField (s.reg index sub) hi lo (satAdd (hi - lo + 1) (field (s.reg index sub) hi lo) n)

/-- Field [hi:lo] of entry index.sub counts one and saturates. -/
def countField (index sub hi lo : Nat) : Effect := addField index sub hi lo 1

/-- A bit of entry index.sub is set or cleared. -/
def setBit (index sub bit : Nat) (on : Bool) : Effect :=
  setBy index sub fun s => if on then withBit (s.reg index sub) bit else withoutBit (s.reg index sub) bit

/-- A write of an RW1C entry: each 1 clears the matching bit, a 0 none (R12). -/
def clearOnes (k : Key) (ones : Nat) : Effect := setBy (k / 256) (k % 256) fun s =>
  s.reg (k / 256) (k % 256) - (s.reg (k / 256) (k % 256) &&& ones)

/-- The state beside the dictionary changes. -/
def hidden (f : Hidden → Hidden) : Effect := .act (.hid f)

/-- Something goes to the outside. -/
def emit (o : Output) : Effect := .act (.out o)

/-- Bytes are stored. -/
def storeAt (a : Nat) (bs : List Byte) : Effect := .act (.store a bs)

/-- Bytes go back to what an unlisted address reads as. -/
def eraseAt (a n : Nat) : Effect := .act (.erase a (a + n))

/-- The commit state changes. -/
def onCommit (f : CommitState → CommitState) : Effect := hidden fun h => { h with commit := f h.commit }

/-- The reset state changes. -/
def onReset (f : ResetState → ResetState) : Effect := hidden fun h => { h with reset := f h.reset }

/-- The mode state changes. -/
def onMode (f : ModeState → ModeState) : Effect := hidden fun h => { h with mode := f h.mode }

/-- The time state changes. -/
def onTime (f : TimeState → TimeState) : Effect := hidden fun h => { h with time := f h.time }

/-- The link state changes. -/
def onLink (f : LinkState → LinkState) : Effect := hidden fun h => { h with link := f h.link }

/-- The doors state changes. -/
def onDoors (f : DoorState → DoorState) : Effect := hidden fun h => { h with doors := f h.doors }

/-- The budget state changes. -/
def onBudget (f : BudgetState → BudgetState) : Effect := hidden fun h => { h with budget := f h.budget }

/-- The pair state changes. -/
def onPair (f : PairState → PairState) : Effect := hidden fun h => { h with pair := f h.pair }

/-- The counts state changes. -/
def onCounts (f : TickCounts → TickCounts) : Effect := hidden fun h => { h with counts := f h.counts }

/-- The almanac state changes. -/
def onAlmanac (f : AlmanacState → AlmanacState) : Effect := hidden fun h => { h with almanac := f h.almanac }

/-- The ingest state changes. -/
def onIngest (f : IngestState → IngestState) : Effect := hidden fun h => { h with ingest := f h.ingest }

/-- The compose state changes. -/
def onCompose (f : ComposeState → ComposeState) : Effect := hidden fun h => { h with compose := f h.compose }

/-- The colour state changes. -/
def onColour (f : ColourState → ColourState) : Effect := hidden fun h => { h with colour := f h.colour }

/-- The scan state changes. -/
def onScan (f : ScanState → ScanState) : Effect := hidden fun h => { h with scan := f h.scan }

/-- The memory state changes. -/
def onMemory (f : MemoryState → MemoryState) : Effect := hidden fun h => { h with memory := f h.memory }

/-- The heat state changes. -/
def onHeat (f : HeatState → HeatState) : Effect := hidden fun h => { h with heat := f h.heat }

/-- The update state changes. -/
def onUpdate (f : UpdateState → UpdateState) : Effect := hidden fun h => { h with update := f h.update }

/-- The state of one port changes. -/
def onPort (p : Nat) (f : PortState → PortState) : Effect :=
  hidden fun h => { h with ports := updateAt h.ports p f }

/-- The state of one port. -/
def State.port (s : State) (p : Nat) : PortState := s.hid.ports.getD p PortState.initial

/-- An event is raised under a rule of the spec. -/
def raise (rule : Nat) (detail : Nat := 0) : Effect := emit (.event rule detail)

/-- Effects chosen by a value that may be absent. -/
def Effect.ofOption {α : Type} (o : Option α) (f : α → Effect) (e : Effect := .nothing) : Effect :=
  match o with
  | some x => f x
  | none => e

/-- The outcome of a command whose meaning is an effect. -/
def perform (e : Effect) (s : State) : Host.Outcome State Fault Refusal := .next (e.run s)

end Sys2Proof.Machine
end

