-- ==== Sys2Proof/Machine/Grid.lean ====
section
/-! DEFINITION. Modes, domains, local time and the tick grid as every block reads them (R171 to R176, R428, R443). -/

namespace Sys2Proof.Machine

/-- Units of local time in one cc, 0.8 ns (R9). -/
def unitsPerCycle : Nat := 262144

/-- Units of local time in one ns. -/
def unitsPerNs : Nat := 327680

/-- The current mode code (R443). -/
def State.mode (s : State) : Nat := s.reg 0x1001 1

/-- The domains whose release 1100h.06 shows (R452). -/
inductive Dom where
  | aon | mem | link | scan | core | pipe
  deriving DecidableEq, Repr

/-- A domain's bit in 1100h.06 (R452). -/
def Dom.bit : Dom → Nat
  | .aon => 0 | .mem => 1 | .link => 2 | .scan => 3 | .core => 4 | .pipe => 5

/-- Whether a domain is released. -/
def State.up (s : State) (d : Dom) : Bool := s.flag 0x1100 6 d.bit

/-- The part is a sender. -/
def State.isSender (s : State) : Bool := s.pers == .sender

/-- The part is a tile. -/
def State.isTile (s : State) : Bool := s.pers == .tile

/-- The sender that makes time: single, or master of a pair (R159, R167). -/
def State.timingMaster (s : State) : Bool := s.isSender && s.reg 0x2100 1 ≤ 1

/-- The modes that allow a commit (R48 step 1, R443). -/
def commitModes : List Nat := [3, 4, 5, 6, 11]

/-- The tick now shown. -/
def State.tick (s : State) : Nat := s.reg 0x1001 5

/-- The part has stepped its time, and so has a grid (R174, R192, R203). -/
def State.stepped (s : State) : Bool := s.hid.time.grid.isSome

/-- Local time in whole ns since the epoch (R171). -/
def State.ns (s : State) : Nat := s.hid.time.now / unitsPerNs

/-- The ns that the part has run since its last POR or cold reset, whatever steps its local time has made: what every wait and
every limit of the rules is measured by. -/
def State.uptime (s : State) : Nat := s.hid.time.cycles * 4 / 5

/-- Local time in 2⁻¹⁶ ns. -/
def State.fine (s : State) : Int := ((s.hid.time.now / 5 : Nat) : Int)

/-- A time in 2⁻¹⁶ ns as a TIME96 (R11). -/
def toTime96 (t : Int) : Nat :=
  t.toNat / 65536 / 10 ^ 9 * 2 ^ 48 + t.toNat / 65536 % 10 ^ 9 * 2 ^ 16 + t.toNat % 65536

/-- A TIME96 in 2⁻¹⁶ ns. -/
def ofTime96 (v : Nat) : Int :=
  (((v / 2 ^ 48 * 10 ^ 9 + v / 2 ^ 16 % 2 ^ 32) * 65536 + v % 65536 : Nat) : Int)

/-- lt_now() of R175. -/
def State.lt32 (s : State) : Nat := s.ns % 2 ^ 32

/-- The instant LT(n) of a grid in whole ns since the epoch (R174). -/
def Grid.at (g : Grid) (n : Nat) : Int := g.anchor + ((n : Int) - (g.anchorTick : Int)) * g.rd * 10 ^ 9 / g.rn

/-- The grid that the part would take from its own entries while it has none: no boundary lies on it. -/
def State.grid (s : State) : Grid :=
  s.hid.time.grid.getD ⟨0, 0, s.reg 0x4300 1, s.reg 0x4300 2, s.reg 0x4300 3⟩

/-- The instant LT(n) in ns (R174). -/
def State.at (s : State) (n : Nat) : Int := s.grid.at n

/-- LT(n) as an LT32 (R173, R174). -/
def State.lt (s : State) (n : Nat) : Nat := ofSigned 32 (s.at n)

/-- d ns are at least k tick periods. -/
def State.atLeastP (s : State) (d : Int) (k : Nat) : Bool :=
  decide (((k * s.grid.rd * 10 ^ 9 : Nat) : Int) ≤ d * s.grid.rn)

/-- d ns are more than k tick periods. -/
def State.moreThanP (s : State) (d : Int) (k : Nat) : Bool :=
  decide (((k * s.grid.rd * 10 ^ 9 : Nat) : Int) < d * s.grid.rn)

/-- The tick period in ns, exactly. -/
def State.period (s : State) : Rat := (s.grid.rd * 10 ^ 9 : Nat) / (s.grid.rn : Rat)

/-- Lcc = floor(P / 0.8 ns) (R75). -/
def Grid.lcc (rn rd : Nat) : Nat := rd * 10 ^ 9 * 5 / (rn * 4)

/-- The profile in effect is B (R403). -/
def State.profileB (s : State) : Bool := s.reg 0x4300 0x0B == 1

/-- Slots per tick in the profile in effect. -/
def State.slots (s : State) : Nat := if s.profileB then s.reg 0x4300 6 else s.reg 0x4300 3

/-- The first tick n with LT(n) at or after the instant t (R46). -/
def State.tickFrom (s : State) (t : Int) : Nat :=
  let g := s.grid
  let d : Int := (g.rd : Int) * 10 ^ 9
  (-(-((t - g.anchor) * g.rn) / max 1 d) + (g.anchorTick : Int)).toNat

/-- The first tick n whose LT(n) − k·P lies after the instant t (R444, R46). -/
def State.firstTickAfter (s : State) (k : Nat) (t : Int) : Nat :=
  s.tickFrom (t + ((k * s.grid.rd * 10 ^ 9 / max 1 s.grid.rn : Nat) : Int) + 1)

/-- How much of the phase trim has been made when the cycle counter stands at a count, in 2⁻¹⁶ ns (R192): evenly over the 64 cc
after the beacon, and by at most one step of 2⁻¹⁶ ns in any of them, which a trim of more than 64 steps can only meet by taking
longer (DEDUCED, log 92). -/
def TimeState.trimmed (m : TimeState) (cycles : Nat) : Int :=
  let j : Int := (cycles - m.trimFrom : Nat)
  if m.trimTotal.natAbs ≤ 64 then Int.tdiv (m.trimTotal * min j 64) 64
  else max (-j) (min j m.trimTotal)

/-- Local time runs on by units, while the trim in progress makes some of them. -/
def TimeState.runOn (m : TimeState) (units : Nat) : TimeState :=
  let made := m.trimmed (m.cycles + units / unitsPerCycle)
  { m with
    now := m.now + units
    cycles := m.cycles + ((units : Int) - 5 * (made - m.trimDone)).toNat / unitsPerCycle
    trimDone := made }

/-- Local time runs on to an instant in ns, if that still lies ahead (log 4). -/
def advanceTo (t : Int) : Effect := onTime fun m => m.runOn (t.toNat * unitsPerNs - m.now)

/-- The same, to an instant in 1/64 cc. -/
def advanceToStep (t : Int) : Effect := onTime fun m => m.runOn (t.toNat * 4096 - m.now)

/-- cc pass (log 4). -/
def advanceCycles (n : Nat) : Effect := onTime fun m =>
  let made := m.trimmed (m.cycles + n)
  { m with
    now := ((m.now + n * unitsPerCycle : Nat) + 5 * (made - m.trimDone) : Int).toNat
    cycles := m.cycles + n
    trimDone := made }

/-- The part runs on until its uptime reaches an instant in ns, if that still lies ahead (log 4). -/
def waitUntil (t : Nat) : Effect := .act (.hid fun h => { h with time :=
  let m := h.time
  let n := (5 * t + 3) / 4 - m.cycles
  let made := m.trimmed (m.cycles + n)
  { m with
    now := ((m.now + n * unitsPerCycle : Nat) + 5 * (made - m.trimDone) : Int).toNat
    cycles := m.cycles + n
    trimDone := made } })

/-- The state of a free value is used up (log 9). -/
def useFree : Effect := .act .fresh

end Sys2Proof.Machine
end

