-- ==== Sys2Proof/Machine/Almanac.lean ====
section
/-! DEFINITION. The Almanac (R482 to R497): events, samples, closing and opening pages, and its commands. -/

namespace Sys2Proof.Machine

/-- The Almanac records: CORE runs from firmware, in a mode other than OFF and VIGIL (R495). -/
def State.recording (s : State) : Bool := s.up .core && s.mode != 0 && s.mode != 1

/-- 1400h.06 (R497): not recording, disabled, FULL or frozen, looked at in this order (log 13). -/
def State.almanacState (s : State) : Nat :=
  if !s.recording then 4
  else if s.reg 0x1400 1 = 0 then 3
  else if s.reg 0x1400 7 = 2048 then 2
  else s.reg 0x1400 3

/-- An extreme without a sample (R483). -/
def Extreme.none : Extreme := ⟨0x7FFF, -0x8000, 0, 0⟩

/-- A sample folded into an extreme: an equal value keeps the earlier offset (R486). -/
def Extreme.fold (x : Extreme) (off : Nat) (v : Int) : Extreme :=
  let c := clampSigned 16 v
  let y := if c < x.min || (x.min == 0x7FFF && x.max == -0x8000) then { x with min := c, minOff := off % 4096 } else x
  if x.max < c || (x.min == 0x7FFF && x.max == -0x8000) then { y with max := c, maxOff := off % 4096 } else y

/-- The 7 bytes of an extreme (R483). -/
def Extreme.bytes (x : Extreme) : List Byte :=
  bytesLE 2 (ofSigned 16 x.min) ++ bytesLE 2 (ofSigned 16 x.max) ++ bytesLE 3 (x.minOff + x.maxOff * 4096)

/-- The 256 bytes of a page closed for a reason (R483, R484). -/
def Page.image (p : Page) (reason : Nat) : List Byte :=
  bytesLE 6 p.tick ++ bytesLE 2 (reason * 8192 + (if p.loss then 4096 else 0) + p.ticks % 4096) ++
    bytesLE 8 p.time ++ p.bins.flatMap (bytesLE 2) ++ p.ext.flatMap Extreme.bytes

/-- n events counted in one bin of a page: the bin stops at 0xFFFF, and what is left over comes back (R485, R488). -/
def Page.add (p : Page) (bin n : Nat) : Page × Nat :=
  let v := p.bins.getD bin 0
  ({ p with bins := setAt p.bins bin (min 0xFFFF (v + n)) }, v + n - min 0xFFFF (v + n))

/-- n events counted in one shadow bin of 8 bits; what is left over comes back (R490). -/
def AlmanacState.shadowAdd (a : AlmanacState) (bin n : Nat) : AlmanacState × Nat :=
  let v := a.shadow.getD bin 0
  let lost := v + n - min 255 (v + n)
  ({ a with shadow := setAt a.shadow bin (min 255 (v + n)), shadowLoss := a.shadowLoss || lost != 0 }, lost)

/-- Events that are lost (R489 to R491). -/
def loseEvents (n : Nat) : Effect := Effect.when (n != 0) (addTo 32 0x1400 8 n)

/-- n events of bin b of histogram h (R485, R487 to R491). -/
def almanacCount (h b n : Nat) : Effect := .look fun s =>
  let a := s.hid.almanac
  let bin := 8 * h + b
  if n = 0 || !s.recording || s.reg 0x1400 1 = 0 || !s.flag 0x1400 4 h then .nothing
  else if s.reg 0x1400 7 = 2048 then loseEvents n
  else if s.reg 0x1400 3 = 1 && a.closing.isNone then
    .seq (loseEvents n) (onAlmanac fun a => { a with frozenLoss := true })
  else match a.closing, a.page with
    | none, some p =>
      let (q, rest) := p.add bin n
      let a' := { a with page := some q, closing := if q.bins.getD bin 0 = 0xFFFF then some 2 else none }
      let (a'', lost) := if rest = 0 then (a', 0) else a'.shadowAdd bin rest
      .seq (onAlmanac fun _ => a'') (loseEvents lost)
    | _, _ =>
      let (a', lost) := a.shadowAdd bin n
      .seq (onAlmanac fun _ => a') (loseEvents lost)

/-- One event of bin b of histogram h. -/
def almanac (h b : Nat) : Effect := almanacCount h b 1

/-- The next page opens, with the shadow bins and extremes of the close folded in (R488, R490). -/
def openPage : Effect := .look fun s =>
  let tick := if s.stepped then s.tick % 2 ^ 48 else 2 ^ 48 - 1
  let blank := List.replicate 16 Extreme.none
  .seq (onAlmanac fun a => { a with
      page := some ⟨tick, !s.stepped, if s.stepped then s.ns else 0, 0, s.reg 0x1400 2, a.shadow,
        a.shadowExt.foldl (fun l c => updateAt l c.1 fun x => x.fold 0 c.2) blank, a.shadowLoss⟩
      closing := none
      shadow := List.replicate 64 0
      shadowExt := []
      shadowLoss := false })
    (set 0x1400 9 tick)

/-- The open page goes into its slot, and the next one opens unless the log is full (R488, R489). -/
def finishPage (reason : Nat) : Effect := .look fun s =>
  match s.hid.almanac.page with
  | none => .nothing
  | some p =>
    let n := s.reg 0x1400 7
    .all [
      storeAt (Space.almanac.at (256 * n)) (p.image reason),
      set 0x1400 7 (n + 1),
      if n + 1 = 2048 then
        .all [loseEvents (s.hid.almanac.shadow.foldl (· + ·) 0 + s.hid.almanac.shadowExt.length),
          onAlmanac fun a => { a with
            page := none, closing := none, shadow := List.replicate 64 0, shadowExt := [], shadowLoss := false }]
      else openPage]

/-- The open page begins to close; a saturation already begun keeps its reason (R488). -/
def beginClose (reason : Nat) : Effect := .look fun s =>
  Effect.when (s.recording && s.reg 0x1400 1 == 1 && s.reg 0x1400 3 == 0 && s.hid.almanac.page.isSome &&
      s.hid.almanac.closing.isNone)
    (onAlmanac fun a => { a with closing := some reason })

/-- Samples of one tick: quantity and value (R486, R489, R491). -/
def almanacSample (samples : List (Nat × Int)) : Effect := .look fun s =>
  let a := s.hid.almanac
  if !s.recording || s.reg 0x1400 1 = 0 then .nothing
  else if s.reg 0x1400 7 = 2048 then loseEvents samples.length
  else if s.reg 0x1400 3 = 1 && a.closing.isNone then
    .seq (loseEvents samples.length) (onAlmanac fun a => { a with frozenLoss := true })
  else match a.closing, a.page with
    | none, some p =>
      let off := if p.gridless then 0 else (s.tick % 2 ^ 48 + 2 ^ 48 - p.tick) % 2 ^ 48
      onAlmanac fun a => { a with page := some { p with
        ext := samples.foldl (fun l c => updateAt l c.1 fun x => x.fold off c.2) p.ext } }
    | _, _ => onAlmanac fun a => { a with shadowExt := a.shadowExt ++ samples }

/-- A tick boundary passes for the open page: TICKS counts, and the page begins to close when its interval is full, or
when it was opened before the grid (R488). -/
def almanacBoundary : Effect := .look fun s =>
  match s.hid.almanac.closing, s.hid.almanac.page with
  | none, some p =>
    if !s.recording || s.reg 0x1400 1 = 0 || s.reg 0x1400 3 = 1 then .nothing
    else if p.gridless && s.stepped then beginClose 5
    else .seq (onAlmanac fun a => { a with page := some { p with ticks := min 4095 (p.ticks + 1) } })
      (Effect.when (p.interval ≤ p.ticks + 1) (beginClose 1))
  | _, _ => .nothing

/-- Freeze of recording (R491); a page that lost counts meanwhile shows LOSS when the freeze ends. -/
def almanacSetFreeze (on : Bool) : Effect :=
  .seq (set 0x1400 3 (if on then 1 else 0)) (Effect.when (!on) (onAlmanac fun a => { a with
    page := a.page.map fun p => { p with loss := p.loss || a.frozenLoss }
    frozenLoss := false }))

/-- Command 0x01 of 1400h.05 (R489, R496). -/
def almanacClear : Effect := .look fun s => .all [
  eraseAt (Space.almanac.at 0) (2048 * 256),
  set 0x1400 7 0,
  onAlmanac fun a => { a with
    page := none, closing := none, shadow := List.replicate 64 0, shadowExt := []
    shadowLoss := false, frozenLoss := false, persisted := 0 },
  Effect.when s.recording openPage]

/-- The Almanac at a release of CORE (R495): a warm start closes the page that was open with reason 4. -/
def almanacStart (warm : Bool) : Effect := .look fun s =>
  if warm && s.hid.almanac.page.isSome then finishPage 4
  else if s.reg 0x1400 7 = 2048 then .nothing
  else openPage

/-- The 64 bytes of the window, all zero for a slot that is not closed (R492). -/
def State.almanacWindow (s : State) : List Byte := s.bytes (Space.almanac.at (s.reg 0x1401 1)) 64

/-- ALMANAC_EVENT (R485). -/
def execAlmanacEvent (hist bin : Nat) (s : State) : Host.Outcome State Fault Refusal :=
  perform (Effect.when (hist < 8 && bin < 8) (almanac hist bin)) s

/-- PAGE_CLOSE (R488 to R490): the close in progress ends and the next page opens. -/
def execPageClose (s : State) : Host.Outcome State Fault Refusal :=
  perform (.look fun s => Effect.ofOption s.hid.almanac.closing finishPage) s

end Sys2Proof.Machine
end

