-- ==== Sys2Proof/Machine/Flags.lean ====
section
/-! DEFINITION. The codes that the part reports: access and commit statuses (R41), mode codes (R443), entry causes
(R447), fault codes (R448) and reset causes (R430). -/

namespace Sys2Proof.Machine

/-- Access and commit status codes (R41); 0xFF shows an activity in progress. -/
abbrev Status.ok : Nat := 0x00
abbrev Status.noObject : Nat := 0x01
abbrev Status.noSub : Nat := 0x02
abbrev Status.readOnly : Nat := 0x03
abbrev Status.writeOnly : Nat := 0x04
abbrev Status.length : Nat := 0x05
abbrev Status.range : Nat := 0x06
abbrev Status.unavailable : Nat := 0x07
abbrev Status.busy : Nat := 0x08
abbrev Status.queued : Nat := 0x09
abbrev Status.deferred : Nat := 0x0A
abbrev Status.timeout : Nat := 0x0B
abbrev Status.unreachable : Nat := 0x0C
abbrev Status.aborted : Nat := 0x0D
abbrev Status.frozen : Nat := 0x0E
abbrev Status.stageFull : Nat := 0x0F
abbrev Status.notStaged : Nat := 0x10
abbrev Status.domainState : Nat := 0x11
abbrev Status.pending : Nat := 0x20
abbrev Status.applied : Nat := 0x21
abbrev Status.superseded : Nat := 0x22
abbrev Status.cancelled : Nat := 0x23
abbrev Status.abortedReset : Nat := 0x24
abbrev Status.late : Nat := 0x29
abbrev Status.mode : Nat := 0x2A
abbrev Status.consistency : Nat := 0x2B
abbrev Status.timing : Nat := 0x2C
abbrev Status.linebuf : Nat := 0x2D
abbrev Status.budget : Nat := 0x2E
abbrev Status.linkcap : Nat := 0x2F
abbrev Status.inProgress : Nat := 0xFF

/-- Mode codes (R443). -/
abbrev Mode.off : Nat := 0
abbrev Mode.vigil : Nat := 1
abbrev Mode.boot : Nat := 2
abbrev Mode.dark : Nat := 3
abbrev Mode.run : Nat := 4
abbrev Mode.hold : Nat := 5
abbrev Mode.derate : Nat := 6
abbrev Mode.freeze : Nat := 7
abbrev Mode.faultdark : Nat := 8
abbrev Mode.shutdown : Nat := 9
abbrev Mode.passthrough : Nat := 10
abbrev Mode.bringup : Nat := 11

/-- Mode entry causes (R447). -/
abbrev Cause.start : Nat := 0
abbrev Cause.warm : Nat := 1
abbrev Cause.request : Nat := 2
abbrev Cause.bootStep : Nat := 3
abbrev Cause.throttle : Nat := 4
abbrev Cause.throttleEnded : Nat := 5
abbrev Cause.shutdown : Nat := 6
abbrev Cause.freeze : Nat := 7
abbrev Cause.freezeReleased : Nat := 8
abbrev Cause.fault : Nat := 9
abbrev Cause.contentLost : Nat := 10
abbrev Cause.contentReturned : Nat := 11
abbrev Cause.enumeration : Nat := 12
abbrev Cause.adventLimit : Nat := 13
abbrev Cause.invalidStrap : Nat := 14
abbrev Cause.noImage : Nat := 15

/-- Fault codes (R448). -/
abbrev FaultCode.memoryClock : Nat := 0x0101
abbrev FaultCode.serdesClock : Nat := 0x0102
abbrev FaultCode.settings : Nat := 0x0150
abbrev FaultCode.training : Nat := 0x0310
abbrev FaultCode.memoryData : Nat := 0x0311
abbrev FaultCode.memoryCommand : Nat := 0x0312
abbrev FaultCode.shutdown : Nat := 0x0410
abbrev FaultCode.advent : Nat := 0x0501
abbrev FaultCode.noImage : Nat := 0x0502
abbrev FaultCode.strap : Nat := 0x0503

/-- The events of a bus master or a block that a flag register of the dictionary keeps (R319). -/
abbrev TgEvent.blank : Nat := 0
abbrev TgEvent.matched : Nat := 1
abbrev TgEvent.done : Nat := 2
abbrev TgEvent.underrun : Nat := 3

end Sys2Proof.Machine
end

