-- ==== Sys2Proof/Machine/Budget.lean ====
section
/-! DEFINITION. The budgeted masters (R82 to R93): capacities, budgets, charges, freezing and release. -/

namespace Sys2Proof.Machine

/-- The budgeted masters of the personality (R82). -/
def State.masters (s : State) : List Nat := (List.range 11).filter (hasMaster s.pers)

/-- Channels of the part (R369). -/
def State.channels (s : State) : List Nat := List.range (if s.isSender then 36 else 8)

/-- Region i is enabled (R395). -/
def State.regionOn (s : State) (i : Nat) : Bool := s.reg (0x3010 + i) 1 == 1

/-- The enabled regions. -/
def State.regions (s : State) : List Nat := (List.range 8).filter s.regionOn

/-- Cap of region i for a tick of rd / rn seconds (R85), with the pin rate in effect in 0.1 Gb/s. -/
def State.capacity (s : State) (rn rd i : Nat) : Nat :=
  popCount 36 (s.reg (0x3010 + i) 4) * 2 * (s.hid.memory.rate * 10 ^ 8) * 8 * s.reg 0x1644 6 * rd / (9 * 100 * rn)

/-- The smallest Cap among the enabled regions (R84). -/
def State.leastCap (s : State) : Nat :=
  match s.regions.map (s.capacity s.grid.rn s.grid.rd) with
  | [] => 0
  | c :: cs => cs.foldl min c

/-- The byte budget of master m (R84). -/
def State.byteBudget (s : State) (m : Nat) : Nat := s.leastCap * s.reg 0x1640 (m + 1) / 65536

/-- The cycle budget of master m (R84). -/
def State.cycleBudget (s : State) (m : Nat) : Nat :=
  Grid.lcc s.grid.rn s.grid.rd * s.reg 0x1641 (m + 1) / 65536

/-- The budgets are computed from the shares (R84, R96). A byte budget that its field of 1642h does not hold shows its low 32
bits there, and counts in full (DESIGN CHOICE, log 80). -/
def computeBudgets : Effect := .look fun s =>
  .seq (Effect.each (fun m => set 0x1642 (m + 1) (s.cycleBudget m * 2 ^ 32 + s.byteBudget m % 2 ^ 32)) s.masters)
    (onBudget fun b => { b with compute := false, limits := (List.range 11).map s.byteBudget })

/-- Budgets are enforced, and charges run (R93). -/
def State.charging (s : State) : Bool := s.up .core && [2, 3, 4, 5, 6, 8, 9, 11].contains s.mode

/-- Master m is frozen (R89). -/
def State.frozen (s : State) (m : Nat) : Bool := s.flag 0x1644 1 m

/-- What stops at once when a master is frozen, beside its requests, or in FREEZE (R90, R423): a calibration in progress ends
with a result of its own kind, at the next blanking. -/
def haltMaster (m : Nat) : Effect := .look fun s =>
  Effect.when (m == 4 && 2 ≤ s.reg 0x1600 6) (.seq
    (onHeat fun h => { h with run := h.run.map fun r => { r with aborted := some 4 } }) (set 0x1600 6 4))

/-- What master m has been charged in bytes, with some more: at most 2,048 above its budget, which is what its eight
outstanding requests can be (R89; what a block that completes moves beyond them is not charged, DEDUCED, log 81). -/
def State.charged (s : State) (m bytes : Nat) : Nat :=
  let b := s.hid.budget
  let used := b.bytes.getD m 0
  if b.compute then used + bytes else min (used + bytes) (max used (b.limits.getD m 0 + 2048))

/-- Master m is charged; a charge above its budget freezes it, and counts once in the tick (R83, R89, R92). Until the
budgets are computed after a release of CORE, none is exceeded (R93, log 73). -/
def charge (m bytes cycles : Nat) : Effect := .look fun s => Effect.when (s.charging && hasMaster s.pers m) (.seq
  (onBudget fun b => { b with
    bytes := setAt b.bytes m (s.charged m bytes), cycles := updateAt b.cycles m (· + cycles) })
  (.look fun t =>
    let exceeds := t.hid.budget.limits.getD m 0 < t.hid.budget.bytes.getD m 0 ||
      field (t.reg 0x1642 (m + 1)) 63 32 < t.hid.budget.cycles.getD m 0
    Effect.when (exceeds && !t.hid.budget.compute && !bitAt t.hid.budget.overran m) (.all [
      onBudget fun b => { b with overran := withBit b.overran m, flight := setAt b.flight m 8 },
      count 32 0x1643 (m + 1),
      almanac 1 0,
      setBit 0x1644 1 m true,
      haltMaster m])))

/-- Masters to release at the next boundary (R91): a write to 1644h.02. A bit of a master that is not frozen has no
effect. -/
def askRelease (mask : Nat) : Effect := .look fun s =>
  onBudget fun b => { b with release := b.release ||| (mask &&& s.reg 0x1644 1) }

/-- One master at a tick boundary: its streak counts, the supervisor holds or releases it, and a release asked for takes
effect (R91). -/
def masterBoundary (m : Nat) : Effect := .look fun s =>
  let b := s.hid.budget
  let streak := if bitAt b.overran m then b.streak.getD m 0 + 1 else 0
  let asked := bitAt b.release m
  let held := s.flag 0x1644 5 m
  let exceeds := decide (s.reg 0x1644 4 ≤ streak)
  .seq (onBudget fun b => { b with streak := setAt b.streak m streak })
    (Effect.when (s.frozen m)
      (if asked then .seq (setBit 0x1644 1 m false) (setBit 0x1644 5 m false)
        else if held then .nothing
        else if exceeds then setBit 0x1644 5 m true
        else Effect.when (s.flag 0x1644 3 m) (setBit 0x1644 1 m false)))

/-- The largest byte charge of a budgeted master as a fraction of its budget in 1/16,384 (X14 of R486). -/
def State.largestCharge (s : State) : Nat :=
  s.masters.foldl (fun m i => max m (s.hid.budget.bytes.getD i 0 * 16384 / max 1 (s.hid.budget.limits.getD i 0))) 0

/-- The budgets at a tick boundary (R75, R84, R91, R93). -/
def budgetBoundary : Effect := .all [
  .look fun s => Effect.each masterBoundary s.masters,
  onBudget fun b => { b with
    bytes := List.replicate 11 0, cycles := List.replicate 11 0, overran := 0, release := 0 },
  Effect.if' (fun s => s.hid.budget.compute) computeBudgets]

/-- The budgets at a warm reset (R93). -/
def budgetReset : Effect := .all [
  Effect.each (fun i => set 0x1643 (i + 1) 0) (List.range 11),
  set 0x1644 1 0, set 0x1644 5 0,
  onBudget fun _ => BudgetState.initial]

/-- 1644h.0D (R95). -/
def budgetCounterClear : Effect := .all [
  Effect.each (fun i => set 0x1643 (i + 1) 0) (List.range 11),
  set 0x1644 0x0A 0, set 0x1644 0x0B 0, set 0x1644 0x0C 0]

end Sys2Proof.Machine
end

