-- ==== Sys2Proof/Machine/Arbiter.lean ====
section
/-! DEFINITION. The maintenance arbiter (R420 to R423): tokens, activities that wait, and the grant of a token. -/

namespace Sys2Proof.Machine

/-- The tokens of 1620h.01 (R426). -/
abbrev Token.spareCr : Nat := 0
abbrev Token.sense : Nat := 1
abbrev Token.diagSlot : Nat := 2
abbrev Token.flash : Nat := 3
abbrev Token.memTrain : Nat := 4

/-- The activities of R420. -/
abbrev Activity.equinox : Nat := 0
abbrev Activity.diagnosis : Nat := 1
abbrev Activity.retraining : Nat := 2
abbrev Activity.scrub : Nat := 3
abbrev Activity.persistence : Nat := 4
abbrev Activity.store : Nat := 5
abbrev Activity.consolidation : Nat := 6

/-- The tokens that an activity holds for its run (R420). -/
def Activity.tokens : Nat → List Nat
  | 0 => [Token.spareCr, Token.sense]
  | 1 => [Token.diagSlot]
  | 2 => [Token.memTrain]
  | 4 | 5 | 6 => [Token.flash]
  | _ => []

/-- The master whose budget an activity uses (R420). -/
def Activity.master : Nat → Nat
  | 0 => 4 | 1 => 5 | 2 => 7 | 3 => 6 | 4 => 8 | 5 => 9 | _ => 10

/-- The modes in which activities run (R422). -/
def State.maintenance (s : State) : Bool := s.up .core && [3, 4, 5, 6, 8, 11].contains s.mode

/-- A token is free. -/
def State.tokenFree (s : State) (t : Nat) : Bool := !s.flag 0x1620 1 t

/-- The activity that holds a token. -/
def State.holder (s : State) (t : Nat) : Nat := field (s.reg 0x1620 2) (8 * t + 7) (8 * t)

/-- An activity is running: it holds its tokens. -/
def State.running (s : State) (a : Nat) : Bool :=
  (Activity.tokens a).all fun t => s.flag 0x1620 1 t && s.holder t == a

/-- A token is taken by an activity. -/
def takeToken (a t : Nat) : Effect := .seq (setBit 0x1620 1 t true) (setField 0x1620 2 (8 * t + 7) (8 * t) a)

/-- A token is freed. -/
def freeToken (t : Nat) : Effect := .seq (setBit 0x1620 1 t false) (setField 0x1620 2 (8 * t + 7) (8 * t) 0xFF)

/-- An activity ends: it frees the tokens that it holds. -/
def endActivity (a : Nat) : Effect := .look fun s =>
  Effect.each (fun t => Effect.when (s.flag 0x1620 1 t && s.holder t == a) (freeToken t)) (List.range 5)

/-- A swap of Equinox comes first at DIAG_SLOT: a swap-out before every other, a swap-in only before the sweep (R421). -/
def State.swapFirst (s : State) : Bool := match s.hid.heat.run with
  | none => false
  | some r => r.aborted.isSome || s.reg 0x1600 6 == 4 || (s.reg 0x1600 6 == 2 && s.hid.scan.queue.isEmpty)

/-- An activity may start: the mode lets it run, its master is not frozen, its tokens are free, no swap comes before it,
and the settings are not unreadable for masters 8 and 9 (R421, R422, R473). -/
def State.canStart (s : State) (a : Nat) : Bool :=
  s.maintenance && !s.frozen (Activity.master a) && (Activity.tokens a).all s.tokenFree &&
    !(a == Activity.diagnosis && s.swapFirst) &&
    !(s.reg 0x1001 4 == FaultCode.settings && [8, 9].contains (Activity.master a))

/-- The first channel whose retraining is due (R382). -/
def State.dueChannel (s : State) : Option Nat := s.channels.find? fun c => s.flag (0x3030 + c) 1 4

/-- What an activity does as it starts, beside taking its tokens. -/
def activityStarts (a : Nat) : Effect := .look fun s =>
  match a with
  | 0 => .seq (setBy 0x1600 6 fun t => if t.reg 0x1600 7 < 64 then 2 else 3)
      (onHeat fun h => { h with run := h.run.map fun r => { r with startTj := s.int 16 0x1200 1 } })
  | 2 => Effect.ofOption s.dueChannel fun c =>
      .seq (onMemory fun m => { m with retraining := some c }) (setBit (0x3030 + c) 1 5 true)
  | 5 => match s.hid.update.storeQueue with
    | k :: r => .seq (onUpdate fun u => { u with store := some (k, 0), storeQueue := r })
        (Effect.when (k == 0) (set 0x1500 0x11 Status.inProgress))
    | [] => .nothing
  | 6 => set 0x1500 0x0E 2
  | _ => .nothing

/-- An activity starts. -/
def beginActivity (a : Nat) : Effect := .all [
  Effect.each (takeToken a) (Activity.tokens a),
  setBit 0x1620 3 a false,
  onHeat fun h => { h with waiting := h.waiting.filter (· != a) },
  activityStarts a]

/-- An activity is asked for: it starts, or it waits; a second request joins the first (R421, R423). -/
def requestActivity (a : Nat) : Effect := .look fun s =>
  if s.running a && Activity.tokens a != [] then .nothing
  else if s.canStart a then beginActivity a
  else .seq (setBit 0x1620 3 a true)
    (Effect.when (!s.hid.heat.waiting.contains a) (onHeat fun h => { h with waiting := h.waiting ++ [a] }))

/-- The answer to a command that starts an activity (R421). -/
def State.activityStatus (s : State) (a : Nat) : Nat :=
  if s.running a && Activity.tokens a != [] then Status.ok else if s.canStart a then Status.ok else Status.queued

/-- The waiting activities that want a token, in the order of R421. -/
def State.wanting (s : State) (t : Nat) : List Nat :=
  if t = Token.flash then [5, 4, 6].filter s.hid.heat.waiting.contains
  else s.hid.heat.waiting.filter fun a => (Activity.tokens a).contains t

/-- The grant of a freed token to the first activity that can start. -/
def grantToken (t : Nat) : Effect := .look fun s => Effect.when (s.tokenFree t)
  (Effect.ofOption ((s.wanting t).find? s.canStart) beginActivity)

/-- Every activity and token is lost, at a reset or a shutdown (R404, R423). -/
def endMaintenance : Effect := .all [
  set 0x1620 1 0, set 0x1620 2 0xFFFFFFFFFFFFFFFF, set 0x1620 3 0,
  onHeat fun h => { h with waiting := [] }]

/-- The activities whose work went over to a later tick, at a tick boundary (R422, log 15): those that run while their
master is frozen. -/
def countDeferrals : Effect := .look fun s =>
  let n := ([0, 1, 2, 4, 5, 6].filter fun a => s.running a && s.frozen (Activity.master a)).length
  .seq (addTo 32 0x1620 4 n) (almanacCount 6 7 n)

/-- TOKEN_GRANT (R421). -/
def execTokenGrant (token : Nat) (s : State) : Host.Outcome State Fault Refusal :=
  perform (Effect.when (token < 5) (grantToken token)) s

end Sys2Proof.Machine
end

