-- ==== Sys2Proof/Machine/Operands.lean ====
section
/-! DEFINITION. The encodings that commands carry: the (144,128) code (R102 to R104), the cell header (R108), slots (R106,
R111), service entries (R125), Tlaroek datagrams and SPI frames (R58, R67). -/

namespace Sys2Proof.Machine

/-- U[b] of R102. -/
def codeU : List Nat :=
  [0x03, 0x05, 0x06, 0x09, 0x0A, 0x0C, 0x0F, 0x11, 0x12, 0x14, 0x17, 0x18, 0x1B, 0x1D, 0x1E, 0x21]

/-- The parity of a byte. -/
def parity8 (b : Nat) : Bool := popCount 8 b % 2 == 1

/-- The check bits of 16 payload bytes (R103). -/
def checkBits (bs : List Byte) : Nat :=
  let low := bs.foldl (fun x b => x ^^^ b.toNat) 0
  let high := (bs.zip codeU).foldl (fun x q => if parity8 q.1.toNat then x ^^^ q.2 else x) 0
  high * 256 + low

/-- The codeword of 16 payload bytes. -/
def encodeWord (bs : List Byte) : BitVec 144 := BitVec.ofNat 144 (natLE (padTo 16 bs) + checkBits (padTo 16 bs) * 2 ^ 128)

/-- The codeword of a poisoned block (R104). -/
def poisonWord (bs : List Byte) : BitVec 144 :=
  BitVec.ofNat 144 (natLE (padTo 16 bs) + (65535 - checkBits (padTo 16 bs)) * 2 ^ 128)

/-- What a decoder finds (R104). -/
inductive Decoded where
  | clean | corrected | poisoned | uncorrectable
  deriving DecidableEq, Repr

/-- Payload and outcome of a codeword (R104). -/
def decodeWord (w : BitVec 144) : List Byte × Decoded :=
  let bs := bytesLE 16 (w.toNat % 2 ^ 128)
  let s := checkBits bs ^^^ (w.toNat / 2 ^ 128)
  if s = 0 then (bs, .clean)
  else if s = 0xFFFF then (bs, .poisoned)
  else if (List.range 16).any fun c => s == 2 ^ c then (bs, .corrected)
  else
    match (List.range 128).find? fun i => s == codeU.getD (i / 8) 0 * 256 + 2 ^ (i % 8) with
    | some i => (updateAt bs (i / 8) fun b => b ^^^ BitVec.ofNat 8 (2 ^ (i % 8)), .corrected)
    | none => (bs, .uncorrectable)

/-- A block that carries data (R101). -/
def dataBlock (bs : List Byte) : Block := ⟨0b01, encodeWord bs⟩

/-- A control block. -/
def controlBlock (bs : List Byte) : Block := ⟨0b10, encodeWord bs⟩

/-- The 16 bytes of a header (R108). -/
def headerBytes (c : Cell) : List Byte :=
  let bit (b : Bool) (i : Nat) : Nat := if b then 2 ^ i else 0
  bytesLE 16 (c.kind * 2 ^ 124 + bit c.bcast 123 + bit c.fromEnd 122 + bit c.turned 121 + bit c.timed 120 +
    c.spare / 2 ^ 17 * 2 ^ 118 + c.queue * 2 ^ 100 + c.src * 2 ^ 91 + c.len * 2 ^ 83 + bit c.first 82 + bit c.last 81 +
    c.spare % 2 ^ 17 * 2 ^ 64 + c.seq * 2 ^ 32 + c.lt)

/-- A cell from the 256 bytes of its slot (R106, R108). -/
def cellOf (bs : List Byte) : Cell :=
  let h := natLE (bs.take 16)
  ⟨field h 127 124, bitAt h 123, bitAt h 122, bitAt h 121, bitAt h 120, field h 117 100, field h 99 91, field h 90 83,
    bitAt h 82, bitAt h 81, field h 63 32, field h 31 0, slice bs 16 240, field h 119 118 * 2 ^ 17 + field h 80 64⟩

/-- The 16 blocks of a cell, some of them poisoned (R106, R114). -/
def cellBlocks (c : Cell) (poison : List Nat) : List Block :=
  let bs := headerBytes c ++ padTo 240 c.body
  (List.range 16).map fun i =>
    ⟨0b01, if poison.contains i then poisonWord (slice bs (16 * i) 16) else encodeWord (slice bs (16 * i) 16)⟩

/-- The type of a slot by a majority of three of its beat-0 headers: data, control, or lost (R106). -/
inductive SlotType where
  | data | control | lost
  deriving DecidableEq, Repr

/-- The type of a received slot. -/
def slotType (bs : List Block) : SlotType :=
  let n (h : BitVec 2) : Nat := ((bs.take 4).filter fun b => b.sync == h).length
  if 3 ≤ n 0b01 then .data else if 3 ≤ n 0b10 then .control else .lost

/-- A block as its slot's type makes it: a header that disagrees makes it uncorrectable. -/
def decodeBlock (header : BitVec 2) (b : Block) : List Byte × Decoded :=
  if b.sync == header then decodeWord b.code else ((decodeWord b.code).1, .uncorrectable)

/-- An ALIGN slot: beats 1 to 3 repeat beat 0 (R111). -/
def alignSlotBlocks (lane : Nat → List Byte) : List Block := (List.range 16).map fun i => controlBlock (lane (i % 4))

/-- One entry of a service cell (R125). -/
structure ServiceEntry where
  target : Nat
  key : Nat
  op : Nat
  status : Nat
  label : Nat
  value : List Byte
  deriving DecidableEq, Repr

/-- An entry from its 16 bytes. -/
def serviceEntry (bs : List Byte) : ServiceEntry :=
  ⟨natLE (bs.take 2), natLE (slice bs 2 2) * 256 + natLE (slice bs 4 1), natLE (slice bs 5 1), natLE (slice bs 6 1),
    natLE (slice bs 7 1), slice bs 8 8⟩

/-- The 16 bytes of an entry. -/
def serviceBytes (e : ServiceEntry) : List Byte :=
  bytesLE 2 e.target ++ bytesLE 2 (e.key / 256) ++ bytesLE 1 e.key ++ bytesLE 1 e.op ++ bytesLE 1 e.status ++
    bytesLE 1 e.label ++ padTo 8 e.value

/-- The entries of a service cell that LEN covers. -/
def serviceEntries (c : Cell) : List ServiceEntry :=
  (List.range (min 15 (ceilDiv c.len 16))).map fun k => serviceEntry (slice c.body (16 * k) 16)

/-- An entry of a wide value with its continuations, as one (R128): n entries of fuel. Answers the entry with its whole
value, how many blocks it takes, and the entries after it. -/
def groupEntries : (n : Nat) → List ServiceEntry → List (ServiceEntry × Nat)
  | 0, _ => []
  | _ + 1, [] => []
  | n + 1, e :: r =>
    let more := r.takeWhile fun q => q.target == 0xFFFD
    ({ e with value := e.value ++ more.flatMap ServiceEntry.value }, 1 + more.length) ::
      groupEntries n (r.drop more.length)

/-- An entry with a value as its blocks (R128). -/
def spreadEntry (e : ServiceEntry) : List (List Byte) :=
  let n := max 1 (ceilDiv e.value.length 8)
  (List.range n).map fun i => serviceBytes
    { e with target := if i = 0 then e.target else 0xFFFD, value := slice e.value (8 * i) 8 }

end Sys2Proof.Machine
end

