-- ==== Sys2Proof/Machine/Line.lean ====
section
/-! DEFINITION. The lanes of an Elxel port as bits and symbols (R98, R101): PAM4 levels, the scrambler (R105), the PRBS31 fill
(R112), and the slots that are made of them (R106, R111). -/

namespace Sys2Proof.Machine

/-! Symbols (R98). -/

/-- Two bits as a PAM4 level, the first the more significant, by Gray coding (R98). -/
def grayLevel : (first second : Bool) → Level
  | false, false => 0
  | false, true => 1
  | true, true => 2
  | true, false => 3

/-- The two bits of a level. -/
def grayBits (l : Level) : List Bool := [2 ≤ l.val, l.val == 1 || l.val == 2]

/-- Bits taken in pairs as levels. -/
def levelsOf : List Bool → List Level
  | a :: b :: r => grayLevel a b :: levelsOf r
  | _ => []

/-- A number from its bits, the first the least significant. -/
def bitsValue : List Bool → Nat
  | [] => 0
  | b :: r => (if b then 1 else 0) + 2 * bitsValue r

/-- The 146 bits of a block in the order in which they leave: sync header, then codeword (R98, R101). -/
def blockBits (b : Block) : List Bool :=
  (List.range 2).map (bitAt b.sync.toNat) ++ (List.range 144).map (bitAt b.code.toNat)

/-- The 73 symbols of a block (R98). -/
def blockLevels (b : Block) : List Level := levelsOf (blockBits b)

/-- A block from its symbols; those that are missing read as 0. -/
def blockOfLevels (l : List Level) : Block :=
  let bits := l.flatMap grayBits
  ⟨BitVec.ofNat 2 (bitsValue (bits.take 2)), BitVec.ofNat 144 (bitsValue ((bits.drop 2).take 144))⟩

/-- The sixteen blocks of a slot as the symbols of its four lanes; block i leaves on lane i mod 4 in beat i / 4 (R106). -/
def slotLanes (blocks : List Block) : List (List Level) :=
  (List.range 4).map fun lane => (List.range 4).flatMap fun beat => blockLevels (blocks.getD (4 * beat + lane) ⟨0, 0⟩)

/-- The sixteen blocks of a slot from the symbols of its four lanes. -/
def slotBlocks (lanes : List (List Level)) : List Block :=
  (List.range 16).map fun i => blockOfLevels (slice (lanes.getD (i % 4) []) (73 * (i / 4)) 73)

/-- The lanes as a receiver sees them past its corrections (R100, R139): inverted lanes put right, then the order. -/
def straighten (polarity : Nat) (reversed : Bool) (lanes : List (List Level)) : List (List Level) :=
  let upright := lanes.zipIdx.map fun q => if bitAt polarity q.2 then q.1.map fun l => 3 - l else q.1
  if reversed then upright.reverse else upright

/-! Generators (R105, R112). Which end of the register a seed's bit 0 stands for, and that the first output is the first bit
made after the seed, are not stated (DESIGN CHOICE, log 75). -/

/-- One step of the generator x^b + x^a + 1, a below b: its state is its last b output bits, the newest in bit 0. -/
def generatorStep (a b state : Nat) : Nat :=
  (2 * state + (state / 2 ^ (a - 1) + state / 2 ^ (b - 1)) % 2) % 2 ^ b

/-- The state after n steps. -/
def generatorAt (a b seed : Nat) : Nat → Nat
  | 0 => seed
  | n + 1 => generatorStep a b (generatorAt a b seed n)

/-- n output bits from output bit k on, the first the least significant. -/
def generatorBits (a b seed k : Nat) : Nat → Nat
  | 0 => 0
  | n + 1 => generatorBits a b seed k n + generatorAt a b seed (k + n + 1) % 2 * 2 ^ n

/-- The scrambler's 144 bits for block position b of a lane (R105). -/
def scramblerWord (seed b : Nat) : BitVec 144 := BitVec.ofNat 144 (generatorBits 39 58 seed (144 * b) 144)

/-- The 16 fill bytes of block position b (R112). -/
def fillBytes (b : Nat) : List Byte := bytesLE 16 (generatorBits 28 31 0x7FFFFFFF (128 * b) 128)

/-- The line after one more slot that is not ALIGN. -/
def Line.next (d : Line) : Line := { d with slot := d.slot + 1 }

/-- The line right after an ALIGN slot with these seeds. -/
def Line.start (seeds : List Nat) : Line := ⟨seeds, 0⟩

/-- The blocks of a slot through the scramblers of its lanes; the same function descrambles (R105). -/
def Line.scramble (d : Line) (blocks : List Block) : List Block :=
  blocks.zipIdx.map fun q =>
    { q.1 with code := q.1.code ^^^ scramblerWord (d.seeds.getD (q.2 % 4) 0) (4 * d.slot + q.2 / 4) }

/-- The symbols in which a direction sends a slot that is scrambled. -/
def Line.lanes (d : Line) (blocks : List Block) : List (List Level) := slotLanes (d.scramble blocks)

/-! Control slots (R111). -/

/-- A control slot whose beat-0 blocks begin with the bytes of their lane, the rest of it fill (R111, R112). -/
def Line.filled (d : Line) (lane : Nat → List Byte) : List Block :=
  (List.range 16).map fun i =>
    let head := if i < 4 then lane i else []
    controlBlock (head ++ (fillBytes (4 * d.slot + i / 4)).drop head.length)

/-- The blocks of an IDLE slot. -/
def Line.idle (d : Line) : List Block := d.filled fun _ => [0x00]

/-- How many fill bits of a control slot differ from the receiver's own, before error correction (R133): the bytes of the
beat-0 blocks before the fill are n. -/
def Line.fillErrors (d : Line) (n : Nat) (blocks : List Block) : Nat :=
  (blocks.zipIdx.map fun q =>
    popCount 128 ((q.1.code.toNat % 2 ^ 128 ^^^ natLE (fillBytes (4 * d.slot + q.2 / 4))) / 2 ^ (if q.2 < 4 then 8 * n else 0))).sum

/-- The copies of a lane's block that an ALIGN slot carries, decoded. -/
def alignCopies (raw : List Block) (lane : Nat) : List (List Byte × Decoded) :=
  (List.range 4).map fun beat => decodeBlock 0b10 (raw.getD (4 * beat + lane) ⟨0, 0⟩)

/-- A block has no uncorrectable error. -/
def decoded (q : List Byte × Decoded) : Bool := q.2 == .clean || q.2 == .corrected

/-- The ALIGN block of a lane, when at least two of its four copies decode (R111). -/
def alignBlock (raw : List Block) (lane : Nat) : Option (List Byte) :=
  let good := (alignCopies raw lane).filter decoded
  if 2 ≤ good.length && (good.headD ([], .clean)).1.head? == some 0xA7 then some (good.headD ([], .clean)).1 else none

/-- The four ALIGN blocks of a slot that is one; ALIGN slots are not scrambled. -/
def alignBlocks (raw : List Block) : Option (List (List Byte)) :=
  if slotType raw == .control && (List.range 4).all fun l => (alignBlock raw l).isSome
  then some ((List.range 4).map fun l => (alignBlock raw l).getD []) else none

/-- The seeds that ALIGN blocks carry (R111). -/
def alignSeeds (blocks : List (List Byte)) : List Nat := blocks.map fun b => natLE (slice b 8 8) % 2 ^ 58

end Sys2Proof.Machine
end

