-- ==== Sys2Proof/Machine/Ports.lean ====
section
/-! DEFINITION. The link states of an Elxel port (R119 to R122, R134 to R143) and the commands that move them. -/

namespace Sys2Proof.Machine

/-- The index of port p's entries (R137). -/
abbrev portIndex (p : Nat) : Nat := 0x2000 + p

/-- The ports that the personality bonds (R137). -/
def State.ports (s : State) : List Nat := List.range (if s.isSender then 16 else 2)

/-- The link state of a port (R119). -/
def State.link (s : State) (p : Nat) : Nat := s.reg (portIndex p) 2

/-- A port is in UP. -/
def State.portUp (s : State) (p : Nat) : Bool := s.link p == 6

/-- The port of a tile that is opposite to p (R113). -/
def opposite (p : Nat) : Nat := 1 - p

/-- A port is the return port of a looped chain of a single sender: it faces the E1 of a tile (R16, R108). -/
def State.loopEnd (s : State) (p : Nat) : Bool :=
  s.reg 0x2100 1 == 0 && 8 ≤ p && field (s.reg (portIndex p) 3) 27 24 == 1 && field (s.reg (portIndex p) 3) 29 28 == 1

/-- The port under which a port's chain was enumerated: that of its other end, for the return port of a loop (R16). -/
def State.chainPort (s : State) (p : Nat) : Nat := if s.isSender && s.loopEnd p then p - 8 else p

/-- The tiles of a chain, as enumeration found them. -/
def State.chainLength (s : State) (k : Nat) : Nat := ((s.hid.link.chains.find? fun c => c.1 == k).map (·.2)).getD 0

/-- The link takes part in a state: LINK is released and the port is bonded. -/
def State.portLive (s : State) (p : Nat) : Bool := s.up .link && s.ports.contains p

/-- A port enters a link state. -/
def setLink (p state : Nat) : Effect := set (portIndex p) 2 state

/-- LOCKLOSS counts (R143, R485). -/
def countLockLoss (p : Nat) : Effect := .seq (countField (portIndex p) 0x10 7 0) (almanac 0 6)

/-- REALIGNS counts (R143, R485). -/
def countRealign (p : Nat) : Effect := .seq (countField (portIndex p) 0x10 15 8) (almanac 0 5)

/-- Slots of 292 symbols, 1168/85 cc each, since the count of cycles began (R107): the grid of a port's own slots. -/
def State.slotClock (s : State) : Nat := s.hid.time.cycles * 85 / 1168

/-- A waiting SERVICE_ANS cell. -/
def Waiting.isAnswer (w : Waiting) : Bool :=
  match w.burden with
  | .cell c _ => c.kind == 3
  | .reset _ _ => false

/-- What a port's leaving UP does beside its state (R136): its waiting cells go, but for answers that move to the other
port of a tile, which originates its own grid from now on (R117), and the hops that it received become unknown. Whose the far
end was stays readable, for the spec says nothing of it (DESIGN CHOICE, log 14). Layer cells of a sender stay until their window ends, and count there
(R237). -/
def leaveUp (p : Nat) : Effect := .look fun s => Effect.when (s.portUp p) (.all [
  Effect.when (s.isTile && s.portUp (opposite p)) (onPort (opposite p) fun q => { q with
    egress := q.egress ++ (s.port p).egress.filter Waiting.isAnswer, slots := s.slotClock }),
  onPort p fun q => { q with
    egress := q.egress.filter fun w => s.isSender && w.rank == 4, lost := false, hops := 0x3F, fromUp := true, margin := false
    lowRun := [0, 0, 0, 0], filter := [], pathValid := false },
  set (0x1310 + p) 3 0xFFFFFFFF, set (0x1310 + p) 7 0,
  setField (portIndex p) 3 23 18 0x3F])

/-- A port goes DOWN from any state but DISABLED. -/
def portDown (p : Nat) : Effect := .look fun s => Effect.when (s.link p != 7) (.seq (leaveUp p) (setLink p 0))

/-- A training fails: the port goes DOWN, and consecutive failures count (R119, R122). -/
def trainingFails (p : Nat) : Effect :=
  .seq (portDown p) (onPort p fun q => { q with failures := q.failures + 1 })

/-- The taps that 2000h+p.06 holds (R140). -/
def State.tapsSet (s : State) (p : Nat) : List Nat :=
  let v := s.reg (portIndex p) 6
  [field v 23 16, field v 15 8, field v 7 0]

/-- A port enters DETECT from DOWN, if it is enabled, not told to stay DOWN and not under test, with the taps of 2000h+p.06
(R119, R120, R137, R519). RETRAINS counts entries to DETECT after UP: the first one of each outage (R143; DEDUCED, log 76). -/
def startTraining (p : Nat) : Effect := .look fun s =>
  Effect.when (s.portLive p && s.link p == 0 && s.reg (portIndex p) 1 == 1 && !(s.port p).heldDown &&
      s.reg (0x7010 + p) 1 == 0) (.all [
    setLink p 1,
    Effect.when (s.port p).fromUp (countField (portIndex p) 0x10 31 16),
    onPort p fun q => { q with
      fromUp := false, tx := Line.initial, rx := Line.initial, lost := false, slots := s.slotClock, used := 0, owed := 0
      taps := s.tapsSet p, eqStatus := 0 }])

/-- The cabling of a port is at fault: two senders, or two tiles by ports of the same name (R121). -/
def State.cablingFault (s : State) (p : Nat) : Bool :=
  let far := s.reg (portIndex p) 3
  (s.isSender && field far 29 28 == 2) || (s.isTile && field far 29 28 == 1 && field far 27 24 == p)

/-- The role of a sender from the ports that are UP: 0 if one faces the E0 of a tile, 1 if every one faces the E1 of a
tile (R121). -/
def State.role (s : State) : Option Bool :=
  let ups := s.ports.filter fun p => s.portUp p && field (s.reg (portIndex p) 3) 29 28 == 1
  if ups.any fun p => field (s.reg (portIndex p) 3) 27 24 == 0 then some false
  else if !ups.isEmpty && ups.all fun p => field (s.reg (portIndex p) 3) 27 24 == 1 then some true
  else none

/-- The tile that a port faces knows its hops from the other end of the chain (R121). -/
def State.otherEndKnown (s : State) (p : Nat) : Bool :=
  s.portUp p && field (s.reg (portIndex p) 3) 29 28 == 1 && field (s.reg (portIndex p) 3) 23 18 != 0x3F

/-- A chain of the largest configuration (R14 to R17, R121): the sender faces the E0 of a tile that knows its hops from the
other end, and the return port of the chain faces no E1 (DEDUCED, log 18). -/
def State.paired (s : State) : Bool := s.ports.any fun p =>
  let far (q : Nat) := s.reg (portIndex q) 3
  s.otherEndKnown p && field (far p) 27 24 == 0 &&
    !(p < 8 && s.portUp (p + 8) && field (far (p + 8)) 29 28 == 1 && field (far (p + 8)) 27 24 == 1)

/-- The largest configuration: the sender is one of a pair, or sees that it is (R7, R17 to R19). A master whose peer has gone
keeps its role (DEDUCED, log 18). -/
def State.pairLayout (s : State) : Bool := s.reg 0x1000 6 == 1 || s.reg 0x2100 1 != 0 || s.paired

/-- The other sender is seen on some chain. -/
def State.peerSeen (s : State) : Bool := s.paired || (s.reg 0x1000 6 == 1 && s.ports.any s.otherEndKnown)

/-- The role that goes with an address (R161, R167): standby at address 1; at address 0 master of a pair, or single. A
sender at address 0 that has been in a pair stays in it. -/
def State.setRole (s : State) (far : Bool) : Effect :=
  Effect.when (!s.stepped) (set 0x2100 1 (
    if far then 2
    else if s.reg 0x1000 6 = 0 && s.reg 0x2100 1 != 0 then s.reg 0x2100 1
    else if s.paired then 1 else 0))

/-- A sender evaluates its role, until enumeration (R14, R121). -/
def evaluateRole : Effect := .look fun s =>
  Effect.when (s.isSender && !s.hid.link.enumerated) 
    (Effect.ofOption s.role fun r => .seq (set 0x1000 6 (if r then 1 else 0)) (s.setRole r))

/-- A port reaches UP (R119). -/
def enterUp (p : Nat) : Effect := .seq (.seq (setLink p 6)
  (onPort p fun q => { q with failures := 0, wasUp := true, lowRun := [0, 0, 0, 0] })) evaluateRole

/-- A port that a commit disables or enables (R119, R137). -/
def applyPortEnable (p : Nat) : Effect := .look fun s =>
  if s.reg (portIndex p) 1 = 0 then Effect.when (s.link p != 7) (.seq (leaveUp p) (setLink p 7))
  else Effect.when (s.link p == 7) (setLink p 0)

/-- Port command 0x01 (R137): the port trains again. -/
def portRetrain (p : Nat) : Effect :=
  .seq (onPort p fun q => { q with heldDown := false }) (portDown p)

/-- Port command 0x02 (R137): the port stays DOWN until a retrain. -/
def portGoDown (p : Nat) : Effect :=
  .seq (onPort p fun q => { q with heldDown := true }) (portDown p)

/-- The port counters go to 0 (R137). -/
def portCounterClear (p : Nat) : Effect :=
  .seq (Effect.each (fun i => set (portIndex p) (8 + i) 0) (List.range 7)) (set (portIndex p) 0x10 0)

/-- PORT_DOWN_WAIT (R119): 1 ms in DOWN has passed. After three failed trainings the wait is that of R122. -/
def execPortDownWait (port : Nat) (s : State) : Host.Outcome State Fault Refusal :=
  perform (Effect.when ((s.port port).failures < 3) (startTraining port)) s

/-- TRAINING_BACKOFF (R122): 100 ms have passed after three failed trainings or more. -/
def execTrainingBackoff (port : Nat) (s : State) : Host.Outcome State Fault Refusal :=
  perform (Effect.when (3 ≤ (s.port port).failures) (startTraining port)) s

/-- SIGNAL_DETECT (R119). -/
def execSignalDetect (port : Nat) (s : State) : Host.Outcome State Fault Refusal :=
  perform (Effect.when (s.portLive port && s.link port == 1) (setLink port 2)) s

/-- EQ_ADAPTED (R120). -/
def execEqAdapted (port : Nat) (s : State) : Host.Outcome State Fault Refusal :=
  perform (Effect.when (s.portLive port && s.link port == 2) (setLink port 3)) s

/-- LOCK_ACQUIRED (R100, R119, R139, R141): the lane map and the skew are recorded; a skew above 212 UI fails the
training. -/
def execLockAcquired (port polarity : Nat) (reversed : Bool) (skews : List Nat) (s : State) :
    Host.Outcome State Fault Refusal :=
  perform (Effect.when (s.portLive port && s.link port == 3)
    (if skews.all (· ≤ 212) then .all [
        set (portIndex port) 5 (polarity % 16 * 256 + if reversed then 1 else 0),
        set (portIndex port) 7 (natLE (skews.map (BitVec.ofNat 8))),
        onPort port fun q => { q with tx := { q.tx with slot := 63 } },
        setLink port 4]
      else trainingFails port)) s

/-- ALIGN_FOUND (R111, R119, R138): the far end's fields are recorded. -/
def execAlignFound (port farPers farPort farHops farAddr : Nat) (s : State) : Host.Outcome State Fault Refusal :=
  perform (Effect.when (s.portLive port && s.link port == 4) (.all [
    set (portIndex port) 3 (farPers % 4 * 2 ^ 28 + farPort % 16 * 2 ^ 24 + farHops % 64 * 2 ^ 18 + farAddr % 1024 * 256),
    onPort port fun q => { q with hops := farHops % 64 },
    setLink port 5])) s

/-- CHECK_PASSED (R119, R121): a cabling fault keeps the port from UP. -/
def execCheckPassed (port : Nat) (s : State) : Host.Outcome State Fault Refusal :=
  perform (Effect.when (s.portLive port && s.link port == 5)
    (if s.cablingFault port then .seq (raise 121 port) (trainingFails port) else enterUp port)) s

/-- CHECK_FAILED (R119, R121). -/
def execCheckFailed (port : Nat) (s : State) : Host.Outcome State Fault Refusal :=
  perform (Effect.when (s.portLive port && s.link port == 5)
    (.seq (Effect.when (s.cablingFault port) (raise 121 port)) (trainingFails port))) s

/-- TRAINING_TIMEOUT (R119): of EQ, LOCK or ALIGN. -/
def execTrainingTimeout (port : Nat) (s : State) : Host.Outcome State Fault Refusal :=
  perform (Effect.when (s.portLive port && 2 ≤ s.link port && s.link port ≤ 4) (trainingFails port)) s

/-- A port that has lock goes DOWN (R119, R135): from UP, or as a training that fails. -/
def losePort (p : Nat) : Effect := .look fun s => if s.portUp p then portDown p else trainingFails p

/-- BLOCK_LOCK_LOSS (R119, R135): in every state that the port comes to with lock. -/
def execBlockLockLoss (port lane : Nat) (s : State) : Host.Outcome State Fault Refusal :=
  perform (Effect.when (s.portLive port && [4, 5, 6].contains (s.link port))
    (.all [raise 135 lane, countLockLoss port, losePort port])) s

/-- The receiver waits for the next ALIGN slot; slots until then are lost (R116, R135). -/
def loseAlign (p : Nat) : Effect := .seq (countRealign p) (onPort p fun q => { q with lost := true })

/-- ALIGN_MISSING (R135): found elsewhere the receiver realigns on it; two expected ALIGN slots missing take the port DOWN. -/
def execAlignMissing (port : Nat) (foundElsewhere : Bool) (s : State) : Host.Outcome State Fault Refusal :=
  perform (Effect.when (s.portLive port && [5, 6].contains (s.link port))
    (if foundElsewhere then loseAlign port else .seq (countLockLoss port) (losePort port))) s

/-- PORT_LEAVES_UP (R136). -/
def execPortLeavesUp (port : Nat) (s : State) : Host.Outcome State Fault Refusal :=
  perform (Effect.when (s.portLive port && s.portUp port) (portDown port)) s

/-- MARGIN_MEASURE (R134, R142): the eyes are recorded, and three low readings in a row on a lane raise the event. A height
or a width that its field does not hold shows its low 8 bits there, and the alarm compares the whole height (DESIGN CHOICE,
log 77). -/
def execMarginMeasure (port : Nat) (heights widths : List Nat) (s : State) : Host.Outcome State Fault Refusal :=
  let low := List.zipWith (fun n h => if h < s.reg (portIndex port) 0x11 then n + 1 else 0) (s.port port).lowRun heights
  perform (Effect.when (s.portLive port && s.portUp port) (.all [
    set (portIndex port) 0x0F (natLE ((List.range 4).flatMap fun k =>
      [BitVec.ofNat 8 (widths.getD k 0), BitVec.ofNat 8 (heights.getD k 0)])),
    onPort port fun q => { q with lowRun := low, margin := low.any (3 ≤ ·) },
    Effect.when (low.any (· == 3)) (raise 134 port)])) s

end Sys2Proof.Machine
end

