-- ==== Sys2Proof/Machine/Clock.lean ====
section
/-! DEFINITION. The tick grid, steps of local time, re-epochs and own cells: what the time core does to the rest of the
part (R108, R115, R171 to R176, R195 to R198). -/

namespace Sys2Proof.Machine

/-- The part's device address (R21). -/
def State.address (s : State) : Nat := s.reg 0x1000 6

/-- The ports that are UP. -/
def State.upPorts (s : State) : List Nat := s.ports.filter s.portUp

/-- The transmitter of a port originates its slot grid (R117). -/
def State.originates (s : State) (p : Nat) : Bool := s.isSender || !s.portUp (opposite p)

/-! Own cells (R115, R117, R236): what a port has to send waits for a slot of its output. -/

/-- The place of a cell in the order of R115 on a tile, and of R236 on a sender. -/
def State.cellRank (s : State) (c : Cell) : Nat :=
  if s.isTile then if c.turned then 0 else match c.kind with
    | 3 => 1
    | 5 => 2
    | _ => 3
  else match c.kind with
    | 1 => if c.queue % 512 < 56 then 4 else if c.queue % 512 < 64 then 1 else if c.queue % 512 < 256 then 6 else 7
    | 4 => 2
    | 6 | 7 => 3
    | _ => 5

/-- Something joins what waits for a slot of a port. -/
def queueUp (p : Nat) (w : Waiting) : Effect := onPort p fun q => { q with egress := q.egress ++ [w] }

/-- A cell as it waits. -/
def State.waiting (s : State) (c : Cell) (poison : List Nat := []) (ring : Option Nat := none) : Waiting :=
  ⟨s.cellRank c, .cell c poison, 0, ring⟩

/-- A cell of its own that a part sends on a port: it waits for a slot. -/
def postCell (p : Nat) (c : Cell) : Effect := .look fun s => queueUp p (s.waiting c)

/-- The queue of a waiting cell. -/
def Waiting.queue (w : Waiting) : Nat :=
  match w.burden with
  | .cell c _ => c.queue
  | .reset _ _ => 0

/-- The queue whose turn it is among those that wait at a priority: the next above the one served last, else the lowest. -/
def nextTurn (last : Option Nat) (queues : List Nat) : Option Nat :=
  match (queues.filter fun q => last.any (· < q)).min? with
  | some q => some q
  | none => queues.min?

/-- What leaves next of all that is ready: the first of the lowest rank, by queues in turn at priorities 6 and 7 (R236);
with the port after it. -/
def PortState.nextWaiting (q : PortState) (ready : Waiting → Bool) : Option (Waiting × PortState) :=
  let l := q.egress.filter ready
  match (l.map Waiting.rank).min? with
  | none => none
  | some r =>
    let turn := nextTurn (lookupKey q.turns r) ((l.filter fun w => w.rank == r).map Waiting.queue)
    (takeFirst (fun w => ready w && w.rank == r && (r < 6 || turn == some w.queue)) q.egress).map fun x =>
      (x.1, { q with egress := x.2, turns := if r < 6 then q.turns else insertKey q.turns r x.1.queue })

/-- Who takes the next slot of a port that originates its grid, and the port after it (R117). A group of 32 has to keep a
slot free of own cells; a direct-layer cell takes that slot too, and the next slot without a direct-layer cell is then free in
its place. Which slot of a group stays free is not stated: the last one, if no other has (DESIGN CHOICE, log 17). -/
def PortState.grant (q : PortState) (ready direct : Waiting → Bool) : Option Waiting × PortState :=
  let used := if q.tx.slot % 32 = 0 then 0 else q.used
  let full := q.tx.slot % 32 == 31 && used == 31
  match q.nextWaiting fun w => ready w && direct w with
  | some (w, q') => (some w, { q' with used := used + 1, owed := q.owed + if full then 1 else 0 })
  | none =>
    if q.owed != 0 then (none, { q with used := used + 1, owed := q.owed - 1 + if full then 1 else 0 })
    else if full then (none, { q with used := used })
    else match q.nextWaiting ready with
      | some (w, q') => (some w, { q' with used := used + 1 })
      | none => (none, { q with used := used })

/-- Modes that the part comes to at once and in which no layer cell leaves (R229): VIGIL, FREEZE, FAULTDARK, SHUTDOWN and
PASSTHROUGH. -/
def layersStop : List Nat := [1, 7, 8, 9, 10]

/-- What waits may leave now: its time has come, and a layer cell is not stopped (R124, R229). -/
def State.mayLeave (s : State) (w : Waiting) : Bool :=
  w.after ≤ s.uptime && !(s.isSender && (w.rank == 1 || w.rank == 4) && layersStop.contains s.mode)

/-- Some bytes of a list replaced from a place on. -/
def putBytes (l : List Byte) (o : Nat) (bs : List Byte) : List Byte := l.take o ++ bs ++ l.drop (o + bs.length)

/-- A BEACON cell as it leaves at an instant in 2⁻¹⁶ ns of local time: ORIGIN, TICK and LT of a SYNC beacon, T1 of a request
and T3 of an answer are those of its departure (R183, R185, R188). -/
def State.stamped (s : State) (leaves : Int) (c : Cell) : Cell :=
  if c.kind != 4 then c
  else match natLE (c.body.take 1) with
    | 1 => { c with
        lt := s.lt s.tick
        body := putBytes c.body 4 (bytesLE 12 (toTime96 leaves) ++ bytesLE 8 s.tick) }
    | 2 => { c with body := putBytes c.body 4 (bytesLE 12 (toTime96 leaves)) }
    | _ => { c with body := putBytes c.body 28 (bytesLE 12 (toTime96 leaves)) }

/-- A queue's context (R241). -/
def State.queue (s : State) (q : Nat) : QueueContext := (lookupKey s.hid.ingest.queues q).getD QueueContext.initial

/-- A queue's context changes. -/
def onQueue (q : Nat) (f : QueueContext → QueueContext) : Effect := .look fun s =>
  onIngest fun i => { i with queues := insertKey i.queues q (f (s.queue q)) }

/-- A cell that leaves counts for its port and, a QUEUE cell, for its queue on a sender; a layer queue's next SEQ follows it
(R147, R241). -/
def countSent (p : Nat) (c : Cell) : Effect := .look fun s => .seq
  (onCounts fun t => { t with cells := updateAt t.cells p (· + 1) })
  (Effect.when (s.isSender && c.kind == 1) (onQueue c.queue fun q => { q with
    cells := satInc 32 q.cells
    seq := if c.queue % 512 < 64 then some ((c.seq + 1) % 2 ^ 32) else q.seq }))

/-- A slot leaves a port through its scramblers (R105), and its grid moves on. -/
def sendSlot (p : Nat) (blocks : List Block) : Effect := .look fun s => .seq
  (emit (.slot p ((s.port p).tx.lanes blocks)))
  (onPort p fun q => { q with tx := q.tx.next })

/-- The eight bytes of a RESET slot on a lane (R111, R124). -/
def resetBlock (target kind lane : Nat) : List Byte :=
  bytesLE 1 0xC3 ++ bytesLE 1 lane ++ bytesLE 2 target ++ bytesLE 1 kind ++ bytesLE 2 (65535 - target % 65536) ++
    bytesLE 1 (255 - kind)

/-- What waited leaves a port at an instant. -/
def sendWaiting (p : Nat) (leaves : Int) (w : Waiting) : Effect := .look fun s =>
  match w.burden with
  | .cell c poison => .seq (sendSlot p (cellBlocks (s.stamped leaves c) poison)) (countSent p c)
  | .reset target kind => sendSlot p ((s.port p).tx.filled (resetBlock target kind))

/-- An empty slot of a tile's output: an own cell in the order of R115, else IDLE. -/
def fillSlot (p : Nat) : Effect := .look fun s => match (s.port p).nextWaiting s.mayLeave with
  | some (w, q) => .seq (onPort p fun _ => q) (sendWaiting p s.fine w)
  | none => sendSlot p (s.port p).tx.idle

/-- END of the cells that a port originates (R108): the sender at address 1, or the return port of a looped chain of a
single sender, which faces the E1 of a tile. -/
def State.endOf (s : State) (p : Nat) : Bool :=
  s.isSender && (s.address == 1 || s.loopEnd p)

/-- The far end of a tile's own cell: END of what it sends on a port (R158). -/
def State.ownEnd (s : State) (p : Nat) : Bool := if s.isSender then s.endOf p else p == 1

/-- A cell with a body padded to 240 bytes, of a kind and without a queue. -/
def plainCell (kind src len seq lt : Nat) (bcast fromEnd timed : Bool) (body : List Byte) : Cell :=
  ⟨kind, bcast, fromEnd, false, timed, 0, src, len, false, false, seq, lt, padTo 240 body, 0⟩

/-- A field of a cell's body. -/
def cellField (c : Cell) (o n : Nat) : Nat := natLE (slice c.body o n)

/-- TYPE of a BEACON cell's body (R185, R188). -/
def beaconType (c : Cell) : Nat := cellField c 0 1

/-- The first cell received that satisfies a test, with its port, and the cells without it. -/
def State.takeCell (s : State) (p : Nat × Cell → Bool) : Option ((Nat × Cell) × List (Nat × Cell)) :=
  takeFirst p s.hid.link.rx

/-- An effect on the first cell, with its port, that satisfies a test and has not yet been handled. -/
def withCellOf (p : Nat × Cell → Bool) (f : Nat → Cell → Effect) : Effect := .look fun s =>
  Effect.ofOption (s.takeCell p) fun q =>
    .seq (onLink fun l => { l with rx := q.2 }) (f q.1.1 q.1.2)

/-- An effect on the first cell of a kind that has been received and not yet handled. -/
def withCell (p : Cell → Bool) (f : Nat → Cell → Effect) : Effect := withCellOf (fun q => p q.2) f

/-- The grid takes an anchor, with its offset from epoch alignment (R174). -/
def setGrid (n : Nat) (a : Int) (rn rd slots : Nat) : Effect :=
  let rn := max 1 rn
  let g := a - ((n * rd * 10 ^ 9 / rn : Nat) : Int)
  let k := roundDiv (g * rn) (rd * 10 ^ 9)
  .all [
    onTime fun m => { m with grid := some ⟨n, a, rn, rd, slots⟩ },
    set 0x1300 6 n, set 0x1300 7 (toTime96 (a * 65536)),
    setInt 32 0x1300 8 (g - roundDiv (k * rd * 10 ^ 9) rn),
    setInt 64 0x1300 0x0B k]

/-- The instant of the epoch-aligned boundary n in ns (R174). -/
def alignedAt (n rn rd : Nat) : Int := ((n * rd * 10 ^ 9 / max 1 rn : Nat) : Int)

/-- The first epoch-aligned boundary at or after num / den units of local time: its number and its instant, exactly (R174). -/
def epochBoundary (num den rn rd : Nat) : Nat × Int :=
  let n := ceilDiv (num * rn) (max 1 (den * rd * 10 ^ 9 * unitsPerNs))
  (n, alignedAt n rn rd)

/-- The grid becomes epoch-aligned from num / den units of local time on; the tick until then takes the number before (R174,
R197). -/
def alignGrid (num den rn rd slots : Nat) : Effect :=
  let b := epochBoundary num den rn rd
  .seq (setGrid b.1 b.2 rn rd slots) (set 0x1001 5 (b.1 - 1))

/-- Local time moves by an amount in 2⁻¹⁶ ns (R192, R198). -/
def moveTime (d : Int) : Effect := onTime fun m => { m with now := ((m.now : Int) + 5 * d).toNat }

/-- A phase trim begins, in place of one that is still in progress (R192). -/
def startTrim (d : Int) : Effect := onTime fun m => { m with trimFrom := m.cycles, trimTotal := d, trimDone := 0 }

/-- The sub-cycle stamp of an event by the cycle counter, in 1/64 cc: count − 12 − E − K + φ/64 (R183). -/
def State.cycleStamp (s : State) (k entryDelay phase : Nat) : Int :=
  ((s.hid.time.cycles : Int) - 12 - entryDelay - k) * 64 + phase

/-- The stamp of an event in local time, in 2⁻¹⁶ ns: 1/64 cc is 4096 units (R183). -/
def State.stamp (s : State) (k entryDelay phase : Nat) : Int :=
  ((s.hid.time.now : Int) + (s.cycleStamp k entryDelay phase - s.hid.time.cycles * 64) * 4096) / 5

/-- Whole ns of an amount in 2⁻¹⁶ ns. -/
def wholeNs (d : Int) : Int := d / 65536

/-- A launch time moved by whole ns (R198). -/
def shiftLt (d : Int) (lt : Nat) : Nat := ofSigned 32 ((lt : Int) + d)

/-- Every pending launch moves (R198): T of the pending commit and of the one under check, timed messages, the cells that wait
to leave or that have been taken, the windows that they make, and SYNC start times that wait. What a whole number of ns later
is now the last edge of a SYNC output moves with them. -/
def rebaseLaunches (d : Int) : Effect :=
  let move (c : Commit) : Commit := { c with time := c.time.map (shiftLt d) }
  let cell (c : Cell) : Cell := if c.timed then { c with lt := shiftLt d c.lt } else c
  .all [
    onCommit fun c => { c with pend := c.pend.map move, checking := c.checking.map move },
    onIngest fun i => { i with
      held := i.held.map fun q => (q.1, shiftLt d q.2)
      edges := i.edges.map fun q => (q.1, q.2 + 80 * d) },
    onLink fun l => { l with rx := l.rx.map fun q => (q.1, cell q.2) },
    onCompose fun x => { x with
      gathering := x.gathering.map fun q => (q.1, { q.2 with lt := shiftLt d q.2.lt })
      messages := x.messages.map fun m => { m with lt := shiftLt d m.lt } },
    hidden fun h => { h with ports := h.ports.map fun q => { q with
      egress := q.egress.map fun w => { w with burden := match w.burden with
        | .cell c bad => .cell (cell c) bad
        | b => b } } },
    .look fun s => Effect.each (fun k => Effect.when (s.reg (0x4330 + k) 8 == Status.pending)
      (set (0x4330 + k) 7 (shiftLt d (s.reg (0x4330 + k) 7)))) (if s.isSender then List.range 8 else [])]

/-- Tick numbers that wait follow a grid that is numbered anew (R197): T of a timed commit says its tick, the one now shown
where T names this boundary (R199), and every other one keeps its distance from the tick shown. -/
def renumber (before : Nat) : Effect := .look fun s =>
  let move (n : Nat) : Nat := ((n : Int) + s.tick - before).toNat
  .all [
    onCommit fun c => { c with pend := c.pend.map fun p => { p with
      due := match p.time with
        | some t => if lt32Diff t s.lt32 ≤ 0 then s.tick else s.tickFrom ((s.ns : Int) + lt32Diff t s.lt32)
        | none => move p.due } },
    onMode fun m => { m with
      request := m.request.map fun q => (q.1, move q.2)
      throttleTick := m.throttleTick.map fun q => (q.1, move q.2) },
    onTime fun m => { m with relockAt := m.relockAt.map move },
    onCompose fun x => { x with firstAfter := x.firstAfter.map move }]

/-- The self-check has failed in this tick, whatever holds at its end (R154). -/
def noteSelf : Effect := onPair fun p => { p with selfSeen := true }

/-- A re-epoch takes effect at its boundary m (R197, R198). A tile in HOLDOVER does not follow it: it joins again at its next
accepted beacon (R199). A plain one closes the open page of the Almanac (R496). A forced one has the budgets computed again as a tick-rate change does (R93). -/
def applyReepoch (r : Reepoch) : Effect := .look fun s => if s.isTile && s.reg 0x1300 3 == 3
  then onTime fun m => { m with reepoch := none }
  else
  let d := wholeNs r.delta
  .all [
    moveTime r.delta,
    rebaseLaunches d,
    .look fun t =>
      let g := t.grid
      if r.plain then .seq
        (.seq (alignGrid (2 * t.hid.time.now * g.rn + g.rd * 10 ^ 9 * unitsPerNs) (2 * max 1 g.rn) g.rn g.rd g.slots)
          (.seq (renumber t.tick) (beginClose 1)))
        (Effect.when s.isTile (.seq (onPair fun p => { p with windows := [] })
          (.look fun u => onScan fun c => { c with dark := some (u.grid.anchorTick, u.grid.anchorTick) })))
      else setGrid g.anchorTick (g.anchor + d) g.rn g.rd g.slots,
    setBy 0x1300 9 fun t => (t.reg 0x1300 9 + 1) % 256,
    set 0x1330 3 Status.applied, setInt 64 0x1330 4 d, set 0x1330 5 (ofSigned 16 r.delta), set 0x1330 6 r.tick,
    Effect.when s.timingMaster (.seq (Effect.when ([3, 4].contains (s.reg 0x1300 3)) noteSelf) (set 0x1300 3 2)),
    Effect.when (!r.plain && s.up .core) computeBudgets,
    almanac 2 7,
    onTime fun m => { m with reepoch := none }]

/-- The entry delay of an event's stamp (R183, R202). -/
def countEntry (e : Nat) : Effect := Effect.when (e != 0) (.seq (.seq (count 32 0x1301 1) (almanac 2 5))
  (setBy 0x1301 2 fun s => max (s.reg 0x1301 2) (min 65535 e)))

/-- The codes of 1320h.01 in order of preference (R177). -/
def State.sourceOrder (s : State) : List Nat := sourcesListed (s.reg 0x1320 1)

/-- The state of a time source. -/
def State.sourceState (s : State) (code : Nat) : SourceState := s.hid.time.sources.getD code SourceState.initial

/-- A source is locked; FREE always is (R177). -/
def State.sourceLocked (s : State) (code : Nat) : Bool := code == 0 || (s.sourceState code).locked

/-- A source's offset lies within the jump threshold (R182); a source without an offset agrees with nothing but FREE
with itself. -/
def State.agrees (s : State) (code : Nat) : Bool :=
  code == 0 || match (s.sourceState code).offset with
    | some d => d.natAbs ≤ s.reg 0x1320 4 * 65536
    | none => false

/-- The first source of the list that is locked. -/
def State.bestSource (s : State) : Option Nat := s.sourceOrder.find? s.sourceLocked

/-- TIMEBAD of a sender (R159, R177, R181, R182): the master in HOLDOVER or JUMPED, not yet stepped, or at the steering
limit; a standby without a locked source, with one whose offset has jumped, or fallen back to FREE from a source that it had
locked. -/
def State.timeBad (s : State) : Bool :=
  if s.timingMaster then [0, 1, 3, 4].contains (s.reg 0x1300 3) || 200 * 65536 ≤ (s.int 32 0x1300 5).natAbs
  else match s.bestSource with
    | none => true
    | some 0 => (s.sourceOrder.takeWhile (· != 0)).any fun c => (s.sourceState c).hadLock
    | some c => 3 ≤ (s.sourceState c).bad

/-- What the time state shows in this tick is about to change: TIMEBAD and HOLDOVER have been seen in it (R154, R159). -/
def noteTime : Effect := .look fun s => .seq
  (Effect.when (s.isSender && s.timeBad) noteSelf)
  (Effect.when (s.reg 0x1300 3 == 3) (onCounts fun t => { t with holdover := true }))

/-- 10 s in cc (R182). -/
def rateWindow : Nat := 12500000000

/-- The sum of rate × cc over the stretches that end at a cycle, back to the first cycle of a window, and that cycle. -/
def rateSum (first : Nat) : List (Nat × Int) → (stop : Nat) → Int → Int × Nat
  | [], stop, acc => (acc, stop)
  | (t, r) :: l, stop, acc =>
    let start := max t first
    if stop ≤ first then (acc, stop) else rateSum first l start (acc + r * ((stop - start : Nat) : Int))

/-- The mean rate of the last 10 s in 2⁻¹⁶ ppm (R182). -/
def State.meanRate (s : State) : Int :=
  let m := s.hid.time
  let (sum, start) := rateSum (m.cycles - rateWindow) m.rates m.cycles 0
  if start = m.cycles then s.int 32 0x1300 5 else roundDiv sum (m.cycles - start)

/-- The steering takes a rate, which counts in the mean from here on. -/
def setRate (r : Int) : Effect := .look fun s =>
  let m := s.hid.time
  let recent := m.rates.filter fun q => m.cycles < q.1 + rateWindow
  let older := (m.rates.drop recent.length).take 1
  .seq (setInt 32 0x1300 5 r) (onTime fun m => { m with rates := (m.cycles, r) :: recent ++ older })

end Sys2Proof.Machine
end

