-- ==== Sys2Proof/Machine/Digest.lean ====
section
/-! DEFINITION. The IEEE 802.3 CRC-32 of R151, R290 and the flash layouts, and the SHA-256 of R457. -/

namespace Sys2Proof.Machine

/-- One bit of the reflected CRC-32. -/
def crcBit (c : Nat) : Nat := if c % 2 = 1 then (c / 2) ^^^ 0xEDB88320 else c / 2

/-- n bits of the CRC-32. -/
def crcBits : (n c : Nat) → Nat
  | 0, c => c
  | n + 1, c => crcBits n (crcBit c)

/-- The CRC-32 register after bytes. -/
def crcFeed : (c : Nat) → List Byte → Nat
  | c, [] => c
  | c, b :: bs => crcFeed (crcBits 8 (c ^^^ b.toNat)) bs

/-- The IEEE 802.3 CRC-32 of bytes. -/
def crc32 (bs : List Byte) : Nat := crcFeed 0xFFFFFFFF bs ^^^ 0xFFFFFFFF

/-! SHA-256: its constants are the fractions of the roots of the first primes, and the message schedule is a window of 16 words
that moves along with the rounds. -/

/-- The first 64 primes. -/
def shaPrimes : List Nat := (List.range 312).filter fun n =>
  2 ≤ n && (List.range 16).all fun d => n ≤ d + 2 || n % (d + 2) != 0

/-- The whole part of the k-th root of a number below 2^(40 k), bit by bit. -/
def wholeRoot (k n : Nat) : Nat := (List.range 40).foldr (fun i r => if (r + 2 ^ i) ^ k ≤ n then r + 2 ^ i else r) 0

/-- The first 32 bits of the fraction of the k-th root of a prime. -/
def rootFraction (k p : Nat) : Nat := wholeRoot k (p * 2 ^ (32 * k)) % 2 ^ 32

/-- The exclusive or of a word rotated right by several distances. -/
def turned (distances : List Nat) (x : Nat) : Nat :=
  distances.foldl (fun y n => y ^^^ (x / 2 ^ n + x * 2 ^ (32 - n)) % 2 ^ 32) 0

/-- The eight registers after a round with its constant and its schedule word. -/
def shaRound (constant word : Nat) (v : List Nat) : List Nat :=
  let at' (i : Nat) : Nat := v.getD i 0
  let pick := at' 6 ^^^ (at' 4 &&& (at' 5 ^^^ at' 6))
  let most := (at' 0 &&& at' 1) ||| (at' 2 &&& (at' 0 ||| at' 1))
  let entering := at' 7 + turned [6, 11, 25] (at' 4) + pick + constant + word
  (entering + turned [2, 13, 22] (at' 0) + most) % 2 ^ 32 ::
    updateAt (v.take 7) 3 fun d => (d + entering) % 2 ^ 32

/-- The window of the schedule moved on by one word. -/
def shaAdvance (w : List Nat) : List Nat :=
  let near := w.getD 1 0
  let far := w.getD 14 0
  w.drop 1 ++ [(w.getD 0 0 + (turned [7, 18] near ^^^ near / 8) + w.getD 9 0 + (turned [17, 19] far ^^^ far / 1024)) % 2 ^ 32]

/-- The digest after a block of 64 bytes. -/
def shaBlock (v : List Nat) (block : List Byte) : List Nat :=
  let words := (List.range 16).map fun i => natLE (slice block (4 * i) 4).reverse
  let last := shaPrimes.foldl (fun (q : List Nat × List Nat) p =>
    (shaRound (rootFraction 3 p) (q.2.getD 0 0) q.1, shaAdvance q.2)) (v, words)
  (v.zip last.1).map fun q => (q.1 + q.2) % 2 ^ 32

/-- SHA-256 of bytes, as 32 bytes. -/
def sha256 (bs : List Byte) : List Byte :=
  let padded := bs ++ [0x80] ++ zeroBytes ((119 - bs.length % 64) % 64) ++ (bytesLE 8 (8 * bs.length)).reverse
  let digest := (List.range (padded.length / 64)).foldl (fun v i => shaBlock v (slice padded (64 * i) 64))
    ((shaPrimes.take 8).map (rootFraction 2))
  digest.flatMap fun w => (bytesLE 4 w).reverse

end Sys2Proof.Machine
end

