-- ==== Sys2Proof/Machine/Entries.lean ====
section
/-! DEFINITION. The dictionary as a whole: which keys exist, the size and place of DOMAIN content, the configuration that
a commit would make, and the geometry that sizes depend on (R11, R34, R45, R70, R281). -/

namespace Sys2Proof.Machine

/-- Every entry of a personality with its row, in ascending order of key (R34, R39). -/
def allEntries (p : Personality) : List (Key × Row) :=
  indexBlocks.flatMap fun b => (List.range (b.count p)).flatMap fun i => b.rows.flatMap fun r =>
    (List.range (r.last + 1 - r.sub)).filterMap fun j =>
      if r.exists p (b.base + i) (r.sub + j) then some (keyOf (b.base + i) (r.sub + j), r) else none

/-- The row of a key on this part. -/
def State.row (s : State) (k : Key) : Option Row := rowAt s.pers k

/-- The type of a key. -/
def State.ty (s : State) (k : Key) : Option Ty := (s.row k).map Row.ty

/-- The region of a tile: X, Y, W and H in wall pixels (R246, R274). -/
def State.regionX (s : State) : Nat := field (s.reg 0x4100 1) 63 48
def State.regionY (s : State) : Nat := field (s.reg 0x4100 1) 47 32
def State.regionW (s : State) : Nat := field (s.reg 0x4100 1) 31 16
def State.regionH (s : State) : Nat := field (s.reg 0x4100 1) 15 0

/-- Λ, lamps per pixel (R281). -/
def State.lambda (s : State) : Nat := s.reg 0x4200 1

/-- L, the lamp count (R281). -/
def State.lampCount (s : State) : Nat := s.regionW * s.regionH * s.lambda

/-- The bytes of one capture slot (R264). -/
def State.captureSlot (s : State) : Nat := ceilDiv (64 + 2 * s.lampCount) 4096 * 4096

/-- The streams 256 to 511 that hold host stream data (R234): the bytes of the selected one. -/
def State.hostStream (s : State) (stream : Nat) : List Byte := (lookupKey s.hid.compose.streams stream).getD []

/-- The content size of a DOMAIN entry in bytes (R70). -/
def State.domainSize (s : State) (k : Key) : Nat :=
  let i := k / 256
  let sub := k % 256
  if i = 0x1220 then 36
  else if i = 0x1402 then 8388608
  else if i = 0x1500 then s.reg 0x1500 4
  else if i = 0x1520 then 64
  else if i = 0x1610 then 1120
  else if i = 0x2110 then 131072
  else if i = 0x2210 then (s.hostStream (s.reg 0x2210 1)).length
  else if i = 0x3060 then 1024 * (if s.isSender then 36 else 8)
  else if i = 0x4102 then 8192
  else if i = 0x4180 then s.reg 0x4180 4 * s.captureSlot
  else if 0x4210 ≤ i && i < 0x4218 then 36
  else if i = 0x5200 then 90176
  else if 0x6001 ≤ i && i < 0x6005 then 256
  else if i = 0x6030 then 3072
  else if i = 0x6031 then 4096
  else if i = 0x6100 then (if sub = 1 then 2048 else 4096)
  else if i = 0x6102 then 512
  else if i = 0x6103 then 4096
  else if sub = 5 then 36
  else if (i = 0x6300 || i = 0x6301) && sub = 0x0E then (s.hid.ingest.previews.getD (i - 0x6300) PreviewState.initial).edid
  else 0

/-- Where the content of a DOMAIN entry lies. -/
def domainBase (k : Key) : Nat :=
  if k = keyOf 0x1402 1 then Space.flash.at 0x50A0000
  else if k = keyOf 0x1500 8 then Space.flash.at 0x3040000
  else if k = keyOf 0x4180 6 then Space.capture.at 0
  else if k = keyOf 0x5200 8 then Space.lampMap.at 0
  else Space.content.at (contentOffset k 0)

/-- Bytes of a DOMAIN entry's content. -/
def State.content (s : State) (index sub offset n : Nat) : List Byte := s.bytes (domainBase (keyOf index sub) + offset) n

/-- A field of a DOMAIN entry's content. -/
def State.contentWord (s : State) (index sub offset n : Nat) : Nat := natLE (s.content index sub offset n)

/-- The content of a DOMAIN entry takes bytes. -/
def storeContent (index sub offset : Nat) (bs : List Byte) : Effect := storeAt (domainBase (keyOf index sub) + offset) bs

/-- An I16 of DOMAIN content. -/
def State.contentInt (s : State) (index sub offset : Nat) : Int := toSigned 16 (s.contentWord index sub offset 2)

/-- The value of an entry as bytes, or the content of a DOMAIN entry. -/
def State.valueBytes (s : State) (k : Key) : List Byte :=
  match s.ty k with
  | some .domain => s.bytes (domainBase k) (s.domainSize k)
  | some .str => (bytesLE 64 (s.reg (k / 256) (k % 256))).takeWhile (· != 0)
  | some t => bytesLE t.size (s.reg (k / 256) (k % 256))
  | none => []

/-- The configuration that would be in effect with the entries and the DOMAIN content of a commit (R48). -/
def State.withCommit (s : State) (c : Commit) : State := { s with
  regs := c.entries.foldl (fun r e => setValue s.pers r e.1 e.2) s.regs
  mem := c.content.foldl (fun m b => memWrite m b.1 [b.2]) s.mem }

/-- The throttle level is active, or the throttle test asks for DERATE (R402). -/
def State.throttled (s : State) : Bool := s.flag 0x1200 4 1 || s.reg 0x1210 1 == 1

/-- The mode in effect for tick n, with the changes that are due by then (R402, R444). -/
def State.modeAt (s : State) (n : Nat) : Nat :=
  match s.hid.mode.request.filter (·.2 ≤ n), s.hid.mode.throttleTick.filter (·.2 ≤ n) with
  | some (m, _), _ => if s.throttled && [4, 5, 11].contains m then Mode.derate else m
  | none, some (enter, _) => if enter then Mode.derate else s.reg 0x1210 2
  | none, none => s.mode

/-- The mode by which the lanes latch in tick n: through a warm reset, the one that it interrupts (R298, R343). -/
def State.scanModeAt (s : State) (n : Nat) : Nat :=
  if s.mode = Mode.boot && s.reg 0x1001 3 = Cause.warm then s.hid.reset.interrupted else s.modeAt n

/-- The configuration in effect for tick n: a commit and a profile switch that are due by then act on it (R229, R257,
R297). -/
def State.configAt (s : State) (n : Nat) : State :=
  let t := match s.hid.commit.pend with
    | some c => if c.due ≤ n then s.withCommit c else s
    | none => s
  { t with regs := setValue t.pers t.regs (keyOf 0x4300 0x0B) (if s.scanModeAt n = Mode.derate then 1 else 0) }

/-- The bytes of staged content from an address, over what is in effect. -/
def State.stagedBytes (s : State) (over' : List (Nat × Byte)) (a n : Nat) : List Byte :=
  (List.range n).map fun i => (lookupKey over' (a + i)).getD (s.byte (a + i))

end Sys2Proof.Machine
end

