-- ==== Sys2Proof/Machine/Modes.lean ====
section
/-! DEFINITION. The twelve modes (R443 to R447): what an entry to a mode does, mode requests, throttling and automatic
HOLD, with the end of a commit that a mode entry brings (R51). -/

namespace Sys2Proof.Machine

/-- A commit that was pending ends with a code (R50): the boot commit reports in 1110h.03, an earlier commit in 1010h.0B,
the latest one in 1010h.03. -/
def endPending (code : Nat) : Effect := .look fun s =>
  Effect.ofOption s.hid.commit.pend fun c => .all [
    if c.boot then set 0x1110 3 code else Effect.when (s.reg 0x1010 0x0B != Status.pending) (set 0x1010 3 code),
    Effect.when (s.reg 0x1010 0x0B == Status.pending) (set 0x1010 0x0B code),
    onCommit fun t => { t with pend := none }]

/-- The commit under check ends with a code, and the command that waits is dropped (R47). -/
def endChecking (code : Nat) : Effect := .look fun s =>
  Effect.ofOption s.hid.commit.checking fun c => .all [
    if c.boot then set 0x1110 3 code else set 0x1010 3 code,
    onCommit fun t => { t with checking := none, waiting := none }]

/-- Both are discarded with a code (R46 CANCEL, R51). -/
def dropCommits (code : Nat) : Effect := .seq (endPending code) (endChecking code)

/-- The drop at an entry to a mode without commits: MODE at phase 1, and no entry to name (R51, R527). -/
def dropByMode : Effect := .look fun s =>
  Effect.when (s.hid.commit.pend.isSome || s.hid.commit.checking.isSome) (.all [
    dropCommits Status.mode, set 0x1010 5 0, set 0x1010 6 0, set 0x1010 7 1])

/-- LAMP_EN takes a level (R349). -/
def setLampEn (on : Bool) : Effect := .look fun s => Effect.when (s.hid.lampEn != on)
  (.all [hidden fun h => { h with lampEn := on }, set 0x5000 1 (if on then 1 else 0), emit (.pin 349 0 on)])

/-- Every lane goes to electrical idle, with no frame begun and no latch to come (R343, R365). -/
def stopLanes : Effect := .look fun s => Effect.when s.isTile (.seq
  (onScan fun x => { x with
    kinds := List.replicate 32 3
    lanes := x.lanes.map fun l => { l with started := false, ended := false, dark := false } })
  (Effect.each (fun l => setField (0x5110 + l) 3 0 0 0) (List.range 32)))

/-- Outputs dark: LAMP_EN low, references clamped to zero, lanes idle. -/
def darkOutputs : Effect := .all [setLampEn false, hidden fun h => { h with clamped := true }, stopLanes]

/-- Every channel's STATE, and the controller state, go from one code to another (R393, R397). -/
def moveMemory (before after : Nat) : Effect := .look fun s =>
  Effect.when (s.reg 0x3000 3 == before) (.seq (set 0x3000 3 after)
    (Effect.each (fun c => Effect.when (field (s.reg (0x3030 + c) 1) 2 0 == before)
      (setField (0x3030 + c) 1 2 0 after)) s.channels))

/-- The domains of SHUTDOWN and PASSTHROUGH: SCAN and PIPE gated, with what they hold kept (DEDUCED, log 113), MEM in
self-refresh, outputs dark (R404, R443). -/
def restDomains : Effect := .all [
  darkOutputs, moveMemory 2 4, setBit 0x1100 6 Dom.scan.bit false, setBit 0x1100 6 Dom.pipe.bit false]

/-- The domains of the modes that run all of them. -/
def wakeDomains : Effect := .all [
  moveMemory 4 2, setBit 0x1100 6 Dom.scan.bit true, setBit 0x1100 6 Dom.pipe.bit true]

/-- Every bring-up test ends (R518, R519, R523). -/
def endTests : Effect := .look fun s => .all [
  Effect.each (fun p => set (0x7010 + p) 1 0) s.ports,
  set 0x7020 1 0,
  Effect.when (s.reg 0x7030 3 == 1) (set 0x7030 3 4)]

/-- HPD of receiver d is to be high (R209): it is enabled, in any mode but VIGIL, OFF and SHUTDOWN. -/
def State.hpdWanted (s : State) (d : Nat) : Bool :=
  s.isSender && s.reg (0x6001 + d) 1 == 1 && !([Mode.vigil, Mode.shutdown].contains s.mode)

/-- HPD of receiver d takes its level once CORE runs; a receiver that asserts it waits for its source to train, and one that
does not detects none (R209, R242; DESIGN CHOICE, log 98). -/
def driveHpd (d : Nat) : Effect := .look fun s =>
  Effect.when (s.up .core && s.hid.ingest.hpd.getD d false != s.hpdWanted d) (.all [
    emit (.pin 209 d (s.hpdWanted d)),
    onIngest fun i => { i with
      hpd := updateAt i.hpd d fun _ => s.hpdWanted d
      dpAt := updateAt i.dpAt d fun _ => s.uptime },
    set (0x6001 + d) 3 (if s.hpdWanted d then 1 else 0)])

/-- HPD of every receiver. -/
def driveHpds : Effect := Effect.each driveHpd (List.range 4)

/-- HPD is low from a POR or a cold reset on. -/
def dropHpds : Effect := .look fun s => Effect.each (fun d => emit (.pin 209 d false))
  ((List.range 4).filter fun d => s.hid.ingest.hpd.getD d false)

/-- An access over PCIe shows that the link has trained, at a generation and a width that are free (R216, log 99). -/
def trainPcie : Effect := .look fun s => Effect.when (s.isSender && s.reg 0x6020 1 == 0) (.seq
  (set 0x6020 1 ((1 + s.freeValue 16 % 5) * 16 + s.freeValue 16 / 8 % 5)) useFree)

/-- The modes that drop a pending commit on entry (R51). -/
def droppingModes : List Nat := [1, 7, 8, 9, 10]

/-- The part enters a mode at a tick, with the cause of R447. -/
def enterModeAt (tick m cause : Nat) : Effect := .look fun s => .all [
  Effect.when (!([4, 5].contains s.mode)) (onPair fun p => { p with selfSeen := true }),
  Effect.when (droppingModes.contains m) dropByMode,
  set 0x1001 1 m, set 0x1001 3 cause, set 0x1001 6 tick,
  Effect.when (s.mode == Mode.bringup && m != Mode.bringup) endTests,
  Effect.when (m == Mode.derate) (set 0x4300 0x0B 1),
  Effect.when (s.mode == Mode.derate && m != Mode.derate) (set 0x4300 0x0B 0),
  Effect.when ((s.mode == Mode.derate) != (m == Mode.derate) && s.up .core) computeBudgets,
  Effect.when (s.mode == Mode.shutdown && m != Mode.shutdown && s.reg 0x1001 4 == FaultCode.shutdown) (set 0x1001 4 0),
  Effect.when ([1, 9, 10].contains m) restDomains,
  Effect.when (m == Mode.freeze) (haltMaster 4),
  Effect.when ([9, 10].contains s.mode && [3, 4, 5, 6, 11].contains m) wakeDomains,
  Effect.when (commitModes.contains m && !(commitModes.contains s.mode)) (onReset fun r => { r with confirmFrom := s.uptime }),
  driveHpds,
  onMode fun d => { d with request := none, automatic := none, throttleTick := none, byEnum := false }]

/-- The part enters a mode now. -/
def enterMode (m cause : Nat) : Effect := .look fun s => enterModeAt s.tick m cause

/-- The part changes to a mode at a tick: RUN, HOLD and BRINGUP become DERATE while it is throttled (R402), and a change
to the mode it is in does nothing. -/
def changeModeAt (tick m cause : Nat) : Effect := .look fun s =>
  if s.throttled && [4, 5, 11].contains m then
    .seq (set 0x1210 2 m) (Effect.when (s.mode != Mode.derate) (enterModeAt tick Mode.derate Cause.throttle))
  else Effect.when (s.mode != m) (enterModeAt tick m cause)

/-- The same, now. -/
def changeMode (m cause : Nat) : Effect := .look fun s => changeModeAt s.tick m cause

/-- The modes from which a request is accepted and acted upon (R444). -/
def requestFrom : Nat → List Nat
  | 3 => [3, 4, 5, 6, 9, 10, 11]
  | 4 | 5 => [3, 4, 5, 6, 11]
  | 10 => [3, 4, 5, 6, 11]
  | 11 => [3, 4, 5, 6]
  | _ => []

/-- The answer to a mode request (R444). -/
def State.requestStatus (s : State) (m : Nat) : Nat :=
  if m = Mode.passthrough && s.isSender then Status.range
  else if m != Mode.dark && s.reg 0x1001 4 = FaultCode.settings then Status.unavailable
  else if s.mode = Mode.boot && m != Mode.passthrough then Status.ok
  else if s.mode = Mode.shutdown && m = Mode.dark && 1760 ≤ s.int 16 0x1200 3 then Status.unavailable
  else if (requestFrom m).contains s.mode then Status.ok
  else Status.unavailable

/-- An accepted request (R402, R444, R445): held in BOOT; the return mode in DERATE; otherwise from the first tick n whose
LT(n) − P lies after it, or at once while local time is UNSET. -/
def acceptRequest (m : Nat) : Effect := .look fun s => .all [
  set 0x1001 2 m,
  if s.mode = Mode.boot then .nothing
  else if s.mode = Mode.derate && [4, 5, 11].contains m then set 0x1210 2 m
  else if s.stepped then onMode fun d => { d with request := some (m, s.firstTickAfter 1 s.ns), automatic := none }
  else changeMode m Cause.request]

/-- The throttle level or test has changed (R402): DERATE is entered or left at the first tick n whose LT(n) − P comes
after it, or at once while there is no grid. -/
def followThrottle : Effect := .look fun s =>
  let enter := s.throttled
  let from' := if enter then [4, 5, 11].contains s.mode && s.hid.mode.automatic.isNone else s.mode == Mode.derate
  if !from' then onMode fun d => { d with throttleTick := none }
  else if s.stepped then onMode fun d => { d with throttleTick := some (enter, s.firstTickAfter 1 s.ns) }
  else if enter then .seq (set 0x1210 2 s.mode) (enterMode Mode.derate Cause.throttle)
  else enterMode (s.reg 0x1210 2) Cause.throttleEnded

/-- The change to or from DERATE, where it comes before a request. -/
def State.throttleChange (s : State) : Option (Bool × Nat) :=
  s.hid.mode.throttleTick.filter fun t => s.hid.mode.request.all fun r => t.2 < r.2

/-- MODE_CHANGE (R402, R444): the request, or the change to or from DERATE, whose tick comes takes effect at its
boundary. A request for a later tick waits on. -/
def execModeChange (s : State) : Host.Outcome State Fault Refusal :=
  perform (match s.throttleChange, s.hid.mode.request with
    | some (true, n), later => .all [
        advanceTo (s.at n),
        set 0x1210 2 s.mode,
        enterModeAt n Mode.derate Cause.throttle,
        onMode fun d => { d with request := later }]
    | some (false, n), later => .all [
        advanceTo (s.at n),
        enterModeAt n (s.reg 0x1210 2) Cause.throttleEnded,
        onMode fun d => { d with request := later }]
    | none, some (m, n) => .all [
        advanceTo (s.at n),
        onMode fun d => { d with request := none },
        changeModeAt n m Cause.request]
    | none, none => .nothing) s

/-- AUTOMATIC_HOLD (R445): after 3 consecutive whole ticks without an accepted beacon. -/
def execAutomaticHold (s : State) : Host.Outcome State Fault Refusal :=
  perform (Effect.when (s.isTile && s.reg 0x1110 1 == 1 && 3 ≤ s.hid.mode.missed &&
      (s.mode == Mode.run || (s.mode == Mode.derate && s.reg 0x1210 2 == Mode.run)))
    (.seq (enterMode Mode.hold Cause.contentLost) (onMode fun d => { d with automatic := some s.mode }))) s

/-- AUTOMATIC_HOLD_RETURN (R402, R445): after 16 consecutive ticks with beacons. -/
def execAutomaticHoldReturn (s : State) : Host.Outcome State Fault Refusal :=
  perform (Effect.when (s.mode == Mode.hold && 16 ≤ s.hid.mode.seen)
    (Effect.ofOption s.hid.mode.automatic fun m => .seq (changeMode m Cause.contentReturned) followThrottle)) s

/-- HOLD_LIMIT (R445): the automatic HOLD has lasted 1110h.02 seconds. -/
def execHoldLimit (s : State) : Host.Outcome State Fault Refusal :=
  perform (Effect.when (s.mode == Mode.hold && s.hid.mode.automatic.isSome && s.reg 0x1110 2 != 0)
    (enterMode Mode.dark Cause.contentLost)) s

end Sys2Proof.Machine
end

