-- ==== Sys2Proof/Machine/Memory.lean ====
section
/-! DEFINITION. The memory controller (R369 to R397): mapping, training, refresh, errors, row hammer, freeze, and the
grants of the shared points (R77, R78). -/

namespace Sys2Proof.Machine

/-- The index of channel c's entries. -/
abbrev channelIndex (c : Nat) : Nat := 0x3030 + c

/-- The density code of a channel (R397). -/
def State.density (s : State) (c : Nat) : Nat := field (s.reg (channelIndex c) 1) 23 16

/-- The populated channels. -/
def State.populated (s : State) : List Nat := s.channels.filter fun c => s.density c != 0

/-- Rows per bank of a density (R370). -/
def rowsPerBank (sender : Bool) (density : Nat) : Nat := if sender then 131072 else 8192 * 2 ^ density

/-- D, the data rows of a bank: the largest with D + ceil(D / 8) rows in all (R370). -/
def dataRows (sender : Bool) (density : Nat) : Nat := rowsPerBank sender density * 8 / 9

/-- The payload of a channel in bytes (R370). -/
def channelPayload (sender : Bool) (density : Nat) : Nat :=
  if density = 0 then 0 else dataRows sender density * 16 * 2048

/-- The i-th set bit of a mask among its lowest n, counted from bit 0 (R374). -/
def nthSet (mask n i : Nat) : Nat := ((List.range n).filter (bitAt mask)).getD i 0

/-- Where a payload address lies (R374): the region that maps it and the place, asked for by a requester. -/
def State.placeOf (s : State) (a requester : Nat) : Option MemPlace :=
  (s.regions.find? fun i => s.reg (0x3010 + i) 2 ≤ a && a < s.reg (0x3010 + i) 2 + s.reg (0x3010 + i) 3).map fun i =>
    let mask := s.reg (0x3010 + i) 4
    let c := max 1 (popCount 36 mask)
    let g := 2 ^ s.reg (0x3010 + i) 5
    let x := a - s.reg (0x3010 + i) 2
    let u := x / g
    let o := s.reg (0x3010 + i) 6 + u / c * g + x % g
    let row := o / 32768
    ⟨nthSet mask 36 (u % c), (o / 2048 % 16) ^^^ (row % 16), row, o % 2048 / 32, o % 32 / 16, false, requester, i⟩

/-- The 128-bit word of a place, as one number. -/
def wordKey (p : MemPlace) : Nat :=
  (((p.channel * 16 + p.bank) * 131072 + p.row) * 64 + p.atom) * 2 + p.word

/-- A payload address is mapped. -/
def State.mapped (s : State) (a : Nat) : Bool := (s.placeOf a 0).isSome

/-- The word at a payload address is poisoned (R391). -/
def State.poisoned (s : State) (a : Nat) : Bool :=
  match s.placeOf a 0 with
  | some p => s.hid.memory.poison.contains (wordKey p)
  | none => false

/-- The words that lie whole in the n bytes from a payload address lose their poison (R391). -/
def clearPoison (a n : Nat) : Effect := .look fun s => Effect.when (!s.hid.memory.poison.isEmpty) (onMemory fun m => { m with
  poison := (List.range (n / 16 + 1)).foldl (fun l i =>
    let w := (a + 15) / 16 * 16 + 16 * i
    if w + 16 ≤ a + n then
      match s.placeOf w 0 with
      | some p => l.filter (· != (wordKey p))
      | none => l
    else l) m.poison })

/-- Payload memory takes bytes; the words that are written whole lose their poison (R391). -/
def storePayload (a : Nat) (bs : List Byte) : Effect := .seq (storeAt (Space.payload.at a) bs) (clearPoison a bs.length)

/-- One record of the command history: the oldest goes (R389). Frozen channels record nothing (R388). -/
def recordCommand (channel cmd bank row atom req result : Nat) : Effect := .look fun s =>
  let a := Space.content.at (contentOffset (keyOf 0x3060 1) (1024 * channel))
  Effect.when (s.reg 0x3000 3 != 3) (storeAt a (s.bytes (a + 16) 1008 ++ bytesLE 4 s.hid.time.cycles ++ bytesLE 1 cmd ++
    bytesLE 1 bank ++ bytesLE 3 row ++ bytesLE 1 atom ++ bytesLE 1 req ++ bytesLE 1 result ++ bytesLE 4 s.tick))

/-- The class of a requester (R377): 7 for the controller itself and refresh. -/
def requesterClass (req : Nat) : Nat :=
  if req = 0x10 || req = 0x11 then 0
  else if req = 0x18 || req = 0x19 then 1
  else if 0x20 ≤ req && req < 0x30 then 3
  else if req = 0x30 then 4
  else if req < 0x0B then 4
  else 7

/-- The key under which a floor spacing stands. -/
def floorKey (profileB : Bool) (requester channel : Nat) : Nat := (if profileB then 4096 else 0) + 64 * requester + channel

/-- The floor spacing of a C0 or C1 requester on a channel at the last commit check, for the profile in effect, in cc; a requester
that asks the channel for nothing has none that is too small (R386, R392). -/
def State.floorSpacing (s : State) (p : MemPlace) : Option Nat :=
  lookupKey s.hid.memory.floors (floorKey s.profileB p.requester p.channel)

/-- The latest read recorded of a channel, of one atom where a place is given, takes its RESULT (R389). -/
def resultOf (channel : Nat) (place : Option MemPlace) (result : Nat) : Effect := .look fun s =>
  let a := Space.content.at (contentOffset (keyOf 0x3060 1) (1024 * channel))
  let hit (i : Nat) : Bool := s.word (a + 16 * i + 4) 1 == 2 && place.all fun p =>
    s.word (a + 16 * i + 5) 1 == p.bank && s.word (a + 16 * i + 6) 3 == p.row && s.word (a + 16 * i + 9) 1 == p.atom
  Effect.when (s.reg 0x3000 3 != 3) (Effect.ofOption ((List.range 64).reverse.find? hit) fun i =>
    storeAt (a + 16 * i + 11) (bytesLE 1 result))

/-- The rows next to a row that a bank has: r - 2, r - 1, r + 1 and r + 2 (R386). -/
def State.neighbours (s : State) (p : MemPlace) : List Nat :=
  (if 2 ≤ p.row then [p.row - 2] else []) ++ (if 1 ≤ p.row then [p.row - 1] else []) ++
    [p.row + 1, p.row + 2].filter (· < rowsPerBank s.isSender (s.density p.channel))

/-- The neighbours of a row are refreshed, one row at a time, and counted; the history shows each as a refresh of its row, and
the row in use stays open (R386, R389; DEDUCED, log 112). -/
def refreshNeighbours (p : MemPlace) : Effect := .look fun s => .all [
  Effect.each (fun r => recordCommand p.channel 0x06 p.bank r 0xFF 0x3E 0) (s.neighbours p),
  addField (channelIndex p.channel) 4 15 0 (s.neighbours p).length,
  almanacCount 4 6 (s.neighbours p).length]

/-- What the controller does when a tracked count reaches a multiple of TR (R386): the requester is throttled for the
rest of the window, and a C0 or C1 requester whose floor is less than tT has the neighbours refreshed as well. -/
def hammerAction (p : MemPlace) : Effect := .look fun s =>
  let c := requesterClass p.requester
  let low := c ≤ 1 && (s.floorSpacing p).any (· < s.reg 0x3070 2)
  Effect.when (c ≤ 4) (.all [
    onMemory fun m => { m with
      throttles := if m.throttles.contains (p.channel, p.requester) then m.throttles
        else m.throttles ++ [(p.channel, p.requester)] },
    setBit (channelIndex p.channel) 1 6 true,
    countField (channelIndex p.channel) 4 31 16,
    almanac 4 5,
    Effect.when low (refreshNeighbours p)])

/-- A row's tracker after one activation (R385): the entries and the count that the row now has. -/
def track (l : List Tracked) (p : MemPlace) : List Tracked × Nat :=
  let mine := l.filter fun t => t.channel == p.channel && t.bank == p.bank
  match mine.find? fun t => t.row == p.row with
  | some t =>
    (l.map fun u => if u == t then { t with count := t.count + 1, requester := p.requester } else u, t.count + 1)
  | none =>
    if mine.length < 16 then (l ++ [⟨p.channel, p.bank, p.row, 1, p.requester⟩], 1)
    else
      let least := mine.foldl (fun m t => min m t.count) (mine.headD ⟨0, 0, 0, 0, 0⟩).count
      match mine.find? fun t => t.count == least with
      | some t => (l.map fun u => if u == t then ⟨p.channel, p.bank, p.row, least + 1, p.requester⟩ else u, least + 1)
      | none => (l, 0)

/-- A row is activated: recorded, tracked, and acted upon (R385, R386, R389). -/
def activate (p : MemPlace) : Effect := .look fun s =>
  let (l, n) := track s.hid.memory.trackers p
  let tr := max 1 (s.reg 0x3070 1)
  .all [
    recordCommand p.channel 0x01 p.bank p.row 0xFF p.requester 0,
    onMemory fun m => { m with trackers := l },
    Effect.when (n != 0 && n % tr == 0) (hammerAction p)]

/-- The key of a bank. -/
def bankKey (channel bank : Nat) : Nat := 16 * channel + bank

/-- The row open in a bank. -/
def State.openRow (s : State) (channel bank : Nat) : Option OpenRow := lookupKey s.hid.memory.rows (bankKey channel bank)

/-- A row that is not open is opened in place of the one that is (R378). -/
def openRowAt (p : MemPlace) : Effect := .look fun s =>
  Effect.when ((s.openRow p.channel p.bank).map OpenRow.row != some p.row) (.all [
    Effect.when (s.openRow p.channel p.bank).isSome (recordCommand p.channel 0x04 p.bank 0 0xFF p.requester 0),
    activate p,
    onMemory fun m => { m with rows := insertKey m.rows (bankKey p.channel p.bank) ⟨p.row, 0, 0⟩ }])

/-- The place of the code atom of a data atom (R372). -/
def codePlace (sender : Bool) (density : Nat) (p : MemPlace) : MemPlace :=
  { p with
    bank := p.bank ^^^ 8
    row := dataRows sender density + p.row / 8
    atom := 8 * (p.row % 8) + p.atom / 8
    inCode := true }

/-- The changed code atoms of a row that was open in a bank are written into its code row, in the bank beside it (R373). -/
def writeCode (channel bank requester : Nat) (r : OpenRow) : Effect := .look fun s =>
  Effect.each (fun j => Effect.when (bitAt r.dirty j)
    (let q := codePlace s.isSender (s.density channel) ⟨channel, bank, r.row, 8 * j, 0, false, requester, 0⟩
     Effect.seq (openRowAt q) (recordCommand channel 0x03 q.bank q.row q.atom 0x3E 0))) (List.range 8)

/-- The code buffers of a bank and of the bank beside it, whose rows are about to close, are written back where they have been
changed (R373). -/
def writeBackCode (channel bank requester : Nat) : Effect := .look fun s =>
  let changed (b : Nat) : Option OpenRow := (s.openRow channel b).filter fun r => r.dirty != 0
  let clean (b : Nat) : Effect := Effect.ofOption (changed b) fun r => onMemory fun m => { m with
    rows := insertKey m.rows (bankKey channel b) { r with dirty := 0 } }
  .all [clean bank, clean (bank ^^^ 8),
    Effect.ofOption (changed bank) (writeCode channel bank requester),
    Effect.ofOption (changed (bank ^^^ 8)) (writeCode channel (bank ^^^ 8) requester)]

/-- The row of a place is open with the code atom of the place in its code buffer. -/
def State.buffered (s : State) (p : MemPlace) : Bool :=
  (s.openRow p.channel p.bank).any fun r => r.row == p.row && bitAt r.filled (p.atom / 8)

/-- The code atom of a place comes into the code buffer of its row, which stays open. -/
def fillCode (p : MemPlace) : Effect := .all [
  writeBackCode p.channel p.bank p.requester,
  openRowAt p,
  .look fun s =>
    let q := codePlace s.isSender (s.density p.channel) p
    .seq (openRowAt q) (recordCommand p.channel 0x02 q.bank q.row q.atom p.requester 0),
  .look fun s => Effect.ofOption (s.openRow p.channel p.bank) fun r => onMemory fun m => { m with
    rows := insertKey m.rows (bankKey p.channel p.bank) { r with filled := withBit r.filled (p.atom / 8) } }]

/-- One data atom is read or written with its code atom in the code buffer; a write of part of a word reads it first (R372,
R373). -/
def accessAtom (isWrite part : Bool) (p : MemPlace) : Effect := .all [
  .look fun s => Effect.when (!s.buffered p) (fillCode p),
  Effect.when (isWrite && part) (recordCommand p.channel 0x02 p.bank p.row p.atom p.requester 0),
  recordCommand p.channel (if isWrite then 0x03 else 0x02) p.bank p.row p.atom p.requester 0,
  Effect.when isWrite (onMemory fun m => { m with
    rows := match lookupKey m.rows (bankKey p.channel p.bank) with
      | some r => insertKey m.rows (bankKey p.channel p.bank) { r with dirty := withBit r.dirty (p.atom / 8) }
      | none => m.rows })]

/-- The requester identifier of a bus master (R377). -/
def masterRequester : Master → Nat
  | .budgeted m => m
  | .scanFetch => 0x10
  | .previewFetch => 0x11
  | .timeCore => 0x18
  | .launchFetch => 0x19
  | .receiveWriter => 0x20
  | .compositor => 0x21
  | .captureWriter => 0x22
  | .ingestWriter => 0x28
  | .compressor => 0x29
  | .slicer => 0x2A
  | .service => 0x30

/-- The class of a bus master (R77, R82). -/
def masterClass : Master → Nat
  | .budgeted m => if m ≤ 2 then 4 else if m = 3 then 5 else 6
  | .scanFetch | .previewFetch => 0
  | .timeCore | .launchFetch => 1
  | .receiveWriter | .compositor | .captureWriter | .ingestWriter | .compressor | .slicer => 3
  | .service => 4

/-- The number of a shared point. -/
def pointNumber : SharedPoint → Nat
  | .crossbar => 0
  | .channel c => 1 + c
  | .egress p => 64 + p

/-- The request that a shared point grants (R78): the first class that waits, and in it the master after the one granted
last, going round. Frozen masters are not granted (R89). -/
def State.chooseGrant (s : State) (point : SharedPoint) (waiting : List BusRequest) : Option BusRequest :=
  let able := waiting.filter fun r => match r.master with
    | .budgeted m => s.charging && (!s.frozen m || (r.issued && s.hid.budget.flight.getD m 0 != 0))
    | _ => true
  let best := able.foldl (fun b r => min b (masterClass r.master)) 8
  let mine := able.filter fun r => masterClass r.master == best
  let last := (lookupKey s.hid.budget.turn (8 * pointNumber point + best)).getD 64
  let after (l : Nat) (r : BusRequest) : Nat := (masterRequester r.master + 63 - l) % 64
  mine.foldl (fun b r => match b with
    | none => some r
    | some q => if after last r < after last q then some r else b) none

/-- A granted transfer unit on a channel: each atom that it covers (R373, R378). -/
def grantOnChannel (r : BusRequest) : Effect := .look fun s =>
  Effect.each (fun i =>
    let atom := r.address / 32 * 32 + 32 * i
    let part := max atom r.address % 16 != 0 || min (atom + 32) (r.address + r.bytes) % 16 != 0
    Effect.ofOption (s.placeOf atom (masterRequester r.master)) (accessAtom r.isWrite part))
    (List.range (min 8 (ceilDiv (r.address % 32 + r.bytes) 32)))

/-- A channel grants requests: the controller is ready, and the mode lets it (R388, R392). -/
def State.granting (s : State) : Bool := s.reg 0x3000 3 == 2 && !([0, 1, 9, 10].contains s.mode)

/-- ARBITER_GRANT (R78, R83, R89). -/
def execArbiterGrant (point : SharedPoint) (waiting : List BusRequest) (s : State) :
    Host.Outcome State Fault Refusal :=
  let onChannel := match point with
    | .channel _ => true
    | _ => false
  perform (Effect.when (!onChannel || s.granting) (Effect.ofOption (s.chooseGrant point waiting) fun r => .all [
    onBudget fun b => { b with turn := insertKey b.turn (8 * pointNumber point + masterClass r.master) (masterRequester r.master) },
    Effect.when onChannel (grantOnChannel r),
    match r.master with
    | .budgeted m => .seq
        (Effect.when (s.frozen m) (onBudget fun b => { b with flight := updateAt b.flight m (· - 1) }))
        (charge m (if onChannel then r.bytes else 0) (min 32 r.cycles))
    | _ => .nothing])) s

/-- The region that the part enables at POR and cold reset over the channels found (R375). -/
def defaultRegion : Effect := .look fun s =>
  let c := s.populated.length
  let payload := channelPayload s.isSender (s.density 0)
  .all [
    set 0x3010 3 (c * (payload / 4096 * 4096)),
    set 0x3010 4 (s.populated.foldl withBit 0),
    set 0x3000 4 (c * payload),
    set 0x3000 1 ((if s.isSender then 36 else c / 2) * 2 ^ 24 + c * 2 ^ 16 + s.density 0 * 256 +
      if s.isSender then 1 else 0)]

/-- Memory training fails for good: FAILED, and FAULTDARK with fault 0x0310 (R381, R390). -/
def memoryFails (c : Nat) : Effect := .all [
  set 0x3000 3 5, setBit (channelIndex c) 1 3 true, set 0x1001 4 FaultCode.training,
  onMemory fun m => { m with releasing := false },
  enterMode Mode.faultdark Cause.fault]

/-- A channel has completed a training (R382). -/
def channelTrained (c : Nat) : Effect := .look fun s => .all [
  setField (channelIndex c) 1 2 0 2, setBit (channelIndex c) 1 4 false, setBit (channelIndex c) 1 5 false,
  onMemory fun m => { m with trainedAt := setAt m.trainedAt c s.uptime },
  set (channelIndex c) 5 s.tick, set (channelIndex c) 6 (s.reg 0x1200 1)]

/-- A freeze ends: granting resumes, and the part leaves FREEZE for DARK unless a warm reset is under way (R390). -/
def finishRelease : Effect := .look fun s => .all [
  moveMemory 3 2,
  onMemory fun m => { m with releasing := false, failing := none, freezeKind := 0 },
  Effect.when (s.mode == Mode.freeze) (changeMode Mode.dark Cause.freezeReleased)]

/-- MEMORY_TRAINING (R369, R381, R390): one channel's training passes or fails; the third failure is final. A density of
0 says that the position is empty, which only a tile's channels above M01 may be. -/
def execMemoryTraining (channel density : Nat) (passed : Bool) (s : State) : Host.Outcome State Fault Refusal :=
  let ok := passed && (if s.isSender then density == 3 else density ≤ 3 && (density != 0 || 2 ≤ channel))
  perform (Effect.when (s.up .mem && s.channels.contains channel)
    (if s.hid.memory.releasing && field (s.reg (channelIndex channel) 1) 2 0 = 1 then
      (if passed then .seq (channelTrained channel) (.seq (setField (channelIndex channel) 1 2 0 3) finishRelease)
        else .seq (countField (channelIndex channel) 3 15 0) (memoryFails channel))
    else Effect.when (s.reg 0x3000 3 == 1 && !bitAt s.hid.memory.trained channel)
      (if ok then .all [
        setField (channelIndex channel) 1 23 16 density,
        Effect.when (density != 0) (channelTrained channel),
        onMemory fun m => { m with trained := withBit m.trained channel },
        .look fun t => Effect.when (t.channels.all (bitAt t.hid.memory.trained))
          (.seq (set 0x3000 3 2) defaultRegion)]
      else .all [
        countField (channelIndex channel) 3 15 0,
        onMemory fun m => { m with attempts := updateAt m.attempts channel (· + 1) },
        Effect.when (2 ≤ s.hid.memory.attempts.getD channel 0 || (s.isSender && passed)) (memoryFails channel)]))) s

/-- A channel becomes due for retraining (R382). -/
def markDue (c : Nat) : Effect := .look fun s => Effect.when (s.density c != 0 && !s.flag (channelIndex c) 1 4)
  (.seq (setBit (channelIndex c) 1 4 true) (requestActivity Activity.retraining))

/-- The retries of a channel within the last second (R380). -/
def State.recentRetries (s : State) (c : Nat) : Nat :=
  (s.hid.memory.retries.filter fun q => q.1 == c && s.uptime < q.2 + 10 ^ 9).length

/-- RETRAIN_DUE (R382): the temperature has moved, or the retry rate is reached, or else the part runs on until the interval has
passed, where one is set. -/
def execRetrainDue (channel : Nat) (s : State) : Host.Outcome State Fault Refusal :=
  let moved := (s.int 16 0x1200 1 - s.int 16 (channelIndex channel) 6).natAbs
  perform (Effect.when (s.up .mem && s.channels.contains channel)
    (if s.reg 0x3080 4 ≤ moved || s.reg 0x3080 5 ≤ s.recentRetries channel then markDue channel
    else Effect.when (s.reg 0x3080 3 != 0)
      (.seq (waitUntil (s.hid.memory.trainedAt.getD channel 0 + s.reg 0x3080 3 * 10 ^ 9)) (markDue channel)))) s

/-- RETRAIN_STEP (R382): a step completes or is abandoned; the last one completes the training, and the next due channel
follows. -/
def execRetrainStep (channel : Nat) (completed last : Bool) (s : State) : Host.Outcome State Fault Refusal :=
  perform (Effect.when (s.hid.memory.retraining == some channel && s.running Activity.retraining && !s.frozen 7 &&
      s.reg 0x3000 3 == 2) (.seq
    (recordCommand channel 0x09 0 0 0xFF 7 0)
    (Effect.when (completed && last) (.all [
      channelTrained channel,
      countField (channelIndex channel) 3 31 16,
      almanac 4 4,
      onMemory fun m => { m with retraining := none },
      endActivity Activity.retraining,
      .look fun t => Effect.when t.dueChannel.isSome (requestActivity Activity.retraining)])))) s

/-- REFRESH (R379): a bank is refreshed in every mode in which MEM is out of reset, and its row closes. -/
def execRefresh (channel bank : Nat) (s : State) : Host.Outcome State Fault Refusal :=
  perform (Effect.when (s.up .mem && (s.reg 0x3000 3 == 2 || s.reg 0x3000 3 == 3) && s.populated.contains channel) (.all [
    Effect.when (s.reg 0x3000 3 == 2) (writeBackCode channel bank 0x3E),
    recordCommand channel 0x06 bank 0 0xFF 0x3F 0,
    onMemory fun m => { m with rows := removeKey m.rows (bankKey channel bank) }])) s

/-- REFRESH_WINDOW (R379, R385, R386): counts restart, throttles end, and a halved window takes effect. -/
def execRefreshWindow (channel : Nat) (s : State) : Host.Outcome State Fault Refusal :=
  let half := s.hid.memory.halving.getD channel false
  perform (Effect.when (s.up .mem && s.channels.contains channel) (.all [
    onMemory fun m => { m with
      trackers := m.trackers.filter (·.channel != channel), throttles := m.throttles.filter (·.1 != channel) },
    setBit (channelIndex channel) 1 6 false,
    setBit (channelIndex channel) 1 7 half,
    setBit 0x3000 5 channel half])) s

/-- DEVICE_TEMP_READOUT (R379): the devices' temperatures in 1/16 °C; a device above 3070h.04 halves the window from its
next start. -/
def execDeviceTempReadout (channel : Nat) (temps : List Int) (s : State) : Host.Outcome State Fault Refusal :=
  let hottest := temps.foldl max (temps.headD 0)
  perform (Effect.when (s.up .mem && s.populated.contains channel) (.seq
    (setField (channelIndex channel) 1 31 24 (ofSigned 8 (hottest / 16)))
    (onMemory fun m => { m with
      halving := setAt m.halving channel (temps.any fun t => s.int 16 0x3070 4 < t) }))) s

/-- EDC_RETRY (R380): counted, and due for retraining at the retry level within one second. The channel's latest read shows
it (R389). -/
def execEdcRetry (channel : Nat) (s : State) : Host.Outcome State Fault Refusal :=
  perform (Effect.when (s.up .mem && s.populated.contains channel) (.all [
    addField (channelIndex channel) 3 63 32 1,
    almanac 4 3,
    resultOf channel none 4,
    onMemory fun m => { m with retries := (m.retries.filter fun q => s.uptime < q.2 + 10 ^ 9) ++ [(channel, s.uptime)] },
    .look fun t => Effect.when (t.reg 0x3080 5 ≤ t.recentRetries channel) (markDue channel)])) s

/-- A corrected error (R383): counted, and queued for a write-back while there is room. -/
def correctedError (c : Nat) : Effect := .look fun s => .all [
  addField (channelIndex c) 2 63 32 1,
  almanac 4 0,
  onCounts fun t => { t with memErrors := t.memErrors + 1 },
  if s.hid.memory.writeBacks.getD c 0 < 64 then
    onMemory fun m => { m with writeBacks := updateAt m.writeBacks c (· + 1) }
  else .seq (countField (channelIndex c) 2 15 0) (almanac 4 2)]

/-- CORRECTED_READ (R383). -/
def execCorrectedRead (place : MemPlace) (s : State) : Host.Outcome State Fault Refusal :=
  perform (Effect.when (s.up .mem && s.populated.contains place.channel)
    (.seq (resultOf place.channel (some place) 1) (correctedError place.channel))) s

/-- The KIND of a freeze (R394). -/
def triggerKind : FreezeTrigger → Nat
  | .dataError _ => 1
  | .writeEdc => 2
  | .readEdc => 3
  | .modeRegister => 4

/-- The syndrome of a freeze (R393). -/
def triggerSyndrome : FreezeTrigger → Nat
  | .dataError x => x
  | _ => 0

/-- The freeze record of a place (R394). -/
def freezeRecord (kind : Nat) (p : MemPlace) : Nat :=
  kind * 2 ^ 60 + p.channel * 2 ^ 54 + p.bank * 2 ^ 50 + p.row * 2 ^ 33 + p.atom * 2 ^ 27 + p.word * 2 ^ 26 +
    (if p.inCode then 2 ^ 25 else 0) + p.requester * 256 + p.region

/-- A memory freeze (R388): only the first trigger is recorded, and a second one only counts (R392; DEDUCED, log 109). -/
def freezeMemory (trigger : FreezeTrigger) (p : MemPlace) : Effect := .look fun s =>
  if s.up .mem && s.reg 0x3000 3 == 3 then almanac 4 7
  else Effect.when (s.up .mem && s.reg 0x3000 3 == 2) (.all [
    almanac 4 7,
    Effect.when (triggerKind trigger == 1) (resultOf p.channel (some p) 2),
    moveMemory 2 3,
    Effect.when (field (s.reg 0x3002 1) 63 60 == 0) (.all [
      set 0x3002 1 (freezeRecord (triggerKind trigger) p), set 0x3002 2 (triggerSyndrome trigger), set 0x3002 3 s.tick]),
    onMemory fun m => { m with failing := some p, freezeKind := triggerKind trigger, retraining := none },
    Effect.ofOption s.hid.memory.retraining fun c => setBit (channelIndex c) 1 5 false,
    endActivity Activity.retraining,
    haltMaster 4,
    set 0x1001 4 (if triggerKind trigger = 1 then FaultCode.memoryData else FaultCode.memoryCommand),
    Effect.when ([2, 3, 4, 5, 6, 11].contains s.mode) (enterMode Mode.freeze Cause.freeze)])

/-- MEMORY_FREEZE (R387, R388). -/
def execMemoryFreeze (trigger : FreezeTrigger) (place : MemPlace) (s : State) : Host.Outcome State Fault Refusal :=
  perform (freezeMemory trigger place) s

/-- MODE_REGISTER_CHECK (R387). -/
def execModeRegisterCheck (channel : Nat) (matched : Bool) (s : State) : Host.Outcome State Fault Refusal :=
  perform (Effect.when (!matched && s.populated.contains channel)
    (freezeMemory .modeRegister ⟨channel, 0, 0, 0, 0, false, 0x3E, 0⟩)) s

/-- An atom of a data row or of a code row is read by the scrub (R384, R389). -/
def scrubAtom (p : MemPlace) (found : Nat) : Effect := .look fun s =>
  .seq (if p.row < dataRows s.isSender (s.density p.channel) then accessAtom false false p
    else .all [writeBackCode p.channel p.bank p.requester, openRowAt p, recordCommand p.channel 0x02 p.bank p.row p.atom 6 0])
    (resultOf p.channel (some p) found)

/-- SCRUB (R383, R384, R421, R422): one atom is read; found is 0 clean, 1 corrected, 2 uncorrectable, 3 poisoned. What
waits for a write-back on the channel is written as well. -/
def execScrub (place : MemPlace) (found : Nat) (s : State) : Host.Outcome State Fault Refusal :=
  let c := place.channel
  let runs := s.maintenance && s.granting && !s.frozen 6 && s.populated.contains c && s.reg 0x7030 3 != 1 &&
    s.hid.memory.retraining != some c && (s.reg 0x3080 1 != 0 || s.hid.memory.scrubNow)
  let written := s.hid.memory.writeBacks.getD c 0
  let last := c == s.populated.foldl max 0 && place.atom == 63 && place.bank == 15 &&
    place.row + 1 == dataRows s.isSender (s.density c) + ceilDiv (dataRows s.isSender (s.density c)) 8
  perform (Effect.when runs (.all [
    scrubAtom { place with requester := 6 } found,
    set 0x3080 2 (c * 2 ^ 26 + place.row * 2 ^ 9 + place.bank * 2 ^ 5),
    Effect.when last (onMemory fun m => { m with scrubNow := false }),
    onMemory fun m => { m with writeBacks := setAt m.writeBacks c 0 },
    charge 6 (32 + 32 * written) ((1 + written) * ceilDiv 200 (max 1 s.hid.memory.rate)),
    Effect.when (found == 1) (correctedError c),
    Effect.when (found == 2) (.seq (freezeMemory (.dataError (s.freeValue 16)) { place with requester := 6 }) useFree),
    Effect.when (found == 3) (.seq (addField (channelIndex c) 2 31 16 1) (almanac 4 1))])) s

/-- HAMMER_THRESHOLD (R386): the row's tracked count reaches the next multiple of TR. -/
def execHammerThreshold (place : MemPlace) (s : State) : Host.Outcome State Fault Refusal :=
  let tr := max 1 (s.reg 0x3070 1)
  let (l, n) := track s.hid.memory.trackers place
  let reached := ceilDiv n tr * tr
  perform (Effect.when (s.up .mem && s.populated.contains place.channel) (.seq
    (onMemory fun m => { m with trackers := l.map fun t =>
      if t.channel == place.channel && t.bank == place.bank && t.row == place.row then { t with count := reached } else t })
    (hammerAction place))) s

/-- Memory command 0x01 (R390). -/
def freezeRelease : Effect := .look fun s => Effect.when (s.reg 0x3000 3 == 3) (
  match s.hid.memory.failing with
  | some p =>
    if s.hid.memory.freezeKind = 1 then .all [
      onMemory (fun m => { m with
        poison := if m.poison.contains (wordKey p) then m.poison else m.poison ++ [(wordKey p)] }),
      finishRelease,
      Effect.when (p.row < dataRows s.isSender (s.density p.channel)) (accessAtom true false { p with requester := 0x3E })]
    else .seq (setField (channelIndex p.channel) 1 2 0 1) (onMemory fun m => { m with releasing := true })
  | none => finishRelease)

/-- Memory command 0x02 (R393). -/
def clearFreezeRecord : Effect := .all [set 0x3002 1 0, set 0x3002 2 0, set 0x3002 3 0]

/-- Memory command 0x03 (R382, R393). -/
def retrainAll : Effect := .look fun s => Effect.each markDue s.populated

/-- Memory command 0x04 (R393). -/
def scrubNow : Effect := .seq (onMemory fun m => { m with scrubNow := true }) (set 0x3080 2 0)

/-- The counters of channel c (R393). -/
def clearChannel (c : Nat) : Effect := .all [
  set (channelIndex c) 2 0, set (channelIndex c) 3 0, set (channelIndex c) 4 0]

/-- Memory command 0x05 (R393). -/
def clearChannels : Effect := .look fun s => Effect.each clearChannel s.channels

/-- The memory test of 7030h may start on its region (R521): enabled, and free of placed kinds and of the reserved area. -/
def State.testRegionFree (s : State) : Bool :=
  let i := s.reg 0x7030 2
  let b := s.reg (0x3010 + i) 2
  s.regionOn i &&
    if s.isSender then b + s.reg (0x3010 + i) 3 ≤ 0x1A00000000 || 0x2000000000 ≤ b
    else (List.range 7).all fun k => field (s.reg 0x3020 1) (4 * k + 3) (4 * k) != i

/-- Test command 0x01 of 7030h.01 (R521): the content of the region is destroyed. -/
def startMemoryTest : Effect := .look fun s =>
  let i := s.reg 0x7030 2
  .all [
    set 0x7030 3 1, set 0x7030 4 0,
    .act (.erase (Space.payload.at (s.reg (0x3010 + i) 2))
      (Space.payload.at (s.reg (0x3010 + i) 2 + s.reg (0x3010 + i) 3)))]

/-- MEMORY_TEST_DONE (R521): a pass is complete, without a failure or with the address of the first one. -/
def execMemoryTestDone (failure : Option Nat) (s : State) : Host.Outcome State Fault Refusal :=
  perform (Effect.when (s.reg 0x7030 3 == 1) (match failure with
    | none => .seq (set 0x7030 3 2) (count 32 0x7030 5)
    | some a => .seq (set 0x7030 3 3) (set 0x7030 4 a))) s

end Sys2Proof.Machine
end

