-- ==== Sys2Proof/Machine/Raster.lean ====
section
/-! DEFINITION. The timing of ticks, slots and rasters as rationals (R26, R295, R296, R312 to R317): which TG drives a
lane in a profile, slot instants, TMAX and blanking. -/

namespace Sys2Proof.Machine

/-- The tick period in ns of a configuration's own entries, exactly (R295). -/
def State.configPeriod (s : State) : Rat := (s.reg 0x4300 2 * 10 ^ 9 : Nat) / (max 1 (s.reg 0x4300 1) : Nat)

/-- Slots per tick in a profile (R295, R296). -/
def State.slotsIn (s : State) (profileB : Bool) : Nat := max 1 (if profileB then s.reg 0x4300 6 else s.reg 0x4300 3)

/-- The nibble of slot k in a profile's slot map (R295). -/
def State.slotView (s : State) (profileB : Bool) (k : Nat) : Nat :=
  let e := (if profileB then 7 else 4) + k / 16
  field (s.reg 0x4300 e) (4 * (k % 16) + 3) (4 * (k % 16))

/-- The views that appear in a slot of a profile, ascending (R297). -/
def State.viewsIn (s : State) (profileB : Bool) : List Nat :=
  (List.range 8).filter fun v => (List.range (s.slotsIn profileB)).any fun k => s.slotView profileB k == v

/-- Tslot in cc of a configuration's own entries, exactly (R315, R318). -/
def State.tslot (s : State) (profileB : Bool) : Rat := s.configPeriod * 5 / 4 / s.slotsIn profileB

/-- The index that holds TG r's timing in a profile (R325). -/
def State.tgIndex (s : State) (profileB : Bool) (r : Nat) : Nat :=
  if profileB && s.isTile then 0x4008 + r else 0x4000 + r

/-- The TGs of the part (R312). -/
def State.tgs (s : State) : List Nat := List.range (if s.isSender then 2 else 4)

/-- TG r is enabled in a profile. -/
def State.tgOn (s : State) (b : Bool) (r : Nat) : Bool := s.reg (s.tgIndex b r) 1 == 1

/-- The lane mask of TG r in a profile. -/
def State.laneMask (s : State) (b : Bool) (r : Nat) : Nat := s.reg (s.tgIndex b r) 4

/-- The TG that drives a lane in a profile (R313). -/
def State.tgOfLane (s : State) (b : Bool) (lane : Nat) : Option Nat :=
  s.tgs.find? fun r => s.tgOn b r && bitAt (s.laneMask b r) lane

/-- A lane is in an enabled mask of the profile in effect. -/
def State.laneOn (s : State) (lane : Nat) : Bool := (s.tgOfLane s.profileB lane).isSome

/-- A field of the horizontal timing: 0 HBP, 1 HSW, 2 HFP, 3 HACT (R326). -/
def State.hor (s : State) (b : Bool) (r i : Nat) : Nat := field (s.reg (s.tgIndex b r) 2) (16 * i + 15) (16 * i)

/-- A field of the vertical timing: 0 VBP, 1 VSW, 2 VFP, 3 VACT (R327). -/
def State.ver (s : State) (b : Bool) (r i : Nat) : Nat := field (s.reg (s.tgIndex b r) 3) (16 * i + 15) (16 * i)

/-- H, the length of a line (R314). -/
def State.lineLength (s : State) (b : Bool) (r : Nat) : Nat := s.hor b r 0 + s.hor b r 1 + s.hor b r 2 + s.hor b r 3

/-- The active part of a TG's frame in cc. -/
def State.activeLength (s : State) (b : Bool) (r : Nat) : Nat := s.ver b r 3 * s.lineLength b r

/-- TMAX of a TG (R315). -/
def State.tmax (s : State) (b : Bool) (r : Nat) : Nat :=
  min 4095 ((s.activeLength b r : Rat) * 4096 / s.tslot b).floor.toNat

/-- The slot blanking of a TG in whole cc (R314, R318). -/
def State.blanking (s : State) (b : Bool) (r : Nat) : Nat := ((s.tslot b).floor - (s.activeLength b r : Int)).toNat

/-- The least blanking over the enabled TGs of a profile (R318). -/
def State.leastBlanking (s : State) (b : Bool) : Nat :=
  match (s.tgs.filter (s.tgOn b)).map (s.blanking b) with
  | [] => 0
  | x :: xs => xs.foldl min x

/-- The instant of slot k of tick n in ns (R26). -/
def State.slotAt (s : State) (n k : Nat) : Int :=
  s.at n + (s.period * k / max 1 s.slots).floor

/-- The lamp's place: tile pixel row of lamp l (R281). -/
def State.lampRow (s : State) (l : Nat) : Nat := l / max 1 (s.lambda * s.regionW)

/-- The modes in which the TGs run (R324). -/
def tgModes : List Nat := [3, 4, 5, 6, 7, 8, 11]

/-- The TGs run: a commit has enabled them, and the mode lets them (R324). -/
def State.scanRuns (s : State) : Bool := s.up .scan && s.hid.scan.running && tgModes.contains (s.scanModeAt s.tick)

/-- TG r runs. -/
def State.tgRuns (s : State) (r : Nat) : Bool :=
  s.scanRuns && s.tgs.contains r && s.tgOn (s.isTile && s.profileB) r

end Sys2Proof.Machine
end

