-- ==== Sys2Proof/Machine/Layout.lean ====
section
/-! DEFINITION. Geometry over one configuration: layers and bindings with their windows (R206, R230, R247), line-buffer
need (R260), lanes (R330), lane frames (R340), placement of kinds (R376), sources and tiles of a sender. -/

namespace Sys2Proof.Machine

/-- The source and destination rectangles of a layer or a binding, its rate and its taps. -/
structure Geometry where
  dx : Int
  dy : Int
  dw : Nat
  dh : Nat
  sx : Nat
  sy : Nat
  sw : Nat
  sh : Nat
  rate : Nat
  tapsH : Nat
  tapsV : Nat
  deriving DecidableEq, Repr

/-- A rectangle of wall pixels. -/
structure Rect where
  x : Nat
  y : Nat
  w : Nat
  h : Nat
  deriving DecidableEq, Repr

/-- A window of R230: the wall span, the margins and the block columns and rows. -/
structure WindowBox where
  ix0 : Int
  ix1 : Int
  iy0 : Int
  iy1 : Int
  mx : Nat
  my : Nat
  x0 : Int
  x1 : Int
  y0 : Int
  y1 : Int
  deriving DecidableEq, Repr

/-- The index of layer x. -/
abbrev layerIndex (x : Nat) : Nat := 0x4110 + x

/-- The geometry of a layer (R247, R277). -/
def State.layer (s : State) (x : Nat) : Geometry :=
  let i := layerIndex x
  let hi (sub : Nat) := field (s.reg i sub) 31 16
  let lo (sub : Nat) := field (s.reg i sub) 15 0
  ⟨toSigned 16 (lo 2), toSigned 16 (hi 2), lo 3, hi 3, lo 4, hi 4, lo 5, hi 5, s.reg i 6, s.reg i 8, s.reg i 9⟩

/-- Layer x is enabled. -/
def State.layerOn (s : State) (x : Nat) : Bool := s.reg (layerIndex x) 1 == 1

/-- Layer x is the direct layer. -/
def State.layerDirect (s : State) (x : Nat) : Bool := x == 7 && s.reg 0x4117 0x0E == 1

/-- The views of layer x's mask. -/
def State.layerViews (s : State) (x : Nat) : List Nat := (List.range 8).filter fun y => s.flag (layerIndex x) 7 y

/-- The region of the tile. -/
def State.region (s : State) : Rect := ⟨s.regionX, s.regionY, s.regionW, s.regionH⟩

/-- The window of a geometry on a region (R230). -/
def windowOf (g : Geometry) (r : Rect) : Option WindowBox :=
  let ix0 := max g.dx r.x
  let ix1 := min (g.dx + g.dw) (r.x + r.w)
  let iy0 := max g.dy r.y
  let iy1 := min (g.dy + g.dh) (r.y + r.h)
  if g.dw = 0 || g.dh = 0 || ix1 ≤ ix0 || iy1 ≤ iy0 then none
  else
    let kx : Rat := (g.sw : Rat) / g.dw
    let ky : Rat := (g.sh : Rat) / g.dh
    let mx := ((g.tapsH : Rat) / 2 * max 1 kx).ceil.toNat
    let my := ((g.tapsV : Rat) / 2 * max 1 ky).ceil.toNat
    let at' (s : Nat) (d : Int) (k : Rat) (i : Int) : Rat := (s : Rat) + ((i - d : Int) : Rat) * k
    let u0 := (at' g.sx g.dx kx ix0).floor - mx
    let u1 := (at' g.sx g.dx kx ix1).ceil + mx
    let v0 := (at' g.sy g.dy ky iy0).floor - my
    let v1 := (at' g.sy g.dy ky iy1).ceil + my
    some ⟨ix0, ix1, iy0, iy1, mx, my,
      max (8 * (u0 / 8)) (8 * (g.sx / 8 : Nat)), min (8 * ((u1 + 7) / 8)) (8 * ((g.sx + g.sw + 7) / 8 : Nat)),
      max (4 * (v0 / 4)) (4 * (g.sy / 4 : Nat)), min (4 * ((v1 + 3) / 4)) (4 * ((g.sy + g.sh + 3) / 4 : Nat))⟩

/-- Block columns of a window. -/
def WindowBox.wb (w : WindowBox) : Nat := ((w.x1 - w.x0) / 8).toNat

/-- Block rows of a window. -/
def WindowBox.hb (w : WindowBox) : Nat := ((w.y1 - w.y0) / 4).toNat

/-- Bytes of an LFC block at a rate (R226). -/
def blockBytes (rate : Nat) : Nat := 4 * rate

/-- The bytes of a window with its descriptor (R249). -/
def WindowBox.bytes (w : WindowBox) (rate : Nat) : Nat := 32 + w.wb * w.hb * blockBytes rate

/-- The window of layer x on this tile, when it is composed from windows at all. -/
def State.layerWindow (s : State) (x : Nat) : Option WindowBox :=
  if s.layerOn x && !s.layerDirect x then windowOf (s.layer x) s.region else none

/-- need(x) of R260. -/
def State.poolNeed (s : State) (x : Nat) : Nat :=
  match s.layerWindow x with
  | none => 0
  | some w =>
    let g := s.layer x
    let plain := g.sw == g.dw && g.sh == g.dh && g.tapsH == 1 && g.tapsV == 1
    let edge (m : Nat) (a b : Bool) : Nat := (if a then m else 0) + if b then m else 0
    let lv := if plain then 4 else 2 * w.my + 4
    let ah := if plain then 0 else edge w.mx (w.ix0 == g.dx) (w.ix1 == g.dx + g.dw)
    let av := if plain then 0 else edge w.my (w.iy0 == g.dy) (w.iy1 == g.dy + g.dh)
    ceilDiv (((w.x1 - w.x0).toNat + ah) * (lv + av) * 8) 1024

/-- The rectangle of a lane (R330, R364). -/
def State.lane (s : State) (l : Nat) : Rect :=
  let o := s.reg (0x5110 + l) 1
  let z := s.reg (0x5110 + l) 2
  ⟨field o 15 0, field o 31 16, field z 15 0, field z 31 16⟩

/-- The lanes of a mask. -/
def lanesIn (mask : Nat) : List Nat := (List.range 32).filter (bitAt mask)

/-- The lanes in an enabled mask of a profile. -/
def State.lanesOn (s : State) (b : Bool) : List Nat := (List.range 32).filter fun l => (s.tgOfLane b l).isSome

/-- The rows of a TG in a profile: the pixel rows with a lamp on its lanes, ascending (R313). -/
def State.tgRows (s : State) (b : Bool) (r : Nat) : List Nat :=
  let rects := (lanesIn (s.laneMask b r)).map s.lane
  (List.range (rects.foldl (fun m q => max m (q.y + q.h)) 0)).filter fun y =>
    rects.any fun q => q.w != 0 && q.y ≤ y && y < q.y + q.h

/-- Data blocks of a row of a lane (R336). -/
def State.rowBlocks (s : State) (l : Nat) : Nat := ceilDiv ((s.lane l).w * s.lambda * 12) 64

/-- F of a lane's frame, in cc (R340). -/
def State.laneFrame (s : State) (b : Bool) (r l : Nat) : Rat :=
  let blk : Rat := 825 / 16
  let rows := s.tgRows b r
  let h := s.lineLength b r
  let row (e : Rat) (i : Nat) : Rat :=
    max e ((rows.idxOf ((s.lane l).y + i) * h + s.hor b r 3 + 32 : Nat) : Rat) + s.rowBlocks l * blk
  (List.range (s.lane l).h).foldl row (32 + blk) + (if s.reg 0x5200 1 = 1 then 5 else 1) * blk

/-- The views that appear in a slot of either profile. -/
def State.viewsEither (s : State) : List Nat :=
  (List.range 8).filter fun v => (s.viewsIn false).contains v || (s.viewsIn true).contains v

/-- The table size of a configuration for one table: bytes for each pixel, and for each lamp. -/
def State.bytesPerPixel (s : State) : Nat := if s.lambda = 4 then 24 else 18

/-- The size of a data kind of R376. -/
def State.kindSize (s : State) (k : Nat) : Nat :=
  match k with
  | 0 => (List.range 8).foldl (fun n x => match s.layerWindow x with
      | some w => n + 3 * (s.layerViews x).length * w.bytes (s.layer x).rate
      | none => n) 0
  | 1 => 2 * (s.regionW * s.regionH * s.bytesPerPixel) + 2 * 4 * s.lampCount
  | 2 => 4 * s.viewsEither.length * s.lampCount
  | 3 => if s.reg 0x4180 1 = 1 then s.reg 0x4180 4 * s.captureSlot else 0
  | 4 => 90176 + 24576
  | 5 => 256 * 65536
  | _ => 256 * 2 ^ 20

/-- The region that a kind names. -/
def State.kindRegion (s : State) (k : Nat) : Nat := field (s.reg 0x3020 1) (4 * k + 3) (4 * k)

/-- The kinds placed so far: the end of what is used in each region, and the payload address at which each kind starts. -/
structure Placement where
  ends : List (Nat × Nat)
  starts : List (Nat × Nat)
  deriving DecidableEq, Repr

/-- One kind placed after those that stand before it, or nothing when it does not fit (R376). -/
def State.placeKind (s : State) (done : Option Placement) (k : Nat) : Option Placement := done.bind fun l =>
  let size := s.kindSize k
  let i := s.kindRegion k
  let base := s.reg (0x3010 + i) 2
  let start := ceilDiv ((lookupKey l.ends i).getD base) 4096 * 4096
  if size = 0 then some l
  else if i < 8 && s.regionOn i && start + size ≤ base + s.reg (0x3010 + i) 3 then
    some ⟨insertKey l.ends i (start + size), insertKey l.starts k start⟩
  else none

/-- The kinds of a configuration in their regions (R376). -/
def State.placement (s : State) : Option Placement := [6, 4, 5, 1, 2, 3, 0].foldl s.placeKind (some ⟨[], []⟩)

/-- Every kind fits (R376). -/
def State.placed (s : State) : Bool := s.placement.isSome

/-- A record of the binding table (R206). -/
structure Binding where
  on : Bool
  source : Nat
  group : Nat
  geo : Geometry
  clear : Bool
  direct : Bool
  deriving DecidableEq, Repr

/-- Binding b of the table. -/
def State.binding (s : State) (b : Nat) : Binding :=
  let w (o n : Nat) := s.contentWord 0x6100 1 (32 * b + o) n
  ⟨w 0 1 == 1, w 1 1, w 2 1,
    ⟨toSigned 16 (w 16 2), toSigned 16 (w 18 2), w 20 2, w 22 2, w 8 2, w 10 2, w 12 2, w 14 2, w 3 1, w 4 1, w 5 1⟩,
    w 6 1 == 1, w 7 1 % 2 == 1⟩

/-- The enabled bindings. -/
def State.bindings (s : State) : List Nat := (List.range 64).filter fun b => (s.binding b).on

/-- The record of the tile map for an address (R208). -/
def State.tileRegion (s : State) (a : Nat) : Rect :=
  let w (o : Nat) := s.contentWord 0x6100 2 (8 * a + o) 2
  ⟨w 0, w 2, w 4, w 6⟩

/-- A surface set (R219). -/
structure SurfaceSet where
  base : Nat
  outBase : Nat
  stride : Nat
  pitch : Nat
  width : Nat
  height : Nat
  format : Nat
  buffers : Nat
  fence : Nat
  rate : Nat
  on : Bool
  deriving DecidableEq, Repr

/-- Surface set i. -/
def State.surfaceSet (s : State) (i : Nat) : SurfaceSet :=
  let w (o n : Nat) := s.contentWord 0x6030 1 (48 * i + o) n
  ⟨w 0 8, w 8 8, w 16 4, w 20 4, w 24 2, w 26 2, w 28 1, w 29 1, w 30 1, w 31 1, w 32 1 == 1⟩

/-- A raw format. -/
def SurfaceSet.raw (t : SurfaceSet) : Bool := t.format == 1 || t.format == 2

/-- The LFC rate at which a set's frames stand. -/
def SurfaceSet.lfcRate (t : SurfaceSet) : Nat :=
  if t.raw then t.rate else if t.format = 3 then 12 else if t.format = 4 then 16 else 24

/-- The bytes of one LFC frame (R226). -/
def lfcBytes (w h rate : Nat) : Nat := ceilDiv w 8 * ceilDiv h 4 * blockBytes rate

/-- A clip (R245). -/
structure Clip where
  base : Nat
  frameBytes : Nat
  width : Nat
  height : Nat
  frames : Nat
  format : Nat
  divider : Nat
  hold : Bool
  on : Bool
  deriving DecidableEq, Repr

/-- Clip i. -/
def State.clip (s : State) (i : Nat) : Clip :=
  let w (o n : Nat) := s.contentWord 0x6103 1 (32 * i + o) n
  ⟨w 0 8, w 8 4, w 12 2, w 14 2, w 16 4, w 20 1, w 21 1, w 22 1 == 1, w 23 1 == 1⟩

/-- The LFC rate of a clip. -/
def Clip.lfcRate (c : Clip) : Nat := if c.format = 3 then 12 else if c.format = 4 then 16 else 24

/-- A DisplayPort source code. -/
def isDp (code : Nat) : Bool := 0x10 ≤ code && code < 0x14

/-- An ST 2110 source code. -/
def isFlow (code : Nat) : Bool := 0x20 ≤ code && code < 0x30

/-- A source is enabled (R205). -/
def State.sourceOn (s : State) (code : Nat) : Bool :=
  if isDp code then s.reg (0x6001 + (code - 0x10)) 1 == 1
  else if isFlow code then s.reg (0x6010 + (code - 0x20)) 1 != 0
  else if 0x40 ≤ code && code < 0x80 then (s.surfaceSet (code - 0x40)).on
  else 0x80 ≤ code && code < 0x100 && (s.clip (code - 0x80)).on

/-- Width and height of a source, as far as they are known. -/
def State.sourceSize (s : State) (code : Nat) : Nat × Nat :=
  if isDp code then
    let f := s.reg (0x6001 + (code - 0x10)) 4
    (field f 63 48, field f 47 32)
  else if isFlow code then
    let f := s.reg (0x6010 + (code - 0x20)) 5
    (field f 63 48, field f 47 32)
  else if code < 0x80 then ((s.surfaceSet (code - 0x40)).width, (s.surfaceSet (code - 0x40)).height)
  else ((s.clip (code - 0x80)).width, (s.clip (code - 0x80)).height)

/-- The LFC rate at which a binding's windows travel. -/
def State.bindingRate (s : State) (b : Binding) : Nat :=
  if b.source < 0x40 then b.geo.rate
  else if b.source < 0x80 then (s.surfaceSet (b.source - 0x40)).lfcRate
  else (s.clip (b.source - 0x80)).lfcRate

/-- The frame rate of a DisplayPort or ST 2110 source in Hz, when one has been measured (R228). -/
def State.sourceRate (s : State) (code : Nat) : Option Rat :=
  if isDp code then
    let f := s.reg (0x6001 + (code - 0x10)) 5
    if f = 0 then none else some ((f : Rat) / 65536)
  else match (s.hid.ingest.flows.getD (code - 0x20) FlowState.initial).period with
    | some p => if p = 0 then none else some (10 ^ 9 / (p : Rat))
    | none => none

/-- ceil(frame rate × P) of a source. -/
def State.framesPerTick (s : State) (code : Nat) : Nat :=
  match s.sourceRate code with
  | some r => (r * s.configPeriod / 10 ^ 9).ceil.toNat
  | none => 1

/-- The DisplayPort and ST 2110 sources that an enabled binding names. -/
def State.liveSources (s : State) : List Nat :=
  ((List.range 4).map (0x10 + ·) ++ (List.range 16).map (0x20 + ·)).filter fun c =>
    s.bindings.any fun b => (s.binding b).source == c

/-- The enabled raw surface sets. -/
def State.rawSets (s : State) : List SurfaceSet :=
  ((List.range 64).map s.surfaceSet).filter fun t => t.on && t.raw

/-- The tiles on a port's chain: address and hop counted from that port (R16 to R18). -/
def State.chainOf (s : State) (p : Nat) : List (Nat × Nat) :=
  let on := s.hid.link.addresses.filter fun a => a.2.1 == s.chainPort p
  on.map fun a => (a.1, if s.reg 0x1000 6 == 1 || s.chainPort p != p then s.chainLength (s.chainPort p) + 1 - a.2.2
    else a.2.2)

/-- The tile addresses that a port reaches. -/
def State.tilesOn (s : State) (p : Nat) : List Nat := (s.chainOf p).map (·.1)

/-- The window of binding b for the tile at an address. -/
def State.tileWindow (s : State) (b a : Nat) : Option WindowBox :=
  let r := s.tileRegion a
  if r.w = 0 then none else windowOf (s.binding b).geo r

/-- The cells of binding b's window for a tile in one tick: its message, or the lines of a direct layer (R31, R235,
R238). -/
def State.bindingCells (s : State) (b a : Nat) : Nat :=
  let d := s.binding b
  match s.tileWindow b a with
  | none => 0
  | some w =>
    if d.direct then
      (w.iy1 - w.iy0).toNat * ceilDiv (16 + 6 * (w.ix1 - w.ix0).toNat) 240 * s.framesPerTick d.source
    else ceilDiv (w.bytes (s.bindingRate d)) 240

end Sys2Proof.Machine
end

