-- ==== Sys2Proof/Machine/Pair.lean ====
section
/-! DEFINITION. Looped chains and the sender pair (R144 to R170): discard windows, DIGEST and HARVEST cells, the
clock-upstream port and mastership. -/

namespace Sys2Proof.Machine

/-! Discard windows and the digest table of a tile (R149 to R152). -/

/-- The digest of a cell (R151). -/
def cellDigest (c : Cell) : Nat :=
  crc32 (headerBytes { c with src := 0, fromEnd := false, turned := false } ++ c.body.take c.len)

/-- What a discard window does with a cell (R149). -/
inductive WindowResult where
  | take (w : Window)
  | restart (w : Window)
  | duplicate
  | tooOld
  deriving DecidableEq, Repr

/-- A window opened at a sequence number. -/
def Window.opened (s : Nat) : Window := ⟨s, 1⟩

/-- A cell meets the window of its queue (R149). -/
def Window.meet (w : Option Window) (seq : Nat) (first : Bool) : WindowResult :=
  match w with
  | none => .take (Window.opened seq)
  | some w =>
    let d := lt32Diff seq w.high
    if 4096 ≤ d then .take (Window.opened seq)
    else if 0 < d then .take ⟨seq, (w.seen * 2 ^ d.toNat) % 2 ^ 4096 + 1⟩
    else if -4096 < d then
      if bitAt w.seen (-d).toNat then .duplicate else .take ⟨w.high, withBit w.seen (-d).toNat⟩
    else if first then .restart (Window.opened seq)
    else .tooOld

/-- A cell taken goes into the digest table with END of the copy, oldest entry first out (R151, R169). -/
def recordDigest (c : Cell) : Effect := onPair fun p => { p with
  digests := (p.digests ++ [(c.queue, c.seq, cellDigest c + if c.fromEnd then 2 ^ 32 else 0)]).drop (p.digests.length - 255) }

/-- A duplicate meets the digest table (R151, R152). Of several entries of one queue and SEQ, which a window restart can leave,
the oldest is compared (DESIGN CHOICE, log 83). -/
def compareDuplicate (c : Cell) : Effect := .look fun s => .all [
  count 32 0x2101 1,
  onCounts fun t => { t with duplicates := t.duplicates + 1 },
  match s.hid.pair.digests.find? fun d => d.1 == c.queue && d.2.1 == c.seq with
  | none => .seq (count 32 0x2101 7) (almanac 3 1)
  | some d => .seq (count 32 0x2101 2) (Effect.when (d.2.2 % 2 ^ 32 != cellDigest c) (.all [
      count 32 0x2101 3,
      Effect.when (!s.flag 0x2101 8 59)
        (set 0x2101 8 (2 ^ 59 + d.2.2 / 2 ^ 32 * 2 ^ 58 + c.queue * 2 ^ 32 + c.seq)),
      almanac 3 0,
      Effect.when (!s.hid.counts.diverged) (raise 152 c.queue),
      onCounts fun t => { t with divergences := t.divergences + 1, diverged := true }]))]

/-- A QUEUE cell passes through the discard window of its queue; the effect is for a cell that is taken (R149). -/
def throughWindow (c : Cell) (take : Effect) : Effect := .look fun s =>
  let q := c.queue % 512
  let keep (w : Window) : Effect :=
    .all [onPair fun p => { p with windows := insertKey p.windows q w }, recordDigest c, take]
  match Window.meet (lookupKey s.hid.pair.windows q) c.seq c.first with
  | .take w => keep w
  | .restart w => .all [count 32 0x2101 5, almanac 3 2, keep w]
  | .duplicate => compareDuplicate c
  | .tooOld => .seq (count 32 0x2101 4) (almanac 3 3)

/-! The self-check and the digests of a sender (R153 to R157). -/

/-- A source that a binding uses is LOST (R211, R213). -/
def State.sourceLostNow (s : State) (code : Nat) : Bool :=
  (isDp code && s.reg (0x6001 + (code - 0x10)) 3 == 3) || (isFlow code && s.reg (0x6010 + (code - 0x20)) 7 == 4)

/-- The conditions of the self-check that hold now (R154). -/
def State.selfConditions (s : State) : Nat :=
  let bit (i : Nat) (b : Bool) : Nat := if b then 2 ^ i else 0
  bit 0 (s.mode == Mode.freeze || s.reg 0x3000 3 == 3) + bit 1 (s.hid.counts.underruns != 0) +
    bit 2 (s.bindings.any fun b => s.sourceLostNow (s.binding b).source) + bit 3 (s.mode == Mode.derate) +
    bit 4 (!([4, 5, 6].contains s.mode)) + bit 5 s.timeBad

/-- The self-check fails (R154): a condition holds, held in this tick, or ended less than 16 ticks ago. -/
def State.selfFailed (s : State) : Bool := s.selfConditions != 0 || s.hid.pair.selfSeen || s.hid.pair.selfHold != 0

/-- 2102h.05 (R170): CFGMIS is kept in the entry. -/
def State.selfCheck (s : State) : Nat :=
  (if s.selfFailed then 128 else 0) + (if s.flag 0x2102 5 6 then 64 else 0) + s.selfConditions

/-- The self-check at the end of a tick: it holds for 16 ticks after one in which a condition held. -/
def selfBoundary : Effect := .look fun s => Effect.when s.isSender (onPair fun p => { p with
  selfHold := if s.selfConditions != 0 || p.selfSeen then 16 else p.selfHold - 1
  selfSeen := false })

/-- An entry belongs to the configuration digest (R157). -/
def digestIndex (i : Nat) : Bool := (0x4000 ≤ i && i < 0x4400) || (0x6000 ≤ i && i < 0x6200)

/-- CFGDIG (R157). -/
def State.configDigest (s : State) : Nat :=
  crc32 ((allEntries s.pers).flatMap fun e =>
    if e.2.acc == .rws && digestIndex (e.1 / 256) then s.valueBytes e.1 else [])

/-- CFGDIG of the peer arrives (R157, R167): an event where CFGMIS becomes set. -/
def peerConfig (dig : Nat) : Effect := .look fun s =>
  let differs := dig != s.configDigest
  .all [
    set 0x2102 7 dig,
    Effect.when (differs && !s.flag 0x2102 5 6) (.seq (countField 0x2100 8 7 0) (raise 157)),
    setBit 0x2102 5 6 differs]

/-- The peer's digest of a tick and port has been settled. -/
def State.settled (s : State) (port tick : Nat) : Bool := s.hid.pair.peer.any fun e => e.port == port && e.tick == tick

/-- The peer's address. -/
def State.peer (s : State) : Nat := if s.address == 0 then 1 else 0

/-- A sender of a pair (R161). -/
def State.inPair (s : State) : Bool := s.isSender && s.reg 0x2100 1 != 0

/-- The own digest of a tick and port. -/
def State.ownDigest (s : State) (port tick : Nat) : TickDigest :=
  (s.hid.pair.own.find? fun d => d.port == port && d.tick == tick).getD ⟨port, tick, 0, 0, false, false⟩

/-- An own digest takes another value. -/
def putOwn (d : TickDigest) : Effect := onPair fun p => { p with
  own := (p.own.filter fun e => !(e.port == d.port && e.tick == d.tick) && d.tick ≤ e.tick + 16) ++ [d] }

/-- A layer cell of a tick counts for OUTDIG of its port, sent or not (R153, R156). -/
def addOwn (port tick : Nat) (c : Cell) : Effect := .look fun s =>
  let d := s.ownDigest port tick
  putOwn { d with xor := d.xor ^^^ cellDigest c, count := d.count + 1 }

/-- The sender yields a port now (R156). -/
def State.yielding (s : State) (port : Nat) : Bool := s.flag 0x2102 2 port

/-- A layer cell still waits for a slot of a port. -/
def PortState.layerWaits (q : PortState) : Bool := q.egress.any fun w => w.rank == 4

/-- The DIGEST of a tick may leave on a port (R153): once, when the tick's windows have been cut and its last layer cell has
left, and no later than LT(n) − P. The cells of a direct layer leave during their tick, and so after its DIGEST: they are not
in OUTDIG (DEDUCED, log 88). -/
def State.digestDue (s : State) (port tick : Nat) : Bool :=
  s.inPair && s.portUp port && s.stepped && !(s.tilesOn port).isEmpty && s.hid.ingest.sliced == some tick &&
    !(s.port port).layerWaits && s.atLeastP (s.at tick - s.ns) 1 && !(s.ownDigest port tick).sent

/-- DIGEST_SEND (R153): the DIGEST cell of a tick on a port. -/
def execDigestSend (port tick : Nat) (s : State) : Host.Outcome State Fault Refusal :=
  let d := s.ownDigest port tick
  perform (Effect.when (s.digestDue port tick) (.seq
    (putOwn { d with failed := s.selfFailed, sent := true })
    (postCell port { plainCell 6 s.address 32 0 (s.lt tick) false (s.endOf port) false
      (bytesLE 1 port ++ bytesLE 1 ((if s.selfFailed then 1 else 0) + (if s.yielding port then 2 else 0) +
        if s.timingMaster then 4 else 0) ++ bytesLE 2 s.selfCheck ++ bytesLE 8 tick ++ bytesLE 4 d.xor ++
        bytesLE 4 d.count ++ bytesLE 4 s.configDigest ++ bytesLE 8 s.hid.pair.lastFlips)
      with queue := s.peer * 512 }))) s

/-- A digest of the peer is settled: it is compared once, and no longer missing. -/
def settleDigest (port tick : Nat) : Effect := onPair fun p => { p with
  peer := (p.peer.filter fun e => tick ≤ e.tick + 16) ++ [⟨port, tick, 0, 0, false, false⟩] }

/-- The table of R155: whether this sender yields. -/
def mustYield (address : Nat) (own peer : Bool) : Bool := (own && !peer) || (own == peer && address == 1)

/-- DIGEST_COMPARE (R155): both digests of a tick and port are held. -/
def execDigestCompare (port tick : Nat) (s : State) : Host.Outcome State Fault Refusal :=
  let own := s.ownDigest port tick
  perform (Effect.when (s.inPair && own.sent && !s.settled port tick)
    (withCell (fun c => c.kind == 6 && cellField c 0 1 == port && cellField c 4 8 == tick) fun _ c => .all [
      settleDigest port tick,
      if cellField c 12 4 = own.xor && cellField c 16 4 = own.count then
        onPair fun p => { p with agree := updateAt p.agree port (· + 1) }
      else .all [
        onPair fun p => { p with agree := setAt p.agree port 0 },
        count 32 0x2102 3, almanac 3 4, raise 155 port,
        onCounts fun t => { t with divergences := t.divergences + 1 },
        Effect.when (mustYield s.address own.failed (bitAt (cellField c 1 1) 0)) (
          if bitAt (cellField c 1 1) 1 then raise 155 port
          else onPair fun p => { p with yields := insertKey p.yields port (min (tick + 2) ((lookupKey p.yields port).getD (tick + 2))) })]])) s

/-- DIGEST_MISSING (R155): no peer DIGEST by LT(n), on a port that carries a chain; the boundary of tick n comes next, or is
the last that came. -/
def execDigestMissing (port tick : Nat) (s : State) : Host.Outcome State Fault Refusal :=
  perform (Effect.when (s.inPair && s.stepped && !(s.tilesOn port).isEmpty && s.tick ≤ tick && tick ≤ s.tick + 1 &&
      !s.settled port tick &&
      !(s.hid.link.rx.any fun q => q.2.kind == 6 && cellField q.2 0 1 == port && cellField q.2 4 8 == tick)) (.all [
    advanceTo (s.at tick),
    settleDigest port tick,
    onPair fun p => { p with agree := setAt p.agree port 0 },
    count 32 0x2102 4, almanac 3 5])) s

/-- The yields of the distribution window of tick n take effect (R155, R156). -/
def applyYields (n : Nat) : Effect := .look fun s =>
  set 0x2102 2 ((s.hid.pair.yields.filter fun y => y.2 ≤ n).foldl (fun m y => withBit m y.1) 0)

/-- YIELD_RESUME (R156): the yield ends with the next distribution window, whose flip deadline shows it in 2102h.02. -/
def execYieldResume (port : Nat) (s : State) : Host.Outcome State Fault Refusal :=
  perform (Effect.when (s.yielding port && !s.selfFailed && s.reg 0x2100 7 ≤ s.hid.pair.agree.getD port 0)
    (onPair fun p => { p with yields := removeKey p.yields port })) s

/-! Harvest (R158 to R160). -/

/-- The tile is on a looped chain: the hop count of its E1 is known (R158, R167). -/
def State.looped (s : State) : Bool := s.isTile && (s.port 1).hops != 0x3F

/-- The tile has been on a loop since POR or cold reset. A cut takes the hop count from the tiles beyond it, and R166 has
them report ONEPATH all the same (DEDUCED, log 89). -/
def State.onLoop (s : State) : Bool := s.looped || s.hid.pair.loop

/-- Time is, or was in this tick, in holdover (R159). -/
def State.holdoverSeen (s : State) : Bool := s.hid.counts.holdover || s.reg 0x1300 3 == 3

/-- The tick is clean by what its report shows (R164). -/
def State.cleanTick (s : State) : Bool :=
  s.mode == Mode.run && !s.selfFailed && !s.timeBad && !s.holdoverSeen && !s.flag 0x2102 5 6

/-- FLAGS of the report (R159). -/
def State.harvestFlags (s : State) : Nat :=
  let bit (i : Nat) (b : Bool) : Nat := if b then 2 ^ i else 0
  let t := s.hid.lastCounts
  bit 6 t.holdover + bit 5 (s.mode == Mode.derate) + bit 4 (s.reg 0x1644 5 != 0) +
    bit 3 (s.hid.ports.any PortState.margin) +
    if s.isTile then bit 7 (s.onLoop && t.ports.length == 1) + bit 2 t.diverged
    else bit 11 (s.flag 0x2102 5 6) + bit 10 (s.reg 0x2102 2 != 0) +
      bit 9 (s.address == 0 && s.hid.pair.claim.isSome) + bit 8 s.timingMaster + bit 1 s.timeBad + bit 0 s.selfFailed

/-- The record of a port (R158). -/
def State.harvestPort (s : State) (p : Nat) : List Byte :=
  let t := s.hid.lastCounts
  let bit (i : Nat) (b : Bool) : Nat := if b then 2 ^ i else 0
  let heights := (List.range 4).map fun k => field (s.reg (portIndex p) 0x0F) (16 * k + 15) (16 * k + 8)
  bytesLE 1 (s.link p) ++ bytesLE 1 (field (s.reg (portIndex p) 3) 23 18) ++ bytesLE 1 (heights.foldl min 255) ++
    bytesLE 1 (bit 0 (s.port p).margin + bit 1 (s.reg 0x2100 3 == p) + bit 2 ((s.port p).hitRun != 0) +
      bit 3 (s.isSender && s.yielding p)) ++
    bytesLE 2 (min 65535 (t.corrected.getD p 0)) ++ bytesLE 1 (min 255 (t.uncorrectable.getD p 0)) ++
    bytesLE 1 (min 255 (t.idle.getD p 0))

/-- The Harvest body sent in a tick (R158). -/
def State.harvestBody (s : State) : List Byte :=
  let t := s.hid.lastCounts
  bytesLE 2 s.address ++ bytesLE 1 (if s.isSender then 2 else 1) ++ bytesLE 1 s.mode ++ bytesLE 8 (s.tick - 1) ++
    bytesLE 2 s.harvestFlags ++ bytesLE 2 (s.reg 0x1644 1) ++ bytesLE 2 (s.reg 0x1001 4) ++
    bytesLE 1 (ofSigned 8 (s.int 16 0x1200 1 / 16)) ++ [0] ++ bytesLE 4 (min (2 ^ 32 - 1) t.memErrors) ++
    bytesLE 2 (min 65535 t.duplicates) ++ bytesLE 2 (min 65535 t.divergences) ++
    bytesLE 1 (if s.isTile then s.reg 0x4100 7 else 0) ++ bytesLE 1 (if s.isTile then s.reg 0x4100 6 else 0) ++
    bytesLE 2 (min 65535 t.underruns) ++ bytesLE 1 (s.reg 0x1010 3) ++ [0] ++ bytesLE 2 (s.reg 0x1010 4) ++
    bytesLE 4 (s.reg 0x1300 4) ++ bytesLE 8 (if s.address = 0 then s.hid.pair.claim.getD 0 else 0) ++
    padTo 128 (s.ports.flatMap s.harvestPort) ++ bytesLE 4 (if s.isTile then s.reg 0x5200 6 else 0)

/-- HARVEST_SEND (R158). A device without a tick grid or an address has no tick to report. -/
def execHarvestSend (s : State) : Host.Outcome State Fault Refusal :=
  let ports := if s.isSender then s.upPorts
    else (if s.portUp 0 then [0] else []) ++ if s.looped && s.portUp 1 then [1] else []
  let cell (p : Nat) := plainCell 5 s.address 240 0 (s.lt s.tick) false (s.ownEnd p) false s.harvestBody
  perform (Effect.when (s.up .link && s.stepped && s.address ≤ 511) (Effect.each (fun p => postCell p (cell p)) ports)) s

/-- What a report of the other sender says (R163 to R165); a copy of one that has come on another port counts no bad
tick again. One that shows MASTER no longer tells a standby that mastership has been handed over (log 19). -/
def peerReport (c : Cell) (again : Bool) : Effect := .look fun s =>
  let flags := cellField c 12 2
  let clean := cellField c 3 1 == Mode.run && !([0, 1, 6, 11].any (bitAt flags))
  .seq (onPair fun p => { p with
      peerClean := clean
      peerMaster := bitAt flags 8
      handed := (p.handed || p.peerMaster) && !bitAt flags 8 && s.reg 0x2100 1 == 2
      harvestBad := if again then p.harvestBad else if bitAt flags 0 || bitAt flags 1 then p.harvestBad + 1 else 0
      claim := if s.address == 1 then (if bitAt flags 9 then some (cellField c 40 8) else none) else p.claim })
    (Effect.when (s.address == 0 && !s.stepped && bitAt flags 8) (set 0x2100 1 2))

/-- HARVEST_RECEIVE (R160): the oldest Harvest cell received. -/
def execHarvestReceive (s : State) : Host.Outcome State Fault Refusal :=
  perform (Effect.when s.isSender (withCell (fun c => c.kind == 5) fun port c => .look fun s =>
    let a := cellField c 0 2
    let again := (lookupKey s.hid.pair.heard a).isSome && s.contentWord 0x2110 1 (256 * a + 20) 8 == cellField c 4 8
    Effect.when (a < 512) (.all [
      storeContent 0x2110 1 (256 * a) (bytesLE 8 s.tick ++ bytesLE 1 port ++ bytesLE 1 (if c.fromEnd then 1 else 0) ++
        zeroBytes 6 ++ padTo 240 c.body),
      onPair fun p => { p with heard := insertKey p.heard a s.tick },
      onCounts fun t => { t with harvests := t.harvests + 1 },
      Effect.when (s.flag 0x2111 (a / 16 + 1) (a % 16)) (.seq (setBit 0x2111 (a / 16 + 1) (a % 16) false)
        (setBy 0x2110 2 fun t => t.reg 0x2110 2 - 1)),
      Effect.when (cellField c 2 1 == 2 && a == s.peer) (peerReport c again)]))) s

/-- DIGEST cells of the peer that no digest of this sender has met in 16 ticks go (DESIGN CHOICE, log 88). -/
def dropOldDigests : Effect := .look fun s => onLink fun l => { l with
  rx := l.rx.filter fun q => q.2.kind != 6 || s.tick ≤ cellField q.2 4 8 + 16 }

/-- The ages of the Harvest table at a tick boundary (R167). -/
def ageHarvests : Effect := .look fun s => Effect.each (fun h =>
  storeContent 0x2110 1 (256 * h.1 + 10) (bytesLE 2 (min 65535 (s.tick - h.2)))) s.hid.pair.heard

/-- DEVICE_SILENT (R160): no Harvest in any of the last 3 ticks. -/
def execDeviceSilent (address : Nat) (s : State) : Host.Outcome State Fault Refusal :=
  perform (Effect.when (s.isSender && !s.flag 0x2111 (address / 16 + 1) (address % 16) &&
      ((lookupKey s.hid.pair.heard address).any fun t => t + 3 < s.tick)) (.all [
    setBit 0x2111 (address / 16 + 1) (address % 16) true,
    count 16 0x2110 2, raise 160 address, almanac 3 6])) s

/-! The clock-upstream port and mastership (R161 to R165). -/

/-- The clock-upstream port that the table of R162 gives at a tick boundary. -/
def State.upstreamNow (s : State) : Nat :=
  let now := s.reg 0x2100 3
  let beacons (p : Nat) : Bool := (s.port p).hitRun != 0
  if s.timingMaster then 0xFF
  else if s.isTile then
    let want := if s.reg 0x2100 2 = 1 then 1 else 0
    if now = want then (if 2 ≤ (s.port want).missRun && beacons (opposite want) then opposite want else now)
    else if 256 ≤ (s.port want).hitRun then want else now
  else if beacons now then now
  else
    let some' (ps : List Nat) := ps.find? beacons
    (some' (s.upPorts.filter fun p => now < p && now != 0xFF)).getD ((some' s.upPorts).getD now)

/-- CLOCK_UPSTREAM_CHANGE (R162): the choice of the last tick boundary is taken, once. -/
def execClockUpstreamChange (s : State) : Host.Outcome State Fault Refusal :=
  perform (Effect.when (s.up .link && s.stepped) (Effect.ofOption s.hid.pair.upstream fun p => .seq
    (onPair fun q => { q with upstream := none }) (set 0x2100 3 p))) s

/-- What a change of mastership ends. -/
def pairSettled : Effect := onPair fun p => { p with
  claim := none, silent := 0, harvestBad := 0, takeover := false, handing := false, handed := false, upstream := none }

/-- A sender becomes timing master (R161, R163, R164): no step of its clock; without a locked source of its own it is in
HOLDOVER (R182). -/
def becomeMaster : Effect := .look fun s => .all [
  noteTime,
  set 0x2100 1 1, set 0x2100 2 s.address, set 0x2100 3 0xFF, almanac 3 7,
  set 0x1320 2 ((s.sourceOrder.find? s.sourceLocked).getD 0xFF),
  onTime fun m => { m with rateHeld := s.meanRate, rateAt := m.cycles },
  if s.sourceOrder.any fun c => c != 0 && s.sourceLocked c then set 0x1300 3 2
    else Effect.when (s.reg 0x1300 3 != 3) (.all [set 0x1300 3 3, count 32 0x1320 7, almanac 2 2, raise 182 3]),
  pairSettled]

/-- A sender becomes standby, at a tick boundary, and chooses its clock-upstream port there (R162). -/
def becomeStandby : Effect := .look fun s => .all [
  noteTime,
  set 0x2100 1 2, set 0x2100 2 s.peer, almanac 3 7,
  pairSettled,
  setBy 0x2100 3 State.upstreamNow]

/-- MASTER_TAKEOVER (R163): the last tick boundary found three silent ticks, or three bad reports. -/
def execMasterTakeover (s : State) : Host.Outcome State Fault Refusal :=
  perform (Effect.when (s.isSender && s.address == 1 && s.reg 0x2100 1 == 2 && s.stepped && s.hid.pair.takeover)
    (.all [becomeMaster, countField 0x2100 8 31 24, raise 163])) s

/-- A claim is announced (R164). -/
def announceClaim (m : Nat) : Effect := onPair fun p => { p with claim := some m }

/-- MASTER_CLAIM (R164): at the end of the 256th consecutive clean tick q, which is the tick before the one now shown. -/
def execMasterClaim (s : State) : Host.Outcome State Fault Refusal :=
  perform (Effect.when (s.isSender && s.address == 0 && s.reg 0x2100 1 == 2 && s.reg 0x2100 5 == 1 &&
    256 ≤ s.reg 0x2100 6 && s.hid.pair.claim.isNone) (announceClaim (s.tick + 2))) s

/-- MASTER_RETURN (R164): at LT(m) of the claim tick. -/
def execMasterReturn (s : State) : Host.Outcome State Fault Refusal :=
  perform (Effect.ofOption s.hid.pair.claim fun m => .seq (advanceTo (s.at m)) (
    if s.address = 0 && s.reg 0x2100 1 = 2 then .seq becomeMaster (countField 0x2100 8 23 16)
    else Effect.when (s.address == 1 && s.reg 0x2100 1 == 1) (.seq becomeStandby (countField 0x2100 8 23 16)))) s

/-- DUAL_MASTER (R165): a conflict of the tick that has ended is resolved. -/
def execDualMaster (s : State) : Host.Outcome State Fault Refusal :=
  perform (Effect.when (s.hid.pair.dual && s.reg 0x2100 1 == 1) (.all [
    raise 165, countField 0x2100 8 15 8,
    onPair fun p => { p with dual := false },
    Effect.when (if s.address = 0 then !s.cleanTick else s.hid.pair.peerMaster && s.hid.pair.peerClean) becomeStandby])) s

/-- The senders at a tick boundary, before the tick's beacons are forgotten (R154, R163 to R165): a handover that has been
asked for, or that the peer shows, takes effect here (log 19). -/
def senderBoundary : Effect := .look fun s => .all [
  Effect.when (s.address == 0) (set 0x2100 6 (if s.cleanTick then satInc 16 (s.reg 0x2100 6) else 0)),
  onPair fun p =>
    let silent := if s.hid.ports.any PortState.beaconTick then 0 else p.silent + 1
    { p with
      silent := silent
      takeover := 3 ≤ silent || (3 ≤ p.harvestBad && !s.timeBad)
      dual := p.dual || (s.reg 0x2100 1 == 1 && s.hid.time.beaconSrcs.contains s.peer)
      claim := if s.address == 0 && !s.cleanTick then none else p.claim },
  selfBoundary,
  ageHarvests,
  dropOldDigests]

/-- The pair and the loop at a tick boundary. -/
def pairBoundary : Effect := .look fun s =>
  if s.isSender then senderBoundary else onPair fun p => { p with loop := s.onLoop }

/-- The choices of a tick boundary that the tick's beacons decide (R162, R165). -/
def pairChoices : Effect := .look fun s => .seq
  (Effect.when s.isSender (if s.hid.pair.handing && s.reg 0x2100 1 == 1 then becomeStandby
    else if s.hid.pair.handed && s.reg 0x2100 1 == 2 then becomeMaster else .nothing))
  (.look fun t => onPair fun p => { p with upstream := some t.upstreamNow })

/-- The ports' beacon runs at a tick boundary (R162). -/
def beaconRuns : Effect := .look fun s => .seq
  (Effect.when (s.isTile && s.hid.time.beaconSrcs.contains 0 && s.hid.time.beaconSrcs.contains 1)
    (.seq (count 32 0x2101 6) (almanac 2 6)))
  (.seq (Effect.each (fun p => onPort p fun q => if q.beaconTick
      then { q with beaconTick := false, hitRun := q.hitRun + 1, missRun := 0 }
      else { q with hitRun := 0, missRun := q.missRun + 1 }) s.ports)
    (onTime fun m => { m with beaconSrcs := [] }))

/-- The answer to a mastership command (R167). -/
def State.mastershipStatus (s : State) (command : Nat) : Nat :=
  if command = 1 && s.address = 0 && s.cleanTick then Status.ok
  else if command = 2 && s.reg 0x2100 1 = 1 && s.hid.pair.peerClean then Status.ok
  else Status.range

/-- 2100h.04 (R167): 0x01 announces the claim that R164 gives for a clean tick; with 0x02 this sender becomes standby at the
next tick boundary, and the peer becomes master when a report shows that (DEDUCED, log 19). -/
def mastership (command : Nat) : Effect := .look fun s =>
  if command = 1 then Effect.when (s.reg 0x2100 1 == 2) (announceClaim (s.tick + 3))
  else onPair fun p => { p with handing := true }

/-- 2101h.09 and 2102h.0B (R167). -/
def clearRedundancyCounters : Effect := .look fun s =>
  if s.isTile then Effect.each (fun i => set 0x2101 (i + 1) 0) (List.range 7)
  else .seq (set 0x2102 3 0) (set 0x2102 4 0)

end Sys2Proof.Machine
end

