-- ==== Sys2Proof/Machine/Flash.lean ====
section
/-! DEFINITION. The flash (R454 to R460, R473 to R477): its areas as raw bytes, and the records that the ROM and the
supervisor read and write there. -/

namespace Sys2Proof.Machine

/-- The areas of R455. -/
abbrev Flash.pointer (copy : Nat) : Nat := 0x10000 + 0x10000 * copy
abbrev Flash.advent : Nat := 0x30000
abbrev Flash.base (slot : Nat) : Nat := 0x40000 + 0x1800000 * slot
abbrev Flash.delta : Nat := 0x3040000
abbrev Flash.settings (slot : Nat) : Nat := 0x4840000 + 0x400000 * slot
abbrev Flash.calibration (slot : Nat) : Nat := 0x5040000 + 0x10000 * slot
abbrev Flash.lampMap (slot : Nat) : Nat := 0x5060000 + 0x20000 * slot
abbrev Flash.recorder (sector : Nat) : Nat := 0x50A0000 + 0x10000 * sector

/-- The largest image and delta, 24 MiB (R457, R461). -/
abbrev Flash.imageLimit : Nat := 25165824

/-- Bytes of the flash. -/
def State.flash (s : State) (a n : Nat) : List Byte := s.bytes (Space.flash.at a) n

/-- A field of the flash. -/
def State.flashWord (s : State) (a n : Nat) : Nat := natLE (s.flash a n)

/-- A program: bytes into erased flash. -/
def program (a : Nat) (bs : List Byte) : Effect := storeAt (Space.flash.at a) bs

/-- An erase of n bytes, whole sectors of 64 KiB (R454). -/
def eraseFlash (a n : Nat) : Effect := eraseAt (Space.flash.at a) (ceilDiv n 65536 * 65536)

/-- Sequence numbers are compared by signed difference (R459, R473). -/
def seqNewer (a b : Nat) : Bool := 0 < lt32Diff a b

/-- Of two slots with the SEQ of each that is valid, the one with the higher SEQ. -/
def newerSlot (a b : Option Nat) : Option Nat :=
  match a, b with
  | none, none => none
  | some _, none => some 0
  | none, some _ => some 1
  | some x, some y => if seqNewer y x then some 1 else some 0

/-- The slot that a store writes (R476 step 1), and the SEQ it takes. -/
def storeTarget (a b : Option Nat) : Nat × Nat :=
  match newerSlot a b with
  | none => (0, 1)
  | some i => (1 - i, ((if i = 0 then a else b).getD 0 + 1) % 2 ^ 32)

/-- The boot header is valid (R456, R511). -/
def State.bootHeader (s : State) : Bool :=
  s.flashWord 0 4 == 0x4C464248 && s.flashWord 4 2 == 1 && s.flashWord 6 1 ≤ 1 && 1000 ≤ s.flashWord 8 4 &&
    s.flashWord 8 4 ≤ 200000 && s.flashWord 60 4 == crc32 (s.flash 0 60)

/-- A pointer word (R459). -/
structure Pointer where
  seq : Nat
  base : Nat
  dstate : Nat
  tries : Nat
  reason : Nat
  dlen : Nat
  deriving DecidableEq, Repr

/-- The pointer word of a part without a valid copy. -/
def Pointer.fallback : Pointer := ⟨0, 0, 0, 0, 0, 0⟩

/-- One copy of the pointer word, if it is valid. -/
def State.pointerCopy (s : State) (copy : Nat) : Option Pointer :=
  let a := Flash.pointer copy
  if s.flashWord a 4 == 0x50545257 && s.flashWord (a + 28) 4 == crc32 (s.flash a 28) then
    some ⟨s.flashWord (a + 4) 4, s.flashWord (a + 8) 1, s.flashWord (a + 9) 1, s.flashWord (a + 10) 1,
      s.flashWord (a + 11) 1, s.flashWord (a + 12) 4⟩
  else none

/-- The copy in use. -/
def State.pointerSlot (s : State) : Option Nat :=
  newerSlot ((s.pointerCopy 0).map Pointer.seq) ((s.pointerCopy 1).map Pointer.seq)

/-- The pointer word in use (R459). -/
def State.pointer (s : State) : Pointer :=
  match s.pointerSlot with
  | some i => (s.pointerCopy i).getD Pointer.fallback
  | none => Pointer.fallback

/-- The 32 bytes of a pointer word. -/
def Pointer.bytes (p : Pointer) : List Byte :=
  let body := bytesLE 4 0x50545257 ++ bytesLE 4 p.seq ++ bytesLE 1 p.base ++ bytesLE 1 p.dstate ++ bytesLE 1 p.tries ++
    bytesLE 1 p.reason ++ bytesLE 4 p.dlen ++ zeroBytes 12
  body ++ bytesLE 4 (crc32 body)

/-- The pointer word changes: the other copy is erased and programmed with SEQ + 1; copy 0 with SEQ 1 when neither is
valid (R459). -/
def writePointer (f : Pointer → Pointer) : Effect := .look fun s =>
  let (copy, seq) := match s.pointerSlot with
    | some i => (1 - i, (s.pointer.seq + 1) % 2 ^ 32)
    | none => (0, 1)
  .seq (eraseFlash (Flash.pointer copy) 1)
    (program (Flash.pointer copy) { f s.pointer with seq := seq }.bytes)

/-- The scan of the Advent mirror over n records from record i, with the last value whose complement matches
(R477): the value, and the first erased record. -/
def State.adventScan (s : State) : (n i : Nat) → Option Nat → Option Nat × Nat
  | 0, i, v => (v, i)
  | n + 1, i, v =>
    let r := s.flash (Flash.advent + 16 * i) 16
    if r.all (· == 0xFF) then (v, i)
    else s.adventScan n (i + 1)
      (if (r.getD 0 0).toNat + (r.getD 1 0).toNat = 255 then some (r.getD 0 0).toNat else v)

/-- The Advent counter in the mirror; 0 when it cannot be read (R441, R477). -/
def State.adventMirror (s : State) : Nat := (s.adventScan 4096 0 none).1.getD 0

/-- The mirror takes a value: one more record, or the first of an erased sector (R477). -/
def writeAdvent (v : Nat) : Effect := .look fun s =>
  let i := (s.adventScan 4096 0 none).2
  let r := bytesLE 1 v ++ bytesLE 1 (255 - v) ++ zeroBytes 14
  if i < 4096 then program (Flash.advent + 16 * i) r
  else .seq (eraseFlash Flash.advent 65536) (program Flash.advent r)

/-- The Advent counter takes a value, in AON and in its mirror (R441). -/
def setAdvent (v : Nat) : Effect := .seq (set 0x1101 1 v) (writeAdvent v)

/-- A window of bytes that holds an image: its address, and the room it has. -/
structure ImageAt where
  address : Nat
  room : Nat
  deriving DecidableEq, Repr

/-- A field of an image. -/
def State.imageWord (s : State) (i : ImageAt) (o n : Nat) : Nat := s.word (i.address + o) n

/-- LENGTH of an image. -/
def State.imageLength (s : State) (i : ImageAt) : Nat := s.imageWord i 8 4

/-- The digest of an image, with its DIGEST field taken as 0 (R457). -/
def State.imageDigest (s : State) (i : ImageAt) : List Byte :=
  sha256 (s.bytes i.address 16 ++ zeroBytes 32 ++ s.bytes (i.address + 48) (s.imageLength i - 48))

/-- The bit of the personality in PERS (R457). -/
def State.persBit (s : State) : Nat := if s.isSender then 1 else 0

/-- An image is bootable (R457). -/
def State.bootable (s : State) (i : ImageAt) : Bool :=
  let len := s.imageLength i
  let count := s.imageWord i 13 1
  let sect (k o n : Nat) := s.imageWord i (64 + 16 * k + o) n
  s.imageWord i 0 4 == 0x49464D4C && 512 ≤ len && len ≤ i.room && bitAt (s.imageWord i 12 1) s.persBit &&
    1 ≤ count && count ≤ 8 &&
    ((List.range count).all fun k => sect k 4 4 + sect k 8 4 ≤ len) &&
    ([1, 2, 3, 4].all fun t => ((List.range count).filter fun k => sect k 0 1 == t).length == 1) &&
    s.bytes (i.address + 16) 32 == s.imageDigest i

/-- A base slot as an image. -/
def baseImage (slot : Nat) : ImageAt := ⟨Space.flash.at (Flash.base slot), Flash.imageLimit⟩

/-- The built result or the running copy in the firmware scratch (R468). -/
def scratchImage : ImageAt := ⟨Space.firmware.at 0, Flash.imageLimit⟩

/-- VERSION of a base slot; 0 when it is not bootable (R480). -/
def State.baseVersion (s : State) (slot : Nat) : Nat :=
  if s.bootable (baseImage slot) then s.imageWord (baseImage slot) 4 4 else 0

/-- The delta's header has the right MAGIC and HCRC (R460). -/
def State.deltaHeader (s : State) : Bool :=
  s.flashWord Flash.delta 4 == 0x444C4654 && s.flashWord (Flash.delta + 124) 4 == crc32 (s.flash Flash.delta 124)

/-- The ops of a delta build the result (R460): fuel, the bytes left, the base, whether COPY may occur, and the pieces so
far, the last first. -/
def deltaOps : (fuel : Nat) → (ops base : List Byte) → (copies : Bool) → List (List Byte) → Option (List Byte)
  | 0, _, _, _, _ => none
  | n + 1, ops, base, copies, acc =>
    match ops with
    | [] => none
    | op :: r =>
      if op = 0 then (if r.isEmpty then some acc.reverse.flatten else none)
      else if op = 1 then
        let o := natLE (r.take 4)
        let c := natLE (slice r 4 4)
        if copies && 8 ≤ r.length && o + c ≤ base.length then deltaOps n (r.drop 8) base copies (slice base o c :: acc)
        else none
      else if op = 2 then
        let c := natLE (r.take 4)
        if 4 ≤ r.length && c + 4 ≤ r.length then deltaOps n (r.drop (4 + c)) base copies (slice r 4 c :: acc) else none
      else none

/-- Building the result of the delta in flash: the reason of R459 when a check fails, or the result's bytes (R460,
R468). -/
def State.buildDelta (s : State) : Nat ⊕ List Byte :=
  let p := s.pointer
  let len := s.flashWord (Flash.delta + 12) 4
  let target := s.flashWord (Flash.delta + 16) 4
  let digest := s.flash (Flash.delta + 24) 32
  let full := digest.all (· == 0)
  let base := baseImage p.base
  if !s.deltaHeader then .inl 1
  else if !bitAt (s.flashWord (Flash.delta + 20) 1) s.persBit then .inl 2
  else if !full && digest != s.bytes (base.address + 16) 32 then .inl 3
  else if len != p.dlen || len < 129 || Flash.imageLimit < len || Flash.imageLimit < target then .inl 4
  else
    let old := if full then [] else s.bytes base.address (min base.room (s.imageLength base))
    match deltaOps len (s.flash (Flash.delta + 128) (len - 128)) old (!full) [] with
    | none => .inl 4
    | some result =>
      if result.length != target then .inl 4
      else if sha256 result != s.flash (Flash.delta + 56) 32 then .inl 5
      else .inr result

/-- A settings slot is valid: its SEQ (R473, R475). -/
def State.settingsSeq (s : State) (slot : Nat) : Option Nat :=
  let a := Flash.settings slot
  let len := s.flashWord (a + 16) 4
  if s.flashWord a 4 == 0x53544753 && len ≤ 4194240 &&
      s.flashWord (a + 60) 4 == crc32 (s.flash a 60 ++ s.flash (a + 64) len) then some (s.flashWord (a + 8) 4)
  else none

/-- A settings slot is readable: its SEQ. Images for B0 support FORMAT 0x0001 (R473). -/
def State.settingsReadable (s : State) (slot : Nat) : Option Nat :=
  if s.flashWord (Flash.settings slot + 4) 2 == 1 then s.settingsSeq slot else none

/-- The settings slot that the part loads. -/
def State.settingsSlot (s : State) : Option Nat := newerSlot (s.settingsReadable 0) (s.settingsReadable 1)

/-- Both settings slots are wholly erased (R473): no byte of them is listed in memory. -/
def State.settingsErased (s : State) : Bool :=
  s.mem.all fun c => c.1 < Space.flash.at (Flash.settings 0) || Space.flash.at (Flash.settings 2) ≤ c.1

/-- 1500h.0F bits [1:0] (R480). -/
def State.settingsState (s : State) : Nat :=
  match s.settingsSlot with
  | some i => 1 + i
  | none => if s.settingsErased then 0 else 3

/-- A record of a settings slot: index, subindex and value (R475). -/
structure SettingsRecord where
  index : Nat
  sub : Nat
  value : List Byte
  deriving DecidableEq, Repr

/-- The records in their bytes, at most n of them. -/
def settingsRecords : (n : Nat) → List Byte → List SettingsRecord
  | 0, _ => []
  | n + 1, bs =>
    if bs.length < 8 then []
    else
      let size := natLE (slice bs 4 4)
      ⟨natLE (bs.take 2), natLE (slice bs 2 1), slice bs 8 size⟩ ::
        settingsRecords n (bs.drop (8 + ceilDiv size 4 * 4))

/-- The records of a settings slot. -/
def State.settingsIn (s : State) (slot : Nat) : List SettingsRecord :=
  let a := Flash.settings slot
  settingsRecords (s.flashWord (a + 20) 4) (s.flash (a + 64) (s.flashWord (a + 16) 4))

/-- One record in its bytes. -/
def SettingsRecord.bytes (r : SettingsRecord) : List Byte :=
  bytesLE 2 r.index ++ bytesLE 1 r.sub ++ [0] ++ bytesLE 4 r.value.length ++ padTo (ceilDiv r.value.length 4 * 4) r.value

/-- A settings slot in its bytes (R475). -/
def settingsImage (seq writer : Nat) (rs : List SettingsRecord) : List Byte :=
  let body := rs.flatMap SettingsRecord.bytes
  let head := bytesLE 4 0x53544753 ++ bytesLE 2 1 ++ zeroBytes 2 ++ bytesLE 4 seq ++ bytesLE 4 writer ++
    bytesLE 4 body.length ++ bytesLE 4 rs.length ++ zeroBytes 36
  head ++ bytesLE 4 (crc32 (head ++ body)) ++ body

/-- A calibration slot is valid: its SEQ (R418, R419). -/
def State.calibrationSeq (s : State) (slot : Nat) : Option Nat :=
  let a := Flash.calibration slot
  if s.flashWord a 4 == 0x5145514E && s.flashWord (a + 4) 2 == 1 &&
      s.flashWord (a + 28) 4 == crc32 (s.flash a 28 ++ s.flash (a + 32) 1088) then some (s.flashWord (a + 8) 4)
  else none

/-- A lamp-map slot is valid: its SEQ (R358, R360). -/
def State.lampMapSeq (s : State) (slot : Nat) : Option Nat :=
  let a := Flash.lampMap slot
  if s.flashWord a 4 == 0x50414D4C && s.flashWord (a + 4) 2 == 1 &&
      s.flashWord (a + 60) 4 == crc32 (s.flash a 60 ++ s.flash (a + 64) 90112) then some (s.flashWord (a + 16) 4)
  else none

/-- A recorder sector has a valid header: its SEQ (R494). -/
def State.recorderSeq (s : State) (sector : Nat) : Option Nat :=
  let a := Flash.recorder sector
  if s.flashWord a 4 == 0x4E4D4C41 && s.flashWord (a + 28) 4 == crc32 (s.flash a 28) then some (s.flashWord (a + 4) 4)
  else none

/-- The sector with the highest, or the lowest, valid SEQ among the first n (R494). -/
def State.recorderBest (s : State) (highest : Bool) : (n : Nat) → Option (Nat × Nat)
  | 0 => none
  | n + 1 =>
    match s.recorderBest highest n, s.recorderSeq n with
    | b, none => b
    | none, some q => some (n, q)
    | some (i, q), some r => if (if highest then seqNewer r q else seqNewer q r) then some (n, r) else some (i, q)

/-- The pages that a recorder sector holds, its erased records not counted (R494). -/
def State.recorderFill (s : State) (sector : Nat) : (n : Nat) → Nat
  | 0 => 0
  | n + 1 => if s.flashWord (Flash.recorder sector + 256 * (n + 1) + 6) 2 = 0xFFFF then s.recorderFill sector n else n + 1

end Sys2Proof.Machine
end

