-- ==== Sys2Proof/Machine/Update.lean ====
section
/-! DEFINITION. Update sessions, stores, consolidation, the choice of the image and the confirmation of a start (R461 to
R480). -/

namespace Sys2Proof.Machine

/-- The holder code of a door in 1500h.03 (R480). -/
def holderOf : Door → Nat
  | .service src => src % 512
  | .tlaroek => 0x1000
  | .pcie => 0x2000
  | .spi => 0x3000

/-- The session state and holder. -/
def State.session (s : State) : Nat := s.reg 0x1500 2

/-- Another agent than the door holds the session, or nobody does (R461). -/
def State.notHolder (s : State) (d : Door) : Bool := s.reg 0x1500 3 != holderOf d

/-- A flash program pulse or an erase is in progress (R432): a session erases, or a store, a persistence run or a
consolidation holds FLASH. -/
def State.flashBusy (s : State) : Bool := s.session == 1 || !s.tokenFree Token.flash

/-- Session operations may use the flash: no activity holds or wants FLASH, and master 10 is not frozen; in VIGIL the
ROM does them without a budget (R461, R465). -/
def State.sessionFlash (s : State) : Bool :=
  s.mode == Mode.vigil || (s.tokenFree Token.flash && (s.wanting Token.flash).isEmpty && !s.frozen 10)

/-- The answer to an open (R461). -/
def State.openStatus (s : State) (d : Door) : Nat :=
  if s.mode = Mode.shutdown || s.mode = Mode.off then Status.unavailable
  else if s.reg 0x1500 4 < 128 || Flash.imageLimit < s.reg 0x1500 4 then Status.range
  else if (s.reg 0x1500 3 != 0xF000 && s.notHolder d) || s.pointer.dstate = 2 then Status.busy
  else Status.ok

/-- An open (R461, R462). -/
def openSession (d : Door) : Effect := .look fun s => .all [
  writePointer fun p => { p with dstate := 0, tries := 0, reason := 0, dlen := s.reg 0x1500 4 },
  set 0x1500 2 1, set 0x1500 3 (holderOf d),
  countField 0x1500 0x13 31 16,
  onUpdate fun u => { u with dlen := s.reg 0x1500 4, buffer := [], written := [], programmed := [], touched := s.uptime }]

/-- SESSION_ERASE_DONE (R462). -/
def execSessionEraseDone (s : State) : Host.Outcome State Fault Refusal :=
  perform (Effect.when (s.session == 1 && s.sessionFlash) (.all [
    eraseFlash Flash.delta s.hid.update.dlen, set 0x1500 2 2,
    onUpdate fun u => { u with touched := s.uptime }])) s

/-- The session ends with a result and a delta state (R464). -/
def endSession (result dstate : Nat) : Effect := .look fun s => Effect.when (s.session != 0) (.all [
  Effect.when (s.pointer.dstate != dstate) (writePointer fun p => { p with dstate := dstate }),
  set 0x1500 2 0, set 0x1500 3 0xF000, set 0x1500 5 result,
  onUpdate fun u => { u with buffer := [], written := [], programmed := [] }])

/-- The chunks of a write: number and bytes (R463). -/
def chunksOf (offset : Nat) (data : List Byte) : List (Nat × List Byte) :=
  (List.range (data.length / 64)).map fun i => (offset / 64 + i, slice data (64 * i) 64)

/-- A programmed chunk differs from this one. -/
def State.chunkDiffers (s : State) (c : Nat × List Byte) : Bool :=
  s.hid.update.programmed.contains c.1 && s.flash (Flash.delta + 64 * c.1) 64 != c.2

/-- The chunks that would take new room in the buffer of 64 KiB. -/
def State.newChunks (s : State) (cs : List (Nat × List Byte)) : Nat :=
  (cs.filter fun c => !s.hid.update.programmed.contains c.1 && (lookupKey s.hid.update.buffer c.1).isNone).length

/-- The answer to a write of chunks (R463): RANGE for its offset, its length or a chunk that contradicts what is
programmed; BUSY for another agent, before OPEN, or for want of room. -/
def State.chunkStatus (s : State) (holder : Bool) (offset : Nat) (data : List Byte) : Nat :=
  if offset % 64 != 0 || data.length % 64 != 0 ||
      (s.session != 0 && ceilDiv s.hid.update.dlen 64 * 64 < offset + data.length) then
    Status.range
  else if s.session == 2 && (chunksOf offset data).any s.chunkDiffers then Status.range
  else if !holder || s.session != 2 then Status.busy
  else if 1024 < s.hid.update.buffer.length + s.newChunks (chunksOf offset data) then Status.busy
  else Status.ok

/-- One page whose four chunks are in the buffer is programmed (R463). -/
def programPage (page : Nat) : Effect := .look fun s =>
  let part (i : Nat) := (lookupKey s.hid.update.buffer (4 * page + i)).getD (List.replicate 64 0xFF)
  .all [
    program (Flash.delta + 256 * page) (part 0 ++ part 1 ++ part 2 ++ part 3),
    onUpdate fun u => { u with
      buffer := u.buffer.filter (·.1 / 4 != page)
      programmed := u.programmed ++ (List.range 4).map (4 * page + ·) }]

/-- Pages that are complete are programmed while the flash is free. -/
def programPages : Effect := .look fun s => Effect.when s.sessionFlash
  (Effect.each programPage (((s.hid.update.buffer.filter (·.1 % 4 == 0)).map (·.1 / 4)).filter fun p =>
    (List.range 4).all fun i => (lookupKey s.hid.update.buffer (4 * p + i)).isSome))

/-- Chunks are taken (R462, R463): those already programmed change nothing. -/
def takeChunks (offset : Nat) (data : List Byte) : Effect := .look fun s =>
  let cs := (chunksOf offset data).filter fun c => !s.hid.update.programmed.contains c.1
  .all [
    onUpdate fun u => { u with
      buffer := cs.foldl (fun b c => insertKey b c.1 c.2) u.buffer
      written := cs.foldl (fun w c => if w.contains c.1 then w else w ++ [c.1]) u.written
      touched := s.uptime },
    charge 10 data.length (ceilDiv data.length 32),
    programPages]

/-- The answer to a close or an abort (R461). -/
def State.holderStatus (s : State) (d : Door) : Nat :=
  if s.session = 0 || s.notHolder d then Status.busy else Status.ok

/-- A session in CLOSING ends, once it may use the flash (R90, R464, R465): the buffered pages are programmed, chunks never
written as 0xFF, and the chunks are checked. -/
def finishClose : Effect := .look fun s =>
  let pages := ((s.hid.update.buffer.map (·.1 / 4)).foldl (fun l p => if l.contains p then l else l ++ [p]) [])
  let complete := (List.range (ceilDiv s.hid.update.dlen 64)).all s.hid.update.written.contains
  Effect.when (s.session == 3 && s.sessionFlash) (.seq
    (Effect.each programPage pages)
    (if complete then endSession Status.ok 1 else endSession Status.consistency 0))

/-- A close (R464). -/
def closeSession : Effect := .seq (set 0x1500 2 3) finishClose

/-- What a session has waited to do on the flash. -/
def sessionOn : Effect := .seq (Effect.if' (fun s => s.session == 2) programPages) finishClose

/-- SESSION_IDLE_TIMEOUT (R464): at 30 s without a command, op or block of the holder. -/
def execSessionIdleTimeout (s : State) : Host.Outcome State Fault Refusal :=
  perform (Effect.when (2 ≤ s.session) (.seq (waitUntil (s.hid.update.touched + 30 * 10 ^ 9))
    (endSession Status.timeout 0))) s

/-- A firmware block counted in 1500h.13 as dropped (R467). -/
def dropBlock : Effect := countField 0x1500 0x13 63 48

/-- A firmware block (R467): taken into the session, or dropped and counted. -/
def takeBlock (m : Message) : Effect := .look fun s =>
  let b := m.bytes
  let offset := natLE (slice b 4 4)
  let len := natLE (slice b 8 4)
  let data := b.drop 16
  let good := natLE (b.take 4) == 0x4B4C4246 && 64 ≤ len && len ≤ 16384 && len % 64 == 0 && data.length == len &&
    natLE (slice b 12 4) == crc32 data
  if good && s.session = 2 && s.chunkStatus (s.reg 0x1500 3 == m.src) offset data = Status.ok then
    takeChunks offset data
  else dropBlock

/-- FIRMWARE_BLOCK (R467): the oldest complete message of a stream 192 to 255. While master 10 is frozen it stays in its
receive queue (R90). -/
def execFirmwareBlock (stream : Nat) (s : State) : Host.Outcome State Fault Refusal :=
  perform (Effect.when (s.isTile && 192 ≤ stream && stream < 256 && !s.frozen 10)
    (Effect.ofOption (takeFirst (fun m => m.stream == stream) s.hid.compose.messages) fun (m, rest) =>
      .seq (onCompose fun c => { c with messages := rest }) (takeBlock m))) s

/-- Stores may start: the start is confirmed, and no delta waits for consolidation (R472). -/
def State.storesAllowed (s : State) : Bool := s.reg 0x1101 4 == 1 && s.pointer.dstate != 2

/-- The stores that wait are asked for, once they are allowed. -/
def flushStores : Effect := .look fun s =>
  Effect.when (s.storesAllowed && s.hid.update.store.isNone && !s.hid.update.storeQueue.isEmpty)
    (requestActivity Activity.store)

/-- The answer to a command that asks for a store (R421, R472). -/
def State.storeStatus (s : State) : Nat :=
  if s.storesAllowed then s.activityStatus Activity.store else Status.queued

/-- A store is asked for: 0 settings, 1 calibration set, 2 lamp map. -/
def requestStore (kind : Nat) : Effect := .all [
  Effect.if' (fun s => !s.hid.update.storeQueue.contains kind && (s.hid.update.store.map (·.1)) != some kind)
    (.seq (onUpdate fun u => { u with storeQueue := u.storeQueue ++ [kind] })
      (Effect.when (kind == 0) (set 0x1500 0x11 Status.queued))),
  flushStores]

/-- The entries that a save leaves out (R474). -/
def unsaved (k : Key) : Bool :=
  let i := k / 256
  let sub := k % 256
  (i == 0x1010 && sub == 2) || (0x1020 ≤ i && i < 0x1028) || i == 0x1040 || i == 0x1050 || (i == 0x1102 && sub ≤ 2) ||
    (i == 0x1103 && sub == 1) || (i == 0x1500 && sub == 4) || i == 0x1520 || (i == 0x1600 && sub == 4) || i == 0x2200 ||
    (i == 0x2210 && sub == 1) || (0x4330 ≤ i && i < 0x4338 && sub == 7)

/-- A row that a settings save stores and that a load takes (R474, R475). -/
def savedRow (k : Key) (r : Row) : Bool := (r.acc == .rw || r.acc == .rws) && !unsaved k && k != keyOf 0x1500 8

/-- Where bank b of table t lies: t is 0 for the binning table, 1 for the lamp table (R289). -/
def tableBank (t b : Nat) : Nat := Space.banks.at ((2 * t + b) * 2 ^ 24)

/-- The state of bank b of table t (R306). -/
def State.bankCode (s : State) (t b : Nat) : Nat := field (s.reg 0x4201 3) (4 * t + 2 * b + 1) (4 * t + 2 * b)

/-- The size of a table for a configuration (R291). -/
def State.tableSize (s : State) (t : Nat) : Nat :=
  if t = 0 then s.regionW * s.regionH * (if s.lambda = 4 then 24 else 18) else 4 * s.lampCount

/-- The tables in effect, as records of a save (R293, R475). -/
def State.tableRecords (s : State) : List SettingsRecord :=
  if s.isSender then [] else
    (List.range 2).filterMap fun t =>
      if s.reg 0x4201 (t + 1) ≤ 1 then
        some ⟨0, t + 1, s.bytes (tableBank t (s.reg 0x4201 (t + 1))) (s.tableSize t)⟩
      else none

/-- The records of a settings save (R474). -/
def State.settingsToSave (s : State) : List SettingsRecord :=
  s.tableRecords ++ ((allEntries s.pers).filter fun e => savedRow e.1 e.2).map fun e =>
    ⟨e.1 / 256, e.1 % 256, s.valueBytes e.1⟩

/-- The calibration set with a new SEQ, TICK and CRC (R418). -/
def State.calibrationImage (s : State) (seq : Nat) : List Byte :=
  let body := s.content 0x1610 1 32 1040 ++ s.content 0x1220 1 0 36 ++ zeroBytes 12
  let head := bytesLE 4 0x5145514E ++ bytesLE 2 1 ++ bytesLE 2 65 ++ bytesLE 4 seq ++ bytesLE 8 s.tick ++ zeroBytes 8
  head ++ bytesLE 4 (crc32 (head ++ body)) ++ body

/-- The lamp map with a new SEQ and CRC (R358). -/
def State.lampMapImage (s : State) (seq : Nat) : List Byte :=
  let old := s.bytes (Space.lampMap.at 0) 60
  let head := bytesLE 4 0x50414D4C ++ bytesLE 2 1 ++ bytesLE 1 s.lambda ++ [0] ++ bytesLE 4 s.lampCount ++
    slice old 12 4 ++ bytesLE 4 seq ++ slice old 20 8 ++ zeroBytes 32
  let body := s.bytes (Space.lampMap.at 64) 90112
  head ++ bytesLE 4 (crc32 (head ++ body)) ++ body

/-- The bytes that a store writes, with its target's address (R476). -/
def State.storeImage (s : State) (kind : Nat) : Nat × List Byte :=
  match kind with
  | 0 =>
    let (slot, seq) := storeTarget (s.settingsSeq 0) (s.settingsSeq 1)
    (Flash.settings slot, settingsImage seq (s.reg 0x1000 8) s.settingsToSave)
  | 1 =>
    let (slot, seq) := storeTarget (s.calibrationSeq 0) (s.calibrationSeq 1)
    (Flash.calibration slot, s.calibrationImage seq)
  | _ =>
    let (slot, seq) := storeTarget (s.lampMapSeq 0) (s.lampMapSeq 1)
    (Flash.lampMap slot, s.lampMapImage seq)

/-- The bytes of a slot that a store erases. -/
def storeRoom (kind : Nat) : Nat := if kind = 0 then 0x400000 else if kind = 1 then 0x10000 else 0x20000

/-- What a store that succeeded leaves: its flags, and the header of the set in use. -/
def storeDone (kind : Nat) (image : List Byte) (slot : Nat) : Effect :=
  match kind with
  | 0 => .seq (set 0x1500 0x11 Status.ok) (setBit 0x1500 0x0F 7 false)
  | 1 => .seq (storeContent 0x1610 1 0 (image.take 32)) (set 0x1600 9 (1 + slot))
  | _ => .seq (storeAt (Space.lampMap.at 0) (image.take 64)) (set 0x5200 7 (1 + slot))

/-- The store ends, and the next one may begin. -/
def storeEnds : Effect := .all [
  onUpdate fun u => { u with store := none },
  endActivity Activity.store,
  flushStores]

/-- STORE_COMPLETE (R476): the read-back of a store agrees, or it is repeated once, or it has failed. A freeze of
master 9 pauses it. -/
def execStoreComplete (verified : Bool) (s : State) : Host.Outcome State Fault Refusal :=
  perform (Effect.when (!s.frozen 9 && s.maintenance) (Effect.ofOption s.hid.update.store fun (kind, tries) =>
    let (a, image) := s.storeImage kind
    let slot := match kind with
      | 0 => (storeTarget (s.settingsSeq 0) (s.settingsSeq 1)).1
      | 1 => (storeTarget (s.calibrationSeq 0) (s.calibrationSeq 1)).1
      | _ => (storeTarget (s.lampMapSeq 0) (s.lampMapSeq 1)).1
    if verified then .all [
      eraseFlash a (storeRoom kind), program a image, storeDone kind image slot, storeEnds]
    else .seq (eraseFlash a (storeRoom kind))
      (if tries = 0 then onUpdate fun u => { u with store := some (kind, 1) }
      else .all [
        raise 476 kind, countField 0x1500 0x13 15 0,
        Effect.when (kind == 0) (set 0x1500 0x11 Status.consistency),
        storeEnds]))) s

/-- Consolidation becomes due (R471, R478). -/
def askConsolidation : Effect := .look fun s =>
  Effect.when (s.pointer.dstate == 2 && s.reg 0x1101 4 == 1) (.seq (set 0x1500 0x0E 1)
    (requestActivity Activity.consolidation))

/-- CONSOLIDATION (R478): the other base slot takes the verified image and the pointer flips; a mismatch is repeated
once, and then FAILED. -/
def execConsolidation (verified : Bool) (s : State) : Host.Outcome State Fault Refusal :=
  let p := s.pointer
  let slot := 1 - p.base
  let len := s.imageLength scratchImage
  perform (Effect.when (s.running Activity.consolidation && p.dstate == 2 && !s.frozen 10 && s.maintenance)
    (if verified then .all [
      eraseFlash (Flash.base slot) len,
      program (Flash.base slot) (s.bytes scratchImage.address len),
      writePointer fun p => { p with base := slot, dstate := 0, tries := 0, reason := 0 },
      set 0x1500 0x0E 0,
      onUpdate fun u => { u with consolidate := 0 },
      endActivity Activity.consolidation,
      flushStores]
    else .seq (eraseFlash (Flash.base slot) len) (if s.hid.update.consolidate = 0 then
        .seq (set 0x1500 0x0E 2) (onUpdate fun u => { u with consolidate := 1 })
      else .all [
        set 0x1500 0x0E 5, raise 478,
        onUpdate fun u => { u with consolidate := 0 },
        endActivity Activity.consolidation]))) s

/-- START_CONFIRMATION (R470, R471): 60 s in modes that allow a commit without a fault. -/
def execStartConfirmation (s : State) : Host.Outcome State Fault Refusal :=
  perform (Effect.when (s.up .core && s.reg 0x1101 4 == 0 && s.hid.reset.settingsRead && s.reg 0x1001 4 == 0 &&
      commitModes.contains s.mode) (.all [
    waitUntil (s.hid.reset.confirmFrom + 60 * 10 ^ 9),
    setAdvent 0,
    set 0x1100 5 0,
    set 0x1101 4 1,
    Effect.when (3 ≤ s.reg 0x1000 9 && s.pointer.dstate == 1) (writePointer fun p => { p with dstate := 2 }),
    askConsolidation,
    flushStores])) s

/-- 1500h.12 (R470, R480). -/
def State.confirmProgress (s : State) : Nat :=
  if s.reg 0x1101 4 = 1 then 60
  else if s.up .core && s.hid.reset.settingsRead && s.reg 0x1001 4 = 0 && commitModes.contains s.mode then
    min 59 ((s.uptime - s.hid.reset.confirmFrom) / 10 ^ 9)
  else 0

/-- An image runs (R468): its copy stands in the firmware scratch, and its version and source show. -/
def runImage (image : List Byte) (source : Nat) : Effect := .all [
  storeAt scratchImage.address image,
  set 0x1000 8 (natLE (slice image 4 4)), set 0x1000 9 source]

/-- The base of the pointer word runs (R468). -/
def runBase : Effect := .look fun s =>
  let b := baseImage s.pointer.base
  runImage (s.bytes b.address (s.imageLength b)) (1 + s.pointer.base)

/-- A base slot is bootable. -/
def State.baseBootable (s : State) (slot : Nat) : Bool := s.bootable (baseImage slot)

/-- The delta of a cold start waits for MEM to reach READY (R468). -/
def State.wantsDelta (s : State) : Bool :=
  let p := s.pointer
  p.dstate = 2 || (p.dstate = 1 && p.tries < 2)

/-- R468 from the delta onward, once it is known whether MEM has reached READY: the effect vigil is the entry to VIGIL
for want of an image. -/
def chooseDelta (memReady : Bool) (vigil : Effect) : Effect := .look fun s =>
  let fallback : Effect := .look fun t => if t.baseBootable t.pointer.base then runBase else vigil
  let p := s.pointer
  if p.dstate = 1 && 2 ≤ p.tries then .seq (writePointer fun p => { p with dstate := 3, reason := 6 }) fallback
  else if (p.dstate = 1 || p.dstate = 2) && memReady then .seq
    (Effect.when (p.dstate == 1) (writePointer fun p => { p with tries := p.tries + 1 }))
    (.look fun t => match t.buildDelta with
      | .inl reason => .seq (writePointer fun p => { p with dstate := 3, reason := reason }) fallback
      | .inr image => .seq (storeAt scratchImage.address image) (.look fun u =>
          if u.bootable scratchImage then runImage image (3 + p.base)
          else .seq (writePointer fun p => { p with dstate := 3, reason := 5 }) fallback))
  else fallback

/-- The choice of the base at the start (R468): the other base when the active one is not bootable; whether a start can go
on at all. -/
def chooseBase : Effect := .look fun s =>
  Effect.when (!s.baseBootable s.pointer.base && s.baseBootable (1 - s.pointer.base))
    (.seq (writePointer fun p => { p with base := 1 - p.base }) (raise 468))

/-- Neither base is bootable, and no full image waits (R468). -/
def State.noImage (s : State) : Bool :=
  !s.baseBootable 0 && !s.baseBootable 1 &&
    !(s.pointer.dstate == 1 && (s.flash (Flash.delta + 24) 32).all (· == 0))

/-- 1500h.0B (R480). -/
def State.activeBase (s : State) : Nat :=
  if s.baseBootable 0 || s.baseBootable 1 then s.pointer.base else 0xFF

end Sys2Proof.Machine
end

