-- ==== Sys2Proof/Machine/Values.lean ====
section
/-! DEFINITION. What an entry reads as (R34, R40, R73): its value in effect, or the value that the part computes at the
read, and which entries a mode serves. -/

namespace Sys2Proof.Machine

/-- The queues whose cells wait for a slot of a port. -/
def State.waitingQueues (s : State) : List Nat :=
  ((s.hid.ports.flatMap PortState.egress).filterMap fun w => match w.burden with
    | .cell c _ => if c.kind = 1 then some c.queue else none
    | .reset _ _ => none).eraseDups

/-- The context of the selected queue (R241). A queue of the sender itself is active while cells of it wait. -/
def State.selectedQueue (s : State) : QueueContext :=
  let q := (lookupKey s.hid.ingest.queues (s.reg 0x2200 1)).getD QueueContext.initial
  if s.reg 0x2200 1 % 512 < 256 then { q with state := if s.waitingQueues.contains (s.reg 0x2200 1) then 1 else 0 } else q

/-- The queues that are active (R241). -/
def State.activeQueues (s : State) : Nat :=
  (s.hid.ingest.queues.filter fun q => 256 ≤ q.1 % 512 && q.2.state == 1).length +
    (s.waitingQueues.filter fun q => q % 512 < 256).length

/-- The bytes that wait in a receive queue of a tile (R241). -/
def State.bytesWaiting (s : State) (stream : Nat) : Nat :=
  (s.hostStream stream).length +
    (s.hid.compose.gathering.filter fun g => g.1 == stream).foldl (fun n g => n + g.2.bytes.length) 0 +
    (s.hid.compose.messages.filter fun m => m.stream == stream).foldl (fun n m => n + m.bytes.length) 0

/-- The views that appear in a slot of the profile in effect (R297). -/
def State.viewMask (s : State) : Nat := (s.viewsIn s.profileB).foldl withBit 0

/-- The line counter of TG r: whole lines since the frame started, by local time on a tile and by the pixel clock on a sender
(R314, R317, R325). -/
def State.currentLine (s : State) (r : Nat) : Nat :=
  let b := s.isTile && s.profileB
  let line : Rat := s.lineLength b r
  if !s.tgRuns r || s.lineLength b r == 0 then 0
  else if s.isTile then
    (((s.ns - s.slotAt s.hid.scan.tick s.hid.scan.slot : Int) : Rat) * 5 / 4 / line).floor.toNat
  else ((s.hid.time.cycles - s.hid.scan.frameAt.getD r 0 : Nat) * (s.reg (0x4000 + r) 5 : Rat) / 1250000 / line).floor.toNat

/-- The value of an entry that the part computes at the read. -/
def State.computed (s : State) (index sub : Nat) : Option Nat :=
  match index, sub with
  | 0x1010, 9 => some s.hid.commit.staged.length
  | 0x1010, 0x0A => some ((s.hid.commit.pend.map fun c => c.entries.length).getD 0)
  | 0x1300, 1 => some (toTime96 s.fine)
  | 0x1300, 2 => some s.lt32
  | 0x1400, 6 => some s.almanacState
  | 0x4300, 9 => some s.viewMask
  | 0x4000, 0x0B => some (s.currentLine 0)
  | 0x4001, 0x0B => some (s.currentLine 1)
  | 0x4002, 0x0B => some (s.currentLine 2)
  | 0x4003, 0x0B => some (s.currentLine 3)
  | 0x2100, 1 => if s.isTile then some (if (s.port 1).hops = 0x3F then 0x10 else 0x11) else none
  | 0x2102, 5 => some s.selfCheck
  | 0x2102, 6 => some s.configDigest
  | 0x2200, 2 => some s.selectedQueue.base
  | 0x2200, 3 => some s.selectedQueue.size
  | 0x2200, 4 => some s.selectedQueue.head
  | 0x2200, 5 => some s.selectedQueue.tail
  | 0x2200, 6 => some (s.selectedQueue.seq.getD 0)
  | 0x2200, 7 => some s.selectedQueue.state
  | 0x2200, 8 => some s.selectedQueue.cells
  | 0x2201, 1 => some s.activeQueues
  | 0x2210, 2 => some ((lookupKey s.hid.compose.taken (s.reg 0x2210 1)).getD 0)
  | 0x2210, 3 => some (s.bytesWaiting (s.reg 0x2210 1))
  | 0x1500, 6 => some s.pointer.dstate
  | 0x1500, 7 => some s.pointer.tries
  | 0x1500, 9 => some s.pointer.reason
  | 0x1500, 0x0A => some (if s.deltaHeader then s.flashWord (Flash.delta + 4) 4 else 0)
  | 0x1500, 0x0B => some s.activeBase
  | 0x1500, 0x0C => some (s.baseVersion 0)
  | 0x1500, 0x0D => some (s.baseVersion 1)
  | 0x1500, 0x0F => some (s.reg 0x1500 0x0F / 128 * 128 + s.settingsState)
  | 0x1500, 0x12 => some s.confirmProgress
  | 0x1401, j + 2 => if j < 8 then some (natLE (slice s.almanacWindow (8 * j) 8)) else none
  | _, _ => none

/-- What an entry reads as. -/
def State.value (s : State) (k : Key) : Nat :=
  if k % 256 = 0 then highestSub s.pers (k / 256)
  else (s.computed (k / 256) (k % 256)).getD (s.reg (k / 256) (k % 256))

/-- The entries that VIGIL serves (R73). -/
def minimalEntry (k : Key) : Bool :=
  let i := k / 256
  let sub := k % 256
  i == 0x1000 || (i == 0x1001 && sub ≤ 4) || i == 0x1100 || i == 0x1500 || (i == 0x1101 && (sub == 0 || sub == 2))

/-- An entry is served in the current mode. -/
def State.served (s : State) (k : Key) : Bool := s.mode != Mode.vigil || minimalEntry k

/-- A fast entry (R13, R42). -/
def State.isFast (s : State) (k : Key) : Bool := ((s.row k).map Row.fast).getD false

end Sys2Proof.Machine
end

