-- ==== Sys2Proof/Machine/Access.lean ====
section
/-! DEFINITION. Which values an entry takes (R11, R41, R475, R524). -/

namespace Sys2Proof.Machine

/-- A value in its bytes has the size of its type (R11, R41). -/
def lengthOk (t : Ty) (bs : List Byte) : Bool :=
  if t = .str then 1 ≤ bs.length && bs.length ≤ 64 else bs.length == t.size

/-- The value that bytes stand for: a string is padded to 64 bytes (R11). -/
def entryValue (t : Ty) (bs : List Byte) : Nat := natLE (if t = .str then padTo 64 bs else bs)

/-- A value lies in the range of its row, and in that of its type: a BOOL is 0 or 1, and the nanoseconds of a TIME96 are
fewer than a second (R11, R524). -/
def Row.takes (r : Row) (p : Personality) (v : Nat) : Bool :=
  (r.ty != .bool || v ≤ 1) && (r.ty != .time96 || field v 47 16 < 10 ^ 9) && r.range.holds p r.ty.width v

/-- The staging set takes an entry's value (R45). -/
def stageValue (k : Key) (v : Nat) : Effect := onCommit fun c => { c with staged := insertKey c.staged k v }

/-- The staging set takes content of a DOMAIN entry, which counts as one entry (R45, R70). -/
def stageContent (k : Key) (offset : Nat) (bs : List Byte) : Effect := onCommit fun c => { c with
  staged := insertKey c.staged k 0
  content := (List.zipIdx bs).foldl (fun l q => insertKey l (domainBase k + offset + q.2) q.1) c.content }

/-- An entry takes a value at once, or is staged, by its access (R12). -/
def storeEntry (r : Row) (k : Key) (bs : List Byte) : Effect :=
  match r.ty == .domain, r.acc == .rws with
  | true, true => stageContent k 0 bs
  | true, false => storeAt (domainBase k) bs
  | false, true => stageValue k (entryValue r.ty bs)
  | false, false => set (k / 256) (k % 256) (entryValue r.ty bs)

/-- A record of the settings can be loaded (R475). -/
def State.loads (s : State) (r : SettingsRecord) : Option Row :=
  let k := keyOf r.index r.sub
  match s.row k with
  | some row =>
    if !savedRow k row then none
    else if row.ty = .domain then (if r.value.length = s.domainSize k then some row else none)
    else if r.value.length = row.ty.size && row.takes s.pers (natLE r.value) then some row
    else none
  | none => none

end Sys2Proof.Machine
end

