-- ==== Sys2Proof/Machine/Checks.lean ====
section
/-! DEFINITION. The checks of a commit (R48): seven steps over the configuration that would be in effect, with the entries
that the last check reports (R74, R86 to R88, R207, R228, R238 to R240, R248, R261, R281, R292, R295, R300 to R302, R313,
R318, R322, R325, R331, R340, R375, R376, R527). -/

namespace Sys2Proof.Machine

/-- How a commit came to its checks (R46, R436). -/
inductive CommitKind where
  | immediate | timed (t : Nat) | boot
  deriving DecidableEq, Repr

/-- A failed check: its code, the entry it names and the profile (R527). -/
structure Failure where
  code : Nat
  entry : Key
  profileB : Bool
  deriving DecidableEq, Repr

/-- The outcome of checks: the first failure, and the values that the run leaves in its entries. -/
structure CheckRun where
  failure : Option Failure
  results : List (Key × Nat)
  deriving DecidableEq, Repr

/-- Nothing fails and nothing is reported. -/
def CheckRun.pass : CheckRun := ⟨none, []⟩

/-- A failure alone. -/
def CheckRun.fail (code : Nat) (entry : Key) (b : Bool) : CheckRun := ⟨some ⟨code, entry, b⟩, []⟩

/-- A check that reports values. -/
def CheckRun.report (r : List (Key × Nat)) : CheckRun := ⟨none, r⟩

/-- Checks in order: the first failure ends them. -/
def CheckRun.inOrder : List (Unit → CheckRun) → CheckRun
  | [] => .pass
  | f :: fs =>
    match f () with
    | ⟨some e, r⟩ => ⟨some e, r⟩
    | ⟨none, r⟩ =>
      let rest := inOrder fs
      ⟨rest.failure, r ++ rest.results⟩

/-- A check under a condition. -/
def CheckRun.ensure (ok : Bool) (code : Nat) (entry : Key) (b : Bool) : CheckRun :=
  if ok then .pass else .fail code entry b

/-! Step 3: the entries that contradictions name, for one profile. A condition that does not depend on the profile is
looked at with profile A only (R527). -/

/-- An entry that a failing condition names. -/
def named (broken : Bool) (index sub : Nat) : List Key := if broken then [keyOf index sub] else []

/-- A custom kernel passes the sum check at a number of taps (R259). -/
def State.kernelSums (c : State) (x taps : Nat) : Bool := (List.range 64).all fun f =>
  let sum := (List.range 8).foldl (fun n j =>
    let i := f + 64 * j
    if 256 ≤ i + 32 * taps && i < 256 + 32 * taps then n + c.contentInt 0x4102 1 (1024 * x + 2 * i) else n) 0
  16320 ≤ sum && sum ≤ 16448

/-- Layer x (R248). -/
def State.layerFaults (c : State) (x : Nat) : List Key := if !c.layerOn x then [] else
  let i := layerIndex x
  let g := c.layer x
  let direct := c.layerDirect x
  let ratio (a b : Nat) : Bool := b ≤ 64 * a && a ≤ 16 * b
  let taps (t : Nat) : Bool := [1, 2, 4, 8].contains t
  named (g.dw == 0 || g.dh == 0 || !ratio g.sw g.dw || !ratio g.sh g.dh) i 3 ++
  named (g.sw == 0 || g.sh == 0) i 5 ++
  named (!(if direct then g.rate == 48 || [12, 16, 24].contains g.rate else [12, 16, 24].contains g.rate)) i 6 ++
  named (!taps g.tapsH) i 8 ++ named (!taps g.tapsV) i 9 ++
  named (2 < c.reg i 0x0A) i 0x0A ++ named (2 < c.reg i 0x0B) i 0x0B ++
  named ((c.reg i 0x0A == 2 && !c.kernelSums x g.tapsH) || (c.reg i 0x0B == 2 && !c.kernelSums x g.tapsV)) 0x4102 1 ++
  named (direct && !(g.dw == g.sw && g.dh == g.sh && g.tapsH == 1 && g.tapsV == 1 && g.rate == 48)) 0x4117 0x0E

/-- The slot map of a profile (R295). -/
def State.slotFaults (c : State) (b : Bool) : List Key :=
  (List.range (c.slotsIn b)).flatMap fun k => named (8 < c.slotView b k) 0x4300 ((if b then 7 else 4) + k / 16)

/-- Two enabled TGs of a profile name one lane. -/
def State.shared (c : State) (b : Bool) (r q : Nat) : Bool :=
  (List.range 32).any fun l => bitAt (c.laneMask b r) l && bitAt (c.laneMask b q) l

/-- Lane masks and row counts of a profile (R313). -/
def State.maskFaults (c : State) (b : Bool) : List Key :=
  let on := c.tgs.filter (c.tgOn b)
  on.flatMap fun r => named ((c.laneMask b r != 0 && c.ver b r 3 != (c.tgRows b r).length) ||
    on.any fun q => r < q && c.shared b r q) (c.tgIndex b r) 4

/-- Two rectangles share a pixel. -/
def Rect.meets (p q : Rect) : Bool := p.x < q.x + q.w && q.x < p.x + p.w && p.y < q.y + q.h && q.y < p.y + p.h

/-- The lanes of a profile (R331). -/
def State.laneFaults (c : State) (b : Bool) : List Key :=
  let on := c.lanesOn b
  on.flatMap fun l =>
    let p := c.lane l
    named (p.w == 0 || p.h == 0 || 6144 < p.w * p.h * c.lambda || c.regionW < p.x + p.w || c.regionH < p.y + p.h ||
      on.any fun m => m != l && p.meets (c.lane m)) (0x5110 + l) 2

/-- The selected table banks (R292). -/
def State.bankFaults (c : State) : List Key := (List.range 2).flatMap fun t =>
  let b := c.reg 0x4201 (t + 1)
  named (b ≤ 1 && !(c.bankCode t b == 2 && (c.hid.colour.loads.getD (2 * t + b) ⟨0, 0⟩).total == c.tableSize t))
    0x4201 (t + 1)

/-- T is LT(n) of the grid for some n (R322). -/
def State.onGrid (s : State) (t : Nat) : Bool :=
  let whole := (s.ns : Int) + lt32Diff t s.lt32
  let n := (((whole - s.grid.anchor) * s.grid.rn / ((s.grid.rd : Int) * 10 ^ 9)) + s.grid.anchorTick).toNat
  (List.range 3).any fun i => s.lt (n + i - 1) == t

/-- A change of the tick rate (R322): s is the state in effect. -/
def State.rateFaults (s c : State) (kind : CommitKind) : List Key :=
  let rn := c.reg 0x4300 1
  let rd := c.reg 0x4300 2
  named (match kind with
    | .boot => !s.timingMaster && rn * s.grid.rd != rd * s.grid.rn
    | .timed t => rn * s.reg 0x4300 2 != rd * s.reg 0x4300 1 && !s.onGrid t
    | .immediate => rn * s.reg 0x4300 2 != rd * s.reg 0x4300 1) 0x4300 1

/-- An address region as R375 looks at it. -/
structure Region where
  base : Nat
  size : Nat
  mask : Nat
  grain : Nat
  offset : Nat
  deriving DecidableEq, Repr

/-- Region i. -/
def State.addressRegion (c : State) (i : Nat) : Region :=
  ⟨c.reg (0x3010 + i) 2, c.reg (0x3010 + i) 3, c.reg (0x3010 + i) 4, 2 ^ c.reg (0x3010 + i) 5, c.reg (0x3010 + i) 6⟩

/-- The bytes that a region takes of each of its channels. -/
def Region.span (r : Region) : Nat :=
  let w := max 1 (popCount 36 r.mask) * r.grain
  ceilDiv r.size w * r.grain

/-- Every byte of [lo, hi) lies in an enabled region, looked at with n regions' fuel. -/
def State.covered (c : State) : (n lo hi : Nat) → Bool
  | 0, lo, hi => hi ≤ lo
  | n + 1, lo, hi => hi ≤ lo ||
    match c.regions.find? fun i => (c.addressRegion i).base ≤ lo && lo < (c.addressRegion i).base + (c.addressRegion i).size with
    | some i => c.covered n ((c.addressRegion i).base + (c.addressRegion i).size) hi
    | none => false

/-- The address regions (R375) and the placement of a tile's kinds (R376). -/
def State.regionFaults (c : State) : List Key :=
  let on := c.regions
  (on.flatMap fun i =>
    let r := c.addressRegion i
    let chans := c.channels.filter (bitAt r.mask)
    let others := on.filter (· != i)
    let overlap (q : Region) : Bool := r.base < q.base + q.size && q.base < r.base + r.size
    let clash (q : Region) : Bool := (c.channels.any fun k => bitAt r.mask k && bitAt q.mask k) &&
      r.offset < q.offset + q.span && q.offset < r.offset + r.span
    named (r.base % r.grain != 0 || r.size == 0 || r.size % 256 != 0 || others.any fun j => overlap (c.addressRegion j))
      (0x3010 + i) 2 ++
    named (r.mask == 0 || (List.range 64).any fun k => bitAt r.mask k && !c.populated.contains k) (0x3010 + i) 4 ++
    named (r.offset % r.grain != 0 ||
        (chans.any fun k => channelPayload c.isSender (c.density k) < r.offset + r.span) ||
        others.any fun j => clash (c.addressRegion j)) (0x3010 + i) 6) ++
  (if c.isSender then named (!c.covered 8 0x1A00000000 0x1FFFF80000) 0x3010 1
    else named (!c.placed) 0x3020 1)

/-- The binding table (R30, R207). -/
def State.bindingFaults (c : State) : List Key :=
  let on := c.bindings
  let ok (b : Nat) : Bool :=
    let d := c.binding b
    let g := d.geo
    let (w, h) := c.sourceSize d.source
    let taps (t : Nat) : Bool := [1, 2, 4, 8].contains t
    c.sourceOn d.source && 1 ≤ g.sw && 1 ≤ g.sh && 1 ≤ g.dw && 1 ≤ g.dh &&
      ((isDp d.source && w == 0) || (g.sx + g.sw ≤ w && g.sy + g.sh ≤ h)) &&
      (on.all fun e => (c.binding e).direct || d.direct || (c.binding e).source != d.source || (c.binding e).group == d.group) &&
      taps g.tapsH && taps g.tapsV && (0x40 ≤ d.source || d.direct || [12, 16, 24].contains g.rate) &&
      (if d.direct then 56 ≤ b && ((isDp d.source && !c.flag (0x6001 + (d.source - 0x10)) 4 11) || isFlow d.source) else true) &&
      (b < 56 || on.all fun e => e < 56 || (c.binding e).direct == d.direct)
  named (!on.all ok) 0x6100 1

/-- A surface set within the limits of its record (R219). -/
def SurfaceSet.good (t : SurfaceSet) : Bool :=
  t.base % 256 == 0 && t.stride % 256 == 0 && 8 ≤ t.width && t.width ≤ 8192 && 4 ≤ t.height && t.height ≤ 8192 &&
    1 ≤ t.format && t.format ≤ 5 && 2 ≤ t.buffers && t.buffers ≤ 4 && (!t.raw || [12, 16, 24].contains t.rate)

/-- A clip within the limits of its record (R245). -/
def Clip.good (k : Clip) : Bool :=
  k.frameBytes % 256 == 0 && 1 ≤ k.frames && 3 ≤ k.format && k.format ≤ 5 && 1 ≤ k.divider

/-- Surface sets and clips outside the reserved area (R217), and within the limits of their records, with no fence that two
enabled sets share (R219, R245; log 100). -/
def State.areaFaults (c : State) : List Key :=
  let out (a n : Nat) : Bool := a + n ≤ 0x1A00000000 || 0x2000000000 ≤ a
  let fences := ((List.range 64).map c.surfaceSet).filter fun t => t.on
  let setOk (t : SurfaceSet) : Bool :=
    let one := if t.raw then t.pitch * t.height else lfcBytes t.width t.height t.lfcRate
    !t.on || (t.good && (fences.filter fun u => u.fence == t.fence).length == 1 &&
      out t.base ((t.buffers - 1) * t.stride + one) &&
      (!t.raw || out t.outBase (3 * (ceilDiv (lfcBytes t.width t.height t.rate) 256 * 256))))
  let clipOk (k : Clip) : Bool :=
    !k.on || (k.good && out k.base ((k.frames - 1) * k.frameBytes + lfcBytes k.width k.height k.lfcRate))
  named (!(List.range 64).all fun i => setOk (c.surfaceSet i)) 0x6030 1 ++
  named (!(List.range 128).all fun i => clipOk (c.clip i)) 0x6103 1

/-- The flow formats (R212, R244). -/
def State.flowFaults (c : State) : List Key := (List.range 16).flatMap fun f =>
  let v := c.reg (0x6010 + f) 5
  named (7680 < field v 63 48 || 4320 < field v 47 32 || (field v 11 8 == 4 && field v 15 12 != 0)) (0x6010 + f) 5

/-- The cycle of a rate relation in ns: q × P or P / m (R299). -/
def State.cycleOf (c : State) (relation : Nat) : Rat :=
  if field relation 15 8 = 0 then c.configPeriod * field relation 7 0 else c.configPeriod / max 1 (field relation 7 0)

/-- The SYNC outputs (R300), and previews whose TG is disabled (R325). -/
def State.outputFaults (c : State) : List Key :=
  ((List.range 8).flatMap fun k =>
    let cycle := c.cycleOf (c.reg (0x4330 + k) 2)
    let w : Rat := c.reg (0x4330 + k) 5
    named (cycle ≤ c.reg (0x4330 + k) 4) (0x4330 + k) 4 ++ named (w < 100 || cycle - 100 < w) (0x4330 + k) 5) ++
  ((List.range 2).flatMap fun o => named (c.reg (0x6300 + o) 1 == 1 && c.reg (0x4000 + o) 1 == 0) (0x4000 + o) 1)

/-- The windows of camera k within one tick, each as start and length in ns (R299, R301). -/
def State.cameraWindows (c : State) (k : Nat) : List (Rat × Rat) :=
  let i := 0x4310 + k
  let sync := c.reg i 3 == 1
  let rel := if sync then c.reg (0x4330 + c.reg i 4) 2 else c.reg i 5
  let shift : Rat := if sync then c.reg (0x4330 + c.reg i 4) 4 else -((c.int 32 0x1300 8 : Int) : Rat)
  let count := if field rel 15 8 = 0 then 1 else field rel 7 0
  let guard' : Rat := c.reg i 8
  (List.range count).map fun j =>
    (shift + c.configPeriod * j / count + ((c.int 32 i 6 : Int) : Rat) - guard', (c.reg i 7 : Rat) + 2 * guard')

/-- A window folded modulo P, as pieces of one tick. -/
def foldWindow (p : Rat) (w : Rat × Rat) : List (Rat × Rat) :=
  let a := w.1 - p * (w.1 / p).floor
  if p ≤ w.2 then [(0, p)] else if a + w.2 ≤ p then [(a, a + w.2)] else [(a, p), (0, a + w.2 - p)]

/-- The pieces reach from lo to hi without a gap. -/
def piecesCover (pieces : List (Rat × Rat)) : (n : Nat) → (lo hi : Rat) → Bool
  | 0, lo, hi => hi ≤ lo
  | n + 1, lo, hi => hi ≤ lo ||
    let next := pieces.foldl (fun m q => if q.1 ≤ lo && m < q.2 then q.2 else m) lo
    lo < next && piecesCover pieces n next hi

/-- The active part of slot k of a profile for a scheduling blanking (R301). -/
def State.slotPart (c : State) (b : Bool) (k : Nat) : Rat × Rat :=
  let t := c.configPeriod / c.slotsIn b
  (t * k, t * (k + 1) - c.reg 0x4320 8)

/-- The slots of a profile that camera k touches, and those it touches in part (R301). -/
def State.cameraSlots (c : State) (b : Bool) (k : Nat) : List Nat × List Nat :=
  let pieces := (c.cameraWindows k).flatMap (foldWindow c.configPeriod)
  let touched := (List.range (c.slotsIn b)).filter fun j =>
    pieces.any fun q => q.1 < (c.slotPart b j).2 && (c.slotPart b j).1 < q.2
  (touched, touched.filter fun j => !piecesCover pieces (pieces.length + 1) (c.slotPart b j).1 (c.slotPart b j).2)

/-- Camera k is enabled. -/
def State.cameraOn (c : State) (k : Nat) : Bool := c.reg (0x4310 + k) 1 == 1

/-- A mask of slots. -/
def slotMask (l : List Nat) : Nat := l.foldl withBit 0

/-- The cameras (R302) and the scheduling blanking (R309). -/
def State.cameraFaults (c : State) (b : Bool) : List Key :=
  ((List.range 8).flatMap fun k => named (c.cameraOn k && (c.cameraSlots b k).1.any fun j =>
    c.slotView b j != 8 && c.slotView b j != c.reg (0x4310 + k) 2) (0x4310 + k) 2) ++
  named (c.configPeriod / c.slotsIn b ≤ c.reg 0x4320 8) 0x4320 8

/-- What the camera check reports (R301, R308). -/
def State.cameraReport (c : State) : List (Key × Nat) := (List.range 8).flatMap fun k =>
  let a := if c.cameraOn k then c.cameraSlots false k else ([], [])
  let b := if c.cameraOn k then (c.cameraSlots true k).1 else []
  [(keyOf (0x4310 + k) 9, slotMask a.1), (keyOf (0x4310 + k) 0x0A, slotMask a.2), (keyOf (0x4310 + k) 0x0B, slotMask b)]

/-- Every contradiction of a profile: s is the state in effect, c the configuration checked. -/
def contradictions (s c : State) (kind : CommitKind) (b : Bool) : List Key :=
  c.slotFaults b ++
  (if c.isSender then c.cameraFaults b else c.maskFaults b ++ c.laneFaults b) ++
  if b then [] else s.rateFaults c kind ++ c.regionFaults ++
    if c.isSender then c.bindingFaults ++ c.areaFaults ++ c.flowFaults ++ c.outputFaults
    else (List.range 8).flatMap c.layerFaults ++ named (196608 < c.lampCount) 0x4200 1 ++ c.bankFaults

/-- The lowest key of a list. -/
def lowestKey : List Key → Option Key
  | [] => none
  | k :: ks => some (ks.foldl min k)

/-- Step 3 (R527). -/
def checkConsistency (s c : State) (kind : CommitKind) : CheckRun :=
  let report := if c.isSender then c.cameraReport else []
  match lowestKey (contradictions s c kind false) with
  | some k => ⟨some ⟨Status.consistency, k, false⟩, report⟩
  | none => match lowestKey (contradictions s c kind true) with
    | some k => ⟨some ⟨Status.consistency, k, true⟩, report⟩
    | none => .report report

/-! Step 4 (R74, R296, R318). -/

/-- A TIMING check. -/
def timing (ok : Bool) (index sub : Nat) (b : Bool) : Unit → CheckRun :=
  fun _ => .ensure ok Status.timing (keyOf index sub) b

/-- The limits of R74 and the rule of R296 in a profile. -/
def State.rateLimits (c : State) (b : Bool) : List (Unit → CheckRun) :=
  let rn := c.reg 0x4300 1
  let rd := c.reg 0x4300 2
  let n := c.reg 0x4300 (if b then 6 else 3)
  [timing (b || (rn != 0 && rd != 0 && 24000 * rd ≤ 1001 * rn && rn ≤ 1920 * rd)) 0x4300 1 b,
   timing (n * rn ≤ 15360 * rd && 1 ≤ n && n ≤ 32) 0x4300 (if b then 6 else 3) b,
   timing (!b || n ≤ c.reg 0x4300 3) 0x4300 6 b]

/-- The checks of one tile TG. -/
def State.tileTiming (c : State) (b : Bool) (r : Nat) : CheckRun :=
  let i := c.tgIndex b r
  let slot := (c.tslot b).floor
  let h := c.lineLength b r
  let sync := slot - (c.ver b r 1 * h : Nat)
  let shown : List (Key × Nat) :=
    if b then [] else [(keyOf (0x4000 + r) 0x0C, c.tmax b r), (keyOf (0x4000 + r) 0x0D, c.blanking b r)]
  CheckRun.inOrder [
    fun _ => .report shown,
    timing (1 ≤ c.hor b r 3 && 1 ≤ c.hor b r 1 && ceilDiv (c.regionW * c.lambda) 16 ≤ c.hor b r 3) i 2 b,
    timing (1 ≤ c.ver b r 3 && 1 ≤ c.ver b r 1 && c.ver b r 0 == 0) i 3 b,
    timing (((c.ver b r 3 + c.ver b r 1 + c.ver b r 2) * h : Nat) ≤ slot) i 3 b,
    timing ((lanesIn (c.laneMask b r)).all fun l => c.laneFrame b r l + 256 ≤ (sync : Rat)) i 4 b,
    timing (c.reg 0x5200 1 != 1 || (3125 : Int) ≤ slot - (c.activeLength b r : Int)) i 3 b]

/-- The checks of one sender TG (check 5). -/
def State.senderTiming (c : State) (r : Nat) : CheckRun :=
  let i := 0x4000 + r
  let clock := c.reg i 5
  let total := c.lineLength false r * (c.ver false r 0 + c.ver false r 1 + c.ver false r 2 + c.ver false r 3)
  .ensure (c.hor false r 3 ≤ 3840 && c.ver false r 3 ≤ 2160 && 25000 ≤ clock && clock ≤ 1200000 &&
    clock * 1000 ≤ 120 * total && clock * 3 * c.reg (0x6300 + r) 8 ≤ c.reg (0x6300 + r) 0x0A * 9697000) Status.timing (keyOf i 5) false

/-- Step 4 in a profile. -/
def State.profileTiming (c : State) (b : Bool) : List (Unit → CheckRun) :=
  c.rateLimits b ++
  if c.isSender then
    if b then [] else (c.tgs.filter (c.tgOn false)).map fun r _ => c.senderTiming r
  else
    (fun _ => .report [(keyOf 0x4010 (if b then 2 else 1), c.leastBlanking b)]) ::
      (c.tgs.filter (c.tgOn b)).map fun r _ => c.tileTiming b r

/-- Step 4. -/
def checkTiming (c : State) : CheckRun := .inOrder (c.profileTiming false ++ c.profileTiming true)

/-- The running sums of a list. -/
def runningSums : (acc : Nat) → List Nat → List Nat
  | _, [] => []
  | acc, x :: xs => (acc + x) :: runningSums (acc + x) xs

/-- Step 5 (R261). -/
def checkPool (c : State) : CheckRun :=
  if c.isSender then .pass
  else
    let needs := (List.range 8).map c.poolNeed
    let sums := runningSums 0 needs
    let shown (n : Nat) : List (Key × Nat) := (List.range n).map fun x => (keyOf (layerIndex x) 0x0F, needs.getD x 0)
    match sums.findIdx? (1504 < ·) with
    | some x => ⟨some ⟨Status.linebuf, keyOf (layerIndex x) 8, false⟩, shown (x + 1) ++ [(keyOf 0x4100 4, sums.getD x 0)]⟩
    | none => .report (shown 8 ++ [(keyOf 0x4100 4, sums.getD 7 0)])

/-! Step 6 (R86 to R88, R228, R240, R271). -/

/-- A demand term: the region it is charged to, its bytes per tick, and its requester when it is of C0 or C1. -/
structure Demand where
  region : Nat
  bytes : Nat
  requester : Option Nat
  deriving DecidableEq, Repr

/-- The demand of a tile in a profile (R87). -/
def State.tileDemand (c : State) (b : Bool) : List Demand :=
  let l := c.lampCount
  let n := c.slotsIn b
  let v := c.viewsIn b
  let windows (x : Nat) (views : List Nat) : Nat := match c.layerWindow x with
    | some w => (w.bytes (c.layer x).rate - 32) * views.length
    | none => 0
  let sum (f : Nat → Nat) : Nat := (List.range 8).foldl (fun t x => t + f x) 0
  [⟨c.kindRegion 2, n * 2 * l, some 0x10⟩, ⟨c.kindRegion 4, n * ceilDiv l 8, some 0x10⟩,
   ⟨c.kindRegion 0, sum fun x => windows x (c.layerViews x), none⟩,
   ⟨c.kindRegion 0, sum fun x => windows x ((c.layerViews x).filter v.contains), none⟩,
   ⟨c.kindRegion 1, v.length * (c.regionW * c.regionH * c.bytesPerPixel + 4 * l), none⟩,
   ⟨c.kindRegion 2, v.length * 2 * l, none⟩,
   ⟨c.kindRegion 3, if c.reg 0x4180 1 = 1 then 2 * l else 0, none⟩]

/-- The region that maps an address; 0 where none does. -/
def State.regionAt (c : State) (a : Nat) : Nat :=
  (c.regions.find? fun i => c.reg (0x3010 + i) 2 ≤ a && a < c.reg (0x3010 + i) 2 + c.reg (0x3010 + i) 3).getD 0

/-- The windows that the sender slices in a tick: binding, address and window. -/
def State.allWindows (c : State) : List (Nat × Nat × WindowBox) :=
  (c.bindings.filter fun b => !(c.binding b).direct).flatMap fun b =>
    (List.range 512).filterMap fun a => (c.tileWindow b a).map fun w => (b, a, w)

/-- The active size and the frame rate of preview output o. -/
def State.previewRaster (c : State) (o : Nat) : Nat × Nat × Rat :=
  let total := c.lineLength false o * (c.ver false o 0 + c.ver false o 1 + c.ver false o 2 + c.ver false o 3)
  (c.hor false o 3, c.ver false o 3, (c.reg (0x4000 + o) 5 * 1000 : Nat) / (max 1 total : Nat))

/-- The layers that preview output o draws (R269). -/
def State.previewLayers (c : State) (o : Nat) : List Binding :=
  ((List.range 8).map fun x => c.binding (8 * x + c.reg (0x6300 + o) 2)).filter fun d => d.on && !d.direct

/-- Where the compressed form of a source lies: a set's buffers or output slots, a clip, or the reserved area. -/
def State.sourceBase (c : State) (source : Nat) : Nat :=
  if source < 0x40 then 0x1A00000000
  else if source < 0x80 then
    let t := c.surfaceSet (source - 0x40)
    if t.raw then t.outBase else t.base
  else (c.clip (source - 0x80)).base

/-- The demand of the enabled previews (R271). -/
def State.previewDemand (c : State) : List Demand :=
  let area := c.regionAt 0x1A00000000
  ((List.range 2).filter fun o => c.reg (0x6300 + o) 1 == 1).flatMap fun o =>
    let (w, h, f) := c.previewRaster o
    let frames := (f * c.configPeriod / 10 ^ 9).ceil.toNat
    [⟨area, w * h * 4 * frames, some 0x11⟩, ⟨area, w * h * 8, none⟩] ++ (c.previewLayers o).map fun d =>
      ⟨c.regionAt (c.sourceBase d.source), min (ceilDiv d.geo.sw 8 * ceilDiv d.geo.sh 4) (w * h) * blockBytes (c.bindingRate d), none⟩

/-- The launch cell reads (R240): every window once for each port that sends it, its descriptor from the rings of the reserved
area and its blocks from where they lie (R219, R231). -/
def State.launchDemand (c : State) : List Demand := c.allWindows.flatMap fun q =>
  let d := c.binding q.1
  let ports := ((List.range 16).filter fun p => (c.tilesOn p).contains q.2.1).length
  [⟨c.regionAt 0x1A00000000, 32 * ports, some 0x19⟩,
   ⟨c.regionAt (c.sourceBase d.source), (q.2.2.bytes (c.bindingRate d) - 32) * ports, some 0x19⟩]

/-- The demand of a sender (R240). -/
def State.senderDemand (c : State) : List Demand :=
  let area := c.regionAt 0x1A00000000
  (c.liveSources.flatMap fun code =>
    let (w, h) := c.sourceSize code
    let n := c.framesPerTick code
    let rate := ((c.bindings.map c.binding).filter fun d => d.source == code).foldl (fun m d => max m d.geo.rate) 0
    [⟨area, w * h * 6 * n, none⟩, ⟨area, w * h * 6 * n, none⟩, ⟨area, w * h * n * rate / 8, none⟩]) ++
  (c.rawSets.flatMap fun t =>
    [⟨c.regionAt t.base, t.width * t.height * (if t.format = 1 then 6 else 8), none⟩,
     ⟨c.regionAt t.outBase, t.width * t.height * t.rate / 8, none⟩]) ++
  [⟨area, 64 * c.allWindows.length, some 0x19⟩] ++ c.launchDemand ++ c.previewDemand

/-- The demand terms of a profile. -/
def State.demands (c : State) (b : Bool) : List Demand := if c.isSender then c.senderDemand else c.tileDemand b

/-- D of a region. -/
def demandIn (l : List Demand) (i : Nat) : Nat := l.foldl (fun n d => if d.region = i then n + d.bytes else n) 0

/-- The first master at which a running sum of shares breaks a condition. -/
def State.firstMaster (c : State) (index start : Nat) (breaks : Nat → Bool) : Option Nat :=
  ((runningSums start (c.masters.map fun m => c.reg index (m + 1))).findIdx? breaks).map fun j => c.masters.getD j 0

/-- The conditions of R86 on one region. -/
def State.regionBudget (c : State) (cap d : Nat) (b : Bool) : Option Failure :=
  let breaks (x : Nat) : Bool := cap - d < x * cap / 65536
  if cap < d || breaks 256 then some ⟨Status.budget, keyOf 0x1644 8, b⟩
  else match c.firstMaster 0x1640 256 breaks with
    | some m => some ⟨Status.budget, keyOf 0x1640 (m + 1), b⟩
    | none => (c.firstMaster 0x1641 0 (32768 < ·)).map fun m => ⟨Status.budget, keyOf 0x1641 (m + 1), b⟩

/-- A region and a profile as the check computed them. -/
structure Computed where
  region : Nat
  demand : Nat
  cap : Nat
  profileB : Bool
  deriving DecidableEq, Repr

/-- The regions of R86 in order up to the first failure, with what was computed. -/
def State.budgetRun (c : State) : List (Nat × Bool) → List Computed × Option Failure
  | [] => ([], none)
  | (i, b) :: rest =>
    let cap := c.capacity (c.reg 0x4300 1) (c.reg 0x4300 2) i
    let d := demandIn (c.demands b) i
    match c.regionBudget cap d b with
    | some e => ([⟨i, d, cap, b⟩], some e)
    | none =>
      let r := c.budgetRun rest
      (⟨i, d, cap, b⟩ :: r.1, r.2)

/-- The tightest region and profile (R88): least Cap − D, then the lower region, then profile A. -/
def tightest : List Computed → Option Computed
  | [] => none
  | x :: xs =>
    let room (y : Computed) : Int := (y.cap : Int) - y.demand
    some (xs.foldl (fun m y => if room y < room m || (room y == room m && y.region < m.region) then y else m) x)

/-- The pixels that the compressor takes in a tick (R228). -/
def State.compressorDemand (c : State) : Nat :=
  c.rawSets.foldl (fun n t => n + t.width * t.height) 0 +
    c.liveSources.foldl (fun n code => n + (c.sourceSize code).1 * (c.sourceSize code).2 * c.framesPerTick code) 0

/-- The floor spacings of the C0 and C1 requesters (R386): a requester's share of D on each channel of the regions it uses; none
where it asks for nothing. -/
def State.floorTable (c : State) : List (Nat × Nat) :=
  let lcc := Grid.lcc (c.reg 0x4300 1) (c.reg 0x4300 2)
  [false, true].flatMap fun b =>
    let demands := c.demands b
    [0x10, 0x11, 0x18, 0x19].flatMap fun q => c.channels.filterMap fun ch =>
      let bytes := demands.foldl (fun n d =>
        let mask := c.reg (0x3010 + d.region) 4
        if d.requester = some q && bitAt mask ch then n + ceilDiv d.bytes (max 1 (popCount 36 mask)) else n) 0
      if bytes = 0 then none else some (floorKey b q ch, lcc / (2 * ceilDiv bytes 2048))

/-- The least floor spacing; 0 while no C0 or C1 requester asks for anything. -/
def State.floorNow (c : State) : Nat :=
  match c.floorTable.map (·.2) with
  | [] => 0
  | x :: xs => xs.foldl min x

/-- Step 6. -/
def checkBudget (c : State) : CheckRun :=
  let (l, e) := c.budgetRun (c.regions.map (·, false) ++ c.regions.map (·, true))
  let px := c.compressorDemand
  let shown := (l.filter fun x => !x.profileB).map (fun x => (keyOf (0x3010 + x.region) 7, x.cap)) ++
    (match tightest l with
    | some t => [(keyOf 0x1644 7, t.region), (keyOf 0x1644 8, t.demand), (keyOf 0x1644 9, t.cap)]
    | none => []) ++ [(keyOf 0x3070 3, min (2 ^ 32 - 1) c.floorNow)]
  match e with
  | some f => ⟨some f, shown⟩
  | none => if !c.isSender then .report shown
    else
      let more := shown ++ [(keyOf 0x6104 1, min (2 ^ 32 - 1) px),
        (keyOf 0x6302 4, min (2 ^ 32 - 1) (c.previewDemand.foldl (fun n d => n + d.bytes) 0))]
      if (px : Rat) ≤ 9 / 10 * 16 * c.configPeriod then .report more
      else ⟨some ⟨Status.budget, keyOf 0x6104 1, false⟩, more⟩

/-! Step 7 (R148, R212, R238, R239). -/

/-- ceil(P / 1302h.01) + 1 beacons. -/
def State.beaconCells (c : State) : Nat := (c.configPeriod / (1000 * max 1 (c.reg 0x1302 1) : Nat)).ceil.toNat + 1

/-- Whole slots of R107 in a time in ns: 292 symbols at 26.5625 GBd. -/
def slotsWithin (t : Rat) : Nat := (t * 425 / 4672).floor.toNat

/-- The sum of R239 after each step, with the entry that each step names. -/
def State.receiveLoads (c : State) : List (Key × Nat) := (List.range 8).flatMap fun x =>
  if c.layerOn x && c.layerDirect x then
    [(keyOf 0x4117 0x0E, c.regionH * ceilDiv (16 + 6 * c.regionW) 240 * (c.layerViews x).length)]
  else match c.layerWindow x with
    | some w => [(keyOf (layerIndex x) 7, ceilDiv (w.bytes (c.layer x).rate) 240 * (c.layerViews x).length)]
    | none => []

/-- Step 7 on a tile (R239). -/
def State.receiveCheck (c : State) : CheckRun :=
  let ut := ((slotsWithin c.configPeriod : Rat) * 31 / 32 * 9 / 10).floor.toNat
  let loads := c.receiveLoads
  let sums := runningSums c.beaconCells (loads.map (·.2))
  let shown := [(keyOf 0x4100 0x0D, (sums.getLast?).getD c.beaconCells), (keyOf 0x4100 0x0E, ut)]
  match sums.findIdx? (ut < ·) with
  | some j => ⟨some ⟨Status.linkcap, (loads.getD j (0, 0)).1, false⟩, shown⟩
  | none => .report shown

/-- The cells that port k needs in a tick (R238). -/
def State.portNeed (c : State) (k : Nat) : Nat :=
  c.beaconCells + (if c.reg 0x2100 1 = 0 then 0 else 1) +
    (c.tilesOn k).foldl (fun n a => n + c.bindings.foldl (fun t b => t + c.bindingCells b a) 0) 0

/-- U of R238. -/
def State.portCapacity (c : State) : Nat :=
  ((slotsWithin (c.configPeriod - c.reg 0x6101 1) : Rat) * 31 / 32 * c.reg 0x6101 2 / 100).floor.toNat

/-- A queue of the port needs more than 4,096 cells in a tick (R148). -/
def State.queueTooLong (c : State) (k : Nat) : Bool :=
  (c.tilesOn k).any fun a => c.bindings.any fun b => 4096 < c.bindingCells b a

/-- The payload of flow f in bit/s (R212), at the rate last measured or, where none is, the tick rate (DESIGN CHOICE,
log 97). -/
def State.flowRate (c : State) (f : Nat) : Rat :=
  let v := c.reg (0x6010 + f) 5
  let depth := [8, 10, 12, 16, 16].getD (field v 11 8) 16
  let samples := if field v 15 12 = 2 then 2 else 3
  (field v 63 48 * field v 47 32 * samples * depth : Nat) *
    (c.sourceRate (0x20 + f)).getD (10 ^ 9 / c.configPeriod)

/-- The first flow at which a leg's port takes more than 90 Gb/s. -/
def State.legOverload (c : State) (leg : Nat) : Option Nat :=
  let on := (List.range 16).filter fun f => c.flag (0x6010 + f) 1 leg
  (on.zipIdx.find? fun q =>
    90 * 10 ^ 9 < (on.take (q.2 + 1)).foldl (fun t g => t + c.flowRate g) 0).map (·.1)

/-- Step 7 on a sender. -/
def State.sendCheck (c : State) : CheckRun :=
  let u := c.portCapacity
  let needs := (List.range 16).map c.portNeed
  let shown := (List.range 16).map (fun k => (keyOf 0x6106 (k + 1), needs.getD k 0)) ++ [(keyOf 0x6106 0x11, u)]
  match (List.range 16).find? fun k => u < needs.getD k 0 || c.queueTooLong k with
  | some k => ⟨some ⟨Status.linkcap, keyOf 0x6106 (k + 1), false⟩, shown⟩
  | none => match c.legOverload 0, c.legOverload 1 with
    | none, none => .report shown
    | some f, none => ⟨some ⟨Status.linkcap, keyOf (0x6010 + f) 2, false⟩, shown⟩
    | none, some f => ⟨some ⟨Status.linkcap, keyOf (0x6010 + f) 3, false⟩, shown⟩
    | some f, some g => ⟨some ⟨Status.linkcap, if f ≤ g then keyOf (0x6010 + f) 2 else keyOf (0x6010 + g) 3, false⟩, shown⟩

/-- Step 7. -/
def checkLinks (c : State) : CheckRun := if c.isSender then c.sendCheck else c.receiveCheck

/-- Step 1 (R48). -/
def checkMode (s : State) : CheckRun := .ensure (commitModes.contains s.mode) Status.mode 0 false

/-- The entry with which IMMEDIATE or TIMED fails step 2 (R48, R527), at the command (R49). -/
def State.lateEntry (s : State) (time : Option Nat) : Option Key :=
  if s.reg 0x1300 3 = 0 then some (keyOf 0x1300 3)
  else if time.all fun t => s.atLeastP (lt32Diff t s.lt32) 2 then none
  else some (keyOf 0x1010 2)

/-- Step 2 (R48, R527), as it was taken at the command. -/
def checkTime (late : Option Key) : CheckRun := .ensure late.isNone Status.late (late.getD 0) false

/-- Steps 3 to 7 on the configuration c over the state s in effect. -/
def checkConfiguration (s c : State) (kind : CommitKind) : CheckRun := .inOrder [
  fun _ => checkConsistency s c kind, fun _ => checkTiming c, fun _ => checkPool c, fun _ => checkBudget c,
  fun _ => checkLinks c]

/-- How a commit was commanded. -/
def Commit.kind (c : Commit) : CommitKind :=
  if c.boot then .boot else match c.time with
    | some t => .timed t
    | none => .immediate

/-- The checks of a commit, at the command or again at its due boundary, when step 2 is left out (R48, R49). -/
def State.checkCommit (s : State) (c : Commit) (due : Bool) : CheckRun := .inOrder [
  fun _ => checkMode s, fun _ => if due then .pass else checkTime c.late,
  fun _ => checkConfiguration s (s.withCommit c) c.kind]

/-- The values that a run of the checks of a configuration leaves, and the floor spacings where it reached step 6 (R386). -/
def recordChecks (c : State) (r : CheckRun) : Effect := .seq
  (Effect.each (fun e => set (e.1 / 256) (e.1 % 256) e.2) r.results)
  (Effect.when (r.results.any fun e => e.1 == keyOf 0x3070 3) (onMemory fun m => { m with floors := c.floorTable }))

end Sys2Proof.Machine
end

