-- ==== Sys2Proof/Machine/Shunt.lean ====
section
/-! DEFINITION. The 66-bit blocks of the shunt and return lanes (R333, R334), with the self-synchronizing scrambler, and the return
frame that they make (R346 to R348). -/

namespace Sys2Proof.Machine

/-- A block of a lane: control or data, and its payload. -/
structure LaneBlock where
  control : Bool
  payload : Nat
  deriving DecidableEq, Repr

/-- n payload bits through the self-synchronizing scrambler x^58 + x^39 + 1, from bit i on: line holds the last 58 bits of the
line, the newest in bit 0. A receiver shifts in the bits that it has received, a transmitter those that it sends (R333). -/
def scrambleBits (receive : Bool) (payload line : Nat) : (n i : Nat) → Nat × Nat
  | 0, _ => (0, line)
  | n + 1, i =>
    let from' := bitAt payload i
    let other := from' ^^ bitAt line 38 ^^ bitAt line 57
    let rest := scrambleBits receive payload ((2 * line + (if (if receive then from' else other) then 1 else 0)) % 2 ^ 58) n (i + 1)
    ((if other then 1 else 0) + 2 * rest.1, rest.2)

/-- Blocks as they leave: the sync header in bits 0 and 1, 01 for data and 10 for control, then the scrambled payload. -/
def laneWords : (line : Nat) → List LaneBlock → List Nat
  | _, [] => []
  | line, b :: bs =>
    let q := scrambleBits false b.payload line 64 0
    (4 * q.1 + if b.control then 2 else 1) :: laneWords q.2 bs

/-- Blocks from the words that arrive; one with a sync header that is neither stands as data. -/
def laneBlocks : (line : Nat) → List Nat → List LaneBlock
  | _, [] => []
  | line, w :: ws =>
    let q := scrambleBits true (w / 4) line 64 0
    ⟨w % 4 == 2, q.1⟩ :: laneBlocks q.2 ws

/-- One record of a return frame (R347). -/
structure ReturnRecord where
  array : Nat
  temp : Nat
  fault : Nat
  openFlags : Nat
  dvalid : Bool
  dstring : Nat
  dresult : Nat
  deriving DecidableEq, Repr

/-- A record from its blocks A and B (R347). -/
def returnRecord (a b : Nat) : ReturnRecord :=
  ⟨field a 51 48, field a 63 56, field a 55 52, field a 47 0, bitAt b 38, field b 37 32, field b 31 0⟩

/-- The records of data blocks, two each. -/
def returnRecords : List Nat → List ReturnRecord
  | a :: b :: r => returnRecord a b :: returnRecords r
  | _ => []

end Sys2Proof.Machine
end

