-- ==== Sys2Proof/Machine/Lanes.lean ====
section
/-! DEFINITION. What the shunt lanes send (R333, R338, R341): the slot that they shift now, their blocks, and their LATCH. -/

namespace Sys2Proof.Machine

/-- The configuration by which the scan path shifts the slots of tick n: its own copies of the slot maps, the current codes
and the dither mode (R298), or the commit that applies at n. -/
def State.scanAt (s : State) (n : Nat) : State :=
  let c := s.configAt n
  if s.hid.commit.pend.any fun p => p.due ≤ n then c
  else
    let x := s.hid.scan
    let copy (r : Values) (k v : Nat) : Values := setValue s.pers r k v
    let r := ([4, 5, 7, 8].zip x.maps).foldl (fun r e => copy r (keyOf 0x4300 e.1) e.2) c.regs
    let r := (x.codes.zipIdx).foldl (fun r e => copy r (keyOf (0x4210 + e.2) 1) e.1) r
    { c with regs := copy r (keyOf 0x4200 3) x.dither }

/-- The slot whose on-times the lanes shift now: tick and number. -/
def State.nextSlot (s : State) : Nat × Nat :=
  let x := s.hid.scan
  if x.slot + 1 < (s.scanAt x.tick).slotsIn s.profileB then (x.tick, x.slot + 1) else (x.tick + 1, 0)

/-- A lane's state. -/
def State.laneState (s : State) (lane : Nat) : LaneState := s.hid.scan.lanes.getD lane LaneState.initial

/-- A lane's state changes. -/
def onLane (lane : Nat) (f : LaneState → LaneState) : Effect := onScan fun x => { x with lanes := updateAt x.lanes lane f }

/-- Blocks leave on a lane. How many IDLE blocks stand before them is open, and so are the bits of its line (R341; log 108). -/
def sendLane (lane : Nat) (blocks : List LaneBlock) : Effect := .look fun s => .seq
  (emit (.lane lane (s.freeValue 58) (laneWords (s.freeValue 58) blocks))) useFree

/-- A control block leaves on a lane. -/
def sendControl (lane v : Nat) : Effect := sendLane lane [⟨true, v⟩]

/-- STEP of a LATCH block (R338). -/
def State.latchStep (c : State) : Nat :=
  (roundRat (c.configPeriod / c.slotsIn c.profileB / 4096 * 8 / 5 * 65536)).toNat

/-- The LATCH block of a lane for the next slot, and what the part shows of it (R338, R365). MARK follows the phase of the
lane's block grid, which is open: a free value of 0 to 65 (log 9). -/
def sendLatch (lane kind : Nat) : Effect := .look fun s =>
  let (n, k) := s.nextSlot
  .all [
    sendControl lane (k * 2 ^ 56 + (s.scanAt n).latchStep % 2 ^ 32 * 2 ^ 24 + s.freeValue 7 % 66 * 2 ^ 16 + kind * 2 ^ 8 + 0x78),
    useFree,
    onScan fun y => { y with kinds := setAt y.kinds lane kind },
    setField (0x5110 + lane) 3 7 6 kind,
    Effect.when (kind == 0) (setField (0x5110 + lane) 3 15 12 (s.laneState lane).view),
    setField (0x5110 + lane) 3 0 0 1,
    onLane lane fun x => { x with started := false, ended := false, dark := false }]

/-- The lanes in a mask send one DARK latch (R404). -/
def sendDarkLatches : Effect := .look fun s => Effect.when (s.isTile && s.scanRuns && s.hid.scan.slot != 255)
  (Effect.each (fun l => sendLatch l 2) ((List.range 32).filter s.laneOn))

end Sys2Proof.Machine
end

