-- ==== Sys2Proof/Machine/Heat.lean ====
section
/-! DEFINITION. Sensors, levels, compensation and Equinox (R398 to R427), and the assertion of a reset source that a trip
needs (R430 to R432). -/

namespace Sys2Proof.Machine

/-- The scope of a reset cause: 1 warm, 2 cold, 3 POR (R430). -/
def scopeOf (code : Nat) : Nat :=
  if code = 1 then 3 else if [4, 6, 7, 0x0B].contains code then 1 else 2

/-- A reset source is asserted (R431, R432): the widest scope is kept with its last source, and a source other than POR
and brownout is held during a flash pulse. -/
def assertReset (code : Nat) : Effect := .look fun s =>
  let r := s.hid.reset
  let scope := scopeOf code
  let holds := s.flashBusy && code != 1 && code != 2
  Effect.when (r.request.isNone || r.scope ≤ scope) (.all [
    Effect.when (holds && !r.held) (count 32 0x1100 8),
    onReset fun r => { r with request := some code, scope := scope, held := holds }])

/-- The nearest ring oscillator of a sensor (R398). -/
def nearestRing (k : Nat) : Nat := [0, 0, 1, 1, 2, 3, 0, 2, 1, 3, 2, 3].getD k 0

/-- The substitute value of a broken sensor, 106 °C in 1/16 °C (R400). -/
def substitute : Int := 1696

/-- A sensor is broken (R424). -/
def State.broken (s : State) (k : Nat) : Bool := s.flag 0x1203 1 k

/-- One sensor after a sample (R400), with the cause of a break, 0 for none. -/
def SensorState.sample (x : SensorState) (r : SensorReading) (ring : Int) : SensorState × Nat :=
  let opened := match r with
    | .openOrShort => true
    | .value _ => false
  let v := match r with
    | .openOrShort => 0
    | .value v => v
  let outside := !opened && (v < -880 || 2400 < v)
  let differs := !opened && 192 < (v - ring).natAbs
  let y : SensorState := {
    opened := if opened then x.opened + 1 else 0
    range := if outside then x.range + 1 else 0
    differ := if differs then x.differ + 1 else 0
    passed := if opened || outside || differs then 0 else x.passed + 1
    eligible := x.eligible }
  (y, if 2 ≤ y.opened then 1 else if 2 ≤ y.range then 2 else if 16 ≤ y.differ then 3 else 0)

/-- One sensor's sample taken: it breaks, or after a cold reset becomes valid again (R400). -/
def takeSensor (k : Nat) (r : SensorReading) (ring : Int) : Effect := .look fun s =>
  let (y, cause) := (s.hid.heat.sensors.getD k SensorState.initial).sample r ring
  let breaks := cause != 0 && !s.broken k
  let heals := s.broken k && y.eligible && 16 ≤ y.passed
  .all [
    onHeat fun h => { h with sensors := setAt h.sensors k (if breaks then { y with eligible := false } else y) },
    Effect.when breaks (.all [
      setBit 0x1203 1 k true, setField 0x1203 2 (2 * k + 1) (2 * k) cause,
      raise 400 k, countField 0x1204 1 15 0, almanac 6 2]),
    Effect.when heals (.seq (setBit 0x1203 1 k false) (setField 0x1203 2 (2 * k + 1) (2 * k) 0)),
    .look fun t => if t.broken k then setInt 16 0x1201 (k + 1) substitute
      else match r with
        | .value v => setInt 16 0x1201 (k + 1) v
        | .openOrShort => .nothing]

/-- The greatest of a list of integers, or a value where it is empty. -/
def greatest (l : List Int) (none' : Int) : Int :=
  match l with
  | [] => none'
  | x :: xs => xs.foldl max x

/-- Tj, Tthr and Tsd (R399). -/
def deriveTemperatures : Effect := .look fun s =>
  let ring (i : Nat) := s.int 16 0x1202 (i + 1)
  let valid := (List.range 12).filter fun k => !s.broken k
  let bad := (List.range 12).filter s.broken
  let tj := greatest (valid.map fun k => s.int 16 0x1201 (k + 1)) (greatest ((List.range 4).map ring) 0)
  .all [
    setInt 16 0x1200 1 tj,
    setInt 16 0x1200 2 (if bad.isEmpty then tj else max tj substitute),
    setInt 16 0x1200 3 (greatest (bad.map fun k => ring (nearestRing k)) tj |> max tj),
    setBit 0x1200 4 4 (!bad.isEmpty),
    setBit 0x1200 4 5 valid.isEmpty]

/-- SENSOR_SAMPLE (R399 to R401): sensors and rings, the temperatures, the warning level, the end of the shutdown level,
and the release of a trip. -/
def execSensorSample (sensors : List SensorReading) (rings : List Int) (s : State) : Host.Outcome State Fault Refusal :=
  perform (.all [
    Effect.each (fun i => setInt 16 0x1202 (i + 1) (rings.getD i (s.int 16 0x1202 (i + 1)))) (List.range 4),
    .look fun t => Effect.each (fun k => Effect.ofOption sensors[k]? fun r =>
      takeSensor k r (t.int 16 0x1202 (nearestRing k + 1))) (List.range 12),
    deriveTemperatures,
    .look fun t => .all [
      Effect.when (!t.flag 0x1200 4 0 && 1520 ≤ t.int 16 0x1200 2)
        (.all [setBit 0x1200 4 0 true, raise 401 0, countField 0x1204 1 63 48, almanac 6 0]),
      Effect.when (t.flag 0x1200 4 0 && t.int 16 0x1200 2 < 1440) (setBit 0x1200 4 0 false),
      Effect.when (t.flag 0x1200 4 2 && t.int 16 0x1200 3 < 1760) (setBit 0x1200 4 2 false),
      Effect.when (t.hid.reset.tripped &&
          ((List.range 12).all fun k => t.broken k || t.int 16 0x1201 (k + 1) < 1920) &&
          ((List.range 4).all fun i => t.int 16 0x1202 (i + 1) < 1920))
        (onReset fun r => { r with tripped := false })]]) s

/-- THROTTLE (R401, R402): the throttle level is entered or left. -/
def execThrottle (s : State) : Host.Outcome State Fault Refusal :=
  let t := s.int 16 0x1200 2
  perform (if !s.flag 0x1200 4 1 && 1680 ≤ t then .all [
      setBit 0x1200 4 1 true, raise 401 1, countField 0x1204 1 47 32, almanac 6 1, followThrottle]
    else Effect.when (s.flag 0x1200 4 1 && t < 1600) (.seq (setBit 0x1200 4 1 false) followThrottle)) s

/-- The throttle test 1210h.01 is written (R402, R425). -/
def throttleTest (v : Nat) : Effect := .all [
  set 0x1210 1 v, setBit 0x1200 4 3 (v == 1), followThrottle]

/-- A calibration record (R418). -/
structure DacRecord where
  gain : Nat
  offset : Int
  dtrim : Int
  tcal : Int
  state : Nat
  aborts : Nat
  count : Nat
  deriving DecidableEq, Repr

/-- Record c of the set in use. -/
def State.dac (s : State) (c : Nat) : DacRecord :=
  let w (o n : Nat) := s.contentWord 0x1610 1 (32 + 16 * c + o) n
  ⟨w 0 4, toSigned 32 (w 4 4), toSigned 16 (w 8 2), toSigned 16 (w 10 2), w 12 1, w 13 1, w 14 2⟩

/-- The set in use takes record c. -/
def storeDac (c : Nat) (r : DacRecord) : Effect :=
  storeContent 0x1610 1 (32 + 16 * c) (bytesLE 4 r.gain ++ bytesLE 4 (ofSigned 32 r.offset) ++
    bytesLE 2 (ofSigned 16 r.dtrim) ++ bytesLE 2 (ofSigned 16 r.tcal) ++ bytesLE 1 r.state ++ bytesLE 1 r.aborts ++
    bytesLE 2 r.count)

/-- The factory set (R419): fuse values, STATE 0. -/
def factorySet : List Byte :=
  let head := bytesLE 4 0x5145514E ++ bytesLE 2 1 ++ bytesLE 2 65 ++ zeroBytes 20
  let body := ((List.range 65).flatMap fun c => (List.range 12).map (fun i => Config.fuseByte (256 + 12 * c + i)) ++
    zeroBytes 4) ++ (List.range 36).map (fun i => defaultContent (keyOf 0x1220 1) i) ++ zeroBytes 12
  head ++ bytesLE 4 (crc32 (head ++ body)) ++ body

/-- The suspect marks of the set in use (1600h.08). -/
def showSuspects : Effect := setBy 0x1600 8 fun s =>
  (List.range 64).foldl (fun m c => if (s.dac c).state = 2 then withBit m c else m) 0

/-- The valid slot with the higher SEQ is loaded, or the factory values (R419, command 0x04 of 1600h.03). -/
def loadCalibration : Effect := .look fun s =>
  match newerSlot (s.calibrationSeq 0) (s.calibrationSeq 1) with
  | some i =>
    let set' := s.flash (Flash.calibration i) 1120
    .all [storeContent 0x1610 1 0 set', storeContent 0x1220 1 0 (slice set' 1072 36), set 0x1600 9 (1 + i),
      Effect.when s.isTile showSuspects]
  | none => .all [storeContent 0x1610 1 0 factorySet, set 0x1600 9 3, raise 419, Effect.when s.isTile showSuspects]

/-- The lookup of a compensation table at a temperature in 1/16 °C (R409). -/
def State.compensation (s : State) (table : Nat) (t : Int) : Int :=
  let p (k : Nat) := s.contentInt 0x1220 table (2 * k)
  if t ≤ -640 then p 0
  else if 2080 ≤ t then p 17
  else
    let k := ((t + 640) / 160).toNat
    p k + roundDiv ((p (k + 1) - p k) * ((t + 640) % 160)) 160

/-- COMPENSATION_UPDATE (R409, R410): the three values at Tj; in holdover the held rate follows the XCLK table. -/
def execCompensationUpdate (s : State) : Host.Outcome State Fault Refusal :=
  let tj := s.int 16 0x1200 1
  let x (t : Nat) := ofSigned 16 (s.compensation t tj)
  let held := [3, 4].contains (s.reg 0x1300 3)
  let window := if s.timingMaster then 10000 else 1000
  let bandgap := field (s.reg 0x1220 4) 31 16
  let waits := s.isTile && s.tgRuns 0
  let log := s.hid.time.tjLog.take window
  let tm := if log.isEmpty then tj else roundDiv (log.foldl (· + ·) 0) log.length
  perform (Effect.when (s.up .core) (.all [
    onHeat fun h => if waits then { h with bandgapNext := if bandgap = x 2 then none else some (x 2) }
      else { h with bandgapNext := none, bandgapAt := if bandgap = x 2 then h.bandgapAt else s.uptime },
    set 0x1220 4 (x 1 * 2 ^ 32 + (if waits then bandgap else x 2) * 2 ^ 16 + x 3),
    if held then setRate
        (s.hid.time.rateHeld + (s.compensation 3 tj - s.compensation 3 tm) * 65536 / 1000)
      else onTime fun m => { m with tjLog := (tj :: m.tjLog).take 10000 }])) s

/-- The bandgap curvature code that waits takes effect, at a latch instant of TG0 (R409). -/
def takeBandgap : Effect := .look fun s => Effect.ofOption s.hid.heat.bandgapNext fun x => .seq
  (setField 0x1220 4 31 16 x)
  (onHeat fun h => { h with bandgapNext := none, bandgapAt := s.uptime })

/-- The items of the personality, in their order of R413. -/
def State.items (s : State) : List Nat := if s.isSender then [65] else 65 :: 64 :: List.range 64

/-- Tj at the last completed calibration of an item (R413). -/
def State.tcal (s : State) (item : Nat) : Int := if item = 65 then s.hid.heat.rcTcal else (s.dac item).tcal

/-- How far Tj has moved since then. -/
def State.moved (s : State) (item : Nat) : Nat := (s.int 16 0x1200 1 - s.tcal item).natAbs

/-- The items that are due (R413). -/
def State.dueItems (s : State) : List Nat := s.items.filter fun i =>
  ((s.reg 0x1600 1 == 1 && s.reg 0x1600 2 ≤ s.moved i) || s.hid.heat.commanded.contains i) &&
    (64 ≤ i || s.laneOn (i / 2))

/-- The item that runs next: the RC oscillator, CRS, then the channel that has moved most (R413). -/
def State.nextItem (s : State) : Option Nat :=
  let d := s.dueItems
  if d.contains 65 then some 65
  else if d.contains 64 then some 64
  else d.foldl (fun b c => match b with
    | none => some c
    | some e => if s.moved e < s.moved c then some c else some e) none

/-- The next run is set up, if none is (R413, R415). -/
def startNextItem : Effect := .look fun s => Effect.when (s.hid.heat.run.isNone && s.maintenance)
  (Effect.ofOption s.nextItem fun i => .all [
    onHeat fun h => { h with run := some ⟨i, 1, none, none, s.int 16 0x1200 1, none, 0⟩ },
    set 0x1600 7 i, set 0x1600 6 1,
    requestActivity Activity.equinox])

/-- EQUINOX_EVALUATE (R413). -/
def execEquinoxEvaluate (s : State) : Host.Outcome State Fault Refusal := perform startNextItem s

/-- The last result is recorded, if none stands there: the next one is recorded after a clear (R427; DEDUCED, log 82). -/
def recordResult (result item pairs cause diff : Nat) : Effect := .look fun s =>
  Effect.when (!s.flag 0x1600 0x0B 63) (set 0x1600 0x0B (2 ^ 63 + result * 2 ^ 60 + item * 2 ^ 53 + pairs * 2 ^ 50 +
    cause * 2 ^ 48 + min 65535 diff * 2 ^ 32 + s.tick % 2 ^ 32))

/-- The run leaves the stage: tokens freed, nothing current. -/
def clearRun : Effect := .all [
  onHeat fun h => { h with run := none }, set 0x1600 6 0, set 0x1600 7 0xFF,
  setBit 0x1620 3 Activity.equinox false,
  onHeat fun h => { h with waiting := h.waiting.filter (· != Activity.equinox) },
  endActivity Activity.equinox]

/-- The commands that named an item are done with. -/
def itemDone (item : Nat) : Effect :=
  onHeat fun h => { h with commanded := h.commanded.filter (· != item) }

/-- A run ends as aborted for a cause of R417 or R423 (R427): three in a row of one item raise an event. -/
def abortRun (r : EquinoxRun) (cause : Nat) : Effect := .look fun s =>
  let d := s.dac r.item
  .all [
    countField 0x1600 0x0A 31 16, almanac 6 6,
    Effect.when (r.item < 65) (.seq (storeDac r.item { d with aborts := min 255 (d.aborts + 1) })
      (Effect.when (d.aborts + 1 == 3) (raise 417 r.item))),
    recordResult 3 r.item r.pair cause 0,
    clearRun]

/-- GAIN, OFFSET and DTRIM of a measurement of three points in 2⁻¹⁶ µA (R414): GAIN in 2⁻²⁴ µA, DTRIM in 2⁻¹² µA. -/
def coefficients (points : List Int) (diagCode : Int) : List Int :=
  let p (i : Nat) := points.getD i 0
  let gain := roundDiv ((p 1 - p 0) * 256) 3276
  let offset := p 0 - roundDiv (gain * 410) 256
  [gain, offset, roundDiv (p 2 - offset - roundDiv (gain * diagCode) 256) 16]

/-- The diagnostic code of a channel (R354, R412): round((Idiag − OFFSET − DTRIM) / GAIN). -/
def State.diagCode (s : State) (c : Nat) : Int :=
  let d := s.dac c
  let idiag : Int := s.reg 0x5200 2 * s.reg 0x5001 (c % 64 + 1) * 4096 / 255
  if d.gain = 0 then 0 else roundDiv ((idiag - d.offset - d.dtrim * 16) * 256) d.gain

/-- The largest disagreement of two measurements in 2⁻¹⁶ µA: predicted currents at codes 0 and 4,095, and DTRIM
(R415). -/
def disagreement (a b : List Int) : Nat :=
  let top (x : List Int) := x.getD 1 0 + x.getD 0 0 * 4095 / 256
  max (a.getD 1 0 - b.getD 1 0).natAbs (max (top a - top b).natAbs ((a.getD 2 0 - b.getD 2 0) * 16).natAbs)

/-- A run ends with its result (R415, R427). -/
def finishRun (r : EquinoxRun) : Effect := .look fun s =>
  let tj := s.int 16 0x1200 1
  let pairs := min 4 r.pair
  match r.agreed with
  | some c => .all [
      if r.item = 65 then onHeat fun h => { h with rcTcal := tj }
      else
        let d := s.dac r.item
        .seq (storeDac r.item ⟨(c.getD 0 0).toNat, c.getD 1 0, c.getD 2 0, tj, 1, 0, min 65535 (d.count + 1)⟩)
          (Effect.when (r.item < 64) (setBit 0x1600 8 r.item false)),
      countField 0x1600 0x0A 63 48, almanac 6 4, setBit 0x1600 9 7 true,
      recordResult 1 r.item pairs 0 r.diff, itemDone r.item, clearRun]
  | none => .all [
      Effect.when (r.item < 65) (storeDac r.item { s.dac r.item with state := 2 }),
      Effect.when (r.item < 64) (setBit 0x1600 8 r.item true),
      countField 0x1600 0x0A 15 0, raise 415 r.item,
      recordResult 2 r.item pairs 0 r.diff, itemDone r.item, clearRun]

/-- The reference is ready (R417): the bandgap code has not changed in the last 1 ms, nor was AON released in the last
200 µs. -/
def State.referenceReady (s : State) : Bool :=
  (s.hid.heat.bandgapAt = 0 || s.hid.heat.bandgapAt + 1000000 ≤ s.uptime) && 250000 ≤ s.hid.time.cycles

/-- The derate region of a lane (R332). -/
def State.regionOf (s : State) (lane : Nat) : Nat := field (s.reg 0x5000 7) (2 * lane + 1) (2 * lane)

/-- A derate transition is under way in the region of a channel's lane (R352). -/
def State.derating (s : State) (c : Nat) : Bool := s.flag 0x5000 0x0A (4 + s.regionOf (c / 2))

/-- The abort cause that holds now, 0 for none (R417). -/
def State.abortCause (s : State) (r : EquinoxRun) : Nat :=
  if !s.referenceReady then 1
  else if 8 ≤ (s.int 16 0x1200 1 - r.startTj).natAbs then 2
  else if r.item < 64 && s.derating r.item then 3
  else 0

/-- EQUINOX_SWAP_IN (R415, R417): at a granted blanking, CRS takes the arrays of the channel. -/
def execEquinoxSwapIn (s : State) : Host.Outcome State Fault Refusal :=
  perform (Effect.ofOption s.hid.heat.run fun r =>
    let fresh := { r with startTj := s.int 16 0x1200 1 }
    Effect.when (s.reg 0x1600 6 == 2 && s.running Activity.equinox && s.tokenFree Token.diagSlot && r.aborted.isNone)
      (if s.abortCause fresh = 0 then .seq (set 0x1600 6 3) (onHeat fun h => { h with run := some fresh })
        else abortRun r (s.abortCause fresh))) s

/-- The mean of two measurements. -/
def meanOf (a b : List Int) : List Int := List.zipWith (fun x y => roundDiv (x + y) 2) a b

/-- The RC table takes the trim error at both points that bracket Tj (R415). -/
def trimRc (e : Int) : Effect := .look fun s =>
  let k := min 16 ((s.int 16 0x1200 1 + 640) / 160).toNat
  let add (i : Nat) := storeContent 0x1220 1 (2 * i)
    (bytesLE 2 (ofSigned 16 (clampSigned 16 (s.contentInt 0x1220 1 (2 * i) + e))))
  .seq (add k) (add (k + 1))

/-- A precondition fails (R417): the spare is swapped out at the next blanking; a run without a swap ends at once. -/
def failRun (r : EquinoxRun) (cause : Nat) : Effect :=
  if r.item < 64 then .seq (onHeat fun h => { h with run := some { r with aborted := some cause } }) (set 0x1600 6 4)
  else abortRun r cause

/-- The measurements of a run are over (R415): a channel waits for its swap-out, and every other item has its result. -/
def endMeasuring (r : EquinoxRun) : Effect :=
  if r.item < 64 then .seq (onHeat fun h => { h with run := some r }) (set 0x1600 6 4) else finishRun r

/-- The next pair, after a pair that does not agree: at most three retries (R415). -/
def nextPair (r : EquinoxRun) : Effect := .look fun s =>
  if r.pair < 4 then .all [
    countField 0x1600 0x0A 47 32, almanac 6 5,
    onHeat fun h => { h with run := some { r with first := none, pair := r.pair + 1, startTj := s.int 16 0x1200 1 } }]
  else endMeasuring r

/-- The second measurement of a pair (R415): the RC oscillator is measured twice, its counts agree within 0.05 % of nominal,
and the trim error is added; a DAC takes the mean of a pair that agrees. -/
def takePair (r : EquinoxRun) (m1 m2 : List Int) : Effect := .look fun s =>
  if r.item = 65 then
    if (m1.getD 0 0 - m2.getD 0 0).natAbs * 2000 ≤ Config.rcNominal then
      .seq (trimRc (Config.rcTrimError (m1.getD 0 0) (m2.getD 0 0))) (finishRun { r with agreed := some [] })
    else finishRun r
  else
    let a := coefficients m1 (s.diagCode r.item)
    let b := coefficients m2 (s.diagCode r.item)
    let d := disagreement a b
    let after := { r with diff := d * 1000 / 65536 }
    if d ≤ 8388 then endMeasuring { after with agreed := some (meanOf a b) } else nextPair after

/-- EQUINOX_MEASUREMENT (R414, R415, R417): three points of a DAC in 2⁻¹⁶ µA, or one RC count. -/
def execEquinoxMeasurement (points : List Int) (s : State) : Host.Outcome State Fault Refusal :=
  perform (Effect.ofOption s.hid.heat.run fun r => Effect.when (s.reg 0x1600 6 == 3 && s.running Activity.equinox &&
      r.aborted.isNone && s.maintenance && !s.frozen 4)
    (if s.abortCause r != 0 then failRun r (s.abortCause r)
    else match r.first with
    | none => onHeat fun h => { h with run := some { r with first := some points } }
    | some m1 => takePair r m1 points)) s

/-- EQUINOX_SWAP_OUT (R415, R417, R423): the channel drives its arrays again, CRS is released, and the run ends. -/
def execEquinoxSwapOut (s : State) : Host.Outcome State Fault Refusal :=
  perform (Effect.ofOption s.hid.heat.run fun r => Effect.when (s.tokenFree Token.diagSlot) (match r.aborted with
    | some 4 => .all [recordResult 4 r.item r.pair 0 0, clearRun]
    | some cause => abortRun r cause
    | none => Effect.when (s.reg 0x1600 6 == 4) (finishRun r))) s

/-- EQUINOX_ABORT (R417): a precondition fails during the measurements; the spare is swapped out at the next
blanking. -/
def execEquinoxAbort (cause : Nat) (s : State) : Host.Outcome State Fault Refusal :=
  perform (Effect.ofOption s.hid.heat.run fun r =>
    Effect.when (s.reg 0x1600 6 == 3 && r.aborted.isNone && cause != 0 && s.abortCause r == cause)
      (failRun r cause)) s

/-- A profile switch has taken the lane of the run out of every mask (R423): the spare is released and the run counts as
an abort. -/
def equinoxBoundary : Effect := .look fun s => Effect.ofOption s.hid.heat.run fun r =>
  Effect.when (r.item < 64 && 2 ≤ s.reg 0x1600 6 && !s.laneOn (r.item / 2)) (abortRun r 0)

/-- Equinox commands 0x01 and 0x02 (R413, R426): items are named, and a run is set up. -/
def calibrate (items : List Nat) : Effect := .seq
  (onHeat fun h => { h with commanded := items.foldl (fun l i => if l.contains i then l else l ++ [i]) h.commanded })
  startNextItem

/-- The answer to them: a command for an item already queued or running joins it (R421, R423). -/
def State.calibrateStatus (s : State) : Nat := s.activityStatus Activity.equinox

/-- Equinox command 0x05 (R426). -/
def clearSuspects : Effect := .look fun s => .seq (set 0x1600 8 0)
  (Effect.each (fun c => let d := s.dac c
    Effect.when (d.state == 2) (storeDac c { d with state := if d.count = 0 then 0 else 1 })) (List.range 65))

/-- A run and every activity end, at a shutdown (R404, R405): the session ends under R464, and the store in progress is
not resumed. -/
def endForShutdown : Effect := .look fun s => .all [
  Effect.ofOption s.hid.heat.run fun r => .seq (recordResult 5 r.item r.pair 0 0) clearRun,
  Effect.when ((s.hid.update.store.map (·.1)) == some 0) (set 0x1500 0x11 Status.aborted),
  onUpdate fun u => { u with store := none, storeQueue := [], consolidate := 0 },
  Effect.when (s.reg 0x1500 0x0E != 5) (set 0x1500 0x0E 0),
  onMemory fun m => { m with retraining := none },
  endMaintenance,
  endSession Status.aborted 0]

/-- The shutdown of R404: every lane sends one DARK latch, and the outputs are dark from it on. -/
def shutDown : Effect := .all [
  endForShutdown,
  sendDarkLatches,
  set 0x1001 4 FaultCode.shutdown,
  enterMode Mode.shutdown Cause.shutdown]

/-- SHUTDOWN (R401, R404, R408, R446): at 115 °C. In VIGIL the mode stays; while CORE is held the request waits in
AON. -/
def execShutdown (s : State) : Host.Outcome State Fault Refusal :=
  perform (Effect.when (1840 ≤ s.int 16 0x1200 3 && !s.flag 0x1200 4 2) (.all [
    setBit 0x1200 4 2 true, raise 401 2, countField 0x1204 1 31 16, almanac 6 3,
    if s.hid.reset.coreHeld then onHeat fun h => { h with shutdownWaits := true }
    else Effect.when (!([0, 1, 9].contains s.mode) && s.up .core) shutDown])) s

/-- HARDWARE_TRIP (R407): the outputs go dark at once, and a thermal cold reset is asserted. The comparator of a sensor
broken as open or short is disarmed. -/
def execHardwareTrip (source : Nat) (s : State) : Host.Outcome State Fault Refusal :=
  let armed := if source < 12 then field (s.reg 0x1203 2) (2 * source + 1) (2 * source) != 1
    else 16 ≤ source && source < 20
  perform (Effect.when armed (.all [
    set 0x1205 1 source,
    darkOutputs,
    hidden fun h => { h with scan := { h.scan with running := false } },
    onReset fun r => { r with tripped := true },
    assertReset 9])) s

end Sys2Proof.Machine
end

