-- ==== Sys2Proof/Machine/Derate.lean ====
section
/-! DEFINITION. Panel diodes and derating (R284, R351, R352). -/

namespace Sys2Proof.Machine

/-- A panel diode shows as broken (R351). -/
def State.diodeBroken (s : State) (d : Nat) : Bool := s.flag 0x5000 0x0A d

/-- A diode's own temperature: the mean of its last 16 valid samples, rounded down to 1/16 °C. -/
def DiodeState.mean (x : DiodeState) : Int := x.samples.foldl (· + ·) 0 / max 1 x.samples.length

/-- The panel temperature of a diode, substitute included (R351). -/
def State.panelTemp (s : State) (d : Nat) : Int :=
  let at' (i : Nat) : Int := (s.hid.scan.diodes.getD i DiodeState.initial).mean
  if !s.diodeBroken d then at' d
  else match ((List.range 4).filter fun i => !s.diodeBroken i).map at' with
    | [] => s.int 16 0x5000 6
    | t :: ts => ts.foldl max t + 80

/-- 5000h.09 shows the panel temperatures. -/
def showPanelTemps : Effect := setBy 0x5000 9 fun s =>
  natLE ((List.range 4).flatMap fun d => bytesLE 2 (ofSigned 16 (s.panelTemp d)))

/-- A diode takes one sample (R351). -/
def DiodeState.sample (x : DiodeState) (reading : Option Int) : DiodeState :=
  match reading with
  | some v => if -640 ≤ v && v ≤ 2400
      then { x with samples := (x.samples ++ [v]).drop (x.samples.length - 15), bad := 0, good := x.good + 1 }
      else { x with bad := x.bad + 1, good := 0 }
  | none => { x with bad := x.bad + 1, good := 0 }

/-- A diode's state changes: an event and a count, but for its first change to good (R351). -/
def diodeChanges (d : Nat) (broken first : Bool) : Effect := .seq (setBit 0x5000 0x0A d broken)
  (Effect.when (!first) (.all [raise 351 d, count 32 0x5000 0x0C, almanac 5 6]))

/-- DIODE_SAMPLE (R351): once every millisecond, from SCAN release on. -/
def execDiodeSample (d : Nat) (reading : Option Int) (s : State) : Host.Outcome State Fault Refusal :=
  let x := (s.hid.scan.diodes.getD d DiodeState.initial).sample reading
  perform (Effect.when (s.isTile && s.up .scan && d < 4) (.all [
    onScan fun c => { c with diodes := setAt c.diodes d { x with known := x.known || 16 ≤ x.good } },
    if s.diodeBroken d then Effect.when (16 ≤ x.good) (diodeChanges d false (!x.known))
    else Effect.when (4 ≤ x.bad) (diodeChanges d true false),
    showPanelTemps])) s

/-- The target factor of a region at a panel temperature (R352), with the entries of a configuration. -/
def State.derateTarget (c : State) (td : Int) : Nat :=
  let above := td - c.int 16 0x5000 3
  if above ≤ 0 then 65536
  else max (c.reg 0x5000 5) ((65536 : Rat) * (1 - (c.reg 0x5000 4 : Rat) * above / 160000)).floor.toNat

/-- The greatest change of a factor in one tick (R352). -/
def State.derateStep (c : State) : Nat := max 1 (655 * c.configPeriod / 100000000).floor.toNat

/-- A factor moves toward its target. -/
def approach (f target step : Nat) : Nat := if f ≤ target then min target (f + step) else max target (f - step)

/-- Td of tick n: what was taken last, or before that for a tick that is still shown (R284). -/
def State.tdsFor (s : State) (n : Nat) : List Int := if s.hid.scan.tdTick ≤ n then s.hid.scan.tds else s.hid.scan.tdsBefore

/-- The derate factors of tick n (R352). -/
def State.factorsFor (s : State) (n : Nat) : List Nat :=
  if s.hid.scan.tdTick ≤ n then s.hid.scan.derateNow else s.hid.scan.derateBefore

/-- Td and the derate factors of tick n at LT(n) − P; those of the tick before stay for its slots (R284, R352). -/
def derateTick (n : Nat) : Effect := .look fun s =>
  let c := s.configAt n
  let tds := (List.range 4).map s.panelTemp
  let targets := tds.map c.derateTarget
  let now := List.zipWith (fun f t => approach f t c.derateStep) s.hid.scan.derateNow targets
  .seq (onScan fun x => { x with
      tds := tds, tdsBefore := x.tds, tdTick := n, targets := targets, derateNow := now, derateBefore := x.derateNow })
    (Effect.each (fun r => setBit 0x5000 0x0A (4 + r) (now.getD r 0 != targets.getD r 0)) (List.range 4))

/-- The factors of tick n take effect at the latch of its S0 (R352). -/
def showDerate (n : Nat) : Effect := setBy 0x5000 8 fun s =>
  natLE ((s.factorsFor n).flatMap fun f => bytesLE 2 (min 65535 f))

end Sys2Proof.Machine
end

