-- ==== Sys2Proof/Machine/Analysis.lean ====
section
/-! DEFINITION. The real functions that the spec names (R215, R259, R270), on rationals: powers, the exponential and the sine,
each cut to 96 binary places (DESIGN CHOICE, log 10). -/

namespace Sys2Proof.Machine

/-- The nearest integer, a tie to even. -/
def nearestEven (q : Rat) : Int :=
  let n := q.floor
  let f := q - n
  if f < 1 / 2 then n else if 1 / 2 < f then n + 1 else if n % 2 = 0 then n else n + 1

/-- 2^e for a signed exponent. -/
def powTwo (e : Int) : Rat := if 0 ≤ e then ((2 ^ e.toNat : Nat) : Rat) else 1 / ((2 ^ (-e).toNat : Nat) : Rat)

/-- The exponent of a positive rational: 2^e ≤ q < 2^(e + 1). -/
def exponentOf (q : Rat) : Int :=
  let e : Int := (Nat.log2 q.num.natAbs : Int) - Nat.log2 q.den
  if powTwo e ≤ q then e else e - 1

/-- A rational cut to 96 binary places. -/
def cut (q : Rat) : Rat := (q * 2 ^ 96).floor / 2 ^ 96

/-- The sum of n terms of a series: the k-th is the one before it times ratio k. -/
def series (ratio : Nat → Rat) : (n k : Nat) → (term : Rat) → Rat
  | 0, _, _ => 0
  | n + 1, k, term => term + series ratio n (k + 1) (cut (term * ratio (k + 1)))

/-- The sum of x^(2k + 1) / (2k + 1), signed by s: the inverse tangent for −1, the inverse hyperbolic one for 1; |x| ≤ 1/3. -/
def oddSum (s x : Rat) : Rat :=
  ((List.range 36).foldl (fun (q : Rat × Rat) k => (q.1 + cut (q.2 / (2 * k + 1 : Nat)), cut (q.2 * (s * x * x))))
    ((0 : Rat), cut x)).1

/-- ln 2 and π. -/
def lnTwo : Rat := 2 * oddSum 1 (1 / 3)
def piValue : Rat := 16 * oddSum (-1) (1 / 5) - 4 * oddSum (-1) (1 / 239)

/-- The natural logarithm of a positive rational. -/
def lnOf (q : Rat) : Rat :=
  let e := exponentOf q
  let m := q / powTwo e
  e * lnTwo + 2 * oddSum 1 ((m - 1) / (m + 1))

/-- The exponential function. -/
def expOf (q : Rat) : Rat :=
  let n := roundRat (q / lnTwo)
  let r := cut (q - n * lnTwo)
  powTwo n * series (fun k => r / k) 28 0 1

/-- A power of a rational; of one that is not positive, 0. -/
def powOf (q a : Rat) : Rat := if q ≤ 0 then 0 else expOf (a * lnOf q)

/-- sin(π·t). -/
def sinPi (t : Rat) : Rat :=
  let r := cut ((t - 2 * (t / 2 + 1 / 2).floor) * piValue)
  series (fun k => -(r * r) / ((2 * k) * (2 * k + 1) : Nat)) 32 0 r

/-- sinc(t) = sin(π·t) / (π·t), and 1 at 0. -/
def sinc (t : Rat) : Rat := if t = 0 then 1 else sinPi t / (piValue * t)

/-! The transfer functions of R215, with 1.0 as the table has it. The constants are those of the standards that it names
(PRESUMED, log 10). -/

/-- m1, m2, c1, c2 and c3 of PQ (SMPTE ST 2084). -/
def pqM1 : Rat := 2610 / 16384
def pqM2 : Rat := 2523 / 32
def pqC1 : Rat := 3424 / 4096
def pqC2 : Rat := 2413 / 128
def pqC3 : Rat := 2392 / 128

/-- a, b and c of HLG (ITU-R BT.2100). -/
def hlgA : Rat := 17883277 / 100000000
def hlgB : Rat := 1 - 4 * hlgA
def hlgC : Rat := 1 / 2 - hlgA * lnOf (4 * hlgA)

/-- The inverse OETF of HLG. -/
def hlgLinear (v : Rat) : Rat :=
  if v ≤ 0 then 0 else if v ≤ 1 / 2 then v * v / 3 else (expOf ((v - hlgC) / hlgA) + hlgB) / 12

/-- One component made linear by a transfer function that works on each component alone (R215). -/
def linearOf (code : Nat) (v : Rat) : Rat :=
  match code with
  | 0 => v
  | 1 => powOf v (12 / 5)
  | 2 => if v ≤ 4045 / 100000 then v / (323 / 25) else powOf ((v + 11 / 200) / (211 / 200)) (12 / 5)
  | 3 =>
    let e := powOf v (1 / pqM2)
    powOf (max 0 (e - pqC1) / (pqC2 - pqC3 * e)) (1 / pqM1)
  | 4 => hlgLinear v
  | _ => powOf v (13 / 5)

/-- One component encoded by a transfer function that a preview output may have (R270, R280). -/
def encodedBy (code : Nat) (v : Rat) : Rat :=
  match code with
  | 1 => powOf v (5 / 12)
  | 2 => if v ≤ 31308 / 10000000 then 323 / 25 * v else 211 / 200 * powOf v (5 / 12) - 11 / 200
  | _ =>
    let p := powOf v pqM1
    powOf ((pqC1 + pqC2 * p) / (1 + pqC3 * p)) pqM2

end Sys2Proof.Machine
end

