-- ==== Sys2Proof/Machine/Pixels.lean ====
section
/-! DEFINITION. Pixels: binary16 values, LFC blocks (R253, R254), the scaler (R258, R259), blending (R262) and the colour
steps (R282, R283), with sums rounded to IEEE 754 binary32. -/

namespace Sys2Proof.Machine

/-- A rational rounded to binary32: 24 significant bits, to nearest with ties to even (PRESUMED, log 20). -/
def f32 (q : Rat) : Rat :=
  if q = 0 then 0
  else
    let u := powTwo (max (exponentOf |q| - 23) (-149))
    nearestEven (q / u) * u

/-- The value of a binary16 pattern; an infinity is taken as 65536 and a NaN as 0 (DESIGN CHOICE, log 20). -/
def half (v : Nat) : Rat :=
  let e := field v 14 10
  let m := field v 9 0
  let a : Rat := if e = 31 then (if m = 0 then 65536 else 0)
    else if e = 0 then (m : Rat) / 2 ^ 24 else ((1024 + m : Nat) : Rat) * powTwo ((e : Int) - 25)
  if bitAt v 15 then -a else a

/-- The binary16 pattern of a rational in linear light: a negative one is stored as 0, one above the greatest finite value
as the infinity (R214; rounding PRESUMED, log 20). -/
def halfOf (q : Rat) : Nat :=
  if q ≤ 0 then 0
  else
    let e := max (exponentOf q) (-14)
    let m := (nearestEven (q / powTwo (e - 10))).toNat
    min 0x7C00 (((e + 14) * 1024).toNat + m)

/-- A pixel or a colour: three channels. -/
structure Rgb where
  r : Rat
  g : Rat
  b : Rat
  deriving DecidableEq, Repr

/-- A function on every channel. -/
def Rgb.map (f : Rat → Rat) (c : Rgb) : Rgb := ⟨f c.r, f c.g, f c.b⟩

/-- A function on the channels of two colours. -/
def Rgb.zip (f : Rat → Rat → Rat) (c d : Rgb) : Rgb := ⟨f c.r d.r, f c.g d.g, f c.b d.b⟩

/-- A colour of three binary16 patterns, red lowest (R214, R266). -/
def rgbOf (bs : List Byte) : Rgb := ⟨half (natLE (bs.take 2)), half (natLE (slice bs 2 2)), half (natLE (slice bs 4 2))⟩

/-- The colour of an entry coded as 4100h.02 (R275). -/
def rgbEntry (v : Nat) : Rgb := ⟨half (field v 47 32), half (field v 31 16), half (field v 15 0)⟩

/-! LFC blocks (R253, R254). -/

/-- kR, kG and kB of a rate. -/
def channelBits (rate : Nat) : List Nat := if rate = 12 then [3, 4, 3] else if rate = 16 then [5, 5, 4] else [7, 8, 7]

/-- The code of RATE in a block. -/
def rateCode (rate : Nat) : Nat := if rate = 12 then 1 else if rate = 16 then 2 else 3

/-- Minimum and shift of a channel: red, green, blue. -/
def blockMin (v c : Nat) : Nat := field v (21 + 19 * c) (7 + 19 * c)
def blockShift (v c : Nat) : Nat := field v (25 + 19 * c) (22 + 19 * c)

/-- A block is valid for a rate. -/
def blockValid (rate v : Nat) : Bool :=
  field v 5 4 == rateCode rate && !bitAt v 6 && (List.range 3).all fun c => blockMin v c ≤ 0x7BFF

/-- Where the field of channel c of pixel p begins. -/
def sampleAt (rate p c : Nat) : Nat :=
  let k := channelBits rate
  64 + p * k.foldl (· + ·) 0 + (k.take c).foldl (· + ·) 0

/-- The binary16 code of channel c of pixel p (R254). -/
def blockCode (rate v p c : Nat) : Nat :=
  let k := (channelBits rate).getD c 0
  min (blockMin v c + v / 2 ^ sampleAt rate p c % 2 ^ k * 2 ^ blockShift v c) 0x7BFF

/-- The pixel p of a block (R254). -/
def blockPixel (rate v p : Nat) : Rgb :=
  ⟨half (blockCode rate v p 0), half (blockCode rate v p 1), half (blockCode rate v p 2)⟩

/-- A channel's codes as minimum, shift and fields (R254). -/
def encodeChannel (k : Nat) (codes : List Nat) : Nat × Nat × List Nat :=
  let cs := codes.map (min 0x7BFF)
  let m := cs.foldl min 0x7BFF
  let top := cs.foldl max 0
  let sh := ((List.range 16).find? fun s => top - m ≤ (2 ^ k - 1) * 2 ^ s).getD 15
  let h := if sh = 0 then 0 else 2 ^ (sh - 1)
  (m, sh, cs.map fun c => min ((c - m + h) / 2 ^ sh) (2 ^ k - 1))

/-- A block of 32 pixels, each three codes (R253, R254). -/
def encodeBlock (rate gen : Nat) (pixels : List (List Nat)) : List Byte :=
  let ch := (List.range 3).map fun c => encodeChannel ((channelBits rate).getD c 0) (pixels.map fun p => p.getD c 0)
  let head := (List.range 3).foldl (fun v c =>
    let q := ch.getD c (0, 0, [])
    v + q.1 * 2 ^ (7 + 19 * c) + q.2.1 * 2 ^ (22 + 19 * c)) (gen % 16 + rateCode rate * 16)
  let body := (List.range 32).foldl (fun v p => (List.range 3).foldl (fun v c =>
    v + (ch.getD c (0, 0, [])).2.2.getD p 0 * 2 ^ sampleAt rate p c) v) 0
  bytesLE (blockBytes rate) (head + body)

/-! The scaler (R258, R259). -/

/-- The Mitchell–Netravali cubic. -/
def cubic (b c t : Rat) : Rat :=
  let t := |t|
  if t < 1 then ((12 - 9 * b - 6 * c) * t ^ 3 + (-18 + 12 * b + 6 * c) * t ^ 2 + (6 - 2 * b)) / 6
  else if t < 2 then ((-b - 6 * c) * t ^ 3 + (6 * b + 30 * c) * t ^ 2 + (-12 * b - 48 * c) * t + (8 * b + 24 * c)) / 6
  else 0

/-- The kernel of an axis (R259); custom gives the table of the layer. -/
def kernel (custom : Nat → Int) (taps filter : Nat) (t : Rat) : Rat :=
  if filter = 2 then (if |t| < (taps : Rat) / 2 then (custom ((t + 4) * 64).floor.toNat : Rat) / 16384 else 0)
  else if taps = 1 then (if -(1 / 2) ≤ t && t < 1 / 2 then 1 else 0)
  else if (taps : Rat) / 2 ≤ |t| then 0
  else if taps = 2 then 1 - |t|
  else if taps = 4 then (if filter = 0 then cubic 0 (1 / 2) t else cubic 1 0 t)
  else if filter = 0 then sinc t * sinc (t / 4)
  else expOf (-(t * t) / 2)

/-- The remainder of rounding goes to the largest weight, the first of equals. -/
def settleWeights (ws : List (Int × Int)) : List (Int × Int) :=
  let total := ws.foldl (fun n w => n + w.2) 0
  let big := ws.foldl (fun m w => max m w.2) 0
  match ws.findIdx? fun w => w.2 == big with
  | some i => updateAt ws i fun w => (w.1, w.2 + (16384 - total))
  | none => ws

/-- The source pixels that may lie within reach of a position. -/
def tapRange (u reach : Rat) : List Int :=
  (List.range ((u + reach).floor - (u - reach).ceil + 1).toNat).map fun i => (u - reach).ceil + (i : Int)

/-- A source pixel at distance d from the position, t in kernel units, is a tap: the nearest kernel takes its half-open
interval (R259), every other one the strict limit (R258). -/
def tapIn (taps filter : Nat) (reach d t : Rat) : Bool :=
  if taps = 1 && filter != 2 then decide (-(1 / 2) ≤ t) && decide (t < 1 / 2) else decide (|d| < reach)

/-- The weights of one axis for a destination coordinate: source pixels, clamped to the source, with weights of s1.14
that sum to 16,384. Where no tap lies inside the limits, the nearest kernel's pixel counts alone. -/
def axisWeights (custom : Nat → Int) (taps filter : Nat) (src size dst dsize : Int) (x : Int) : List (Int × Int) :=
  let s : Rat := (size : Rat) / (dsize : Rat)
  let a : Rat := max 1 s
  let u : Rat := (src : Rat) + ((x - dst : Int) + (1 : Rat) / 2) * s - (1 : Rat) / 2
  let reach : Rat := a * (taps : Rat) / 2
  let raw := (tapRange u reach).filterMap fun i : Int =>
    let t : Rat := ((i : Rat) - u) / a
    if tapIn taps filter reach ((i : Rat) - u) t then some (i, kernel custom taps filter t) else none
  let total : Rat := raw.foldl (fun (n : Rat) w => n + w.2) 0
  settleWeights (raw.map fun w =>
    (max src (min (src + size - 1) w.1), roundRat (w.2 / (if total = 0 then 1 else total) * 16384)))

/-- A weighted sum in binary32, in ascending order of the taps. -/
def weighted (l : List (Rgb × Int)) : Rgb :=
  l.foldl (fun acc q => acc.zip (fun a v => f32 (a + f32 ((q.2 : Rat) / 16384 * v))) q.1) ⟨0, 0, 0⟩

/-- A scaled value from a pixel function that may be transparent: transparent where any pixel that the taps read is. -/
def scaled (pixel : Int → Int → Option Rgb) (xs ys : List (Int × Int)) : Option Rgb :=
  let rows := ys.map fun y => (xs.mapM fun x => (pixel x.1 y.1).map fun c => (c, x.2)).map fun l => (weighted l, y.2)
  (rows.mapM id).map weighted

/-! Blending and colour (R262, R282, R283). -/

/-- One layer blended over what lies below it (R262). -/
def blend (mode : Nat) (alpha : Rat) (v acc : Rgb) : Rgb :=
  match mode with
  | 0 => v.zip (fun a b => f32 (f32 (alpha * a) + f32 (f32 (1 - alpha) * b))) acc
  | 1 => v.zip (fun a b => f32 (b + f32 (alpha * a))) acc
  | _ => v

/-- The blended value brought inside 0 to 65504. -/
def Rgb.clamped (c : Rgb) : Rgb := c.map fun x => max 0 (min 65504 x)

/-- A row of a matrix times a colour, in binary32. -/
def rowTimes (row : List Rat) (c : Rgb) : Rat :=
  f32 (f32 (f32 (row.getD 0 0 * c.r) + f32 (row.getD 1 0 * c.g)) + f32 (row.getD 2 0 * c.b))

/-- A row-major 3 × 3 matrix times a colour. -/
def matrixTimes (m : List Rat) (c : Rgb) : Rgb :=
  ⟨rowTimes (m.take 3) c, rowTimes (slice m 3 3) c, rowTimes (slice m 6 3) c⟩

/-- Nine FIX16 of DOMAIN content (R283). -/
def State.fixMatrix (s : State) (index sub : Nat) : List Rat := (List.range 9).map fun i =>
  f32 ((toSigned 32 (s.contentWord index sub (4 * i) 4) : Rat) / 65536)

/-- Row k of the binning matrix of pixel p, from the bank in effect or the identity (R283). -/
def State.binningRow (s : State) (bank p k : Nat) : List Rat :=
  if bank = 0xFF then (List.range 3).map fun j => if j = k then 1 else 0
  else (List.range 3).map fun j =>
    (toSigned 16 (s.word (Space.banks.at (bank * 2 ^ 24) + 6 * s.lambda * p + 6 * k + 2 * j) 2) : Rat) / 16384

/-- Gain and temperature coefficient of a lamp (R283). -/
def State.lampGain (s : State) (bank l : Nat) : Rat × Rat :=
  if bank = 0xFF then (1, 0)
  else
    let a := Space.banks.at ((2 + bank) * 2 ^ 24) + 4 * l
    ((s.word a 2 : Rat) / 32768, (toSigned 16 (s.word (a + 2) 2) : Rat) / 2 ^ 20)

/-- Steps 1 to 3 for lamp l, row k of pixel p, of a view at a panel temperature: y before its clamp (R282). -/
def State.lampValue (s : State) (view : Nat) (p k l : Nat) (td : Int) (v : Rgb) : Rat :=
  let x := rowTimes (s.binningRow (s.reg 0x4201 1) p k) (matrixTimes (s.fixMatrix (0x4210 + view) 2) v)
  let g := s.lampGain (s.reg 0x4201 2) l
  f32 (f32 (x * g.1) * f32 (1 + f32 (g.2 * ((td - s.int 16 0x4200 2 : Int) : Rat) / 16)))

/-- D of a lamp (R282). -/
def driveOf (y : Rat) : Nat := (roundRat (f32 (max 0 (min 1 y) * 65535))).toNat

end Sys2Proof.Machine
end

