-- ==== Sys2Proof/Machine/Placement.lean ====
section
/-! DEFINITION. Where a tile keeps each kind of data in memory (R29, R376), and the words of it that are poisoned (R391). Inside a
kind, the order of its parts is the model's (DESIGN CHOICE, log 106). -/

namespace Sys2Proof.Machine

/-- The payload address at which a kind starts (R376). -/
def State.kindStart (s : State) (k : Nat) : Option Nat := s.placement.bind fun p => lookupKey p.starts k

/-- Some 16-byte word that holds one of n bytes from an offset of a kind is poisoned. -/
def State.kindPoisoned (s : State) (k offset n : Nat) : Bool :=
  !s.hid.memory.poison.isEmpty && match s.kindStart k with
    | some a => (List.range (n / 16 + 2)).any fun i =>
        let w := (a + offset) / 16 * 16 + 16 * i
        w < a + offset + n && s.poisoned w
    | none => false

/-- n bytes from an offset of a kind are written, as a configuration places it: the words written whole lose their poison. -/
def mendKind (c : State) (k offset n : Nat) : Effect := Effect.ofOption (c.kindStart k) fun a => clearPoison (a + offset) n

/-- The layers and views for which a configuration fixes U(n), as stream numbers, ascending (R252). -/
def State.composedKeys (c : State) : List Nat := (List.range 8).flatMap fun x =>
  if (c.layerWindow x).isSome then (c.layerViews x).map fun y => 8 * x + y else []

/-- The bytes of a window bank of a key (R249). -/
def State.bankBytes (c : State) (key : Nat) : Nat :=
  ((c.layerWindow (key / 8)).map fun w => w.bytes (c.layer (key / 8)).rate).getD 0

/-- Where a window bank of a key lies in kind 0: three banks a key, by ascending key (R249). -/
def State.bankOffset (c : State) (key bank : Nat) : Nat :=
  ((c.composedKeys.filter (· < key)).map fun k => 3 * c.bankBytes k).sum + bank * c.bankBytes key

/-- Where a bank of the binning table, and of the lamp table, lies in kind 1. -/
def State.binningOffset (c : State) (bank : Nat) : Nat := bank * (c.regionW * c.regionH * c.bytesPerPixel)
def State.lampOffset (c : State) (bank : Nat) : Nat := 2 * (c.regionW * c.regionH * c.bytesPerPixel) + bank * 4 * c.lampCount

/-- Where a drive image lies in kind 2: two banks a view, by ascending view. -/
def State.imageOffset (c : State) (v bank : Nat) : Nat := (2 * c.viewsEither.idxOf v + bank) * 2 * c.lampCount

/-- Where the upload buffer lies in kind 4, after the lamp map. -/
def uploadOffset (o : Nat) : Nat := 90176 + o

/-- Where offset o of bank b of table t lies in kind 1. -/
def State.tableOffset (c : State) (t b o : Nat) : Nat := (if t = 0 then c.binningOffset b else c.lampOffset b) + o

/-- A poisoned word of a table in effect covers pixel p, or a lamp of it (R391). -/
def State.tablePoisoned (c : State) (p : Nat) : Bool :=
  (c.reg 0x4201 1 != 0xFF && c.kindPoisoned 1 (c.tableOffset 0 (c.reg 0x4201 1) (c.bytesPerPixel * p)) c.bytesPerPixel) ||
    (c.reg 0x4201 2 != 0xFF && c.kindPoisoned 1 (c.tableOffset 1 (c.reg 0x4201 2) (4 * c.lambda * p)) (4 * c.lambda))

/-- The mapping of an enabled region (R374). -/
def State.mappingOf (s : State) (i : Nat) : List Nat :=
  if s.regionOn i then (List.range' 2 5).map (s.reg (0x3010 + i)) else []

/-- A commit has changed a region, or the placement. -/
def State.remaps (s c : State) : Bool :=
  s.reg 0x3020 1 != c.reg 0x3020 1 || (List.range 8).any fun i => s.mappingOf i != c.mappingOf i

/-- A kind lies elsewhere in a configuration. -/
def State.kindMoves (s c : State) (k : Nat) : Bool :=
  s.kindStart k != c.kindStart k || s.mappingOf (s.kindRegion k) != c.mappingOf (c.kindRegion k)

/-- The payload that lies elsewhere once a region is mapped otherwise is as if nothing had written it (R392; log 107). -/
def remapRegion (before : State) (i : Nat) : Effect := .look fun s => Effect.when (before.mappingOf i != s.mappingOf i) (.seq
  (eraseAt (Space.payload.at (before.reg (0x3010 + i) 2)) (if before.regionOn i then before.reg (0x3010 + i) 3 else 0))
  (eraseAt (Space.payload.at (s.reg (0x3010 + i) 2)) (if s.regionOn i then s.reg (0x3010 + i) 3 else 0)))

/-- What a tile holds of a kind that lies elsewhere is as if nothing had written it (R392; log 107). -/
def moveKind (k : Nat) : Effect := match k with
  | 0 => onCompose fun x => { x with fresh := [], current := [], previous := [] }
  | 1 => .seq (eraseAt (Space.banks.at 0) (4 * 2 ^ 24)) (setField 0x4201 3 7 0 0)
  | 2 => onCompose fun x => { x with images := [], older := [] }
  | 3 => .all [eraseAt (Space.capture.at 0) (2 ^ 56), set 0x4180 7 0, onCompose fun x => { x with captureFull := 0 }]
  | 4 => .seq (eraseAt (Space.lampMap.at 0) 90176) (eraseAt (Space.upload.at 0) 24576)
  | 5 => onCompose fun x => { x with streams := [] }
  | _ => .nothing

/-- A commit that changes regions or placement (R392). -/
def followRegions (before : State) : Effect := .look fun s =>
  if s.isSender then Effect.each (remapRegion before) (List.range 8)
  else Effect.when (before.remaps s)
    (Effect.each (fun k => Effect.when (before.kindMoves s k && before.kindSize k != 0) (moveKind k)) (List.range 7))

end Sys2Proof.Machine
end

