-- ==== Sys2Proof/Machine/Receive.lean ====
section
/-! DEFINITION. The receive path of a tile (R176, R234, R235, R250, R251, R263): QUEUE cells, the messages that they make,
and layer windows. -/

namespace Sys2Proof.Machine

/-- The tick to which a tile maps the LT of a timed cell (R176). -/
def State.tickOf (s : State) (lt : Nat) : Nat :=
  ((s.tick : Int) + roundRat ((lt32Diff lt (s.lt s.tick) : Rat) / s.period)).toNat

/-- A cell as a run of one. -/
def runOf (c : Cell) : Gathering := ⟨c.seq, c.seq, c.first, c.last, c.lt, c.src, c.body.take c.len⟩

/-- A run stands right before another one of the same message. -/
def Gathering.before (a b : Gathering) : Bool := (a.stop + 1) % 2 ^ 32 == b.start && !a.last && !b.first

/-- Two runs as one. -/
def Gathering.join (a b : Gathering) : Gathering := { a with stop := b.stop, last := b.last, bytes := a.bytes ++ b.bytes }

/-- A run joined with those of its stream that it touches, and the runs that remain. -/
def gatherRun (stream : Nat) (g : Gathering) (l : List (Nat × Gathering)) : Gathering × List (Nat × Gathering) :=
  let (g, l) := match takeFirst (fun q => q.1 == stream && q.2.before g) l with
    | some (q, r) => (q.2.join g, r)
    | none => (g, l)
  match takeFirst (fun q => q.1 == stream && g.before q.2) l with
  | some (q, r) => (g.join q.2, r)
  | none => (g, l)

/-- A run lacks a cell that its discard window would refuse as too old, so its message cannot become complete (R149). -/
def Gathering.hopeless (g : Gathering) (high : Nat) : Bool :=
  (!g.first && 4096 ≤ lt32Diff high (g.start - 1)) || (!g.last && 4096 ≤ lt32Diff high (g.stop + 1))

/-- A cell joins the message that it belongs to; a message from FIRST to LAST with consecutive SEQ is complete (R250). -/
def gatherCell (stream : Nat) (c : Cell) : Effect := .look fun s =>
  let (g, l) := gatherRun stream (runOf c) s.hid.compose.gathering
  let high := ((lookupKey s.hid.pair.windows stream).map Window.high).getD c.seq
  let l := l.filter fun q => !(q.1 == stream && q.2.hopeless high)
  onCompose fun x => if g.first && g.last
    then { x with gathering := l, messages := x.messages ++ [⟨stream, g.bytes, g.lt, g.src⟩] }
    else { x with gathering := l ++ [(stream, g)] }

/-- A layer's DISCARD count (R250, R267, R278). -/
def countDiscard (x : Nat) : Effect := countField (layerIndex x) 0x10 15 0

/-- A cell of a layer that is not direct (R176, R250). A cell without LT, or before the tile has a grid, belongs to no
tick. -/
def layerCell (stream : Nat) (c : Cell) : Effect := .look fun s =>
  let x := stream / 8
  let d := lt32Diff c.lt s.lt32
  if !c.timed || !s.stepped then countDiscard x
  else if s.moreThanP d 4 then count 32 0x1302 0x0A
  else if !s.moreThanP d 1 then countDiscard x
  else gatherCell stream c

/-- A configuration takes windows of a stream: its layer is enabled and its view in the mask (R250). -/
def State.takesWindows (c : State) (stream : Nat) : Bool :=
  c.layerOn (stream / 8) && (c.layerViews (stream / 8)).contains (stream % 8)

/-- The mover of a stream, the table loader or the firmware mover, is frozen, and the receive queue of 64 KiB is full (R90,
R291). -/
def State.queueFull (s : State) (stream : Nat) (c : Cell) : Bool :=
  ((64 ≤ stream && stream < 128 && s.frozen 1) || (192 ≤ stream && stream < 256 && s.frozen 10)) &&
    65536 < c.len + (s.hid.compose.gathering.filter fun q => q.1 == stream).foldl (fun n q => n + q.2.bytes.length) 0 +
      (s.hid.compose.messages.filter fun m => m.stream == stream).foldl (fun n m => n + m.bytes.length) 0

/-- A table message or cell is dropped with an error (R291). -/
def dropTable (error : Nat) : Effect := .seq (count 32 0x4204 2) (set 0x4204 3 error)

/-- A cell taken by the tile goes to its stream (R28, R235, R250, R263). In VIGIL the ROM takes what a session needs: DOMAIN
content and firmware blocks (R461). A firmware cell that does not fit is counted as a table cell is (R90; DEDUCED, log 86). -/
def deliverCell (c : Cell) : Effect := .look fun s =>
  let stream := c.queue % 512
  let x := stream / 8
  .seq (onCompose fun t => { t with
      taken := insertKey t.taken stream (satInc 32 ((lookupKey t.taken stream).getD 0)) })
    (if s.mode = Mode.freeze then .seq (count 32 0x1644 0x0B)
        (onCounts fun t => { t with underruns := t.underruns + 1 })
      else if !s.up .pipe then Effect.when (s.mode == Mode.vigil && 128 ≤ stream && stream < 256) (gatherCell stream c)
      else if stream < 64 && !(x == 7 && s.layerDirect 7) then layerCell stream c
      else if s.queueFull stream c then (if stream < 128 then dropTable 5 else count 32 0x4204 2)
      else gatherCell stream c)

/-- QUEUE_CELL_RECEIVE (R149 to R152): the oldest QUEUE cell that the part has taken from its ports. A gateway gathers the
content of a DOMAIN_READ (R132). -/
def execQueueCellReceive (s : State) : Host.Outcome State Fault Refusal :=
  perform (withCell (fun c => c.kind == 1) fun _ c =>
    if s.isTile then throughWindow c (deliverCell c) else gatherCell (c.queue % 512) c) s

/-- An effect on the oldest complete message of a stream. -/
def withMessage (stream : Nat) (f : Message → Effect) : Effect := .look fun s =>
  Effect.ofOption (takeFirst (fun m => m.stream == stream) s.hid.compose.messages) fun q =>
    .seq (onCompose fun c => { c with messages := q.2 }) (f q.1)

/-! Windows (R231, R251). -/

/-- A field of a window's descriptor. -/
def descField (d : List Byte) (o n : Nat) : Nat := natLE (slice d o n)

/-- FLAGS of a descriptor. -/
def descStale (d : List Byte) : Bool := bitAt (descField d 3 1) 0
def descLost (d : List Byte) : Bool := bitAt (descField d 3 1) 1
def descClear (d : List Byte) : Bool := bitAt (descField d 3 1) 2

/-- A descriptor matches the tile's own computation (R251). The blocks must fill the window, or there are none with
CLEAR (DEDUCED, log 21). -/
def State.windowMatches (c : State) (x y : Nat) (d : List Byte) : Bool :=
  match c.layerWindow x with
  | none => false
  | some w =>
    let g := c.layer x
    descField d 0 1 == g.rate && descField d 1 1 == x && descField d 2 1 == y && (descField d 12 2 : Int) == w.x0 &&
      (descField d 14 2 : Int) == w.y0 && descField d 16 2 == w.wb && descField d 18 2 == w.hb &&
      descField d 20 2 == g.sw && descField d 22 2 == g.sh &&
      descField d 24 4 == if descClear d then 0 else w.wb * w.hb * blockBytes g.rate

/-- The first of a key's three banks in which no window of it is kept (R249, R250). -/
def State.freeBank (s : State) (key : Nat) : Nat :=
  let used := ((s.hid.compose.current ++ s.hid.compose.previous ++ s.hid.compose.fresh).filter fun q => q.1 == key).map fun q => q.2.bank
  ((List.range 3).find? fun b => !used.contains b).getD 0

/-- A window that matches is kept for its tick, in a bank that neither the tick before nor the one before that uses
(R250). One with FLAGS 0 counts as a window (R256; log 102). -/
def keepWindow (stream tick : Nat) (bytes : List Byte) : Effect := .look fun s => .all [
  Effect.when (descField bytes 3 1 == 0) (countField (layerIndex (stream / 8)) 0x10 63 32),
  let c := s.configAt tick
  mendKind c 0 (c.bankOffset stream (s.freeBank stream)) bytes.length,
  onCompose fun c => { c with
    fresh := c.fresh ++ [(stream, ⟨tick, s.freeBank stream, bytes.take 32, bytes.drop 32, false, []⟩)] }]

/-- A window that does not match (R251). -/
def mismatch (x : Nat) : Effect := .look fun s => .all [
  countField (layerIndex x) 0x10 31 16,
  almanac 1 5,
  Effect.when (s.hid.compose.mismatchTick != some s.tick) (raise 251 x),
  onCompose fun c => { c with mismatchTick := some s.tick }]

/-- WINDOW_COMPLETE (R250, R251): the oldest complete message of a layer stream. One whose bytes are not those that its
descriptor announces is no complete window, and one that its layer does not take is discarded and counted once. -/
def execWindowComplete (stream : Nat) (s : State) : Host.Outcome State Fault Refusal :=
  perform (Effect.when (s.isTile && s.up .pipe && stream < 64 && !(stream / 8 == 7 && s.layerDirect 7)) (withMessage stream fun m => .look fun s =>
    let n := s.tickOf m.lt
    Effect.when (!(s.hid.compose.tick.any (n ≤ ·)) && 32 ≤ m.bytes.length && m.bytes.length == 32 + descField m.bytes 24 4)
      (if !(s.configAt n).takesWindows stream then countDiscard (stream / 8)
        else if (s.configAt n).windowMatches (stream / 8) (stream % 8) m.bytes then keepWindow stream n m.bytes
        else mismatch (stream / 8)))) s

/-- HOST_STREAM_DELIVER (R234): a message of a stream 256 to 511 goes into its buffer of 64 KiB, or is dropped. -/
def execHostStreamDeliver (stream : Nat) (s : State) : Host.Outcome State Fault Refusal :=
  perform (Effect.when (s.isTile && 256 ≤ stream && stream < 512) (withMessage stream fun m =>
    if (s.hostStream stream).length + m.bytes.length ≤ 65536 then
      onCompose fun c => { c with streams := insertKey c.streams stream (s.hostStream stream ++ m.bytes) }
    else count 32 0x2210 4)) s

/-- A read of 2210h.05 consumes what it returns (R234). -/
def consumeStream (stream n : Nat) : Effect := onCompose fun c => { c with
  streams := insertKey c.streams stream (((lookupKey c.streams stream).getD []).drop n) }

/-- 2210h.06 (R241). -/
def clearReceiveCounters : Effect := .seq (onCompose fun c => { c with taken := [] }) (set 0x2210 4 0)

end Sys2Proof.Machine
end

