-- ==== Sys2Proof/Machine/Compose.lean ====
section
/-! DEFINITION. The compositor of a tile (R252 to R265), the direct layer's line store (R266, R267) and the capture ring. -/

namespace Sys2Proof.Machine

/-- The modes that compose (R263). -/
def composingModes : List Nat := [4, 6, 11]

/-- The banks of a key are released at LT(n) − P when its layer's geometry changes, the layer is or was off, or the view is not
in its mask (R249, R257). -/
def State.banksReleased (s c : State) (key : Nat) : Bool :=
  let x := key / 8
  let keeps (t : State) : Bool := t.layerOn x && !t.layerDirect x && (t.layerViews x).contains (key % 8)
  !keeps s || !keeps c || s.layer x != c.layer x || s.region != c.region

/-- A surface may repeat for a layer: of the same FORMAT, LW and LH (R256). -/
def State.repeats (c : State) (x : Nat) (u : Surface) : Bool :=
  let g := c.layer x
  descField u.descriptor 0 1 == g.rate && descField u.descriptor 20 2 == g.sw && descField u.descriptor 22 2 == g.sh

/-- U(n) of a key from the windows taken and U(n − 1), and whether the window is late or stale (R252, R256). -/
structure Chosen where
  key : Nat
  before : Option Surface
  shown : Option Surface
  late : Bool
  stale : Bool
  deriving DecidableEq, Repr

/-- The choice for one key at LT(n) − P. -/
def State.chooseSurface (s c : State) (n key : Nat) : Chosen :=
  let x := key / 8
  let old := if s.banksReleased c key then none else lookupKey s.hid.compose.current key
  match s.hid.compose.fresh.find? fun f => f.1 == key && f.2.tick == n with
  | some f => ⟨key, old, some f.2, false, (descStale f.2.descriptor || descLost f.2.descriptor) && !descClear f.2.descriptor⟩
  | none => ⟨key, old, old.filter (c.repeats x), true, true⟩

/-- A mask of layers from keys. -/
def layerBits (keys : List Nat) : Nat := keys.foldl (fun m k => withBit m (k / 8)) 0

/-- The counts of a tick's late layers, and of those that show a stale or lost window (R256, R278; log 102). -/
def countShown (late marked : Nat) : Effect := Effect.each (fun x => .seq
  (Effect.when (bitAt late x) (.seq (countField (layerIndex x) 0x11 63 48) (almanac 1 2)))
  (Effect.when (bitAt marked x) (.seq (countField (layerIndex x) 0x11 47 32) (almanac 1 3)))) (List.range 8)

/-- The banks that a configuration of the next tick releases are empty, whether the part composes or not (R257). -/
def releaseBanks (s c : State) : Effect := onCompose fun x => { x with
  current := x.current.filter fun q => !s.banksReleased c q.1 }

/-- The compositor fixes U(n) for each layer and view, and starts on tick n (R252). -/
def startComposing (n : Nat) (s c : State) : Effect :=
  let chosen := c.composedKeys.map (s.chooseSurface c n)
  let late := (chosen.filter Chosen.late).map Chosen.key
  let stale := (chosen.filter Chosen.stale).map Chosen.key
  let views := c.viewsIn c.profileB
  .all [
    onCompose fun x => { x with
      tick := some n
      late := late
      stale := stale
      todo := views
      substituted := []
      previous := chosen.filterMap fun q => q.before.map fun u => (q.key, u)
      current := (x.current.filter fun q => !(chosen.any fun d => d.key == q.1)) ++
        chosen.filterMap fun q => q.shown.map fun u => (q.key, u)
      captureFrom := if c.reg 0x4180 1 = 1 then x.captureFrom else none },
    set 0x4100 6 (layerBits late), set 0x4100 7 (layerBits stale),
    countShown (layerBits late) (layerBits ((chosen.filter fun q => q.stale && !q.late).map Chosen.key)),
    set 0x4100 0x0A (if views.isEmpty then 2 else 1)]

/-- COMPOSE_DEADLINE (R26, R252, R263, R284, R352): LT(n) − P of the tick n after the one shown. -/
def execComposeDeadline (s : State) : Host.Outcome State Fault Refusal :=
  let n := s.tick + 1
  let composing := composingModes.contains (s.modeAt n) && s.hid.compose.firstAfter.all (· ≤ n)
  perform (Effect.when (s.isTile && s.stepped && s.up .scan) (.all [
    advanceTo ((s.at n : Rat) - s.period).floor,
    derateTick n,
    Effect.when (s.up .pipe) (.all [
      releaseBanks s (s.configAt n),
      if composing then startComposing n s (s.configAt n) else set 0x4100 0x0A 0,
      onCompose fun x => { x with
        fresh := x.fresh.filter fun f => n < f.2.tick
        gathering := x.gathering.filter fun g => 64 ≤ g.1 || s.tickOf g.2.lt > n || (g.1 / 8 == 7 && s.layerDirect 7) }])])) s

/-! Blocks and pixels of a tick (R254, R255, R262). -/

/-- The bytes of block i of a surface. -/
def Surface.block (u : Surface) (i : Nat) : List Byte :=
  let b := blockBytes (descField u.descriptor 0 1)
  slice u.blocks (b * i) b

/-- A block is valid and carries the descriptor's generation (R254, R255). -/
def Surface.blockFits (u : Surface) (i : Nat) : Bool :=
  let v := natLE (u.block i)
  blockValid (descField u.descriptor 0 1) v && v % 16 == descField u.descriptor 4 1 % 16

/-- A block may be used: no word of it is poisoned (R391), and it fits. -/
def Surface.blockGood (poisoned : Surface → Nat → Bool) (u : Surface) (i : Nat) : Bool :=
  !poisoned u i && if u.read then !(u.bad.contains i) else u.blockFits i

/-- The index of the block at block column bx and block row by of the source, if the window covers it. -/
def Surface.blockAt (u : Surface) (bx bY : Int) : Option Nat :=
  let d := u.descriptor
  let c := bx - ((descField d 12 2 / 8 : Nat) : Int)
  let r := bY - ((descField d 14 2 / 4 : Nat) : Int)
  if 0 ≤ c && c < descField d 16 2 && 0 ≤ r && r < descField d 18 2 && !descClear d then
    some (r.toNat * descField d 16 2 + c.toNat)
  else none

/-- The block that substitutes block i (R255): of the same FORMAT, LW and LH, at the same place, and good. -/
def Surface.substitute (poisoned : Surface → Nat → Bool) (u : Surface) (before : Option Surface) (i : Nat) :
    Option (List Byte) :=
  before.bind fun p =>
    let same (o n : Nat) : Bool := descField p.descriptor o n == descField u.descriptor o n
    if same 0 1 && same 20 2 && same 22 2 then
      let w := max 1 (descField u.descriptor 16 2)
      (p.blockAt ((descField u.descriptor 12 2 / 8 + i % w : Nat) : Int)
        ((descField u.descriptor 14 2 / 4 + i / w : Nat) : Int)).bind fun j =>
        if p.blockGood poisoned j then some (p.block j) else none
    else none

/-- The bytes with a piece replaced. -/
def patch (bs : List Byte) (o : Nat) (p : List Byte) : List Byte := bs.take o ++ p ++ bs.drop (o + p.length)

/-- The blocks of a window when the compositor reads it: the surface as it is then, and the blocks that were substituted
(false) or are transparent (true). A surface that is shown again has nothing to substitute from (R255). -/
def Surface.checked (poisoned : Surface → Nat → Bool) (u : Surface) (before : Option Surface) :
    Surface × List (Nat × Bool) :=
  let n := descField u.descriptor 24 4 / max 1 (blockBytes (descField u.descriptor 0 1))
  if u.read then
    let bad := (List.range n).filter fun i => !u.blockGood poisoned i
    ({ u with bad := bad }, bad.map fun i => (i, true))
  else
    let (v, found) := (List.range n).foldl (fun (q : Surface × List (Nat × Bool)) i =>
      if u.blockGood poisoned i then q
      else match u.substitute poisoned before i with
        | some b => ({ q.1 with blocks := patch q.1.blocks (blockBytes (descField u.descriptor 0 1) * i) b }, q.2 ++ [(i, false)])
        | none => ({ q.1 with bad := q.1.bad ++ [i] }, q.2 ++ [(i, true)])) (u, [])
    ({ v with read := true }, found)

/-- The first substitution is recorded (R276). -/
def recordSubstitution (n x y : Nat) (poisoned : Bool) (u : Surface) (q : Nat × Bool) : Effect := .look fun s =>
  let v := natLE (u.block q.1)
  let got := v % 16 + if blockValid (descField u.descriptor 0 1) v && !poisoned then 0 else 0xF0
  Effect.when (!s.flag 0x4100 0x0B 63) (.seq (set 0x4100 0x0C n)
    (set 0x4100 0x0B (2 ^ 63 + (if q.2 then 2 ^ 62 else 0) + x * 2 ^ 59 + y * 2 ^ 56 + got * 2 ^ 48 + q.1 % 2 ^ 24 * 2 ^ 24)))

/-- Where block i of a window of a key lies in kind 0, after its descriptor, and its bytes. -/
def State.blockPlace (c : State) (key : Nat) (u : Surface) (i : Nat) : Nat × Nat :=
  let b := blockBytes (descField u.descriptor 0 1)
  (c.bankOffset key u.bank + 32 + b * i, b)

/-- A word of block i of a window of a key is poisoned. -/
def State.blockPoisoned (c : State) (key : Nat) (u : Surface) (i : Nat) : Bool :=
  let q := c.blockPlace key u i
  c.kindPoisoned 0 q.1 q.2

/-- The blocks of layer x are read for view y (R255, R391). -/
def readBlocks (n y x : Nat) : Effect := .look fun s =>
  let key := 8 * x + y
  let c := s.configAt n
  Effect.ofOption (lookupKey s.hid.compose.current key) fun u =>
    let (v, found) := u.checked (c.blockPoisoned key) (lookupKey s.hid.compose.previous key)
    .all [
      Effect.each (fun q => Effect.when (!q.2) (mendKind c 0 (c.blockPlace key u q.1).1 (c.blockPlace key u q.1).2)) found,
      onCompose fun c => { c with
        current := insertKey (removeKey c.current key) key v
        substituted := insertKey c.substituted y ((lookupKey c.substituted y).getD 0 + found.length) },
      addField (layerIndex x) 0x11 31 0 found.length,
      almanacCount 1 4 found.length,
      match found with
      | [] => .nothing
      | q :: _ => recordSubstitution n x y (c.blockPoisoned key u q.1) u q]

/-- The source pixel of a surface; none in a transparent block or outside the window. -/
def Surface.pixel (u : Surface) (sx sy : Int) : Option Rgb :=
  (u.blockAt (sx / 8) (sy / 4)).bind fun i =>
    if u.bad.contains i then none
    else some (blockPixel (descField u.descriptor 0 1) (natLE (u.block i)) (8 * (sy % 4).toNat + (sx % 8).toNat))

/-- The scaled value of a layer at a wall pixel; none outside the layer or in a transparent block (R258, R262). -/
def State.layerValue (c : State) (x : Nat) (u : Surface) (wx wy : Int) : Option Rgb :=
  let g := c.layer x
  if descClear u.descriptor || wx < g.dx || g.dx + g.dw ≤ wx || wy < g.dy || g.dy + g.dh ≤ wy then none
  else if g.sw = g.dw && g.sh = g.dh && g.tapsH = 1 && g.tapsV = 1 then
    u.pixel (g.sx + (wx - g.dx)) (g.sy + (wy - g.dy))
  else
    let custom (i : Nat) : Int := c.contentInt 0x4102 1 (1024 * x + 2 * i)
    scaled u.pixel (axisWeights custom g.tapsH (c.reg (layerIndex x) 0x0A) g.sx g.sw g.dx g.dw wx)
      (axisWeights custom g.tapsV (c.reg (layerIndex x) 0x0B) g.sy g.sh g.dy g.dh wy)

/-- The blended value of a wall pixel in a view (R262). -/
def State.blended (c : State) (surfaces : List (Nat × Surface)) (y : Nat) (wx wy : Int) : Rgb :=
  ((List.range 8).foldl (fun acc x =>
    if !c.layerOn x || c.layerDirect x || !(c.layerViews x).contains y then acc
    else match (lookupKey surfaces (8 * x + y)).bind fun u => c.layerValue x u wx wy with
      | some v => blend (c.reg (layerIndex x) 0x0C) (f32 (c.reg (layerIndex x) 0x0D / 65535)) v acc
      | none => acc) (rgbEntry (c.reg 0x4100 2))).clamped

/-- The panel temperature that acts on a tile pixel: of the region of the lane that holds it (R284, R332); Tref for a pixel
on no lane, which is not driven. -/
def State.pixelTd (c : State) (tds : List Int) (i j : Nat) : Int :=
  match (c.lanesOn c.profileB).find? fun l =>
      let r := c.lane l
      r.x ≤ i && i < r.x + r.w && r.y ≤ j && j < r.y + r.h with
  | some l => tds.getD (field (c.reg 0x5000 7) (2 * l + 1) (2 * l)) 0
  | none => c.int 16 0x4200 2

/-- y of every lamp of a view, in lamp order (R281, R282); 0 where a table is poisoned (R391). -/
def State.viewLamps (c : State) (surfaces : List (Nat × Surface)) (tds : List Int) (y : Nat) : List Rat :=
  (List.range (c.regionW * c.regionH)).flatMap fun p =>
    let i := p % max 1 c.regionW
    let j := p / max 1 c.regionW
    let v := c.blended surfaces y ((c.regionX + i : Nat) : Int) ((c.regionY + j : Nat) : Int)
    let dark := c.tablePoisoned p
    (List.range c.lambda).map fun k => if dark then 0 else c.lampValue y p k (c.lambda * p + k) (c.pixelTd tds i j) v

/-! Capture (R264, R265). -/

/-- The bytes of a capture slot (R264). -/
def State.captureImage (s : State) (n y : Nat) (lamps : List Nat) (number : Nat) : List Byte :=
  let bits (keys : List Nat) : Nat := layerBits (keys.filter fun k => k % 8 == y)
  bytesLE 8 n ++ bytesLE 4 (s.lt n) ++ bytesLE 1 y ++ [0] ++ bytesLE 1 (bits s.hid.compose.late) ++
    bytesLE 1 (bits s.hid.compose.stale) ++ bytesLE 4 ((lookupKey s.hid.compose.substituted y).getD 0) ++
    bytesLE 4 lamps.length ++ bytesLE 4 (2 * lamps.length) ++ bytesLE 4 number ++ zeroBytes 32 ++
    lamps.flatMap (bytesLE 2)

/-- A view just composed is captured, when that is due (R264, R265). -/
def capture (c : State) (n y : Nat) (lamps : List Nat) : Effect := .look fun s =>
  let from' := s.hid.compose.captureFrom.getD n
  let slots := max 1 (c.reg 0x4180 4)
  let next := s.reg 0x4180 7 % slots
  Effect.when (c.reg 0x4180 1 == 1 && c.reg 0x4180 2 == y) (.seq
    (onCompose fun x => { x with captureFrom := some from' })
    (Effect.when ((n - from') % max 1 (c.reg 0x4180 3) == 0 &&
        !(c.reg 0x4180 5 == 1 && slots ≤ s.hid.compose.captureFull))
      (if s.reg 0x4180 0x0B = next then count 32 0x4180 9
        else .all [
          eraseAt (Space.capture.at (next * c.captureSlot)) c.captureSlot,
          mendKind c 3 (next * c.captureSlot) c.captureSlot,
          storeAt (Space.capture.at (next * c.captureSlot)) (s.captureImage n y lamps (satInc 32 (s.reg 0x4180 8))),
          set 0x4180 7 ((next + 1) % slots),
          count 32 0x4180 8,
          onCompose fun x => { x with captureFull := min slots (x.captureFull + 1) }])))

/-- Command 0x01 of 4180h.0A: the ring is empty, and fills from its first slot again (DEDUCED, log 22). -/
def emptyRing : Effect := .seq (set 0x4180 7 0) (onCompose fun x => { x with captureFull := 0 })

/-- Command 0x02 of 4180h.0A, and the end of a read of the slot (R265). -/
def releaseSlot : Effect := set 0x4180 0x0B 0xFF

/-- A DOMAIN_READ of the capture ring holds the slot that it touches, until it reaches the slot's last byte (R265). -/
def readCapture (offset n : Nat) : Effect := .look fun s =>
  if n = 0 then .nothing
  else if max 1 s.captureSlot ≤ offset % max 1 s.captureSlot + n then releaseSlot
  else set 0x4180 0x0B (offset / max 1 s.captureSlot)

/-! Composing a view (R262, R263). -/

/-- The compose margin after the last view of a tick (R273). -/
def composeDone (c : State) (n : Nat) : Effect := .look fun s =>
  let left : Int := (((s.at n : Rat) - s.ns) * 5 / 4 - c.tslot c.profileB).floor
  let margins := (s.hid.compose.margins ++ [left.toNat]).drop (s.hid.compose.margins.length - 255)
  .all [
    onCompose fun x => { x with margins := margins },
    set 0x4100 8 (margins.foldl min (2 ^ 32 - 1)),
    set 0x4100 0x0A 2]

/-- The bank that holds the older of a view's two drive images (R262). -/
def ComposeState.olderBank (x : ComposeState) (y : Nat) : Nat := 1 - ((lookupKey x.images y).map Image.bank).getD 1

/-- The drive image of a view replaces the older of its two (R262). -/
def storeImage (c : State) (n y : Nat) (lamps : List Nat) : Effect := .seq
  (.look fun s => mendKind c 2 (c.imageOffset y (s.hid.compose.olderBank y)) (2 * lamps.length))
  (onCompose fun x => { x with
    older := match lookupKey x.images y with
      | some o => insertKey x.older y o
      | none => x.older
    images := insertKey x.images y ⟨n, x.olderBank y, lamps⟩
    todo := x.todo.filter (· != y) })

/-- VIEW_COMPOSED (R255, R262 to R264, R282): the next view of tick n is complete. -/
def execViewComposed (view : Nat) (s : State) : Host.Outcome State Fault Refusal :=
  perform (Effect.ofOption s.hid.compose.tick fun n => Effect.when (s.up .pipe && s.hid.compose.todo.head? == some view) (
    let c := s.configAt n
    .seq (Effect.each (readBlocks n view) (List.range 8)) (.look fun t =>
      let ys := c.viewLamps t.hid.compose.current (t.tdsFor n) view
      let lamps := ys.map driveOf
      let first := s.hid.compose.todo == c.viewsIn c.profileB
      let clipped := (ys.filter (1 < ·)).length + if first then 0 else t.reg 0x4200 4
      let peak := ys.foldl (fun m y => max m (roundRat (y * 65536))) (if first then -(2 ^ 31) else t.int 32 0x4200 5)
      .all [
        set 0x4200 4 clipped,
        setInt 32 0x4200 5 peak,
        storeImage c n view lamps,
        capture c n view lamps,
        .look fun u => Effect.when u.hid.compose.todo.isEmpty (composeDone c n)]))) s

/-- A view's composition is abandoned (R94, R263). -/
def abandonView (view : Nat) : Effect := .all [
  onCompose fun x => { x with todo := x.todo.filter (· != view) },
  count 32 0x1644 0x0B, almanac 1 1,
  onCounts fun t => { t with underruns := t.underruns + 1 },
  .look fun t => Effect.when t.hid.compose.todo.isEmpty (set 0x4100 0x0A 2)]

/-- COMPOSE_UNDERRUN (R94): a view of tick n is not complete at LT(n) − Tslot. -/
def execComposeUnderrun (view : Nat) (s : State) : Host.Outcome State Fault Refusal :=
  perform (Effect.when (s.up .pipe && s.hid.compose.todo.contains view) (abandonView view)) s

/-! The direct layer (R266, R267). -/

/-- The pixels of a stored line, transparent where there are none. -/
def State.storedLine (s : State) (view : Nat) (y : Nat) : List (List Byte × Nat) :=
  match s.hid.compose.lines.find? fun l => l.view == view && l.y == y with
  | some l => l.pixels
  | none => List.replicate s.regionW (zeroBytes 6, 0)

/-- A line of the store takes its pixels. -/
def storeLine (view y : Nat) (pixels : List (List Byte × Nat)) : Effect := onCompose fun c => { c with
  lines := (c.lines.filter fun l => !(l.view == view && l.y == y)) ++ [⟨view, y, pixels⟩] }

/-- A segment lies in the tile's part of the layer (R267). -/
def State.segmentFits (s : State) (view y x n : Nat) : Bool :=
  match windowOf (s.layer 7) s.region with
  | none => false
  | some w => s.layerOn 7 && (s.layerViews 7).contains view && w.iy0 ≤ y && (y : Int) < w.iy1 &&
      (n == 0 || (w.ix0 ≤ x && ((x + n : Nat) : Int) ≤ w.ix1))

/-- DIRECT_SEGMENT_RECEIVE (R266, R267): the oldest complete segment of a stream 56 to 63. -/
def execDirectSegmentReceive (stream : Nat) (s : State) : Host.Outcome State Fault Refusal :=
  perform (Effect.when (s.isTile && s.up .pipe && 56 ≤ stream && stream < 64 && s.layerDirect 7)
    (withMessage stream fun m => .look fun s =>
      let d := m.bytes
      let view := stream - 56
      let y := descField d 8 2
      let x := descField d 10 2
      let n := descField d 12 2
      let clear := descClear d
      let ok := 16 ≤ d.length && descField d 0 1 == 0x30 && descField d 1 1 == 7 && descField d 2 1 == view &&
        d.length == 16 + 6 * n && (if clear then n == 0 else 1 ≤ n && n ≤ s.regionW) && s.segmentFits view y x n
      if !ok then countDiscard 7
      else if clear then storeLine view y (List.replicate s.regionW (zeroBytes 6, 0))
      else
        let line := s.storedLine view y
        let o := x - s.regionX
        storeLine view y (line.take o ++ ((List.range n).map fun i => (slice d (16 + 6 * i) 6, 65535)) ++ line.drop (o + n)))) s

/-- 4100h.0B (R12, R276): each 1 clears its bit, and 4100h.0C is cleared with VALID. -/
def clearFirstSubstitution (ones : Nat) : Effect := .seq (clearOnes (keyOf 0x4100 0x0B) ones)
  (Effect.when (bitAt ones 63) (set 0x4100 0x0C 0))

/-- 4110h+x.12 clears the counters of a layer (R278). -/
def clearLayerCounters (x : Nat) : Effect := .seq (set (layerIndex x) 0x10 0) (set (layerIndex x) 0x11 0)

end Sys2Proof.Machine
end

