-- ==== Sys2Proof/Machine/LampMap.lean ====
section
/-! DEFINITION. Lamps, strings and the lamp map (R330, R332, R358 to R361). -/

namespace Sys2Proof.Machine

/-- The lamp number of lane index q, if the lane has it (R330). -/
def State.laneLamp (s : State) (lane q : Nat) : Option Nat :=
  let r := s.lane lane
  let p := q / max 1 s.lambda
  if q < r.w * r.h * s.lambda then
    some (s.lambda * (s.regionW * (r.y + p / max 1 r.w) + (r.x + p % max 1 r.w)) + q % max 1 s.lambda)
  else none

/-- The lamp at position m of a string of an array of a lane (R330). -/
def State.stringLamp (s : State) (lane array string m : Nat) : Option Nat :=
  s.laneLamp lane (1536 * array + 32 * string + m)

/-- The arrays on a lane (R335). -/
def State.arraysOn (s : State) (lane : Nat) : Nat :=
  min 4 (ceilDiv ((s.lane lane).w * (s.lane lane).h * s.lambda) 1536)

/-- Lamp l is bypassed. -/
def State.bypassed (s : State) (l : Nat) : Bool := bitAt (s.byte (Space.lampMap.at (64 + l / 8))).toNat (l % 8)

/-- The bypassed positions of a string, as a mask (R353). -/
def State.stringMask (s : State) (lane array string : Nat) : Nat := (List.range 32).foldl (fun m i =>
  if ((s.stringLamp lane array string i).map s.bypassed).getD false then withBit m i else m) 0

/-- A field of the map's header (R358). -/
def State.mapWord (s : State) (o n : Nat) : Nat := s.word (Space.lampMap.at o) n

/-- A string is fully bypassed. -/
def State.stringOff (s : State) (lane array string : Nat) : Bool :=
  let lamps := (List.range 32).filterMap (s.stringLamp lane array string)
  !lamps.isEmpty && lamps.all s.bypassed

/-- The strings fully bypassed (R358 DISABLED). -/
def State.stringsOff (s : State) : Nat :=
  ((List.range 32).flatMap fun l => (List.range 4).flatMap fun a =>
    (List.range 48).filter fun g => s.stringOff l a g).length

/-- The bits set in the bitmap. -/
def State.mapCount (s : State) : Nat :=
  (s.bytes (Space.lampMap.at 64) 24576).foldl (fun n b => n + popCount 8 b.toNat) 0

/-- The map has changed: its counts and the entries that show them (R358, R366). -/
def mapChanged : Effect := .look fun s => .all [
  storeAt (Space.lampMap.at 12) (bytesLE 4 s.mapCount),
  storeAt (Space.lampMap.at 24) (bytesLE 4 s.stringsOff),
  set 0x5200 6 s.mapCount, set 0x5200 0x0D s.stringsOff, setBit 0x5200 7 7 true]

/-- A record of the map's log; with the log full it is counted instead (R358). -/
def logBypass (lamp cause attempts : Nat) (td : Int) : Effect := .look fun s =>
  let n := s.mapWord 20 4
  if 4096 ≤ n then countField 0x5200 0x0B 15 0
  else .seq
    (storeAt (Space.lampMap.at (24640 + 16 * n)) (bytesLE 4 lamp ++ bytesLE 8 s.tick ++ bytesLE 1 cause ++
      bytesLE 1 attempts ++ bytesLE 2 (ofSigned 16 td)))
    (storeAt (Space.lampMap.at 20) (bytesLE 4 (n + 1)))

/-- A lamp's bit is set. -/
def bypassLamp (l : Nat) : Effect := .look fun s =>
  storeAt (Space.lampMap.at (64 + l / 8)) [BitVec.ofNat 8 (withBit (s.byte (Space.lampMap.at (64 + l / 8))).toNat (l % 8))]

/-- The panel temperature of a lamp's region now (R358). -/
def State.lampTd (s : State) (l : Nat) : Int :=
  let p := l / max 1 s.lambda
  s.pixelTd s.hid.scan.tds (p % max 1 s.regionW) (p / max 1 s.regionW)

/-- MERGE: every new bit of the upload is set and logged (R361). -/
def mergeMap : Effect := .look fun s =>
  let bits := (s.bytes (Space.upload.at 0) 24576).zipIdx.flatMap fun (b, i) =>
    ((List.range 8).filter fun j => bitAt b.toNat j).map fun j => 8 * i + j
  .seq (Effect.each (fun l => .seq (bypassLamp l) (logBypass l 2 0 (s.lampTd l))) (bits.filter fun l => !(s.bypassed l)))
    mapChanged

/-- The bitmap takes bytes, and the log is emptied. -/
def replaceMap (bitmap : List Byte) : Effect := .all [
  .look fun s => mendKind s 4 64 90112,
  eraseAt (Space.lampMap.at 64) 90112,
  storeAt (Space.lampMap.at 64) bitmap,
  storeAt (Space.lampMap.at 20) (bytesLE 4 0),
  mapChanged]

/-- The answer to command 0x02 of 5200h.09 (R359, R366). -/
def State.mapClearStatus (s : State) : Nat :=
  if s.mode = Mode.dark || s.mode = Mode.bringup then Status.ok else Status.range

/-- Command 0x02 of 5200h.09 (R359). -/
def clearMap : Effect := replaceMap []

/-- The lamp map is loaded from the newer valid slot, or is empty (R360). -/
def loadLampMap : Effect := .look fun s =>
  let slot := newerSlot (s.lampMapSeq 0) (s.lampMapSeq 1)
  .all [
    eraseAt (Space.lampMap.at 0) 90176, mendKind s 4 0 90176,
    match slot with
    | some i => .seq (storeAt (Space.lampMap.at 0) (s.flash (Flash.lampMap i) 90176)) (set 0x5200 7 (1 + i))
    | none => .all [storeAt (Space.lampMap.at 0) (bytesLE 4 0x50414D4C ++ bytesLE 2 1), set 0x5200 7 3, raise 360],
    setBy 0x5200 6 fun t => t.mapWord 12 4,
    setBy 0x5200 0x0D fun t => t.mapWord 24 4,
    onScan fun c => { c with mapLoaded := true }]

/-- MAP_STORE_INTERVAL (R360): every 5200h.0E seconds, a map that has changed is stored. -/
def execMapStoreInterval (s : State) : Host.Outcome State Fault Refusal :=
  perform (Effect.when (s.isTile && s.up .core && s.reg 0x5200 0x0E != 0 && s.flag 0x5200 7 7) (requestStore 2)) s

end Sys2Proof.Machine
end

