-- ==== Sys2Proof/Machine/Scan.lean ====
section
/-! DEFINITION. The scan path and the timing generators of a tile (R285 to R288, R295 to R298, R312 to R323, R333 to R350,
R520): lane frames, latches, TG events, LAMP_EN and the references. -/

namespace Sys2Proof.Machine

/-- The scan path copies the maps, codes and dither mode of the configuration in effect (R298). -/
def copyScan : Effect := .look fun s => Effect.when s.isTile (onScan fun x => { x with
  maps := [4, 5, 7, 8].map (s.reg 0x4300)
  codes := (List.range 8).map fun v => s.reg (0x4210 + v) 1
  dither := s.reg 0x4200 3 })

/-- Every lane is dark in tick n: re-lock ticks and the tick of a plain re-epoch (R322, R323). -/
def State.darkTick (s : State) (n : Nat) : Bool := s.hid.scan.dark.any fun d => d.1 ≤ n && n ≤ d.2

/-- The slots of a profile that show a view, ascending (R285). -/
def State.slotsOf (c : State) (v : Nat) : List Nat :=
  (List.range (c.slotsIn c.profileB)).filter fun k => c.slotView c.profileB k == v

/-- The drive images of a view for tick n: the kept one in HOLD and until the first tick composed after a reset, else that of
tick n or of the tick before (R94, R263, R297, R439). -/
def State.slotImage (s : State) (v n : Nat) : Option Image :=
  let x := s.hid.compose
  let both := [lookupKey x.images v, lookupKey x.older v].filterMap id
  let old := both.filter fun i => i.tick ≤ n
  let kept := s.scanModeAt n == Mode.hold || !s.up .pipe || x.firstAfter.any (n < ·)
  match old with
  | [] => none
  | i :: rest =>
    let best := rest.foldl (fun a b => if a.tick < b.tick then b else a) i
    if kept || n ≤ best.tick + 1 then some best else none

/-- A bring-up pattern replaces the drive images (R520). -/
def State.patterned (s : State) (n : Nat) : Bool := s.scanModeAt n == Mode.bringup && s.reg 0x7020 1 != 0

/-- KIND of a lane's LATCH for slot k of tick n, when its frame is whole: 0 NEW, 1 REPEAT, 2 DARK (R343, R344). -/
def State.latchKind (s : State) (lane n k : Nat) : Nat :=
  let c := s.scanAt n
  let v := c.slotView c.profileB k
  let m := s.scanModeAt n
  if m = Mode.freeze then (if v = field (s.reg (0x5110 + lane) 3) 15 12 && !s.darkTick n then 1 else 2)
  else if [4, 5, 6, 11].contains m && s.hid.lampEn && !s.darkTick n && v < 8 && s.laneOn lane && c.laneOn lane &&
      (s.patterned n || (s.slotImage v n).isSome) then 0
  else 2

/-! On-times (R285, R288, R315, R520). -/

/-- The matrix B4 (R285). -/
def ditherB4 : List Nat := [0, 8, 2, 10, 12, 4, 14, 6, 3, 11, 1, 9, 15, 7, 13, 5]

/-- theta of a lamp's pixel (R285). -/
def ditherTheta (mode i j k n nv r : Nat) : Nat :=
  let s := (ditherB4.getD (4 * (j % 4) + i % 4) 0 + 4 * k) % 16
  let t := 5 * ((n * nv + r) % 16) % 16
  if mode = 0 then 7 else if mode = 1 then s else if mode = 2 then t else (s + t) % 16

/-- The on-time code of a drive value (R285). -/
def ditherCode (d theta : Nat) : Nat := min (d / 16 + if theta < d % 16 then 1 else 0) 4095

/-- D after the direct layer is merged (R288). -/
def State.mergedDrive (s c : State) (v p k l : Nat) (td : Int) (d : Nat) : Nat :=
  if !(c.layerOn 7 && c.layerDirect 7 && (c.layerViews 7).contains v) then d
  else
    let i := p % max 1 c.regionW
    let j := p / max 1 c.regionW
    let px := (s.storedLine v (c.regionY + j)).getD i ([], 0)
    let a : Rat := (px.2 : Rat) / 65535 * ((c.reg 0x4117 0x0D : Rat) / 65535)
    if a = 0 then d else (roundRat (a * driveOf (c.lampValue v p k l td (rgbOf px.1)) + (1 - a) * d)).toNat

/-- The code of a bring-up pattern (R520). The ramp on a region one pixel wide is not stated: a free value (log 9). -/
def State.patternCode (s c : State) (n i j k m : Nat) : Nat :=
  let code := s.reg 0x7020 2
  match s.reg 0x7020 1 with
  | 1 => code
  | 2 => if k = s.reg 0x7020 3 then code else 0
  | 3 => if (i + j) % 2 = 0 then code else 0
  | 4 => if m = n % 32 then code else 0
  | _ => if c.regionW ≤ 1 then s.freeValue 12 else code * i / (c.regionW - 1)

/-- The lamp map's word for a lamp is poisoned: the scan treats the lamp as bypassed (R391). -/
def State.mapPoisoned (c : State) (l : Nat) : Bool := c.kindPoisoned 4 (64 + l / 8) 1

/-- The word of a drive image for a lamp is poisoned: the lamp stays dark in the slot (R391). -/
def State.imagePoisoned (c : State) (v : Nat) (image : Option Image) (l : Nat) : Bool :=
  image.any fun x => c.kindPoisoned 2 (c.imageOffset v x.bank + 2 * l) 2

/-- The on-time code of lane index q for slot k of tick n, before TMAX. -/
def State.lampCode (s c : State) (lane q n k : Nat) : Nat :=
  let v := c.slotView c.profileB k
  let slots := c.slotsOf v
  match c.laneLamp lane q with
  | none => 0
  | some l =>
    let p := l / max 1 c.lambda
    let i := p % max 1 c.regionW
    let j := p / max 1 c.regionW
    let lk := l % max 1 c.lambda
    if 8 ≤ v || s.bypassed l || c.mapPoisoned l then 0
    else if s.patterned n then s.patternCode c n i j lk (q % 32)
    else if c.imagePoisoned v (s.slotImage v n) l then 0
    else
      let d := ((s.slotImage v n).map fun x => x.lamps.getD l 0).getD 0
      let td := c.pixelTd (s.tdsFor n) i j
      ditherCode (s.mergedDrive c v p lk l td d)
        (ditherTheta (c.reg 0x4200 3) i j lk n slots.length (slots.findIdx (· == k)))

/-- TMAX of the TG that drives a lane (R315). -/
def State.laneTmax (c : State) (lane : Nat) : Nat :=
  match c.tgOfLane c.profileB lane with
  | some r => c.tmax c.profileB r
  | none => 0

/-- The codes of one row of a lane, before TMAX (R336). -/
def State.rowCodes (s c : State) (lane row n k : Nat) : List Nat :=
  let w := (c.lane lane).w * c.lambda
  (List.range w).map fun x => s.lampCode c lane (w * row + x) n k

/-- The payload of a row: 12 bits a code, padded to whole blocks (R336). -/
def rowPayload (codes : List Nat) : List Byte :=
  bytesLE (8 * ceilDiv (12 * codes.length) 64) (codes.foldr (fun t v => v * 4096 + t) 0)

/-! Lane frames (R335 to R341). -/

/-- LANE_FRAME_START (R335, R339): the START block of the next data frame. -/
def execLaneFrameStart (lane : Nat) (s : State) : Host.Outcome State Fault Refusal :=
  let (n, k) := s.nextSlot
  let c := s.scanAt n
  let v := c.slotView c.profileB k
  let x := s.laneState lane
  let f := (x.frame + 1) % 32
  let r := c.lane lane
  perform (Effect.when (s.isTile && s.scanRuns && s.hid.scan.slot != 255 && lane < 32 && !x.started && s.latchKind lane n k == 0)
    (.all [
      sendControl lane (f * 2 ^ 59 + c.arraysOn lane % 8 * 2 ^ 56 + r.w * c.lambda % 2 ^ 16 * 2 ^ 40 +
        r.w * r.h * c.lambda % 2 ^ 16 * 2 ^ 24 + v * 2 ^ 16 + k * 2 ^ 8 + 0x33),
      onLane lane fun x => { x with
        frame := f, started := true, ended := false, rows := 0, blocks := 0, data := [], view := v, slot := k, dark := false },
      setField (0x5110 + lane) 3 23 20 (c.arraysOn lane)])) s

/-- LANE_ROW_SEND (R336, R339): the next row of a lane's frame. -/
def execLaneRowSend (lane row : Nat) (s : State) : Host.Outcome State Fault Refusal :=
  let (n, k) := s.nextSlot
  let c := s.scanAt n
  let x := s.laneState lane
  let t := c.laneTmax lane
  let codes := s.rowCodes c lane row n k
  let payload := rowPayload (codes.map (min t))
  perform (Effect.when (s.isTile && s.scanRuns && x.started && !x.ended && x.rows == row && row < (c.lane lane).h) (.all [
    sendLane lane ((List.range (payload.length / 8)).map fun i => ⟨false, natLE (slice payload (8 * i) 8)⟩),
    Effect.ofOption (c.tgOfLane c.profileB lane) fun r => onScan fun y => { y with
      clipped := updateAt y.clipped r (· + (codes.filter (t < ·)).length) },
    Effect.when (s.patterned n && s.reg 0x7020 1 == 5 && c.regionW ≤ 1) useFree,
    onLane lane fun x => { x with
      rows := row + 1, blocks := x.blocks + payload.length / 8, data := x.data ++ payload }])) s

/-- The END block of a lane's frame (R337). -/
def sendEnd (lane : Nat) : Effect := .look fun s =>
  let x := s.laneState lane
  .seq (sendControl lane (x.frame * 2 ^ 59 + x.blocks % 2 ^ 16 * 2 ^ 40 + crc32 x.data * 2 ^ 8 + 0x55))
    (onLane lane fun x => { x with ended := true })

/-- The cc from now to the start of sync of TG r (R314, R325). -/
def State.toSync (s : State) (r : Nat) : Int :=
  let (n, k) := s.nextSlot
  let b := s.profileB
  (((s.slotAt n k - s.ns : Int) : Rat) * 5 / 4).floor - (s.ver b r 1 * s.lineLength b r : Nat)

/-- LANE_FRAME_END (R337, R325): the END block of a whole frame, with the shift margin. -/
def execLaneFrameEnd (lane : Nat) (s : State) : Host.Outcome State Fault Refusal :=
  let (n, _) := s.nextSlot
  let x := s.laneState lane
  perform (Effect.when (s.isTile && s.scanRuns && x.started && !x.ended && x.rows == ((s.scanAt n).lane lane).h) (.all [
    sendEnd lane,
    countField (0x5110 + lane) 4 63 32,
    Effect.ofOption (s.tgOfLane s.profileB lane) fun r =>
      let old := s.hid.scan.margins.getD r []
      let all := (old ++ [(s.toSync r).toNat]).drop (old.length - 255)
      .seq (onScan fun y => { y with margins := setAt y.margins r all })
        (set (0x4000 + r) 0x0E (all.foldl min (2 ^ 32 - 1)))])) s

/-- LATCH (R338, R341 to R345): the block that commands the latch at the next slot boundary. -/
def execLatch (lane : Nat) (s : State) : Host.Outcome State Fault Refusal :=
  let (n, k) := s.nextSlot
  let c := s.scanAt n
  let x := s.laneState lane
  let want := s.latchKind lane n k
  let kind := if want = 0 && !(x.ended && !x.dark && x.slot == k) then 2 else want
  perform (Effect.when (s.isTile && s.scanRuns && s.hid.scan.slot != 255 && lane < 32 && (s.laneOn lane || c.laneOn lane))
    (sendLatch lane kind)) s

/-! The latch instant (R314, R349, R350). -/

/-- LAMP_EN may be high (R349). -/
def State.lampAllowed (s : State) (n : Nat) : Bool :=
  [4, 5, 6, 11].contains (s.scanModeAt n) && s.hid.scan.mapLoaded && s.reg 0x5000 0x0B == 0

/-- LAMP_EN at a latch instant (R349): unchanged in FREEZE and through a warm reset. -/
def lampEnAt (n : Nat) (lanes : List Nat) : Effect := .look fun s =>
  let dark := !lanes.isEmpty && lanes.all fun l => s.hid.scan.kinds.getD l 3 == 2
  let run := if dark then s.hid.scan.darkRun + 1 else 0
  .seq (onScan fun x => { x with darkRun := run })
    (if s.mode = Mode.freeze || s.mode = Mode.boot then .nothing
      else if !s.lampAllowed n then setLampEn false
      else Effect.when (2 ≤ run) (setLampEn true))

/-- I(c) of R350 without its divisors: FS × C × F. -/
def State.current (s : State) (v ch : Nat) : Nat :=
  s.reg 0x5001 (ch + 1) * (s.hid.scan.codes.getD v 0) * (s.factorsFor s.hid.scan.tick).getD (s.regionOf (ch / 2)) 0

/-- What CRS carries from a latch on: the current of the channel that it stands in for or is about to, and else nothing (R350,
R415, R416; log 110). -/
def State.spareCurrent (s : State) (v : Nat) : Nat :=
  match s.hid.heat.run with
  | some r => if r.item < 64 && 2 ≤ s.reg 0x1600 6 then s.current v r.item else 0
  | none => 0

/-- The references at a latch instant: zero until the first latch NEW, and kept in a dark slot (R287, R350). -/
def latchCurrents (v : Nat) : Effect := .look fun s => .seq
  (Effect.when (s.hid.clamped && s.hid.scan.kinds.contains 0) (hidden fun h => { h with clamped := false }))
  (.look fun t => Effect.when (!t.hid.clamped && v < 8)
    (onScan fun x => { x with refs := (List.range 64).map (t.current v) ++ [t.spareCurrent v] }))

/-- The tick's clipped lamps are shown at its end (R315, R325). -/
def showClipped : Effect := .look fun s => .all [
  Effect.each (fun r => set (0x4000 + r) 0x12 (s.hid.scan.clipped.getD r 0)) (List.range 4),
  Effect.when (s.hid.scan.clipped.any (· != 0)) (almanac 5 7),
  onScan fun x => { x with clipped := List.replicate 4 0 }]

/-- A lane outside every mask is idle, and its queued strings go (R313, R362). -/
def idleLanes (lanes : List Nat) : Effect := .seq
  (Effect.each (fun l => setField (0x5110 + l) 3 0 0 0) ((List.range 32).filter fun l => !(lanes.contains l)))
  (.seq (onScan fun x => { x with
      queue := x.queue.filter fun q => lanes.contains q.lane
      testing := x.testing.filter fun q => lanes.contains q.lane })
    (setBy 0x5200 0x10 fun s => s.hid.scan.queue.length))

/-- The slot that comes at this latch instant: S0 of the tick shown, or the next slot of the tick. -/
def State.latchedSlot (s : State) : Option Nat :=
  if s.hid.scan.tick != s.tick || s.hid.scan.slot = 255 then some 0
  else if s.hid.scan.slot + 1 < s.slotsIn s.profileB then some (s.hid.scan.slot + 1)
  else none

/-- A slot latches, on a tile. -/
def latchSlot (n k : Nat) : Effect := .look fun s =>
  let c := s.scanAt n
  let lanes := c.lanesOn c.profileB
  .all [
    advanceTo (s.slotAt n k),
    onScan fun x => { x with
      tick := n, slot := k,
      recent := (x.recent.map fun q => (q.1, q.2 - 1)).filter fun q => q.2 != 0 },
    set 0x4300 0x0A k,
    Effect.when (k == 0) (.seq (showDerate n) showClipped),
    Effect.each (fun r => Effect.when (s.tgOn s.profileB r) (count 32 (0x4000 + r) 0x0A)) s.tgs,
    Effect.when (s.tgOn s.profileB 0) takeBandgap,
    lampEnAt n lanes,
    latchCurrents (c.slotView c.profileB k),
    idleLanes lanes]

/-! TG events (R317, R319, R320). -/

/-- An event of TG r (R319). -/
def tgEvent (r e : Nat) : Effect := .look fun s => Effect.when (s.tgRuns r) (.all [
  setBit (0x4000 + r) 9 e true,
  countField (0x4000 + r) 0x0F (16 * e + 15) (16 * e),
  Effect.when (s.flag (0x4000 + r) 8 e) (almanac 1 7)])

/-- BLANK (R319). -/
def execBlank (r : Nat) (s : State) : Host.Outcome State Fault Refusal := perform (tgEvent r TgEvent.blank) s

/-- MATCH (R319). -/
def execMatchLine (r : Nat) (s : State) : Host.Outcome State Fault Refusal := perform (tgEvent r TgEvent.matched) s

/-- DONE (R319). -/
def execDone (r : Nat) (s : State) : Host.Outcome State Fault Refusal := perform (tgEvent r TgEvent.done) s

/-- A lane's dark latch (R345): its frame ends at once. -/
def darkLatch (lane : Nat) : Effect := .look fun s => .all [
  Effect.when ((s.laneState lane).started && !(s.laneState lane).ended) (sendEnd lane),
  onLane lane fun x => { x with dark := true },
  countField (0x5110 + lane) 4 31 16,
  almanac 5 5]

/-- The shift of a lane for the next slot is incomplete: it shall latch NEW, and its frame has not ended whole (R319). -/
def State.unfinished (s : State) (lane : Nat) : Bool :=
  let (n, k) := s.nextSlot
  let x := s.laneState lane
  s.latchKind lane n k == 0 && !(x.ended && !x.dark && x.slot == k)

/-- UNDERRUN (R94, R320, R345): at the start of sync, lanes of TG r whose shift is incomplete. -/
def execUnderrun (r lanes : Nat) (s : State) : Host.Outcome State Fault Refusal :=
  let mine := ((lanesIn (lanes &&& s.laneMask s.profileB r)).filter s.unfinished).foldl withBit 0
  perform (Effect.when (s.isTile && s.tgRuns r && mine != 0) (.all [
    tgEvent r TgEvent.underrun,
    Effect.each darkLatch (lanesIn mine),
    setBy (0x4000 + r) 0x10 fun t => t.reg (0x4000 + r) 0x10 ||| mine,
    set (0x4000 + r) 0x11 (s.hid.scan.tick % 2 ^ 56 * 256 + s.hid.scan.slot),
    count 32 0x1644 0x0B, almanac 1 1,
    onCounts fun t => { t with underruns := t.underruns + 1 }])) s

/-- L7_LINE_UNDERRUN (R94, R319): the line's previous content is shown. -/
def execL7LineUnderrun (r row : Nat) (s : State) : Host.Outcome State Fault Refusal :=
  perform (Effect.when (s.isTile && s.layerDirect 7 && s.tgRuns r && row < s.ver s.profileB r 3)
    (.seq (tgEvent r TgEvent.underrun) (almanac 1 1))) s

/-- RELOCK (R174, R322): the tick-rate commit that has applied at LT(n) starts the new grid there. -/
def execRelock (s : State) : Host.Outcome State Fault Refusal :=
  perform (Effect.ofOption s.hid.time.relockAt fun n => .all [
    advanceTo (s.at n),
    setGrid n (s.at n) (s.reg 0x4300 1) (s.reg 0x4300 2) (s.reg 0x4300 3),
    count 32 0x4010 3,
    onScan fun x => { x with dark := some (n, n + 1) },
    onCompose fun x => { x with firstAfter := some (n + 2) },
    onTime fun m => { m with relockAt := none },
    computeBudgets]) s

/-- 4000h+r.13 (R325). -/
def clearTgCounters (r : Nat) : Effect := .all [set (0x4000 + r) 0x0A 0, set (0x4000 + r) 0x0F 0, set (0x4000 + r) 0x12 0]

end Sys2Proof.Machine
end

