-- ==== Sys2Proof/Machine/Diagnosis.lean ====
section
/-! DEFINITION. Lamp diagnosis (R346 to R348, R353 to R357, R362): DIAG blocks, return frames, results and the sweep. -/

namespace Sys2Proof.Machine

/-- The number of a string of an array of a lane. -/
def stringKey (lane array string : Nat) : Nat := (4 * lane + array) * 48 + string

/-- 5200h.10 and 5200h.11 show the queue and the sweep (R366). -/
def showDiagnosis : Effect := .seq (setBy 0x5200 0x10 fun s => s.hid.scan.queue.length)
  (setBy 0x5200 0x11 fun s => min 47 (s.hid.scan.sweepAt.foldl min 48))

/-- A string joins the queue, which holds at most 256 (R355). -/
def queueString (q : Locate) : Effect := .look fun s =>
  if s.hid.scan.queue.length < 256 then
    .seq (onScan fun x => { x with queue := x.queue ++ [{ q with pulsed := false }] }) showDiagnosis
  else countField 0x5200 0x0B 15 0

/-- The string that array a of a lane tests next: the oldest queued one, else the sweep's (R355, R356). -/
def State.nextString (s : State) (lane a : Nat) : Option Locate :=
  let x := s.hid.scan
  if x.testing.any fun q => q.lane == lane && q.array == a then none
  else match x.queue.find? fun q => q.lane == lane && q.array == a with
    | some q => some { q with mask := s.stringMask lane a q.string }
    | none =>
      let g := x.sweepAt.getD (4 * lane + a) 48
      if x.sweeping && g < 48 then some ⟨lane, a, g, 0, true, s.stringMask lane a g, false⟩ else none

/-- A string goes under test (R353, R355). -/
def sendDiag (q : Locate) : Effect := .look fun s =>
  let r := (s.tgOfLane s.profileB q.lane).getD 0
  let same (p : Locate) : Bool := p.lane == q.lane && p.array == q.array && p.string == q.string
  .seq (sendControl q.lane (q.mask * 2 ^ 32 + s.activeLength s.profileB r / 50 % 2 ^ 16 * 2 ^ 16 + q.array * 2 ^ 14 +
      q.string * 2 ^ 8 + 0x4B))
    (onScan fun x => { x with
      testing := x.testing ++ [q]
      queue := x.queue.filter fun p => !(same p)
      sweepAt := if q.sweep && !(x.queue.any same) then setAt x.sweepAt (4 * q.lane + q.array) (q.string + 1) else x.sweepAt })

/-- Diagnosis may take the next slot: CORE's arbiter grants DIAG_SLOT, or a warm reset holds CORE (R355, R362). -/
def State.diagGranted (s : State) : Bool := !s.up .core || s.running Activity.diagnosis || s.canStart Activity.diagnosis

/-- DIAG_SEND (R339, R353, R355): a DIAG block for each array of the lane that has a string to test. -/
def execDiagSend (lane : Nat) (s : State) : Host.Outcome State Fault Refusal :=
  let qs := (List.range (s.arraysOn lane)).filterMap (s.nextString lane)
  perform (Effect.when (s.isTile && s.scanRuns && s.laneOn lane && s.reg 0x5200 1 == 1 && !s.frozen 5 && !qs.isEmpty)
    (.seq (Effect.when (s.up .core) (requestActivity Activity.diagnosis))
      (Effect.when s.diagGranted (.seq (Effect.each sendDiag qs) showDiagnosis)))) s

/-- The diagnostic current of a lane's two references, in the units of State.current: 5200h.02 / 255 × FS(c), not derated, and
nothing while they are clamped (R350, R354). -/
def State.diagCurrents (s : State) (lane : Nat) : List Nat := (List.range 2).map fun i =>
  if s.hid.clamped then 0 else s.reg 0x5001 (2 * lane + i + 1) * s.reg 0x5200 2 * 65536

/-- DIAGNOSTIC_SLOT (R354): the references take the diagnostic current, and the lane's strings under test get their pulse; the
references are back at the slot's current when it ends, and the token is freed after the last lane's slot. -/
def execDiagnosticSlot (lane : Nat) (s : State) : Host.Outcome State Fault Refusal :=
  let mine (q : Locate) : Bool := q.lane == lane && !q.pulsed
  let n := (s.hid.scan.testing.filter mine).length
  perform (Effect.when (s.isTile && s.scanRuns && n != 0) (.all [
    emit (.diagnose lane (s.diagCurrents lane)),
    onScan fun x => { x with testing := x.testing.map fun q => if mine q then { q with pulsed := true } else q },
    addField 0x5200 0x0B 47 32 n,
    almanacCount 5 1 n,
    .look fun t => Effect.when (t.hid.scan.testing.all Locate.pulsed) (endActivity Activity.diagnosis)])) s

/-- A result is recorded in 5200h.0A, if none stands there: the next one is recorded after a clear (R367; DEDUCED, log 82). -/
def recordLocate (result : Nat) (q : Locate) (position : Nat) : Effect := .look fun s =>
  Effect.when (!s.flag 0x5200 0x0A 63) (set 0x5200 0x0A (2 ^ 63 + result * 2 ^ 61 + q.lane * 2 ^ 56 + q.array * 2 ^ 54 +
    q.string * 2 ^ 48 + position * 2 ^ 43 + s.tick % 2 ^ 32))

/-- Positions of a string are bypassed (R355): each in the log, or one record for the whole string. -/
def bypassString (q : Locate) (o : Nat) (whole : Bool) : Effect := .look fun s =>
  let lamps := ((List.range 32).filter (bitAt o)).filterMap (s.stringLamp q.lane q.array q.string)
  let new' := lamps.filter fun l => !(s.bypassed l)
  let cause := if q.sweep then 4 else 1
  let result := if whole then 3 else 1
  .all [
    Effect.each bypassLamp new',
    if whole then Effect.ofOption (s.stringLamp q.lane q.array q.string 0) fun l =>
        logBypass (2 ^ 31 + l) 3 q.attempts (s.lampTd l)
      else Effect.each (fun l => logBypass l cause q.attempts (s.lampTd l)) new',
    addField 0x5200 0x0B 31 16 new'.length,
    almanacCount 5 2 new'.length,
    onScan fun x => { x with recent := insertKey x.recent (stringKey q.lane q.array q.string) 4 },
    recordLocate result q ((List.range 32).findIdx (bitAt o)),
    mapChanged,
    raise 355 result]

/-- A string becomes suspected (R355). -/
def ScanState.suspect (x : ScanState) (key : Nat) : ScanState :=
  let others := x.suspects.filter (· != key)
  { x with suspects := key :: others }

/-- The result of one diagnostic pulse (R355). -/
def takeResult (q : Locate) (dresult : Nat) : Effect := .look fun s =>
  let o := dresult - (dresult &&& q.mask)
  if o = 0 then
    if q.sweep then .nothing
    else if q.attempts + 1 < s.reg 0x5200 5 then queueString { q with attempts := q.attempts + 1 }
    else .all [
      onScan (fun x => x.suspect (stringKey q.lane q.array q.string)),
      setBy 0x5200 0x0C fun t => t.hid.scan.suspects.length,
      almanac 5 3, raise 355 2, recordLocate 2 q 0]
  else if s.reg 0x5200 4 < popCount 32 q.mask + popCount 32 o then bypassString q (2 ^ 32 - 1) true
  else bypassString q o false

/-- A result in FREEZE is held, up to 64 (R362); a string past them is queued again. -/
def holdResult (q : Locate) (dresult : Nat) : Effect := .look fun s =>
  if s.hid.scan.results.length < 64 then onScan fun x => { x with results := x.results ++ [(q, dresult)] }
  else queueString q

/-- The results held are taken when FREEZE has ended (R362). -/
def takeHeld : Effect := .look fun s => Effect.when (s.mode != Mode.freeze)
  (.seq (onScan fun x => { x with results := [] }) (Effect.each (fun r => takeResult r.1 r.2) s.hid.scan.results))

/-- An OPEN bit of a string (R355). -/
def openFlag (lane array string : Nat) : Effect := .look fun s =>
  let x := s.hid.scan
  let key (q : Locate) : Bool := stringKey q.lane q.array q.string == stringKey lane array string
  .all [
    countField 0x5200 0x0B 63 48,
    almanac 5 0,
    Effect.when (s.reg 0x5200 1 == 1 && !(x.queue.any key || x.testing.any key) &&
        (lookupKey x.recent (stringKey lane array string)).isNone)
      (.seq (Effect.when (x.queue.length < 256) (raise 355 (stringKey lane array string)))
        (queueString ⟨lane, array, string, 0, false, 0, false⟩))]

/-- The string under test of an array, when its pulse has been run. -/
def State.tested (s : State) (lane array string : Nat) : Option Locate :=
  s.hid.scan.testing.find? fun q => q.lane == lane && q.array == array && q.string == string && q.pulsed

/-- One record of a return frame (R347, R355). One whose ARRAY is no strap value, above 3, reports nothing (DESIGN CHOICE, log 82). -/
def takeRecord (lane : Nat) (r : ReturnRecord) : Effect := Effect.when (r.array < 4) (.all [
  setField (0x5110 + lane) 5 (16 * r.array + 15) (16 * r.array) (r.temp % 256 * 256 + r.fault % 16),
  Effect.each (openFlag lane r.array) ((List.range 48).filter (bitAt r.openFlags)),
  .look fun s => Effect.when r.dvalid (Effect.ofOption (s.tested lane r.array r.dstring) fun q => .seq
    (onScan fun x => { x with testing := x.testing.filter (· != q) })
    (if s.mode = Mode.freeze then holdResult q r.dresult else takeResult q r.dresult))])

/-- The strings of a lane whose pulse has brought no result are queued again without an added attempt; one of the sweep
stays one of the sweep (R348, R355, R362). -/
def requeue (lane : Nat) : Effect := .look fun s =>
  let mine := s.hid.scan.testing.filter fun q => q.lane == lane && q.pulsed
  .seq (onScan fun x => { x with testing := x.testing.filter fun q => !(q.lane == lane && q.pulsed) })
    (Effect.each queueString mine)

/-- The records of a frame that is accepted (R346 to R348): RSTART, two data blocks for each array, and REND with their CRC, before
the deadline, in ns after the latch marker. -/
def State.returned (s : State) (elapsed : Nat) (blocks : List LaneBlock) : Option (List ReturnRecord) :=
  match blocks with
  | [] => none
  | first :: rest =>
    let data := (rest.dropLast).map LaneBlock.payload
    let last := rest.getLast?
    if first.control && field first.payload 7 0 == 0x2D && (rest.dropLast).all (fun b => !b.control) && data.length % 2 == 0 &&
        field first.payload 39 32 == data.length / 2 &&
        last.any (fun e => e.control && field e.payload 7 0 == 0x66 && field e.payload 39 8 == crc32 (data.flatMap (bytesLE 8))) &&
        elapsed ≤ 1000 * s.reg 0x5100 2
      then some (returnRecords data) else none

/-- A slot in which n records arrive: the 16th in a row with fewer than ARRAYS is an event (R348). -/
def countShort (lane n : Nat) : Effect := .look fun s =>
  let short := if n < s.arraysOn lane then (s.laneState lane).shortRun + 1 else 0
  .seq (onLane lane fun x => { x with shortRun := short }) (Effect.when (short == 16) (raise 348 lane))

/-- The records of an accepted frame are taken (R348). -/
def takeRecords (lane : Nat) (records : List ReturnRecord) : Effect := .all [
    setField (0x5110 + lane) 3 19 16 records.length,
    countShort lane records.length,
    Effect.each (takeRecord lane) records,
    requeue lane]

/-- RETURN_FRAME (R346 to R348): blocks arrive on a return lane. A frame that is not accepted has no effect; it is missing at
the deadline. -/
def execReturnFrame (lane : Nat) (frame : ReturnWords) (s : State) : Host.Outcome State Fault Refusal :=
  perform (Effect.when (s.isTile && s.scanRuns && s.laneOn lane)
    (Effect.ofOption (s.returned frame.elapsed (laneBlocks frame.before frame.words)) (takeRecords lane))) s

/-- RETURN_FRAME_MISSING (R348): no frame is accepted by the deadline. No record arrives in the slot (DEDUCED, log 82). -/
def execReturnFrameMissing (lane : Nat) (s : State) : Host.Outcome State Fault Refusal :=
  perform (Effect.when (s.isTile && s.scanRuns && s.laneOn lane) (.all [
    countField (0x5110 + lane) 4 15 0, almanac 5 4, countShort lane 0, requeue lane])) s

/-- SWEEP_START (R356): a sweep of every string of every array on a lane that is driven. -/
def execSweepStart (s : State) : Host.Outcome State Fault Refusal :=
  perform (Effect.when (s.isTile && s.scanRuns && s.reg 0x5200 3 != 0 && s.hid.scan.sweepAt.all (48 ≤ ·)) (.seq
    (onScan fun x => { x with
      sweeping := true
      sweepAt := (List.range 128).map fun i => if s.laneOn (i / 4) && i % 4 < s.arraysOn (i / 4) then 0 else 48 })
    showDiagnosis)) s

/-- SLOT_LATCH (R314, R316, R320, R349, R350, R352): the next latch instant of a tile. -/
def execSlotLatch (s : State) : Host.Outcome State Fault Refusal :=
  perform (Effect.when (s.isTile && s.stepped && s.scanRuns)
    (Effect.ofOption s.latchedSlot fun k => .seq (latchSlot s.tick k) takeHeld)) s

/-- 5000h.0D, 5100h.03 and 5200h.0F (R363, R364, R366). -/
def clearLampCounters (k : Key) : Effect := match k / 256 with
  | 0x5000 => set 0x5000 0x0C 0
  | 0x5100 => Effect.each (fun l => set (0x5110 + l) 4 0) (List.range 32)
  | _ => set 0x5200 0x0B 0

end Sys2Proof.Machine
end

