-- ==== Sys2Proof/Machine/Convert.lean ====
section
/-! DEFINITION. The conversion of received pixels to linear light (R214, R215): chroma, matrix, range and transfer function;
only unpacking and DSC decoding are the standards' (log 10). -/

namespace Sys2Proof.Machine

/-- What a source signals of its pixels: the encoding as R243 codes it, bits a sample, binary16 samples, full range, BT.2020
colorimetry and the transfer function. -/
structure Coding where
  flow : Bool
  format : Nat
  width : Nat
  height : Nat
  encoding : Nat
  depth : Nat
  float : Bool
  full : Bool
  wide : Bool
  tf : Nat
  deriving DecidableEq, Repr

/-- The depth of a BPC or DEPTH code (R243, R244). -/
def depthOf (code : Nat) : Nat := [8, 10, 12].getD code 16

/-- The coding of a receiver from its format word (R243) and the range that it signals. -/
def dpCoding (f : Nat) (full : Bool) : Coding :=
  ⟨false, f, field f 63 48, field f 47 32, field f 15 14, depthOf (field f 13 12), false, full, bitAt f 10, field f 7 4⟩

/-- The coding of a flow from its format word (R244) and its transfer function. A flow signals no range: narrow (log 97). -/
def flowCoding (f tf : Nat) : Coding :=
  ⟨true, f, field f 63 48, field f 47 32, field f 15 12, depthOf (field f 11 8), field f 11 8 == 4, false,
    field f 7 4 == 1, tf⟩

/-- A sample as a number: luma and R, G, B from 0 to 1, chroma about 0, in the range that the source signals. -/
def Coding.unit (k : Coding) (c n : Nat) : Rat :=
  let q : Rat := 2 ^ (k.depth - 8)
  let chroma := k.encoding != 0 && c != 0
  if k.float then half n
  else if k.full then ((n : Rat) - (if chroma then 128 * q else 0)) / (2 ^ k.depth - 1)
  else if chroma then ((n : Rat) - 128 * q) / (224 * q)
  else ((n : Rat) - 16 * q) / (219 * q)

/-- The co-sited positions between which a coordinate lies: itself, or its even neighbours, of which the last one has only the
one before it (log 97). -/
def siteOf (halved : Bool) (size i : Nat) : List Nat :=
  if !halved || i % 2 == 0 then [i] else if i + 1 < size then [i - 1, i + 1] else [i - 1]

/-- Component c at x, y, with chroma interpolated linearly between co-sited samples. -/
def Coding.component (k : Coding) (data : List Byte) (x y c : Nat) : Rat :=
  let at' (p q : Nat) : Rat := k.unit c (Config.sample k.flow k.format data p q c)
  let half' := c != 0 && 2 ≤ k.encoding
  let xs := siteOf half' k.width x
  let ys := siteOf (half' && k.encoding == 3) k.height y
  (ys.foldl (fun n q => xs.foldl (fun n p => n + at' p q) n) (0 : Rat)) / (xs.length * ys.length : Nat)

/-- The luma weights of red, green and blue: BT.709 and BT.2020. -/
def lumaWeights (wide : Bool) : Rgb := if wide then ⟨2627 / 10000, 678 / 1000, 593 / 10000⟩ else ⟨2126 / 10000, 7152 / 10000, 722 / 10000⟩

/-- Y, Cb and Cr as R, G and B. -/
def yccToRgb (wide : Bool) (y cb cr : Rat) : Rgb :=
  let k := lumaWeights wide
  let r := y + 2 * (1 - k.r) * cr
  let b := y + 2 * (1 - k.b) * cb
  ⟨r, (y - k.r * r - k.b * b) / k.g, b⟩

/-- A colour made linear (R215): HLG's OOTF, with system gamma 1.2, works on the three components together. -/
def linearRgb (tf : Nat) (c : Rgb) : Rgb :=
  let e := c.map (linearOf tf)
  if tf = 4 then
    let k := lumaWeights true
    e.map (powOf (k.r * e.r + k.g * e.g + k.b * e.b) (1 / 5) * ·)
  else e

/-- The pixel at x, y of a frame in linear light (R214). -/
def Coding.linear (k : Coding) (data : List Byte) (x y : Nat) : Rgb :=
  let v (c : Nat) : Rat := k.component data x y c
  linearRgb k.tf (if k.encoding = 0 then ⟨v 0, v 1, v 2⟩ else yccToRgb k.wide (v 0) (v 1) (v 2))

/-- The stored form of a pixel: RGB48F. -/
def Coding.stored (k : Coding) (data : List Byte) (x y : Nat) : List Byte :=
  let c := k.linear data x y
  bytesLE 2 (halfOf c.r) ++ bytesLE 2 (halfOf c.g) ++ bytesLE 2 (halfOf c.b)

/-- The stored form of a frame. -/
def Coding.frame (k : Coding) (data : List Byte) : List Byte :=
  (List.range k.height).flatMap fun y => (List.range k.width).flatMap fun x => k.stored data x y

end Sys2Proof.Machine
end

