-- ==== Sys2Proof/Machine/Ingest.lean ====
section
/-! DEFINITION. Sender ingest (R205 to R228): DisplayPort receivers, ST 2110 flows, fences, the compressor and BAR2. -/

namespace Sys2Proof.Machine

/-- The index of DisplayPort receiver d, and of flow f (R242). -/
abbrev dpIndex (d : Nat) : Nat := 0x6001 + d
abbrev flowIndex (f : Nat) : Nat := 0x6010 + f

/-- The receivers take data while PIPE is released, and while memory grants their writes (R388, R437). -/
def State.ingesting (s : State) : Bool := s.isSender && s.up .pipe && s.mode != Mode.freeze

/-- A fence value, and its effective value (R220, R221). -/
def State.fence (s : State) (f : Nat) : Nat := s.contentWord 0x6031 1 (16 * f) 8
def State.effective (s : State) (f : Nat) : Nat := s.contentWord 0x6031 1 (16 * f + 8) 8

/-- S[g] (R223). -/
def State.shown (s : State) (g : Nat) : Nat := s.contentWord 0x6102 2 (8 * g) 8

def setFence (f v : Nat) : Effect := storeContent 0x6031 1 (16 * f) (bytesLE 8 v)
def setEffective (f v : Nat) : Effect := storeContent 0x6031 1 (16 * f + 8) (bytesLE 8 v)

/-- The flip group of a source: that of the enabled bindings that name it (R207). -/
def State.groupOf (s : State) (source : Nat) : Option Nat :=
  (s.bindings.find? fun b => (s.binding b).source == source && !(s.binding b).direct).map fun b => (s.binding b).group

/-! The compressor (R221, R226, R227). -/

/-- The present in 1/20 ns: an engine takes a pixel in 5 of them, and a cc has 16. -/
def State.instant (s : State) : Nat := s.hid.time.cycles * 16

/-- The bands of a frame, by their pixels: 64 block rows each (R227). -/
def bandsOf (w h : Nat) : List Nat := (List.range (ceilDiv h 256)).map fun i => w * min 256 (h - 256 * i)

/-- A frame may be compressed: none of its source stands before it, and a set's output slot is free. -/
def State.mayCompress (s : State) (j : CompressJob) : Bool :=
  ((s.hid.ingest.jobs.find? fun k => k.source == j.source).map CompressJob.number == some j.number) &&
    (j.source < 0x40 || match s.groupOf j.source with
      | some g => j.number ≤ s.shown g + 2
      | none => true)

/-- An engine takes the next band at a time: of the frame that became due first, among those that may be compressed. -/
def CompressJob.hand (j : CompressJob) (start : Nat) : CompressJob :=
  { j with bands := j.bands.drop 1, started := true, finish := max j.finish (start + 5 * j.bands.headD 0) }

/-- The engine that is free first takes the next band, if that starts by a limit, and so on for at most n bands. -/
def IngestState.handBands (i : IngestState) (limit : Option Nat) : (n : Nat) → IngestState
  | 0 => i
  | n + 1 =>
    let j := i.handBands limit n
    let free := j.engines.foldl min (j.engines.headD 0)
    match j.jobs.findIdx? fun x => x.ready.isSome && !x.bands.isEmpty with
    | none => j
    | some k =>
      let x := j.jobs.getD k ⟨0, 0, none, [], false, none, 0⟩
      let start := max free (x.ready.getD 0)
      if limit.all (start ≤ ·) then { j with
        engines := updateAt j.engines (j.engines.idxOf free) fun _ => start + 5 * x.bands.headD 0
        jobs := updateAt j.jobs k fun y => y.hand start }
      else j

/-- The bands that no engine has taken. -/
def IngestState.bandsLeft (i : IngestState) : Nat := (i.jobs.map fun j => j.bands.length).sum

/-- The engines take bands up to the present. -/
def runEngines : Effect := .look fun s => onIngest fun i => i.handBands (some s.instant) i.bandsLeft

/-- Frames that may be compressed are open to the engines from now on. -/
def startCompressing : Effect := .all [
  runEngines,
  .look fun s => onIngest fun i => { i with
    jobs := i.jobs.map fun j => if j.ready.isNone && s.mayCompress j then { j with ready := some s.instant } else j },
  runEngines]

/-- A frame of a size becomes due; it replaces one of its source that is still queued, which counts for a surface set. -/
def queueFrame (source number w h : Nat) (frame : Option Frame) : Effect := .seq runEngines (.look fun s =>
  let queued (k : CompressJob) : Bool := k.source == source && !k.started
  .all [
    Effect.when (0x40 ≤ source && s.hid.ingest.jobs.any queued) (count 32 0x6104 4),
    onIngest fun i => { i with
      jobs := (i.jobs.filter fun k => !queued k) ++ [⟨source, number, frame, bandsOf w h, false, none, 0⟩] },
    startCompressing])

/-- When the frame of a source that is under way is finished, in 1/20 ns, as far as the frames that are due tell. -/
def State.finishOf (s : State) (source : Nat) : Option Nat :=
  let i := s.hid.ingest.handBands none s.hid.ingest.bandsLeft
  (i.jobs.find? fun j => j.source == source && j.started).map CompressJob.finish

/-- The pixel codes of a raw surface set's frame, coordinates brought to the nearest edge (R219, R226). -/
def State.rawPixel (s : State) (t : SurfaceSet) (frame x y : Nat) : List Nat :=
  let size := if t.format = 1 then 6 else 8
  let a := t.base + frame % t.buffers * t.stride + min y (t.height - 1) * t.pitch + min x (t.width - 1) * size
  let bs := s.bytes (Space.payload.at a) 6
  (List.range 3).map fun c => natLE (slice bs (2 * c) 2)

/-- The pixel codes of a stored frame. -/
def Frame.pixel (f : Frame) (x y : Nat) : List Nat :=
  let bs := slice f.pixels (6 * (min y (f.height - 1) * f.width + min x (f.width - 1))) 6
  (List.range 3).map fun c => natLE (slice bs (2 * c) 2)

/-- One block of a frame (R253, R254). -/
def blockOfPixels (rate gen : Nat) (pixel : Nat → Nat → List Nat) (bx bY : Nat) : List Byte :=
  encodeBlock rate gen ((List.range 32).map fun p => pixel (8 * bx + p % 8) (4 * bY + p / 8))

/-- The output slot of frame j of a raw surface set (R219). -/
def SurfaceSet.slot (t : SurfaceSet) (j : Nat) : Nat :=
  t.outBase + j % 3 * (ceilDiv (lfcBytes t.width t.height t.rate) 256 * 256)

/-- A whole frame of a raw surface set in LFC form. -/
def State.compressed (s : State) (t : SurfaceSet) (j : Nat) : List Byte :=
  (List.range (ceilDiv t.height 4)).flatMap fun bY => (List.range (ceilDiv t.width 8)).flatMap fun bx =>
    blockOfPixels t.rate (j % 16) (fun x y => s.rawPixel t j x y) bx bY

/-- A frame that the compressor has finished: a set's goes to its output slot and raises its fence's effective value. -/
def finishFrame (j : CompressJob) : Effect := .look fun s => match j.frame with
  | some f => onIngest fun i => { i with ready := insertKey i.ready j.source f }
  | none =>
    let t := s.surfaceSet (j.source - 0x40)
    .seq (storePayload (t.slot j.number) (s.compressed t j.number)) (setEffective t.fence (max (s.effective t.fence) j.number))

/-- COMPRESSION_DONE (R221, R227): the last band of a source's frame is done. -/
def execCompressionDone (source : Nat) (s : State) : Host.Outcome State Fault Refusal :=
  perform (Effect.when s.ingesting (Effect.ofOption (s.finishOf source) fun t => .all [
    advanceCycles (ceilDiv t 16 - s.hid.time.cycles),
    runEngines,
    .look fun u => Effect.ofOption (takeFirst (fun j => j.source == source && j.started) u.hid.ingest.jobs) fun q => .all [
      onIngest fun i => { i with jobs := q.2 },
      count 32 0x6104 2,
      finishFrame q.1,
      startCompressing]])) s

/-! Fences (R218 to R222, R225). -/

/-- The effective value of every enabled set's fence follows the fence: at once for an LFC format, and by a frame for the
compressor for a raw one (R221). -/
def followFence (i : Nat) : Effect := .look fun s =>
  let t := s.surfaceSet i
  let v := s.fence t.fence
  let known := s.hid.ingest.jobs.any fun j => j.source == 0x40 + i && v ≤ j.number
  Effect.when (t.on && s.effective t.fence < v)
    (if t.raw then Effect.when (!known) (queueFrame (0x40 + i) v t.width t.height none) else setEffective t.fence v)

/-- The same for all sets, when a commit has changed the surface table. -/
def followFences : Effect := Effect.each followFence (List.range 64)

/-- A write of a fence (R218, R220). -/
def writeFence (f v : Nat) : Effect := .look fun s =>
  if s.frozen 3 then count 32 0x1644 0x0A
  else if v ≤ s.fence f then count 32 0x6020 3
  else .seq (setFence f v) (Effect.each (fun i => Effect.when ((s.surfaceSet i).fence == f) (followFence i)) (List.range 64))

/-- What BAR4 reads as at an offset (R218, R437): eight aligned bytes of a fence or a shown frame, 0 anywhere else, and all
ones while CORE is held. -/
def State.bar4Read (s : State) (offset count : Nat) : List Byte :=
  if !s.up .core then List.replicate count 0xFF
  else if count != 8 || offset % 8 != 0 then zeroBytes count
  else if offset < 0x800 then bytesLE 8 (s.fence (offset / 8))
  else if offset < 0xA00 then bytesLE 8 (s.shown ((offset - 0x800) / 8))
  else zeroBytes 8

/-- FENCE_WRITE (R218, R220): an access to BAR4, whose fences take writes of eight aligned bytes. -/
def execFenceWrite (access : Bar4Access) (data : List Byte) (s : State) :
    Host.Outcome State Fault Refusal :=
  perform (Effect.when s.isSender (.seq trainPcie (
    if access.isWrite then Effect.when (s.up .core && data.length == 8 && access.offset % 8 == 0 && access.offset < 0x800)
      (writeFence (access.offset / 8) (natLE data))
    else emit (.completion (s.bar4Read access.offset access.count) false)))) s

/-- 6031h.02 (R225, R242): the fence goes to 0, with its effective value and its frames for the compressor. -/
def resetFence (f : Nat) : Effect := .look fun s => .all [
  setFence f 0, setEffective f 0,
  onIngest fun i => { i with jobs := i.jobs.filter fun j =>
    !(0x40 ≤ j.source && (s.surfaceSet (j.source - 0x40)).fence == f) }]

/-! BAR2 (R216, R217). -/

/-- Every byte of n from a payload address lies in an enabled region (R376). -/
def State.allMapped (s : State) (a n : Nat) : Bool :=
  (List.range (n / 256 + 2)).all fun i => s.mapped (min (a + 256 * i) (a + n - 1))

/-- BAR2_ACCESS (R90, R217, R376, R391, R437). -/
def execBar2Access (isWrite : Bool) (address count : Nat) (data : List Byte) (s : State) :
    Host.Outcome State Fault Refusal :=
  let n := if isWrite then data.length else count
  let reads := s.mode != Mode.freeze && s.reg 0x3000 3 == 2 && address + n ≤ hostArea
  let unmapped := address + n ≤ hostArea && !s.allMapped address n
  perform (Effect.when s.isSender (.seq trainPcie (
    if isWrite then Effect.when (s.up .pipe) (
      if s.frozen 3 then Machine.count 32 0x1644 0x0A
      else if hostArea < address + n then Machine.count 32 0x6020 2
      else if unmapped then Machine.count 32 0x3000 6
      else Effect.when (s.reg 0x3000 3 == 2) (storePayload address data))
    else if unmapped then .seq (Machine.count 32 0x3000 6) (emit (.completion (List.replicate n 0xFF) false))
    else if reads then emit (.completion (s.bytes (Space.payload.at address) n)
      ((List.range (n / 16 + 2)).any fun i => address / 16 * 16 + 16 * i < address + n &&
        s.poisoned (address / 16 * 16 + 16 * i)))
    else emit (.completion (List.replicate n 0xFF) false)))) s

/-! DisplayPort (R209 to R211, R214). -/

/-- A complete frame of a source becomes its newest, and goes to the compressor. -/
def newFrame (source w h : Nat) (pixels : List Byte) : Effect := .look fun s =>
  let n := (lookupKey s.hid.ingest.counts source).getD 0 + 1
  let f : Frame := ⟨n, w, h, pixels⟩
  .seq (onIngest fun i => { i with counts := insertKey i.counts source n, newest := insertKey i.newest source f })
    (queueFrame source n w h (some f))

/-- The format in use: what the source signals, unless 6001h+d.07 overrides its transfer function or colorimetry. -/
def State.dpFormat (s : State) (d format : Nat) : Nat :=
  let o := s.reg (dpIndex d) 7
  let f := if field o 7 4 = 15 then format else withField format 7 4 (field o 7 4)
  if field o 3 0 = 15 then f else withField f 10 10 (field o 3 0)

/-- What receiver d supports, and its highest link rate allows (R209, R242, R243): link rate, lanes, encoding and depth,
transfer function, active size, frame rate and pixels a second (log 98). -/
def State.dpSupports (s : State) (d format rate : Nat) : Bool :=
  let w := field format 63 48
  let h := field format 47 32
  field format 23 20 ≤ s.reg (dpIndex d) 2 && [1, 2, 4].contains (field format 19 16) &&
    (field format 13 12 < 3 || (field format 15 14 == 0 && !bitAt format 11)) && field format 7 4 ≤ 5 &&
    1 ≤ w && w ≤ 7680 && 1 ≤ h && h ≤ 4320 && rate ≤ 240 * 65536 && w * h * rate ≤ 2600000000 * 65536

/-- Receiver d takes frames: memory takes its writes, and its HPD is asserted. -/
def State.dpTakes (s : State) (d : Nat) : Bool := s.ingesting && d < 4 && s.hid.ingest.hpd.getD d false

/-- A source that was LOST, and that a binding uses, is so no longer: the self-check has seen it (R154). -/
def noteReturn (source : Nat) (lost : Bool) : Effect := .look fun s =>
  Effect.when (lost && s.bindings.any fun b => (s.binding b).source == source) noteSelf

/-- DP_FRAME_COMPLETE (R210, R211, R214): format as 6001h+d.04 has it, rate as 6001h+d.05 has it. -/
def execDpFrameComplete (d : Nat) (signal : DpSignal) (rate : Nat) (data : List Byte) (s : State) :
    Host.Outcome State Fault Refusal :=
  let f := s.dpFormat d (signal.format &&& 0xFFFFFFFF00FFFCF0)
  let k := dpCoding f signal.fullRange
  perform (Effect.when (s.dpTakes d && s.dpSupports d signal.format rate) (.all [
    noteReturn (0x10 + d) (s.reg (dpIndex d) 3 == 3),
    set (dpIndex d) 4 f,
    set (dpIndex d) 5 rate,
    set (dpIndex d) 3 2,
    countField (dpIndex d) 6 63 32,
    onIngest fun i => { i with
      full := updateAt i.full d fun _ => signal.fullRange
      dpAt := updateAt i.dpAt d fun _ => s.uptime },
    newFrame (0x10 + d) k.width k.height (k.frame data)])) s

/-- DP_FRAME_DROP (R210): the newest complete frame does not change. -/
def execDpFrameDrop (d : Nat) (s : State) : Host.Outcome State Fault Refusal :=
  perform (Effect.when (s.dpTakes d) (countField (dpIndex d) 6 31 16)) s

/-- No frame for three frame periods or for 100 ms, whichever is shorter (R211). -/
def State.dpSilent (s : State) (d : Nat) : Bool :=
  let rate := s.reg (dpIndex d) 5
  (if rate = 0 then 100000000 else min 100000000 (3 * 65536 * 10 ^ 9 / rate)) ≤ s.uptime - s.hid.ingest.dpAt.getD d 0

/-! ST 2110 (R212, R213). -/

/-- A flow's state. -/
def State.flow (s : State) (f : Nat) : FlowState := s.hid.ingest.flows.getD f FlowState.initial

/-- A flow's state changes. -/
def onFlow (f : Nat) (g : FlowState → FlowState) : Effect :=
  onIngest fun i => { i with flows := updateAt i.flows f g }

/-- The sequence number that follows: the extended number of RFC 4175 has 32 bits. -/
def nextSeq (n : Nat) : Nat := (n + 1) % 2 ^ 32

/-- A packet joins a flow's frame. A marker that follows another one finds the frame before it incomplete. -/
def FlowState.take (x : FlowState) (now seq : Nat) (marker : Bool) (payload : List Byte) : FlowState :=
  { x with
    taken := (x.taken.filter fun t => now < t.2 + 2000000) ++ [(seq, now)]
    packets := x.packets ++ [(seq, payload)]
    first := if marker then (x.last.map nextSeq).orElse fun _ => x.first else x.first
    last := if marker then some seq else x.last }

/-- A leg has delivered a packet, the first copy of its number or the second. -/
def FlowState.heard (x : FlowState) (now leg : Nat) : FlowState :=
  { x with
    legs := withBit x.legs leg
    seenAt := updateAt x.seenAt leg fun _ => now }

/-- The flow whose leg takes what comes for an IPv4 multicast group from a source to a UDP port (R212, R242). -/
def State.flowFor (s : State) (leg source group udpPort : Nat) : Option Nat :=
  (List.range 16).find? fun f =>
    let a := s.reg (flowIndex f) (leg + 2)
    s.flag (flowIndex f) 1 leg && s.reg (flowIndex f) 4 == udpPort && field group 31 28 == 0xE && field a 31 0 == group &&
      (field a 63 32 == 0 || field a 63 32 == source)

/-- FLOW_PACKET (R212, R213): the first copy of a number within 2 ms is taken; a packet of another essence or of no flow
is dropped and counted. -/
def execFlowPacket (leg : Nat) (path : FlowPath) (seq : Nat) (marker : Bool) (payload : List Byte) (s : State) :
    Host.Outcome State Fault Refusal :=
  perform (Effect.when (s.isSender && leg < 2 && s.up .link) (.seq (setBit 0x6000 7 leg true) (Effect.when s.ingesting (
    match s.flowFor leg path.source path.group path.udpPort with
    | some f =>
      let x := s.flow f
      .seq (onFlow f fun y => y.heard s.uptime leg)
        (Effect.when (!(x.taken.any fun t => t.1 == seq && s.uptime < t.2 + 2000000)) (.seq
          (Effect.when (marker && x.last.isSome) (countField (flowIndex f) 8 31 16))
          (onFlow f fun y => y.take s.uptime seq marker payload)))
    | none => count 32 0x6000 8)))) s

/-- The packets from the first number of a frame to its last, where every one has arrived. -/
def FlowState.gather (x : FlowState) : (n : Nat) → (seq last : Nat) → Option (List Byte)
  | 0, _, _ => none
  | n + 1, seq, last => match lookupKey x.packets seq with
    | none => none
    | some p => if seq = last then some p else (x.gather n (nextSeq seq) last).map (p ++ ·)

/-- The frame that is complete: from the number after the marker before it to its own marker. -/
def FlowState.complete (x : FlowState) : Option (List Byte) :=
  match x.first, x.last with
  | some a, some b => x.gather x.packets.length a b
  | _, _ => none

/-- A flow after its frame to a marker is done with. -/
def FlowState.after (x : FlowState) (now : Nat) : FlowState :=
  { x with
    packets := match x.last with
      | some b => x.packets.filter fun p => lt32Diff b p.1 < 0
      | none => x.packets
    first := x.last.map nextSeq
    last := none
    legs := 0
    period := x.completedAt.map fun t => now - t
    completedAt := some now }

/-- FLOW_FRAME_COMPLETE (R213): every packet of the frame up to its marker has arrived on either leg. A frame whose first
packet is not known, for no marker came before it, is incomplete. -/
def execFlowFrameComplete (flow : Nat) (s : State) : Host.Outcome State Fault Refusal :=
  let x := s.flow flow
  let k := flowCoding (s.reg (flowIndex flow) 5) (s.reg (flowIndex flow) 6)
  perform (Effect.when (s.ingesting && flow < 16 && s.reg (flowIndex flow) 1 != 0 && x.last.isSome) (
    match x.complete with
    | some data => .all [
        noteReturn (0x20 + flow) (s.reg (flowIndex flow) 7 == 4),
        set (flowIndex flow) 7 (if x.legs = 3 then 2 else 3),
        countField (flowIndex flow) 8 63 32,
        onFlow flow fun y => y.after s.uptime,
        newFrame (0x20 + flow) k.width k.height (k.frame data)]
    | none => Effect.when x.first.isNone (.seq (countField (flowIndex flow) 8 31 16)
        (onFlow flow fun y => { y.after s.uptime with completedAt := y.completedAt, period := y.period })))) s

/-- No frame for three frame periods or for 100 ms, whichever is shorter; with merge on, both legs are silent (R213). -/
def State.flowSilent (s : State) (f : Nat) : Bool :=
  let x := s.flow f
  let limit := min 100000000 ((x.period.map (3 * ·)).getD 100000000)
  limit ≤ s.uptime - x.completedAt.getD x.since &&
    (s.reg (flowIndex f) 1 != 3 || x.seenAt.all fun t => limit ≤ s.uptime - t)

/-- An enabled leg joins the group of its address, for the source there (R212); one that is not enabled leaves no trace. -/
def joinLeg (f leg : Nat) : Effect := .look fun s =>
  let a := s.reg (flowIndex f) (leg + 2)
  let new := if s.flag (flowIndex f) 1 leg then some a else none
  .seq (Effect.when (new.isSome && (s.flow f).joined.getD leg none != new) (emit (.net leg (.join (field a 31 0) (field a 63 32)))))
    (onFlow f fun x => { x with joined := updateAt x.joined leg fun _ => new })

/-- The flow's state follows its legs when a commit has changed them: off or waiting. -/
def followLegs (f : Nat) : Effect := .look fun s => .seq
  (if s.reg (flowIndex f) 1 = 0 then .seq (set (flowIndex f) 7 0) (onFlow f fun _ => FlowState.initial)
    else Effect.when (s.reg (flowIndex f) 7 == 0) (.seq (set (flowIndex f) 7 1) (onFlow f fun x => { x with since := s.uptime })))
  (Effect.each (joinLeg f) [0, 1])

/-! Counters (R242). -/

def clearDpCounters (d : Nat) : Effect := set (dpIndex d) 6 0
def clearFlowCounters (f : Nat) : Effect := set (flowIndex f) 8 0
def clearPcieCounters : Effect := .seq (set 0x6020 2 0) (.seq (set 0x6020 3 0) (set 0x6020 4 0))

end Sys2Proof.Machine
end

