-- ==== Sys2Proof/Machine/Slicer.lean ====
section
/-! DEFINITION. Flips, slicing and launch on a sender (R31, R147, R223 to R238): what each flip deadline settles, the
windows cut from it, the launch of their cells, and the lines of a direct layer. -/

namespace Sys2Proof.Machine

/-- A QUEUE cell (R108, R110). -/
def queueCell (queue src seq lt : Nat) (timed bcast fromEnd first last : Bool) (body : List Byte) : Cell :=
  ⟨1, bcast, fromEnd, false, timed, queue, src, body.length, first, last, seq, lt, padTo 240 body, 0⟩

/-- The cells of a message: 240 bytes each, FIRST on the first and LAST on the last (R231, R232). -/
def messageCells (make : (i : Nat) → (first last : Bool) → List Byte → Cell) (bytes : List Byte) : List Cell :=
  let n := max 1 (ceilDiv bytes.length 240)
  (List.range n).map fun i => make i (i == 0) (i + 1 == n) (slice bytes (240 * i) 240)

/-! The flip deadline (R223 to R225, R229). -/

/-- The modes in which flip groups advance, and those in which layer windows and direct lines are sent (R229). -/
def advancingModes : List Nat := [Mode.run, Mode.derate, Mode.bringup]
def slicingModes : List Nat := Mode.hold :: advancingModes

/-- The enabled bindings that take part in flip groups (R207). -/
def State.framed (c : State) : List Nat := c.bindings.filter fun b => !(c.binding b).direct

/-- The sources of a flip group. -/
def State.members (c : State) (g : Nat) : List Nat :=
  ((c.framed.filter fun b => (c.binding b).group == g).map fun b => (c.binding b).source).eraseDups

/-- A source code names a surface set, or a clip (R205). -/
def isSet (code : Nat) : Bool := 0x40 ≤ code && code < 0x80
def isClip (code : Nat) : Bool := 0x80 ≤ code && code < 0x100

/-- The next frame of a clip at an advance of its group (R223, R245): the frame and the advances since it was taken. -/
def Clip.advance (t : Clip) (frame since : Nat) : Nat × Nat :=
  if since + 1 < t.divider then (frame, since + 1)
  else if frame + 1 < t.frames then (frame + 1, 0)
  else (if t.hold then frame else 0, 0)

/-- A member takes its frame at an advance of its group. A clip that starts at this tick is not among those that move. -/
def advanceMember (c : State) (code : Nat) : Effect := .look fun s =>
  if isClip code then Effect.ofOption (lookupKey s.hid.ingest.clips code) (fun q =>
      onIngest fun i => { i with clips := insertKey i.clips code ((c.clip (code - 0x80)).advance q.1 q.2) })
  else if isSet code then .nothing
  else Effect.ofOption (lookupKey s.hid.ingest.ready code) fun f =>
    onIngest fun i => { i with used := insertKey i.used code f }

/-- A group's windows are marked stale from now on, or no longer. -/
def markStale (g : Nat) (on : Bool) : Effect :=
  onIngest fun i => { i with stale := if on then withBit i.stale g else withoutBit i.stale g }

/-- A group advances to frame k. -/
def advanceGroup (c : State) (g k : Nat) : Effect := .all [
  storeContent 0x6102 2 (8 * g) (bytesLE 8 k),
  markStale g false,
  Effect.each (advanceMember c) (c.members g),
  count 32 0x6102 4,
  onPair fun p => { p with lastFlips := withBit p.lastFlips g }]

/-- One flip group at the deadline of tick n (R223). -/
def settleGroup (n g : Nat) : Effect := .look fun s =>
  let c := s.configAt n
  let sets := ((c.members g).filter isSet).map fun code => c.surfaceSet (code - 0x40)
  let ready := sets.map fun t => s.effective t.fence
  let k := ready.foldl min (ready.headD 0)
  if !(advancingModes.contains (s.modeAt n)) then markStale g false
  else .seq
    (addTo 32 0x6104 3 (sets.filter fun t => t.raw && s.effective t.fence < s.fence t.fence).length)
    (if sets.isEmpty then advanceGroup c g (s.shown g + 1)
      else if k ≤ s.shown g then .seq (markStale g true) (count 32 0x6102 3)
      else advanceGroup c g k)

/-- The clips that the configuration of tick n binds: one that it did not bind before starts at frame 0, and one that it
binds no more is forgotten (R245). -/
def startClips (n : Nat) : Effect := .look fun s =>
  let c := s.configAt n
  let codes := (c.framed.map fun b => (c.binding b).source).eraseDups.filter isClip
  onIngest fun i => { i with clips := codes.foldl (fun l code =>
    insertKey l code ((lookupKey i.clips code).getD (0, 0))) [] }

/-! Windows (R229 to R231). -/

/-- What a binding's windows carry at a tick: the frame number, the flags, and whether there are blocks (R213, R224). A
source of which no frame has come yet has none. -/
structure Picture where
  frame : Nat
  flags : Nat
  blocks : Bool

def State.picture (s : State) (d : Binding) : Picture :=
  let lost := s.sourceLostNow d.source
  let stale := bitAt s.hid.ingest.stale d.group
  let frame := if isSet d.source then some (s.shown d.group)
    else if isClip d.source then some (((lookupKey s.hid.ingest.clips d.source).getD (0, 0)).1)
    else (lookupKey s.hid.ingest.used d.source).map Frame.count
  let clear := (lost && d.clear) || frame.isNone
  ⟨frame.getD 0, (if stale then 1 else 0) + (if lost then 2 else 0) + (if clear then 4 else 0), !clear⟩

/-- The payload address of a block of a surface set or a clip (R219, R226, R245). -/
def State.blockAddress (s c : State) (d : Binding) (bx bY : Nat) : Option Nat :=
  let place (w rate : Nat) := (bY * ceilDiv w 8 + bx) * blockBytes rate
  if isSet d.source then
    let t := c.surfaceSet (d.source - 0x40)
    let j := s.shown d.group
    some ((if t.raw then t.slot j else t.base + j % t.buffers * t.stride) + place t.width t.lfcRate)
  else if isClip d.source then
    let t := c.clip (d.source - 0x80)
    some (t.base + ((lookupKey s.hid.ingest.clips d.source).getD (0, 0)).1 * t.frameBytes + place t.width t.lfcRate)
  else none

/-- One block of a binding's picture. -/
def State.pictureBlock (s c : State) (d : Binding) (bx bY : Nat) : List Byte :=
  match s.blockAddress c d bx bY with
  | some a => s.bytes (Space.payload.at a) (blockBytes (c.bindingRate d))
  | none => match lookupKey s.hid.ingest.used d.source with
    | some f => blockOfPixels (c.bindingRate d) (f.count % 16) f.pixel bx bY
    | none => zeroBytes (blockBytes (c.bindingRate d))

/-- The block columns and rows of a window, in surface order. -/
def WindowBox.blockList (w : WindowBox) : List (Nat × Nat) :=
  (List.range w.hb).flatMap fun j => (List.range w.wb).map fun i => ((w.x0 / 8).toNat + i, (w.y0 / 4).toNat + j)

/-- The descriptor of a window (R231). -/
def windowDescriptor (b rate : Nat) (d : Binding) (p : Picture) (w : WindowBox) : List Byte :=
  bytesLE 1 rate ++ bytesLE 1 (b / 8) ++ bytesLE 1 (b % 8) ++ bytesLE 1 p.flags ++ bytesLE 1 (p.frame % 16) ++
    bytesLE 1 d.group ++ zeroBytes 2 ++ bytesLE 4 p.frame ++ bytesLE 2 w.x0.toNat ++ bytesLE 2 w.y0.toNat ++
    bytesLE 2 w.wb ++ bytesLE 2 w.hb ++ bytesLE 2 d.geo.sw ++ bytesLE 2 d.geo.sh ++
    bytesLE 4 (if p.blocks then w.wb * w.hb * blockBytes rate else 0) ++ zeroBytes 4

/-- A window as one message (R231). -/
def State.windowMessage (s c : State) (b : Nat) (w : WindowBox) : List Byte :=
  let d := c.binding b
  let p := s.picture d
  windowDescriptor b (c.bindingRate d) d p w ++
    if p.blocks then w.blockList.flatMap fun q => s.pictureBlock c d q.1 q.2 else []

/-- The 16-byte words of a window's message that come from poisoned memory (R391). -/
def State.windowPoison (s c : State) (b : Nat) (w : WindowBox) : List Nat :=
  let d := c.binding b
  let size := blockBytes (c.bindingRate d) / 16
  if s.hid.memory.poison.isEmpty || !(s.picture d).blocks then []
  else w.blockList.zipIdx.flatMap fun q => (List.range size).filterMap fun i =>
    match s.blockAddress c d q.1.1 q.1.2 with
    | some a => if s.poisoned (a + 16 * i) then some (2 + size * q.2 + i) else none
    | none => none

/-- The layer cells of binding b for the tile at an address on a port, each with the link blocks to be sent poisoned (R147,
R231, R391). -/
def State.windowCells (s c : State) (n p a b : Nat) : List (Cell × List Nat) :=
  match c.tileWindow b a with
  | none => []
  | some w =>
    let bad := s.windowPoison c b w
    ((messageCells (fun i first last body =>
      queueCell (a * 512 + b) (s.reg 0x1000 6) ((n * 4096 + i) % 2 ^ 32) (s.lt n) true false (s.endOf p) first last body)
        (s.windowMessage c b w)).zipIdx).map fun q =>
      (q.1, (List.range 15).filterMap fun k => if bad.contains (15 * q.2 + k) then some (k + 1) else none)

/-- The tiles of a port by descending hop (R236). -/
def State.farFirst (s : State) (p : Nat) : List Nat :=
  ((List.range 33).reverse).flatMap fun h => ((s.chainOf p).filter fun t => t.2 == h).map (·.1)

/-- The windows cut at a tick: each a tile's address and a binding. -/
def State.windows (s c : State) : List (Nat × Nat) :=
  ((s.hid.link.addresses.map (·.1)).eraseDups).flatMap fun a =>
    (c.framed.filter fun b => (c.tileWindow b a).isSome).map fun b => (a, b)

/-- Tick n is one of the two that a re-lock leaves without windows (R322). -/
def State.relocking (s : State) (n : Nat) : Bool :=
  (s.hid.scan.dark.any fun d => decide (d.1 ≤ n ∧ n ≤ d.2)) || s.hid.commit.pend.any fun c =>
    let u := s.withCommit c
    !c.boot && c.due ≤ n && n ≤ c.due + 1 && u.reg 0x4300 1 * s.reg 0x4300 2 != s.reg 0x4300 1 * u.reg 0x4300 2

/-- The slicer cuts the windows of tick n, and their cells wait for the slots of their ports from LT(n) − 2P on, which is the
flip deadline (R229, R231, R236, R237). A port that the sender yields is silent by design (R156). -/
def sliceTick (n : Nat) : Effect := .look fun s =>
  let c := s.configAt n
  let cells (p : Nat) := (s.farFirst p).flatMap fun a => c.framed.flatMap fun b => s.windowCells c n p a b
  let cut := s.windows c
  Effect.when (slicingModes.contains (s.modeAt n) && !s.relocking n) (.all [
    onIngest fun i => { i with launchTick := n },
    Effect.each (fun p => Effect.when (!s.yielding p) (onPort p fun q => { q with
      egress := q.egress ++ (cells p).map fun x => s.waiting x.1 x.2 })) s.ports,
    addTo 32 0x6105 1 cut.length,
    addTo 32 0x6105 2 (cut.filter fun q => (s.picture (c.binding q.2)).flags % 4 != 0).length,
    Effect.when s.inPair (Effect.each (fun p => Effect.each (fun x => addOwn p n x.1) (cells p)) s.ports)])

/-! Launch (R236, R237). -/

/-- The layer cells that wait for a slot of a port. -/
def PortState.layers (q : PortState) : List Waiting := q.egress.filter fun w => w.rank == 4

/-- How many layer cells wait on all ports of a sender. -/
def State.layersWaiting (s : State) : Nat := (s.ports.map fun p => (s.port p).layers.length).sum

/-- The layer cells that have not left are not sent, and count as an underrun (R94, R237). -/
def dropLayers : Effect := .look fun s => .all [
  Effect.each (fun p => onPort p fun q => { q with egress := q.egress.filter fun w => w.rank != 4 }) s.ports,
  Effect.when (s.layersWaiting != 0) (.all [
    addTo 32 0x1644 0x0C s.layersWaiting,
    almanacCount 1 1 s.layersWaiting,
    onCounts fun t => { t with underruns := t.underruns + s.layersWaiting }])]

/-- What the flip deadline of tick n settles: groups, shown frames, vectors and windows (R223). -/
def flipTick (n : Nat) : Effect := .all [
  dropLayers,
  applyYields n,
  onPair fun p => { p with lastFlips := 0 },
  runEngines,
  .look fun t => Effect.each (settleGroup n) ((List.range 64).filter fun g => !((t.configAt n).members g).isEmpty),
  startClips n,
  .look fun t => Effect.each (fun g => emit (.vector g))
    ((List.range 64).filter fun g => bitAt t.hid.pair.lastFlips g && t.flag 0x6102 1 g),
  startCompressing,
  onIngest fun i => { i with sliced := some n },
  sliceTick n]

/-! The direct layer (R31, R147, R266). -/

/-- The bindings of a direct layer that take a source. -/
def State.directOf (s : State) (source : Nat) : List Nat :=
  s.bindings.filter fun b => 56 ≤ b && (s.binding b).direct && (s.binding b).source == source

/-- One cell of a direct queue leaves for a tile, on each port that reaches it: its SEQ counts the queue's cells of the
tick. -/
def sendDirect (a b : Nat) (first last : Bool) (body : List Byte) : Effect := .look fun s =>
  let n := s.tick
  let q := a * 512 + b
  let earlier := if s.hid.ingest.directTick = n then s.hid.ingest.direct else []
  let i := (lookupKey earlier q).getD 0
  let cell (p : Nat) : Cell :=
    queueCell q s.address ((n * 4096 + i) % 2 ^ 32) (s.lt n) false false (s.endOf p) first last body
  .seq (onIngest fun t => { t with direct := insertKey earlier q (i + 1), directTick := n })
    (Effect.each (fun p => Effect.when (s.portUp p && !s.yielding p) (postCell p (cell p)))
      (s.ports.filter fun p => (s.tilesOn p).contains a))

/-- A segment is one message (R266). -/
def sendSegment (a b : Nat) (bytes : List Byte) : Effect :=
  let n := max 1 (ceilDiv bytes.length 240)
  Effect.each (fun i => sendDirect a b (i == 0) (i + 1 == n) (slice bytes (240 * i) 240)) (List.range n)

/-- The header of a line segment (R266). -/
def segmentHeader (b flags frame y x n : Nat) : List Byte :=
  bytesLE 1 0x30 ++ bytesLE 1 7 ++ bytesLE 1 (b - 56) ++ bytesLE 1 flags ++ bytesLE 4 frame ++ bytesLE 2 y ++
    bytesLE 2 x ++ bytesLE 2 n ++ zeroBytes 2

/-- A source line of a direct binding goes to every tile that shows some of it: its pixels, or CLEAR. -/
def sliceLine (source line : Nat) (pixels : Option (Nat → List Byte)) (b : Nat) : Effect := .look fun s =>
  let d := s.binding b
  let y := d.geo.dy + (line : Int) - d.geo.sy
  let frame := (lookupKey s.hid.ingest.counts source).getD 0
  let lost := s.sourceLostNow source
  Effect.when (d.geo.sy ≤ line && line < d.geo.sy + d.geo.sh) (Effect.each (fun a =>
    Effect.ofOption (s.tileWindow b a) fun w => Effect.when (w.iy0 ≤ y && y < w.iy1) (
      let n := (w.ix1 - w.ix0).toNat
      match pixels with
      | some f => sendSegment a b (segmentHeader b (if lost then 2 else 0) frame y.toNat w.ix0.toNat n ++
          (List.range n).flatMap fun i => f (d.geo.sx + (w.ix0 - d.geo.dx).toNat + i))
      | none => sendSegment a b (segmentHeader b 6 frame y.toNat w.ix0.toNat 0)))
    ((s.hid.link.addresses.map (·.1)).eraseDups))

/-- The coding of a live source. -/
def State.coding (s : State) (source : Nat) : Coding :=
  if isDp source then dpCoding (s.reg (dpIndex (source - 0x10)) 4) (s.hid.ingest.full.getD (source - 0x10) false)
  else flowCoding (s.reg (flowIndex (source - 0x20)) 5) (s.reg (flowIndex (source - 0x20)) 6)

/-- DIRECT_LINE_SLICE (R31, R214, R229): an input line has ended. -/
def execDirectLineSlice (source line : Nat) (data : List Byte) (s : State) : Host.Outcome State Fault Refusal :=
  let pixel (x : Nat) : List Byte := (s.coding source).stored data x line
  perform (Effect.when (s.ingesting && s.stepped && slicingModes.contains s.mode && (isDp source || isFlow source) &&
      s.sourceOn source) (Effect.each (sliceLine source line (some pixel)) (s.directOf source))) s

/-- The lines of a direct layer whose source is LOST and whose binding clears it (R213, R266). -/
def clearLines (source : Nat) : Effect := .look fun s => Effect.when (s.stepped && slicingModes.contains s.mode)
  (Effect.each (fun b => Effect.each (fun line => sliceLine source ((s.binding b).geo.sy + line) none b)
    (List.range (s.binding b).geo.sh)) ((s.directOf source).filter fun b => (s.binding b).clear))

/-- A receiver, or a flow, is LOST (R211, R213). -/
def loseDp (d : Nat) : Effect := .all [
  set (dpIndex d) 3 3, countField (dpIndex d) 6 15 0, clearLines (0x10 + d)]
def loseFlow (f : Nat) : Effect := .all [
  set (flowIndex f) 7 4, countField (flowIndex f) 8 15 0, clearLines (0x20 + f)]

/-- DP_LOST (R211): the link has lost training, or no frame has completed for long enough. -/
def execDpLost (loss : DpLoss) (s : State) : Host.Outcome State Fault Refusal :=
  let d := loss.receiver
  perform (Effect.when (s.isSender && d < 4 && [1, 2].contains (s.reg (dpIndex d) 3) && (loss.trainingLost || s.dpSilent d))
    (loseDp d)) s

/-- FLOW_LOST (R213). -/
def execFlowLost (flow : Nat) (s : State) : Host.Outcome State Fault Refusal :=
  perform (Effect.when (s.isSender && flow < 16 && [1, 2, 3].contains (s.reg (flowIndex flow) 7) && s.flowSilent flow)
    (loseFlow flow)) s

/-- 6105h.03 (R245). -/
def clearSlicerCounters : Effect := .all [
  set 0x6102 3 0, set 0x6102 4 0, set 0x6104 2 0, set 0x6104 3 0, set 0x6104 4 0, set 0x6105 1 0, set 0x6105 2 0]

end Sys2Proof.Machine
end

