-- ==== Sys2Proof/Machine/Preview.lean ====
section
/-! DEFINITION. The preview outputs of a sender (R268 to R272, R280, R317), and the flip deadline that starts their
builds. -/

namespace Sys2Proof.Machine

/-- The index of preview output o. -/
abbrev previewIndex (o : Nat) : Nat := 0x6300 + o

/-- A preview's state. -/
def State.preview (s : State) (o : Nat) : PreviewState := s.hid.ingest.previews.getD o PreviewState.initial

/-- A preview's state changes. -/
def onPreview (o : Nat) (f : PreviewState → PreviewState) : Effect :=
  onIngest fun i => { i with previews := updateAt i.previews o f }

/-- The modes in which previews are built (R272). -/
def State.previewBuilds (s : State) : Bool := [Mode.run, Mode.derate, Mode.hold, Mode.bringup].contains s.mode

/-! The picture (R269, R270). -/

/-- The wall rectangle of output o: x, y, width and height. -/
def State.previewWall (s : State) (o : Nat) : Rect :=
  let p := s.reg (previewIndex o) 3
  let q := s.reg (previewIndex o) 4
  ⟨field p 15 0, field p 31 16, field q 15 0, field q 31 16⟩

/-- The wall point under the centre of an output pixel. -/
def State.previewPoint (s : State) (o px py : Nat) : Rat × Rat :=
  let (w, h, _) := s.previewRaster o
  let r := s.previewWall o
  ((r.x : Rat) + (2 * px + 1 : Nat) * (r.w : Rat) / (2 * max 1 w : Nat),
   (r.y : Rat) + (2 * py + 1 : Nat) * (r.h : Rat) / (2 * max 1 h : Nat))

/-- The colour that a layer has at a wall point: that of the nearest source pixel, if it covers the point. -/
def State.previewLayer (s : State) (d : Binding) (x y : Rat) : Option Rgb :=
  let u := (x - d.geo.dx) * d.geo.sw / max 1 d.geo.dw
  let v := (y - d.geo.dy) * d.geo.sh / max 1 d.geo.dh
  if !(s.picture d).blocks || x < d.geo.dx || (d.geo.dx : Rat) + d.geo.dw ≤ x || y < d.geo.dy ||
      (d.geo.dy : Rat) + d.geo.dh ≤ y then none
  else
    let sx := d.geo.sx + min u.floor.toNat (d.geo.sw - 1)
    let sy := d.geo.sy + min v.floor.toNat (d.geo.sh - 1)
    some (blockPixel (s.bindingRate d) (natLE (s.pictureBlock s d (sx / 8) (sy / 4))) (sy % 4 * 8 + sx % 8))

/-- What the layers of output o show at a wall point: the last that covers it. -/
def State.previewColour (s : State) (o : Nat) (x y : Rat) : Rgb :=
  (s.previewLayers o).foldl (fun acc d => (s.previewLayer d x y).getD acc) ⟨0, 0, 0⟩

/-- The output columns or lines whose centres lie in a span of the wall: from the first to the one after the last. -/
def spanOf (start size count lo len : Nat) : Nat × Nat :=
  let first (edge : Nat) : Nat := (((edge : Rat) - start) * count / max 1 size - 1 / 2).ceil.toNat
  (min count (first lo), min count (first (lo + len)))

/-- The output rectangle of a tile. -/
def State.previewTile (s : State) (o a : Nat) : (Nat × Nat) × (Nat × Nat) :=
  let (w, h, _) := s.previewRaster o
  let r := s.previewWall o
  let t := s.tileRegion a
  (spanOf r.x r.w w t.x t.w, spanOf r.y r.h h t.y t.h)

/-- A pixel lies in a rectangle, and within n pixels of its border. -/
def inSpan (q : (Nat × Nat) × (Nat × Nat)) (px py : Nat) : Bool :=
  q.1.1 ≤ px && px < q.1.2 && q.2.1 ≤ py && py < q.2.2
def onBorder (n : Nat) (q : (Nat × Nat) × (Nat × Nat)) (px py : Nat) : Bool :=
  inSpan q px py && (px < q.1.1 + n || q.1.2 ≤ px + n || py < q.2.1 + n || q.2.2 ≤ py + n)

/-- The addresses whose tiles have a region. -/
def State.mappedTiles (s : State) : List Nat := (List.range 512).filter fun a => (s.tileRegion a).w != 0

/-- A pixel of the grid on tile borders (R270): the first column or line of a tile, or its last where no tile follows
(DESIGN CHOICE, log 103). -/
def State.onTileGrid (s : State) (o px py : Nat) : Bool :=
  let tile (x y : Nat) : Bool := s.mappedTiles.any fun a => inSpan (s.previewTile o a) x y
  s.mappedTiles.any fun a =>
    let q := s.previewTile o a
    inSpan q px py && (px == q.1.1 || py == q.2.1 || (px + 1 == q.1.2 && !tile (px + 1) py) ||
      (py + 1 == q.2.2 && !tile px (py + 1)))

/-- The overlays at an output pixel, in the order of their bits (R270). -/
def State.overlay (s : State) (o px py : Nat) (c : Rgb) : Rgb :=
  let bits := s.reg (previewIndex o) 9
  let tiles := s.mappedTiles.filter fun a => inSpan (s.previewTile o a) px py
  let late (a : Nat) : Bool := s.contentWord 0x2110 1 (256 * a + 16 + 28) 2 != 0
  let c := if bitAt bits 0 && s.onTileGrid o px py then rgbEntry (s.reg 0x6302 3) else c
  let c := if bitAt bits 1 && tiles.any (fun a => s.flag 0x2111 (a / 16 + 1) (a % 16))
    then c.zip (fun p q => (p + q) / 2) (rgbEntry (s.reg 0x6302 1)) else c
  if bitAt bits 2 && tiles.any (fun a => late a && onBorder 2 (s.previewTile o a) px py)
    then rgbEntry (s.reg 0x6302 2) else c

/-- A colour encoded for output o (R270, R280): codes 1 and 2 are clamped to 0 … 1. -/
def State.previewCode (s : State) (o : Nat) (v : Rat) : Nat :=
  let tf := s.reg (previewIndex o) 6
  let full : Nat := 2 ^ s.reg (previewIndex o) 8 - 1
  let e := encodedBy tf (if tf = 1 || tf = 2 then max 0 (min 1 v) else v)
  if v = 0 then 0 else min full (roundRat (e * full)).toNat

/-- A pixel of a preview image, 4 bytes: red lowest, each in 10 bits. -/
def State.previewPixel (s : State) (o px py : Nat) (layers : Bool) : List Byte :=
  let (x, y) := s.previewPoint o px py
  let gain : Rat := (s.int 32 (previewIndex o) 7 : Rat) / 65536
  let v := if layers then (matrixTimes (s.fixMatrix (previewIndex o) 5) (s.previewColour o x y)).map (gain * ·)
    else ⟨0, 0, 0⟩
  let c := s.overlay o px py v
  bytesLE 4 (s.previewCode o c.r + 1024 * s.previewCode o c.g + 1048576 * s.previewCode o c.b)

/-- A whole image of output o. -/
def State.previewImage (s : State) (o : Nat) (layers : Bool) : List Byte :=
  let (w, h, _) := s.previewRaster o
  (List.range h).flatMap fun py => (List.range w).flatMap fun px => s.previewPixel o px py layers

/-! Builds. -/

/-- A build that has not finished is given up (R269); its output still waits for one. -/
def abandonBuild (o : Nat) : Effect := .look fun s => Effect.when (s.preview o).building.isSome (.all [
  onPreview o fun p => { p with building := none, fresh := true },
  count 32 0x6302 6,
  .look fun t => set 0x6302 7 (if t.hid.ingest.previews.any fun p => p.building.isSome then 1 else 0)])

/-- A build begins after the flip deadline of tick n, when the output has started a frame since its last build. -/
def beginBuild (n o : Nat) : Effect := .look fun s =>
  Effect.when (s.reg (previewIndex o) 1 == 1 && (s.preview o).fresh && s.previewBuilds) (.seq
    (onPreview o fun p => { p with building := some n, fresh := false }) (set 0x6302 7 1))

/-- FLIP_DEADLINE (R26, R223, R225, R269): LT(n) − 2P of the tick two after the one shown. -/
def execFlipDeadline (s : State) : Host.Outcome State Fault Refusal :=
  let n := s.tick + 2
  perform (Effect.when (s.isSender && s.up .pipe && s.stepped && s.hid.ingest.sliced != some n) (.all [
    advanceTo (s.at (n - 2)),
    Effect.each abandonBuild [0, 1],
    flipTick n,
    Effect.each (beginBuild n) [0, 1]])) s

/-- PREVIEW_BUILD (R269): the build of output o is finished, in the bank that the output does not read. -/
def execPreviewBuild (o : Nat) (s : State) : Host.Outcome State Fault Refusal :=
  perform (Effect.when (s.isSender && s.up .pipe && s.previewBuilds) (Effect.ofOption (s.preview o).building fun n => .all [
    onPreview o fun p => { p with building := none, built := true, banks := setAt p.banks (1 - p.bank) (s.previewImage o true) },
    set (previewIndex o) 0x0F n,
    count 32 0x6302 5,
    .look fun t => set 0x6302 7 (if t.hid.ingest.previews.any fun p => p.building.isSome then 1 else 0)])) s

/-- PREVIEW_BUILD_ABANDON (R269). -/
def execPreviewBuildAbandon (o : Nat) (s : State) : Host.Outcome State Fault Refusal :=
  perform (Effect.when (s.isSender && s.up .pipe) (abandonBuild o)) s

/-- What output o sends as a frame: the image of its bank, or black in the modes of R272. -/
def State.previewFrame (s : State) (o : Nat) : List Byte :=
  if s.mode = Mode.freeze then zeroBytes (4 * (s.previewRaster o).1 * (s.previewRaster o).2.1)
  else if [Mode.dark, Mode.faultdark].contains s.mode then s.previewImage o false
  else (s.preview o).banks.getD (s.preview o).bank []

/-- The lanes of a sink and of the link limit carry output o's pixels (R268, R318). -/
def State.linkCarries (s : State) (o : Nat) (k : PreviewSink) : Bool :=
  s.reg (0x4000 + o) 5 * 3 * s.reg (previewIndex o) 8 ≤ min k.lanes (s.reg (previewIndex o) 0x0A) * 9697000

/-- What 6300h+o.0B reads with a sink, or without: a sink newly found trains, and so does one whose lanes do not carry the
pixels (R280; DESIGN CHOICE, log 103). -/
def State.sinkState (s : State) (o : Nat) : Option PreviewSink → Nat
  | none => 1
  | some k => if s.reg (previewIndex o) 0x0B ≤ 1 || !s.linkCarries o k then 2 else 3

/-- The EDID of a sink is read, at most 512 bytes of it (R268, R280). -/
def readEdid (o : Nat) (k : PreviewSink) : Effect := .seq (storeContent (previewIndex o) 0x0E 0 (k.edid.take 512))
  (onPreview o fun p => { p with edid := min 512 k.edid.length })

/-- PREVIEW_FRAME_START (R268, R269, R272, R317, R325): pixel 0 of active line 0; a bank newly built is read from here on. A
frame is sent to a sink whose link is active. -/
def execPreviewFrameStart (start : PreviewStart) (s : State) : Host.Outcome State Fault Refusal :=
  let o := start.output
  perform (Effect.when (s.isSender && o < 2 && s.tgRuns o) (.all [
    count 32 (0x4000 + o) 0x0A,
    onScan fun x => { x with frameAt := setAt x.frameAt o s.hid.time.cycles },
    (Effect.when (s.reg (previewIndex o) 1 == 1) (.all [
      onPreview o fun p => { p with fresh := true, bank := if p.built then 1 - p.bank else p.bank, built := false },
      Effect.ofOption start.sink (readEdid o) (onPreview o fun p => { p with edid := 0 }),
      set (previewIndex o) 0x0B (s.sinkState o start.sink),
      Effect.when (s.sinkState o start.sink == 3) (.seq (count 32 (previewIndex o) 0x0C)
        (.look fun t => emit (.pixels o (t.previewFrame o))))]))])) s

/-- PREVIEW_LINE_UNDERRUN (R94, R319): the previous line is repeated. -/
def execPreviewLineUnderrun (o : Nat) (s : State) : Host.Outcome State Fault Refusal :=
  perform (Effect.when (s.isSender && o < 2 && s.reg (previewIndex o) 1 == 1 && s.tgRuns o) (.seq
    (count 32 (previewIndex o) 0x0D) (tgEvent o TgEvent.underrun))) s

/-- The state of an output follows its enable when a commit has changed it. -/
def followPreview (o : Nat) : Effect := .look fun s =>
  Effect.when (s.reg (previewIndex o) 1 == 0) (.seq (set (previewIndex o) 0x0B 0) (onPreview o fun _ => PreviewState.initial))

/-- 6300h+o.10 and 6302h.08 (R280). -/
def clearPreviewCounters (o : Nat) : Effect := .seq (set (previewIndex o) 0x0C 0) (set (previewIndex o) 0x0D 0)
def clearBuildCounters : Effect := .seq (set 0x6302 5 0) (set 0x6302 6 0)

end Sys2Proof.Machine
end

