-- ==== Sys2Proof/Machine/Queues.lean ====
section
/-! DEFINITION. The queue engine of a sender for streams 64 to 511 (R53, R54, R147, R232 to R236, R241): which port reaches
a tile, messages on a queue, and the host rings. -/

namespace Sys2Proof.Machine

/-! Reachability (R53, R54, R160). -/

/-- A tile carries what a port sends on to the next one: its latest Harvest says that its far port is UP. A tile that has
not reported yet is taken to do so. -/
def State.carries (s : State) (p a : Nat) : Bool :=
  let far := if s.endOf p then 0 else 1
  (lookupKey s.hid.pair.heard a).isNone ||
    (!s.flag 0x2111 (a / 16 + 1) (a % 16) && s.contentWord 0x2110 1 (256 * a + 64 + 8 * far) 1 == s.link p)

/-- A port reaches a tile: it is UP, and every tile before it on the chain carries its cells on. -/
def State.reaches (s : State) (p a : Nat) : Bool :=
  s.portUp p && match (s.chainOf p).find? fun t => t.1 == a with
    | some t => (s.chainOf p).all fun q => t.2 ≤ q.2 || s.carries p q.1
    | none => false

/-- The port on which a request or a message for a tile leaves. -/
def State.portTo (s : State) (a : Nat) : Option Nat := s.ports.find? fun p => s.reaches p a

/-- The ports on which a broadcast leaves: every UP port with a chain, and the far end of a loop that is broken. -/
def State.castPorts (s : State) : List Nat := s.ports.filter fun p => s.portUp p && !(s.tilesOn p).isEmpty &&
  (s.chainPort p == p || (s.tilesOn p).any fun a => !s.reaches (s.chainPort p) a)

/-! Messages. -/

/-- A message waits for slots of ports as cells, numbered by the queue's own counter (R147, R232). When its last cell has
left the first port, the ring moves on that it came from, if any (R233). -/
def sendMessage (ports : List Nat) (queue : Nat) (timed bcast : Bool) (lt : Nat) (bytes : List Byte)
    (ring : Option Nat := none) : Effect := .look fun s =>
  let first := (s.queue queue).seq.getD (s.tick * 4096 % 2 ^ 32)
  let cells (p : Nat) := messageCells (fun i head last body =>
    queueCell queue s.address ((first + i) % 2 ^ 32) (if timed then lt else 0) timed bcast (s.endOf p) head last body) bytes
  let n := max 1 (ceilDiv bytes.length 240)
  .seq (onQueue queue fun c => { c with seq := some ((first + n) % 2 ^ 32) })
    (Effect.each (fun p => Effect.each (fun c =>
      queueUp p (s.waiting c [] (if c.last && ports.head? == some p then ring else none))) (cells p)) ports)

/-- The ports on which a tile's QUEUE cells leave, none when it cannot be reached (R53, R144): both ends of a looped chain of
a single sender, each with its END; the own end of a chain in a pair. -/
def State.copyPorts (s : State) (a : Nat) : List Nat :=
  if (s.portTo a).isNone then [] else s.ports.filter fun p => s.portUp p && (s.tilesOn p).contains a

/-- The ports of a queue's messages: none when the target cannot be reached. -/
def State.queuePorts (s : State) (queue : Nat) (bcast : Bool) : List Nat :=
  if bcast then s.ports.filter fun p => s.portUp p && !(s.tilesOn p).isEmpty else s.copyPorts (queue / 512)

/-! Host rings (R232, R233, R235). -/

/-- A descriptor of a ring. -/
structure Descriptor where
  addr : Nat
  length : Nat
  lt : Nat
  flags : Nat
  rest : Nat
  deriving DecidableEq, Repr

/-- The descriptor at the head of a queue's ring. -/
def State.headDescriptor (s : State) (q : Nat) : Descriptor :=
  let c := s.queue q
  let w (o n : Nat) := s.word (Space.payload.at (c.base + 32 * c.head + o)) n
  ⟨w 0 8, w 8 4, w 12 4, w 16 1, w 17 15⟩

/-- A descriptor that the engine can send (R232). -/
def Descriptor.good (d : Descriptor) (q : Nat) : Bool :=
  1 ≤ d.length && d.length ≤ 16777216 && d.flags < 4 && d.rest == 0 && (!bitAt d.flags 1 || q < 512)

/-- A message of a queue's ring waits for slots. -/
def State.inFlight (s : State) (q : Nat) : Bool := s.hid.ports.any fun p => p.egress.any fun w => w.ring == some q

/-- The engine sends the message at the head of a ring, unless it is held for its time, has no way to its target, or is bad;
the head moves on when its last cell leaves (R232 to R235). -/
def runQueue (q : Nat) : Effect := .look fun s =>
  let c := s.queue q
  let d := s.headDescriptor q
  let timed := bitAt d.flags 0
  let lt := (lookupKey s.hid.ingest.held q).getD d.lt
  let ports := s.queuePorts q (bitAt d.flags 1)
  if 2 ≤ c.state || s.inFlight q then .nothing
  else if c.head = c.tail then onQueue q fun c => { c with state := 0 }
  else if !d.good q then .seq (onQueue q fun c => { c with state := 3 }) (count 32 0x2201 2)
  else if timed && s.moreThanP (lt32Diff lt s.lt32) 1 then
    .seq (onQueue q fun c => { c with state := 1 }) (onIngest fun i => { i with held := insertKey i.held q lt })
  else if ports.isEmpty then onQueue q fun c => { c with state := 1 }
  else .seq (onQueue q fun c => { c with state := 1 })
    (sendMessage ports q timed (bitAt d.flags 1) lt (s.bytes (Space.payload.at d.addr) d.length) (some q))

/-- The engine runs while PIPE is released and memory grants its reads. -/
def startQueue (q : Nat) : Effect := .look fun s => Effect.when (s.up .pipe && s.mode != Mode.freeze) (runQueue q)

/-- The last cell of a ring's message has left: the head moves on, and the next message comes (R233). -/
def moveRing (q : Nat) : Effect := .all [
  onQueue q fun c => { c with head := if c.size = 0 then 0 else (c.head + 1) % c.size },
  onIngest fun i => { i with held := removeKey i.held q },
  startQueue q]

/-- Every queue that has something to send is looked at again. -/
def runQueues : Effect := .look fun s =>
  Effect.each (fun q => startQueue q.1) (s.hid.ingest.queues.filter fun q => q.2.state ≤ 1 && q.2.head != q.2.tail)

/-- A new tail is refused for a stream below 256, for a ring that is disabled, or when it would pass the head (R233). -/
def State.tailRefused (s : State) (q tail : Nat) : Bool :=
  let c := s.queue q
  let used := (c.tail + c.size - c.head) % c.size
  q % 512 < 256 || c.state == 2 || c.size ≤ tail || c.size ≤ used + (tail + c.size - c.tail) % c.size

/-- A doorbell. -/
def ring (q tail : Nat) : Effect := .look fun s =>
  if s.tailRefused q tail then count 32 0x6020 4
  else .seq (onQueue q fun c => { c with tail := tail }) (startQueue q)

/-- DOORBELL (R218, R233): eight aligned bytes at 0x1000 of BAR4; any other access does nothing. Bits that must be 0 and are
not make it refused. -/
def execDoorbell (offset : Nat) (data : List Byte) (s : State) : Host.Outcome State Fault Refusal :=
  let v := natLE data
  perform (.seq trainPcie (Effect.when (s.isSender && s.up .core && offset == 0x1000 && data.length == 8) (
    if field v 31 18 != 0 || field v 63 48 != 0 then count 32 0x6020 4 else ring (field v 17 0) (field v 47 32)))) s

/-- TIMED_MESSAGE_RELEASE (R235): LT of the message that a queue holds has come within P. -/
def execTimedMessageRelease (queue : Nat) (s : State) : Host.Outcome State Fault Refusal :=
  perform (Effect.when s.isSender (Effect.ofOption (lookupKey s.hid.ingest.held queue) fun lt =>
    .seq (advanceTo ((s.ns : Int) + lt32Diff lt s.lt32 - s.period.floor)) (startQueue queue))) s

/-- The queue commands of 2200h.09 (R241): an error ends with a reset. -/
def resetQueue (q : Nat) : Effect := .all [
  onQueue q fun c => { c with head := 0, tail := 0, state := if c.state = 2 then 2 else 0 },
  onIngest fun i => { i with held := removeKey i.held q },
  .look fun s => Effect.each (fun p => onPort p fun x => { x with
    egress := x.egress.map fun w => if w.ring == some q then { w with ring := none } else w }) s.ports]

def disableQueue (q : Nat) : Effect := onQueue q fun c => { c with state := 2 }

def enableQueue (q : Nat) : Effect := .look fun s =>
  .seq (Effect.when ((s.queue q).state == 2) (onQueue q fun c => { c with state := 0 })) (startQueue q)

/-- 2201h.03 (R241). -/
def clearQueueCounters : Effect := .seq (set 0x2201 2 0)
  (onIngest fun i => { i with queues := i.queues.map fun q => (q.1, { q.2 with cells := 0 }) })

end Sys2Proof.Machine
end

