-- ==== Sys2Proof/Machine/Sync.lean ====
section
/-! DEFINITION. SYNC outputs (R299, R300, R310), the slot planner (R303, R309) and the table loader (R294, R311) of a
sender. -/

namespace Sys2Proof.Machine

/-- The index of SYNC output k. -/
abbrev syncIndex (k : Nat) : Nat := 0x4330 + k

/-- A sender's SYNC outputs run in a mode: also in BOOT during a warm reset (R300, R438). -/
def State.syncMode (s : State) : Bool :=
  [3, 4, 5, 6, 7, 8, 11].contains s.mode || (s.mode == Mode.boot && s.hid.reset.warmStart)

/-- Edge instants of output k around the tick shown, in 1/64 cc, of which a ns has 80 (R299, R300). -/
def State.syncEdges (s : State) (k : Nat) : List Int :=
  let rel := s.reg (syncIndex k) 2
  let f := max 1 (field rel 7 0)
  let offset : Int := (80 * s.reg (syncIndex k) 4 : Nat)
  let ticks := (List.range (3 * f + 3)).map fun j => s.tick + j - f
  if field rel 15 8 = 0 then (ticks.filter fun n => n % f == s.reg (syncIndex k) 3).map fun n => 80 * s.at n + offset
  else ticks.flatMap fun n => (List.range f).map fun i => 80 * s.at n + (80 * s.period * i / f).floor + offset

/-- The next edge of output k at or after an instant, later than its last one. -/
def State.nextEdge (s : State) (k : Nat) (t : Int) : Option Int :=
  (s.syncEdges k).find? fun e => decide (t ≤ e) && ((lookupKey s.hid.ingest.edges k).all fun l => decide (l < e))

/-- Output k runs: mode 1, or mode 2 after its start (R300). -/
def State.syncRuns (s : State) (k : Nat) : Bool :=
  s.isSender && k < 8 && s.stepped && s.syncMode &&
    (s.reg (syncIndex k) 1 == 1 || (s.reg (syncIndex k) 1 == 2 && s.reg (syncIndex k) 8 == Status.applied))

/-- Local time in 1/64 cc. -/
def State.step64 (s : State) : Int := ((s.hid.time.now / 4096 : Nat) : Int)

/-- SYNC_EDGE (R300): the ball goes active at the next edge instant, for the width. -/
def execSyncEdge (k : Nat) (s : State) : Host.Outcome State Fault Refusal :=
  let active := s.reg (syncIndex k) 6 == 0
  perform (Effect.when (s.syncRuns k) (Effect.ofOption (s.nextEdge k s.step64) fun e => .all [
    advanceToStep e,
    onIngest fun i => { i with edges := insertKey i.edges k e },
    count 32 (syncIndex k) 9,
    emit (.pulse k active e (s.reg (syncIndex k) 5))])) s

/-- SYNC_START (R300): the first edge instant at or after the start time has come. -/
def execSyncStart (k : Nat) (s : State) : Host.Outcome State Fault Refusal :=
  let due := (s.ns : Int) + lt32Diff (s.reg (syncIndex k) 7) s.lt32
  perform (Effect.when (s.isSender && k < 8 && s.stepped && s.syncMode && s.reg (syncIndex k) 1 == 2 &&
      s.reg (syncIndex k) 8 == Status.pending) (Effect.ofOption (s.nextEdge k (max (80 * due) s.step64)) fun e =>
    .seq (advanceToStep e) (set (syncIndex k) 8 Status.applied))) s

/-- The start time is written (R300): the output waits, with LATE when the time does not lie ahead under R176. -/
def writeStartTime (k t : Nat) : Effect := .look fun s => .seq (set (syncIndex k) 7 t)
  (set (syncIndex k) 8 (if lt32Diff t s.lt32 ≤ 0 then Status.late else Status.pending))

/-! The planner (R303). -/

/-- The configuration that the planner works on: camera, tick and blanking entries as staged. -/
def State.planConfig (s : State) : State := s.withCommit
  ⟨s.hid.commit.staged.filter fun e =>
    let i := e.1 / 256
    (0x4310 ≤ i && i < 0x4318) || i == 0x4300 || i == 0x4320, [], none, false, 0, none⟩

/-- The view that the cameras want in slot k of a profile: none of them, one view, or views that differ. -/
def State.plannedView (c : State) (b : Bool) (k : Nat) : List Nat :=
  (((List.range 8).filter fun q => c.cameraOn q && (c.cameraSlots b q).1.contains k).map fun q =>
    c.reg (0x4310 + q) 2).eraseDups

/-- Sixteen slots of a planned map (R295). -/
def State.plannedMap (c : State) (b : Bool) (from' : Nat) : Nat :=
  (List.range 16).foldl (fun m j =>
    let k := from' + j
    if k < c.slotsIn b then m + (c.plannedView b k).headD (c.reg 0x4320 7) * 16 ^ j else m) 0

/-- 4320h.01 (R303). -/
def planSlots : Effect := .look fun s =>
  let c := s.planConfig
  let clash (b : Bool) : Bool := (List.range (c.slotsIn b)).any fun k => 1 < (c.plannedView b k).length
  if clash false || clash true then set 0x4320 2 Status.consistency
  else .all [
    set 0x4320 2 Status.ok,
    set 0x4320 3 (c.plannedMap false 0), set 0x4320 4 (c.plannedMap false 16),
    set 0x4320 5 (c.plannedMap true 0), set 0x4320 6 (c.plannedMap true 16)]

/-! The table loader (R294). -/

/-- What the command answers, from the entries that it takes. -/
def State.loaderStatus (s : State) : Nat :=
  let target := s.reg 0x2202 1
  let a := s.reg 0x2202 3
  let n := s.reg 0x2202 4
  if s.reg 0x2202 6 = 0xFF then Status.busy
  else if s.reg 0x2202 2 < 64 || 127 < s.reg 0x2202 2 || hostArea < a + n || a % 256 != 0 || n < 32 || 16777216 < n then
    Status.range
  else if target = 0xFFFF then (if s.castPorts.isEmpty then Status.unreachable else Status.ok)
  else if (s.portTo target).isNone then Status.unreachable else Status.ok

/-- The message in flight leaves, once PIPE is released and memory grants its reads. -/
def runLoader : Effect := .look fun s =>
  let bcast := s.reg 0x2202 1 == 0xFFFF
  let q := (if bcast then 0 else s.reg 0x2202 1 * 512) + s.reg 0x2202 2
  Effect.when (s.isSender && s.reg 0x2202 6 == 0xFF && s.up .pipe && s.mode != Mode.freeze) (.seq
    (sendMessage (s.queuePorts q bcast) q false bcast 0 (s.bytes (Space.payload.at (s.reg 0x2202 3)) (s.reg 0x2202 4)))
    (set 0x2202 6 Status.ok))

/-- 2202h.05 (R294, R311). -/
def startLoader : Effect := .look fun s =>
  if s.loaderStatus = Status.busy then .nothing
  else if s.loaderStatus = Status.ok then .seq (set 0x2202 6 0xFF) runLoader
  else set 0x2202 6 s.loaderStatus

end Sys2Proof.Machine
end

