-- ==== Sys2Proof/Machine/Requests.lean ====
section
/-! DEFINITION. The sender as a gateway (R53 to R56, R125 to R132): requests to tiles and what their answers do, broadcast
writes, link resets (R124), and the update distribution (R466). -/

namespace Sys2Proof.Machine

/-! Tags and cells. -/

/-- A sweep tag that no request of a port holds (R125, R129): 512 sweeps at most are outstanding on each. -/
def State.freeTag (s : State) (p : Nat) : Option Nat :=
  ((List.range 512).map fun i => (s.hid.doors.nextTag + i) % 512).find? fun t =>
    !(s.hid.doors.requests.any fun r => r.port == p && r.tag == t)

/-- A sweep cell with one entry leaves on a port (R125, R128); SEQ counts the service cells of the gateway, from 0 (R108; the first
number DEDUCED, log 58). -/
def sendSweep (p tag : Nat) (e : ServiceEntry) : Effect := .look fun s =>
  let body := (spreadEntry e).flatten
  .seq (postCell p { plainCell 2 s.address body.length s.hid.doors.cells 0 true (s.endOf p) false body with queue := tag })
    (onDoors fun d => { d with nextTag := (tag + 1) % 512, cells := (d.cells + 1) % 2 ^ 32 })

/-- The value that a remote write carries has the length of the tile's entry; a sweep entry carries no length, so the gateway
checks it (R41, R125; DEDUCED, log 58). -/
def remoteLengthOk (op key : Nat) (value : List Byte) : Bool :=
  op != 2 || match rowAt .tile key with
    | some r => r.acc == .ro || r.acc == .konst || r.ty == .domain || lengthOk r.ty value
    | none => value.length ≤ 64

/-- The bytes of an answered value that belong to the tile's entry (R126, R128). -/
def remoteValue (op key : Nat) (value : List Byte) : List Byte :=
  if op = 1 || op = 3 then match rowAt .tile key with
    | some r => value.take (if r.ty = .domain then 4 else r.ty.size)
    | none => value.take 1
  else if op = 4 then value else []

/-! The update distribution: its part that does not send (R466). -/

/-- A target is refused. -/
def refuseTarget (a : Nat) : Effect := onUpdate fun u => { u with
  targets := u.targets.filter (· != a), ready := u.ready.filter (· != a)
  refused := if u.refused.contains a then u.refused else u.refused ++ [a] }

/-- A target is done with the stage. -/
def targetReady (a : Nat) : Effect := onUpdate fun u => { u with
  ready := if u.ready.contains a then u.ready else u.ready ++ [a] }

/-- The distribution ends (R466 step 6). -/
def endUpdate (status : Nat) : Effect := .look fun s =>
  let u := s.hid.update
  .all [
    set 0x1520 8 u.targets.length, set 0x1520 9 u.refused.length,
    storeContent 0x1520 0x0A 0 (bytesLE 64 (u.refused.foldl withBit 0)),
    set 0x1520 6 status,
    onUpdate fun u => { u with targets := [], refused := [], ready := [], stage := 0, sentTo := 0 }]

/-! Answers. -/

/-- A request is answered: its mailbox, its record or the distribution takes the status and the value. -/
def finishRequest (r : Request) (status : Nat) (value : List Byte) : Effect :=
  let v := if status = Status.ok || status = Status.notStaged then remoteValue r.op r.key value else []
  .seq (onDoors fun d => { d with requests := d.requests.filter (· != r) }) (match r.asker with
    | .mailbox n => .seq
        (Effect.when (!v.isEmpty) (Effect.each (fun j => set (0x1020 + n) (6 + j) (natLE (slice v (8 * j) 8))) (List.range 8)))
        (set (0x1020 + n) 0x0F status)
    | .record d i => onDoors fun x => { x with datagrams := x.datagrams.map fun q =>
        if q.number = d then { q with records := updateAt q.records i fun c => { c with status := some status, value := v } }
        else q }
    | .update => .look fun s =>
        let u := s.hid.update
        let good := status == Status.ok
        let byte := natLE (v.take 1)
        Effect.when (u.targets.contains r.target) (match u.stage with
          | 1 => Effect.when (!good) (refuseTarget r.target)
          | 2 => Effect.when (good && byte == 2) (targetReady r.target)
          | 4 => if !good then refuseTarget r.target else targetReady r.target
          | 5 => if !good then refuseTarget r.target else Effect.when (byte != 3) (targetReady r.target)
          | 6 => if good && byte == 0 then targetReady r.target else refuseTarget r.target
          | _ => .nothing))

/-! Sending. -/

/-- A request leaves for a target on the port that reaches it, or is answered at once. -/
def sendRequest (asker : Asker) (target op key : Nat) (value : List Byte) (stream : Option Nat) : Effect := .look fun s =>
  let r (tag p : Nat) : Request := ⟨tag, p, asker, target, op, key, stream, s.uptime⟩
  match s.portTo target with
  | none => finishRequest (r 0 0) Status.unreachable []
  | some p => match s.freeTag p with
  | none => finishRequest (r 0 0) Status.busy []
  | some tag =>
    if !remoteLengthOk op key value then finishRequest (r 0 0) Status.length []
    else .seq (onDoors fun d => { d with requests := d.requests ++ [r tag p] })
      (sendSweep p tag ⟨target, key, op, 0xFF, 0, value⟩)

/-- The stream of the transfer to a target: the one it holds, or the first free one; none when all 64 are held (R56). -/
def State.transferStream (s : State) (target : Nat) : Option Nat :=
  match s.hid.doors.transfers.find? fun t => t.target == target with
  | some t => some t.stream
  | none => (List.range' 128 64).find? fun q => !(s.hid.doors.transfers.any fun t => t.stream == q)

/-- An op moves content in a transfer: the transfer is open, and was used now (R56). -/
def touchTransfer (stream target key : Nat) : Effect := .look fun s => onDoors fun d => { d with
  transfers := (d.transfers.filter fun t => t.stream != stream) ++ [⟨stream, target, key, s.uptime⟩] }

/-- A DOMAIN op goes to a tile, with its content ahead of it for a write (R56, R132). -/
def sendDomain (asker : Asker) (target op key offset count : Nat) (data : List Byte) : Effect := .look fun s =>
  let fail (status : Nat) : Effect := finishRequest ⟨0, 0, asker, target, op, key, none, s.uptime⟩ status []
  if count = 0 || 1024 < count then fail Status.length
  else match s.portTo target, s.transferStream target with
  | none, _ => fail Status.unreachable
  | some _, none => fail Status.busy
  | some _, some q => .all [
      touchTransfer q target key,
      Effect.when (op == 5) (sendMessage (s.copyPorts target) (target * 512 + q) false false 0 data),
      sendRequest asker target op key (bytesLE 4 offset ++ bytesLE 2 count ++ bytesLE 2 q) (some q)]

/-- A WRITE goes to all tiles, on every port that has a chain (R54, R131). -/
def sendBroadcast (key : Nat) (value : List Byte) : Effect := .look fun s => Effect.each (fun p =>
  .look fun t => Effect.ofOption (t.freeTag p) fun tag => sendSweep p tag ⟨0xFFFF, key, 2, 0xFF, 0, value⟩) s.castPorts

/-- The answer to a broadcast (R54, R53). -/
def State.broadcastStatus (s : State) (op key : Nat) (value : List Byte) : Nat :=
  if op != 2 then Status.range
  else if !remoteLengthOk op key value then Status.length
  else if s.castPorts.isEmpty then Status.unreachable
  else Status.ok

/-! Link resets (R124). -/

/-- 1102h.03 (R124, R451): two RESET slots, 100 µs apart, on the port that reaches the target, or on every port that has a
chain; they wait at priority 3 of R236. -/
def resetLink : Effect := .look fun s =>
  let target := s.reg 0x1102 1
  let kind := s.reg 0x1102 2
  let ports := if target = 0xFFFF then s.castPorts else (s.portTo target).toList
  if ports.isEmpty then set 0x1102 4 Status.unreachable
  else .seq (Effect.each (fun p => Effect.each (fun i => queueUp p ⟨3, .reset target kind, s.uptime + 100000 * i, none⟩)
    (List.range 2)) ports) (set 0x1102 4 Status.ok)

/-! The update distribution (R466). -/

/-- No request of the distribution is outstanding. -/
def State.updateQuiet (s : State) : Bool := !(s.hid.doors.requests.any fun r => r.asker == .update)

/-- Each target that is not done with the stage, and has no request outstanding, is asked for an entry. -/
def askTargets (key : Nat) : Effect := .look fun s =>
  Effect.each (fun a => Effect.when (!(s.hid.update.ready.contains a) &&
      !(s.hid.doors.requests.any fun r => r.asker == .update && r.target == a))
    (sendRequest .update a 1 key [] none)) s.hid.update.targets

/-- A stage of the distribution begins. -/
def updateStage (n : Nat) : Effect := .look fun s => onUpdate fun u => { u with stage := n, ready := [], since := s.uptime }

/-- A firmware block of the distribution: header and data, the last padded with 0xFF (R466, R467). -/
def State.updateBlock (s : State) (offset : Nat) : List Byte :=
  let n := min 16384 (s.reg 0x1520 3 - offset)
  let data := s.bytes (Space.payload.at (s.reg 0x1520 2 + offset)) n
  let padded := data ++ List.replicate (ceilDiv n 64 * 64 - n) 0xFF
  bytesLE 4 0x4B4C4246 ++ bytesLE 4 offset ++ bytesLE 4 padded.length ++ bytesLE 4 (crc32 padded) ++ padded

/-- The blocks that the rate 1520h.07 allows by now leave, n of them at most (R466 step 4). -/
def sendBlocks : (n : Nat) → Effect
  | 0 => .nothing
  | n + 1 => .look fun s =>
    let u := s.hid.update
    let bcast := s.reg 0x1520 1 == 0xFFFF
    let q := (if bcast then 0 else s.reg 0x1520 1 * 512) + s.reg 0x1520 4
    Effect.when (u.sentTo < s.reg 0x1520 3 && u.sentTo * 10 ^ 9 ≤ (s.uptime - u.since) * s.reg 0x1520 7) (.all [
      sendMessage (s.queuePorts q bcast) q false bcast 0 (s.updateBlock u.sentTo),
      onUpdate fun x => { x with sentTo := x.sentTo + 16384 },
      sendBlocks n])

/-- The distribution goes on as far as it can (R466 steps 2 to 6): stages 1 open, 2 wait for OPEN, 3 blocks, 4 close, 5 wait
for the close, 6 results. -/
def updateOn : Effect := .look fun s =>
  let u := s.hid.update
  let all := u.targets.all u.ready.contains
  let limit := ceilDiv (s.reg 0x1520 3) 65536 * 4 * 10 ^ 8 + 10 ^ 9
  Effect.when (s.isSender && u.stage != 0 && s.mode != Mode.freeze) (
    if u.targets.isEmpty then endUpdate Status.ok
    else match u.stage with
    | 1 => Effect.when s.updateQuiet (.seq (updateStage 2) (askTargets (keyOf 0x1500 2)))
    | 2 =>
      if all then updateStage 3
      else if u.since + limit ≤ s.uptime then Effect.each (fun a => Effect.when (!(u.ready.contains a)) (refuseTarget a)) u.targets
      else askTargets (keyOf 0x1500 2)
    | 3 => .seq (sendBlocks 2048) (.look fun t => Effect.when (t.reg 0x1520 3 ≤ t.hid.update.sentTo) (.seq (updateStage 4)
        (Effect.each (fun a => sendRequest .update a 2 (keyOf 0x1500 1) [2] none) t.hid.update.targets)))
    | 4 => Effect.when (s.updateQuiet && all) (.seq (updateStage 5) (askTargets (keyOf 0x1500 2)))
    | 5 => if all then .seq (updateStage 6) (askTargets (keyOf 0x1500 5)) else askTargets (keyOf 0x1500 2)
    | _ => Effect.when (s.updateQuiet && all) (endUpdate Status.ok))

/-- The tiles of a distribution (R466 step 1). -/
def State.updateTargets (s : State) : List Nat :=
  if s.reg 0x1520 1 = 0xFFFF then (s.hid.pair.heard.map (·.1)).filter fun a =>
    !s.flag 0x2111 (a / 16 + 1) (a % 16) && (s.portTo a).isSome
  else [s.reg 0x1520 1].filter fun a => (s.portTo a).isSome

/-- 1520h.05 (R466 steps 1 and 2). -/
def startUpdate : Effect := .look fun s =>
  let a := s.reg 0x1520 2
  let n := s.reg 0x1520 3
  let ts := s.updateTargets
  if hostArea < a + n || a % 256 != 0 || n < 128 || 25165824 < n || s.reg 0x1520 4 < 192 || 255 < s.reg 0x1520 4 then
    set 0x1520 6 Status.range
  else if ts.isEmpty then set 0x1520 6 Status.unreachable
  else .all [
    set 0x1520 6 Status.inProgress,
    onUpdate fun u => { u with targets := ts, refused := [], sentTo := 0 },
    updateStage 1,
    Effect.each (fun t => .seq (sendRequest .update t 2 (keyOf 0x1500 4) (bytesLE 4 n) none)
      (sendRequest .update t 2 (keyOf 0x1500 1) [1] none)) ts]

end Sys2Proof.Machine
end

