-- ==== Sys2Proof/Machine/Tables.lean ====
section
/-! DEFINITION. Coefficient tables and their uploads (R289 to R293, R361). -/

namespace Sys2Proof.Machine

/-- Codes of a bank's state (R289). -/
abbrev Bank.empty : Nat := 0
abbrev Bank.loading : Nat := 1
abbrev Bank.valid : Nat := 2
abbrev Bank.error : Nat := 3

/-- A bank changes state. -/
def setBank (t b code : Nat) : Effect := setField 0x4201 3 (4 * t + 2 * b + 1) (4 * t + 2 * b) code

/-- A bank is in effect, or selected by the pending commit or by the commit under check (R291). -/
def State.bankUsed (s : State) (t b : Nat) : Bool :=
  let picks (c : Option Commit) : Bool := c.any fun c => lookupKey c.entries (keyOf 0x4201 (t + 1)) == some b
  s.reg 0x4201 (t + 1) == b || picks s.hid.commit.pend || picks s.hid.commit.checking

/-- The load record of a bank. -/
def State.bankLoad (s : State) (t b : Nat) : BankLoad := s.hid.colour.loads.getD (2 * t + b) ⟨0, 0⟩

/-- The load bank of a table (R291). -/
def State.loadBank (s : State) (t : Nat) : Option Nat :=
  match s.bankUsed t 0, s.bankUsed t 1 with
  | true, true => none
  | false, true => some 0
  | true, false => some 1
  | false, false =>
    if s.bankCode t 0 = Bank.loading then some 0
    else if s.bankCode t 1 = Bank.loading then some 1
    else if (s.bankLoad t 0).began ≤ (s.bankLoad t 1).began then some 0 else some 1

/-- The size that a table must have when its bank can first be selected (R291): with the pending commit, else with what is
staged, else in effect. -/
def State.sizeWanted (s : State) (t : Nat) : Nat :=
  let keys := [keyOf 0x4200 1, keyOf 0x4100 1]
  let over' (es : List (Nat × Nat)) : List (Nat × Nat) := es.filter fun e => keys.contains e.1
  let pend := over' ((s.hid.commit.pend.map Commit.entries).getD [])
  let staged := over' s.hid.commit.staged
  let regs := (overlayKeys staged pend).foldl (fun (r : Values) (e : Nat × Nat) => setValue s.pers r e.1 e.2) s.regs
  ({ s with regs := regs }).tableSize t

/-- A field of a table message's header (R290). -/
def Message.head (m : Message) (o n : Nat) : Nat := natLE (slice m.bytes o n)

/-- START and FINISH. -/
def Message.starts (m : Message) : Bool := bitAt (m.head 1 1) 0
def Message.finishes (m : Message) : Bool := bitAt (m.head 1 1) 1

/-- The parts of error 3 that the message alone shows (R291). -/
def Message.malformed (m : Message) : Bool :=
  m.bytes.length != 32 + m.head 8 4 || m.head 12 4 < m.head 4 4 + m.head 8 4 || 1572864 < m.head 12 4

/-- A message for a coefficient table (R291). -/
def tableBlock (t : Nat) (m : Message) : Effect := .look fun s =>
  match s.loadBank t with
  | none => dropTable 2
  | some b =>
    let total := m.head 12 4
    if m.malformed then dropTable 3
    else if !m.starts && s.bankCode t b != Bank.loading then dropTable 4
    else if !m.starts && total != (s.bankLoad t b).total then dropTable 3
    else .all [
      Effect.when m.starts (.seq (setBank t b Bank.loading) (onColour fun c => { c with
        order := c.order + 1, loads := setAt c.loads (2 * t + b) ⟨total, c.order + 1⟩ })),
      storeAt (tableBank t b + m.head 4 4) (m.bytes.drop 32),
      mendKind s 1 (s.tableOffset t b (m.head 4 4)) (m.head 8 4),
      count 32 0x4204 1,
      Effect.when m.finishes (.look fun u => setBank t b
        (if total = u.sizeWanted t && m.head 16 4 = crc32 (u.bytes (tableBank t b) total) then Bank.valid else Bank.error))]

/-- A finished lamp-map upload (R361): 0x10 MERGE, 0x11 REPLACE. -/
def finishUpload (table : Nat) (m : Message) : Effect := .look fun s =>
  if m.head 12 4 = 24576 && m.head 16 4 = crc32 (s.bytes (Space.upload.at 0) 24576) then
    .seq (set 0x5200 0x12 Bank.valid)
      (if table = 0x10 then .seq (count 32 0x4204 1) mergeMap
        else if s.mapClearStatus = Status.ok then .seq (count 32 0x4204 1) (replaceMap (s.bytes (Space.upload.at 0) 24576))
        else dropTable 6)
  else .seq (count 32 0x4204 1) (set 0x5200 0x12 Bank.error)

/-- A message for the upload buffer of the lamp map (R361). -/
def uploadBlock (table : Nat) (m : Message) : Effect := .look fun s =>
  if m.malformed then dropTable 3
  else if !m.starts && s.reg 0x5200 0x12 != Bank.loading then dropTable 4
  else if !m.starts && m.head 12 4 != s.hid.colour.uploadTotal then dropTable 3
  else .all [
    Effect.when m.starts (.seq (set 0x5200 0x12 Bank.loading) (onColour fun c => { c with uploadTotal := m.head 12 4 })),
    storeAt (Space.upload.at (m.head 4 4)) (m.bytes.drop 32),
    mendKind s 4 (uploadOffset (m.head 4 4)) (m.head 8 4),
    if m.finishes then finishUpload table m else count 32 0x4204 1]

/-- TABLE_MESSAGE (R290, R291, R361): the oldest complete message of a stream 64 to 127, while master 1 is not frozen. -/
def execTableMessage (stream : Nat) (s : State) : Host.Outcome State Fault Refusal :=
  perform (Effect.when (s.isTile && s.up .pipe && 64 ≤ stream && stream < 128 && !s.frozen 1)
    (withMessage stream fun m =>
      if m.bytes.length < 32 then dropTable 3
      else match m.head 0 1 with
        | 0x01 => tableBlock 0 m
        | 0x02 => tableBlock 1 m
        | 0x10 => uploadBlock 0x10 m
        | 0x11 => uploadBlock 0x11 m
        | _ => dropTable 1)) s

/-- A table of the settings goes to bank 0 at boot, when it has the size that the settings' own Λ and region ask for, and
its selection of that bank is staged with them (R293). -/
def loadTable (t size : Nat) (bytes : List Byte) : Effect := .seq
  (if bytes.length = size then .all [
      storeAt (tableBank t 0) bytes, .look fun s => mendKind s 1 (s.tableOffset t 0 0) size, setBank t 0 Bank.valid,
      onColour fun c => { c with order := c.order + 1, loads := setAt c.loads (2 * t) ⟨bytes.length, c.order + 1⟩ }]
    else setBank t 0 Bank.error)
  (onCommit fun c => { c with staged := insertKey c.staged (keyOf 0x4201 (t + 1)) 0 })

/-- Block reset 0x02 (R440): a bank in LOADING becomes EMPTY. -/
def resetTableLoader : Effect := .look fun s => Effect.each (fun i =>
  Effect.when (s.bankCode (i / 2) (i % 2) == Bank.loading) (setBank (i / 2) (i % 2) Bank.empty)) (List.range 4)

/-- 4204h.04 (R305). -/
def clearUploadCounters : Effect := .all [set 0x4204 1 0, set 0x4204 2 0, set 0x4204 3 0]

end Sys2Proof.Machine
end

