-- ==== Sys2Proof/Machine/TimeCore.lean ====
section
/-! DEFINITION. The time core's commands (R177 to R199, R528): beacons, probes, sources, servo and re-epochs. -/

namespace Sys2Proof.Machine

/-- The FLAGS byte of a beacon sent now (R185, R186): the state of the part's own time, and the announcement, which a
standby has from the master. -/
def State.beaconFlagsNow (s : State) : Nat :=
  let re := match s.hid.time.reepoch with
    | some r => 8 + if r.plain then 0 else 16
    | none => 0
  (if s.reg 0x1300 3 = 3 then 1 else 0) + (if s.reg 0x1300 3 = 4 then 2 else 0) + (if s.timeBad then 4 else 0) + re

/-- The body of a SYNC beacon that leaves now (R185). -/
def State.beaconBody (s : State) : List Byte :=
  let g := s.grid
  let ev := match s.hid.time.reepoch with
    | some r => bytesLE 8 r.tick ++ bytesLE 8 (ofSigned 64 (wholeNs r.delta)) ++ bytesLE 2 (ofSigned 16 r.delta)
    | none => zeroBytes 18
  let source := if s.timingMaster then s.reg 0x1320 2 else s.hid.time.beaconSource
  [0x01] ++ bytesLE 1 s.beaconFlagsNow ++ bytesLE 1 source ++ bytesLE 1 (s.reg 0x1300 9) ++
    bytesLE 12 (toTime96 s.fine) ++ bytesLE 8 s.tick ++ bytesLE 4 g.rn ++ bytesLE 4 g.rd ++
    bytesLE 12 (toTime96 (g.anchor * 65536)) ++ bytesLE 8 g.anchorTick ++ bytesLE 1 g.slots ++ zeroBytes 3 ++ ev ++
    zeroBytes 14

/-- BEACON_SEND (R185, R186): a sender that has stepped sends on an UP port. SEQ counts the beacons sent before (DESIGN CHOICE,
log 90). -/
def execBeaconSend (port : Nat) (s : State) : Host.Outcome State Fault Refusal :=
  perform (Effect.when (s.isSender && s.portUp port && s.stepped) (.all [
    postCell port (plainCell 4 (s.reg 0x2100 2) 88 (s.port port).beaconSeq (s.lt s.tick) true (s.endOf port) true
      s.beaconBody),
    onPort port fun q => { q with beaconSeq := (q.beaconSeq + 1) % 2 ^ 32 },
    count 32 0x1302 2])) s

/-- The device follows a beacon's SRC (R165, R187): a tile prefers address 0 among those of the tick, a standby anyone
but itself. -/
def State.followsSrc (s : State) (src : Nat) : Bool :=
  if s.isTile then src == 0 || !s.hid.time.beaconSrcs.contains 0 else src != s.address

/-- A device takes its grid from a beacon (R192, R195). -/
def takeGrid (c : Cell) : Effect := .seq
  (setGrid (cellField c 44 8) (wholeNs (ofTime96 (cellField c 32 12))) (cellField c 24 4) (cellField c 28 4)
    (cellField c 52 1))
  (set 0x1300 9 (cellField c 3 1))

/-- The step of a device that joins, or joins again (R192, R195); its budgets are computed for the grid's tick (R84). -/
def joinWall (c : Cell) (port : Nat) (e : Int) : Effect := .look fun s => .all [
  startTrim 0, moveTime e, takeGrid c, set 0x1300 3 2, count 16 0x1300 0x0A, onBudget fun b => { b with compute := true },
  Effect.when s.stepped (.seq (rebaseLaunches (wholeNs e)) (.seq
    (setBy 0x1001 5 fun t => t.tickFrom ((t.ns : Int) + 1) - 1) (renumber s.tick))),
  Effect.when (!s.stepped) (.all [
    set 0x1001 5 (cellField c 16 8), set 0x2100 3 port,
    Effect.each (fun p => onPort p fun q => { q with hitRun := 0, missRun := 0 }) s.ports])]

/-- The phase trim of R192, rounded toward zero (DESIGN CHOICE, log 92). -/
def State.trim (s : State) (e : Int) : Int :=
  let limit : Int := s.reg 0x1302 7 * 256
  max (-limit) (min limit (Int.tdiv e (2 ^ s.reg 0x1302 6)))

/-- The time alarm of R193. -/
def timeAlarm (e : Int) : Effect := .look fun s =>
  if s.isTile && s.reg 0x1302 8 * 65536 < e.natAbs then .seq
    (onTime fun m => { m with alarmRun := m.alarmRun + 1 })
    (Effect.when (s.hid.time.alarmRun == 63) (.all [count 32 0x1302 9, almanac 2 1, raise 193]))
  else onTime fun m => { m with alarmRun := 0 }

/-- The announcement that a beacon carries (R198). -/
def announced (c : Cell) : Option Reepoch :=
  if bitAt (cellField c 1 1) 3 then
    some ⟨!bitAt (cellField c 1 1) 4, cellField c 56 8, toSigned 64 (cellField c 64 8) * 65536 + cellField c 72 2⟩
  else none

/-- A beacon accepted for timekeeping (R191 to R195). -/
def acceptBeacon (c : Cell) (port : Nat) (e : Int) : Effect := .look fun s => .all [
  noteTime,
  count 32 0x1302 3,
  onTime fun m => { m with accepted := m.accepted + 1, beaconSource := cellField c 2 1, reepoch := announced c },
  Effect.ofOption (announced c) fun r => .seq (setInt 64 0x1330 4 (wholeNs r.delta)) (set 0x1330 5 (ofSigned 16 r.delta)),
  set 0x2100 2 c.src,
  setInt 32 0x1300 4 (e / 256),
  if !s.stepped || s.reg 0x1300 9 != cellField c 3 1 then joinWall c port e
  else .seq (startTrim (s.trim e)) (set 0x1300 3 2),
  timeAlarm e]

/-- BEACON_RECEIVE (R183, R186, R187, R191, R192, R196): the oldest SYNC beacon received, with its entry delay and phase. A
single sender discards the beacons of its own loop, and a part whose time core is held takes none. -/
def execBeaconReceive (entryDelay phase : Nat) (s : State) : Host.Outcome State Fault Refusal :=
  let stamp := s.stamp 17 entryDelay phase
  perform (.seq (withCell (fun c => c.kind == 4 && beaconType c == 1) fun port c => .look fun s => .all [
    countEntry entryDelay,
    onPort port fun q => { q with beaconTick := true },
    onTime fun m => { m with beaconSrcs := m.beaconSrcs ++ [c.src] },
    Effect.when (!(s.isSender && s.reg 0x2100 1 == 0) && !s.hid.time.held) (.look fun t =>
      if !t.timingMaster && (!t.stepped || port == t.reg 0x2100 3) && t.followsSrc c.src && (t.port port).pathValid then
        acceptBeacon c port (ofTime96 (cellField c 4 12) + ((t.reg (0x1310 + port) 3 : Nat) : Int) * 256 - stamp)
      else .seq (count 32 0x1302 4) (almanac 2 0))]) .nothing) s

/-- A device that follows a beacon enters HOLDOVER at its last syntonized rate (R194). -/
def startTileHoldover : Effect := .look fun s => .all [
  noteTime, onTime fun m => { m with rateHeld := s.int 32 0x1300 5 }, set 0x1300 3 3, almanac 2 2]

/-- TILE_HOLDOVER (R194): a whole tick without an accepted beacon, or the clock-upstream port is not UP. -/
def execTileHoldover (s : State) : Host.Outcome State Fault Refusal :=
  perform (Effect.when (s.stepped && !s.timingMaster && s.reg 0x1300 3 != 3 &&
    (1 ≤ s.hid.mode.missed || !s.portUp (s.reg 0x2100 3))) startTileHoldover) s

/-- DELAY_REQ_SEND (R188). -/
def execDelayReqSend (port : Nat) (s : State) : Host.Outcome State Fault Refusal :=
  perform (Effect.when (s.portUp port) (.seq
    (postCell port (plainCell 4 s.address 48 (s.port port).probeSeq 0 false (s.ownEnd port) false
      ([0x02] ++ bytesLE 1 port ++ zeroBytes 2 ++ bytesLE 12 (toTime96 s.fine))))
    (onPort port fun q => { q with probeSeq := (q.probeSeq + 1) % 2 ^ 32 }))) s

/-- The residence into a port of a tile is measured: 25 cc plus a phase of 0 to 63 in 1/64 cc, in 2⁻⁸ ns (R189, log 9). -/
def measureResidence (port : Nat) : Effect := .look fun s =>
  Effect.when (s.isTile && s.portUp 0 && s.portUp 1)
    (.seq (set (0x1310 + port) 2 (5120 + s.freeValue 6 * 16 / 5)) useFree)

/-- OUTPATH of a port and whether it is valid (R189). -/
def State.outPath (s : State) (p : Nat) : Nat × Bool :=
  if s.isSender then (0, true)
  else (s.reg (0x1310 + opposite p) 3 + s.reg (0x1310 + p) 2, (s.port (opposite p)).pathValid)

/-- DELAY_REQ_RECEIVE (R183, R188): the request is answered on its port. -/
def execDelayReqReceive (arrival : Arrival) (s : State) : Host.Outcome State Fault Refusal :=
  let t2 := s.stamp 17 arrival.entryDelay arrival.phase
  perform (withCell (fun c => c.kind == 4 && beaconType c == 2) fun port c => .seq
    (.seq (countEntry arrival.entryDelay) (measureResidence port))
    (.look fun s =>
      let o := s.outPath port
      postCell port (plainCell 4 s.address 48 c.seq 0 false (s.ownEnd port) false
        ([0x03] ++ bytesLE 1 port ++ zeroBytes 2 ++ slice c.body 4 12 ++ bytesLE 12 (toTime96 t2) ++
          bytesLE 12 (toTime96 s.fine) ++ bytesLE 4 (if o.2 then o.1 else 0) ++
          bytesLE 1 ((if o.2 then 1 else 0) + if s.isSender then 2 else 0))))) s

/-- The mean of a filter in 2⁻¹⁶ ns. -/
def meanDelay (l : List Int) : Int := if l.isEmpty then 0 else l.foldl (· + ·) 0 / l.length

/-- A device that has not stepped reads ACQUIRE while its path delays fill (R203). -/
def acquire : Effect := .look fun s => Effect.when (!s.stepped && s.reg 0x1300 3 == 0) (set 0x1300 3 1)

/-- DELAY_RESP_RECEIVE (R183, R190, R203). 1310h+p.05 counts what goes into the filter (DESIGN CHOICE, log 91). -/
def execDelayRespReceive (arrival : Arrival) (s : State) : Host.Outcome State Fault Refusal :=
  let t4 := s.stamp 17 arrival.entryDelay arrival.phase
  perform (withCell (fun c => c.kind == 4 && beaconType c == 3) fun port c => .seq
    (.seq (countEntry arrival.entryDelay) acquire) <| .look fun s =>
    let t (o : Nat) : Int := ofTime96 (cellField c o 12)
    let round := (t4 - t 4) - (t 28 - t 16)
    let link := (round + s.int 32 (0x1310 + port) 4 * 65536 / 1000) / 2
    let old := (s.port port).filter
    if 16 ≤ old.length && 131072 < (link - meanDelay old).natAbs then 
      .seq (count 32 (0x1310 + port) 6) (almanac 2 4)
    else
      let fill := (old ++ [link]).drop (old.length + 1 - 64)
      let mean := meanDelay fill
      .all [
        count 32 (0x1310 + port) 5,
        onPort port fun q => { q with filter := fill },
        set (0x1310 + port) 7 fill.length,
        setInt 32 (0x1310 + port) 1 (mean / 256),
        Effect.when (bitAt (cellField c 44 1) 0 && 16 ≤ fill.length) (.seq
          (set (0x1310 + port) 3 ((cellField c 40 4 : Int) + mean / 256).toNat)
          (onPort port fun q => { q with pathValid := true }))]) s

/-- The timing master enters HOLDOVER (R180, R182): it keeps the mean rate of the last 10 s. -/
def enterHoldover : Effect := .look fun s => .all [
  noteTime,
  onTime fun m => { m with rateHeld := s.meanRate },
  set 0x1300 3 3, count 32 0x1320 7, almanac 2 2, raise 182 3]

/-- A jump (R182). -/
def jumpTime : Effect := .look fun s => .all [
  noteTime,
  onTime fun m => { m with rateHeld := s.meanRate }, set 0x1300 3 4, count 32 0x1320 8, almanac 2 3, raise 182 4]

/-! PTP (R178, R179, R204). -/

/-- The PTP clock changes. -/
def onPtp (f : PtpState → PtpState) : Effect := onTime fun m => { m with ptp := f m.ptp }

/-- The order of the BMCA as one number, lower first: priority 1, class, accuracy, variance, priority 2, grandmaster, steps
removed (R178; PRESUMED, log 93). -/
def masterRank (m : PtpMaster) : Nat :=
  (((((m.priority1 * 256 + m.clockClass) * 256 + m.accuracy) * 65536 + m.variance) * 256 + m.priority2) * 2 ^ 64 +
    m.grandmaster) * 65536 + m.steps

/-- The best master heard on a port. -/
def State.ptpBest (s : State) (netPort : Nat) : Option PtpMaster := s.hid.time.ptp.best.getD netPort none

/-- The port that PTP is to run on (R179): the one commanded, else the one whose master ranks higher, and port 0 for equals. -/
def State.ptpWanted (s : State) : Nat :=
  if s.reg 0x6200 2 != 0 then s.reg 0x6200 2 - 1
  else match s.ptpBest 0, s.ptpBest 1 with
    | some a, some b => if masterRank b < masterRank a then 1 else 0
    | none, some _ => 1
    | _, none => 0

/-- PTP is enabled, and may use a port. -/
def State.ptpPort (s : State) (netPort : Nat) : Bool :=
  s.isSender && s.reg 0x6200 1 == 1 && (s.reg 0x6200 2 == 0 || s.reg 0x6200 2 == netPort + 1)

/-- The master of the port in use shows in 6200h; the port is LISTENING without one, and UNCALIBRATED until an offset has been
measured (R204). -/
def showMaster : Effect := .look fun s => match s.ptpBest s.hid.time.ptp.port with
  | some m => .all [
      set 0x6200 6 m.parent, set 0x6200 7 m.parentPort, set 0x6200 8 m.grandmaster,
      set 0x6200 0x0B m.steps, set 0x6200 0x0C m.utcOffset,
      Effect.when (s.reg 0x6200 5 != 9) (set 0x6200 5 8)]
  | none => set 0x6200 5 4

/-- PTP runs on the port that it is to run on: a change of port is seen at the next offset (R179). -/
def choosePtp : Effect := .look fun s => .seq
  (Effect.when (s.ptpWanted != s.hid.time.ptp.port) (.seq
    (onPtp fun x => { x with port := s.ptpWanted, moved := true, sync := none, asked := none, path := none })
    (set 0x6200 5 8)))
  showMaster

/-- The PTP clock starts, or takes other settings (R179, R204): DISABLED without its enable; another domain has other
masters. -/
def followPtp : Effect := .look fun s =>
  if s.reg 0x6200 1 = 0 then set 0x6200 5 3
  else .seq
    (Effect.when (s.reg 0x6200 3 != s.hid.time.ptp.domain) (onPtp fun x => { x with
      best := [none, none], domain := s.reg 0x6200 3, sync := none, asked := none, path := none }))
    choosePtp

/-- An announce on a port: the best master that it hears is the one that ranks higher, or the same with news. -/
def hearMaster (netPort : Nat) (m : PtpMaster) : Effect := .look fun s =>
  let better := match s.ptpBest netPort with
    | some b => masterRank m < masterRank b || (m.parent == b.parent && m.parentPort == b.parentPort)
    | none => true
  Effect.when better (.seq (onPtp fun x => { x with best := setAt x.best netPort (some m) }) choosePtp)

/-! Measurements of the sources (R177, R183). -/

/-- The state of a source changes. -/
def onSource (code : Nat) (f : SourceState → SourceState) : Effect :=
  onTime fun m => { m with sources := updateAt m.sources code f }

/-- A measurement of a source: its offset in 2⁻¹⁶ ns, where it has one, and whether it counts toward its lock (R177); the active
source of a part that has stepped shows its offset, and counts those beyond the jump threshold (R182). -/
def measured (code : Nat) (offset : Option Int) (good : Bool) : Effect := .look fun s =>
  let far := offset.any fun d => s.reg 0x1320 4 * 65536 < d.natAbs
  .all [
    Effect.when (s.reg 0x1320 2 != code) noteTime,
    onSource code fun x => { x with
      offset := offset
      good := if good then x.good + 1 else 0
      bad := if far then x.bad + 1 else 0 },
    Effect.ofOption offset fun d => Effect.when (s.reg 0x1320 2 == code) (.seq (setInt 64 0x1320 3 (d / 65536))
      (Effect.when s.timingMaster (setInt 32 0x1300 4 (d / 256))))]

/-- The first offset after PTP has changed its port (R179): one that disagrees is a jump of an active source. -/
def ptpMoves (offset : Int) : Effect := .look fun s => Effect.when s.hid.time.ptp.moved (.seq
  (onPtp fun x => { x with moved := false })
  (Effect.when (s.timingMaster && s.stepped && s.reg 0x1320 2 == 1 && [2, 3].contains (s.reg 0x1300 3) &&
    s.reg 0x1320 4 * 65536 < offset.natAbs) jumpTime))

/-- An offset counts toward the lock of PTP (R177): within the jump threshold of local time, or, before the step has brought
local time to the source's, of the offset before (DEDUCED, log 94). -/
def State.ptpGood (s : State) (offset : Int) : Bool :=
  let from' := if s.stepped then some 0 else (s.sourceState 1).offset
  from'.any fun b => (offset - b).natAbs ≤ s.reg 0x1320 4 * 65536

/-- A Sync has its origin time: the delay from the master is measured, a Delay_Req leaves in answer, and with a known mean path
delay there is an offset (R178, R204). 6200h.09 holds local time minus the master's, 1320h.03 the opposite. -/
def measureSync (origin arrival : Int) : Effect := .look fun s =>
  let x := s.hid.time.ptp
  let span := arrival - origin
  .all [
    onPtp fun x => { x with
      sync := none, span := span, asked := some (x.sequence, s.fine), sequence := (x.sequence + 1) % 65536 },
    emit (.net x.port (.delayReq (s.reg 0x6000 (1 + 2 * x.port)) (s.reg 0x6200 3) x.sequence
      (if s.reg 0x6200 4 = 1 then some (s.reg 0x6200 6) else none))),
    Effect.ofOption x.path fun d => .all [
      set 0x6200 5 9, setInt 64 0x6200 9 (span - d),
      measured 1 (some (d - span)) (s.ptpGood (d - span)), ptpMoves (d - span)]]

/-- The answer to a Delay_Req: the mean path delay. -/
def measurePath (receive : Int) (sequence : Nat) : Effect := .look fun s =>
  Effect.ofOption s.hid.time.ptp.asked fun q => Effect.when (q.1 == sequence) (
    let d := (s.hid.time.ptp.span + (receive - q.2)) / 2
    .seq (onPtp fun x => { x with asked := none, path := some d }) (setInt 64 0x6200 0x0A d))

/-- The message comes from the master of the port in use. -/
def State.fromParent (s : State) (netPort : Nat) (m : PtpMessage) : Bool :=
  s.hid.time.ptp.port == netPort && (s.ptpBest netPort).any fun b => b.parent == m.source && b.parentPort == m.sourcePort

/-- PTP_MESSAGE (R178, R179, R183, R204): a message that is malformed, of another domain or unsupported is dropped. -/
def execPtpMessage (netPort : Nat) (m : PtpMessage) (arrival : Arrival) (s : State) :
    Host.Outcome State Fault Refusal :=
  let mine := s.fromParent netPort m
  perform (.seq (Effect.when s.isSender (setBit 0x6000 7 netPort true)) (Effect.when (s.ptpPort netPort) (
    if m.body == .unsupported || m.domain != s.reg 0x6200 3 then count 32 0x6200 0x0F
    else .seq (count 32 0x6200 0x0E) (match m.body with
      | .announce b => hearMaster netPort b
      | .sync origin correction twoStep =>
        let t2 := s.stamp 22 arrival.entryDelay arrival.phase
        .seq (countEntry arrival.entryDelay) (Effect.when mine (
          if twoStep then onPtp fun x => { x with sync := some (m.sequence, t2 - correction) }
          else measureSync (origin + correction) t2))
      | .followUp origin correction => Effect.when mine (Effect.ofOption s.hid.time.ptp.sync fun q =>
          Effect.when (q.1 == m.sequence) (measureSync (origin + correction) q.2))
      | .delayResp receive correction => Effect.when mine (measurePath (receive - correction) m.sequence)
      | .ignored | .unsupported => .nothing)))) s

/-- An edge of a reference arrives: whether it lies within 100 ns of its prediction from the two before it, which a source that
comes again lacks (R177; what the prediction is, DEDUCED, log 94). -/
def State.predicted (s : State) (code : Nat) (edge : Int) : Bool :=
  match (s.sourceState code).edges with
  | [a, b] => ((edge - a) - (a - b)).natAbs ≤ 8000
  | _ => false

/-- The edge is kept with the one before it. -/
def keepEdge (code : Nat) (edge : Int) : Effect := onSource code fun x => { x with edges := edge :: x.edges.take 1 }

/-- The whole second nearest to a time in 2⁻¹⁶ ns. -/
def nearestSecond (t : Int) : Int := roundDiv t (65536 * 10 ^ 9) * (65536 * 10 ^ 9)

/-- PPS_EDGE (R177, R183): the edge marks a second, PTP's where PTP is locked. -/
def execPpsEdge (refPresent : Bool) (entryDelay phase : Nat) (s : State) : Host.Outcome State Fault Refusal :=
  let edge := s.cycleStamp 4 entryDelay phase
  let t := s.stamp 4 entryDelay phase
  let second := nearestSecond (t + if s.sourceLocked 1 then (s.sourceState 1).offset.getD 0 else 0)
  perform (Effect.when s.isSender (.all [
    countEntry entryDelay,
    measured 2 (some (second - t)) (refPresent && s.predicted 2 edge),
    keepEdge 2 edge])) s

/-- VREF gives phase (R177): the tick rate is a whole multiple of the reference's frame rate. -/
def State.vrefPhase (s : State) : Bool :=
  let (num, den) := s.hid.time.vrefRate
  num != 0 && s.grid.rn * den % (s.grid.rd * num) == 0

/-- The grid boundary nearest to an instant in 2⁻¹⁶ ns, on a grid. -/
def Grid.nearest (g : Grid) (t : Int) : Int :=
  let n : Int := g.anchorTick + roundDiv ((t - g.anchor * 65536) * g.rn) (max 1 (g.rd * 10 ^ 9 * 65536))
  g.at n.toNat * 65536

/-- The locked sources of the list after VREF. -/
def State.afterVref (s : State) : List Nat := ((s.sourceOrder.dropWhile (· != 3)).drop 1).filter s.sourceLocked

/-- VREF_FRAME (R177, R183): the frame sync plus 1320h.0C marks a grid boundary; with a rate that gives no phase the offset is
that of the next locked source. -/
def execVrefFrame (rate : Nat × Nat) (arrival : Arrival) (s : State) : Host.Outcome State Fault Refusal :=
  let edge := s.cycleStamp 6 arrival.entryDelay arrival.phase
  let t := s.stamp 6 arrival.entryDelay arrival.phase + s.int 32 0x1320 0x0C * 65536
  perform (Effect.when s.isSender (.all [
    countEntry arrival.entryDelay,
    onTime fun m => { m with vrefRate := rate },
    .look fun u => measured 3
      (if u.vrefPhase then some (u.grid.nearest t - t) else u.afterVref.head?.bind fun c => (u.sourceState c).offset)
      (u.predicted 3 edge),
    keepEdge 3 edge])) s

/-- The number of a source. -/
def sourceCode : Source → Nat
  | .free => 0
  | .ptp => 1
  | .pps10m => 2
  | .vref => 3

/-! Locks, losses and jumps (R177 to R182, R528). -/

/-- The timing master's active source becomes another one (R179, R182). -/
def changeSource (code : Nat) : Effect := .look fun s => .seq (set 0x1320 2 code)
  (if s.agrees code then .seq noteTime (set 0x1300 3 2) else Effect.when (s.reg 0x1300 3 != 4) jumpTime)

/-- The active source is gone: the next locked one of the list is taken; with FREE, or with none, the part is in HOLDOVER. -/
def nextSource : Effect := .look fun s => match s.bestSource with
  | some (n + 1) => changeSource (n + 1)
  | other => .seq (set 0x1320 2 (if other.isSome then 0 else 0xFF)) enterHoldover

/-- The source follows the list that a commit has brought (R177): the first locked one, or HOLDOVER where there is none. -/
def followSources : Effect := .look fun s => Effect.when (s.timingMaster && s.stepped) (match s.bestSource with
  | some c => Effect.when (c != s.reg 0x1320 2) (changeSource c)
  | none => Effect.when (s.reg 0x1320 2 != 0xFF) nextSource)

/-- SOURCE_LOCK (R177, R179, R182): 16 consecutive good measurements. The timing master that has stepped takes it when it
stands ahead of its active source; with one that does not, it runs on FREE as LOCKED (R203, R528; DEDUCED, log 71). -/
def execSourceLock (src : Source) (s : State) : Host.Outcome State Fault Refusal :=
  let code := sourceCode src
  perform (Effect.when (s.isSender && (code == 0 || 16 ≤ (s.sourceState code).good)) (.all [
    noteTime,
    onSource code fun x => { x with locked := true, hadLock := true },
    .look fun t => Effect.when (t.timingMaster && t.stepped)
      (if t.bestSource == some code && t.reg 0x1320 2 != code then changeSource code
        else Effect.when (code != 0 && t.reg 0x1300 3 == 5) (set 0x1300 3 2))])) s

/-- A listed source is locked with every one ahead of it passed over (R528). -/
def State.firstSource (s : State) : Option Nat :=
  match s.sourceOrder.find? fun c => s.sourceLocked c || !(s.sourceState c).passed with
  | some c => if s.sourceLocked c then some c else none
  | none => none

/-- Units since the last edge of a source. -/
def State.sinceEdge (s : State) (code : Nat) : Int :=
  ((s.hid.time.cycles : Int) * 64 - ((s.sourceState code).edges.head?.getD 0)) * 4096

/-- PTP time now, in units: local time and the offset measured. -/
def State.ptpNow (s : State) : Int := s.hid.time.now + 5 * (s.sourceState 1).offset.getD 0

/-- The time that a source other than VREF gives now, in units (R177). -/
def State.plainTime (s : State) (code : Nat) : Int :=
  let preset : Int := (s.reg 0x1320 9 * 10 ^ 9 * unitsPerNs : Nat)
  match code with
  | 0 => preset
  | 2 =>
    let since := s.sinceEdge 2
    (if s.sourceLocked 1 then nearestSecond ((s.ptpNow - since) / 5) * 5 else preset) + since
  | _ => s.ptpNow

/-- The time that a source gives now, in units (R177): VREF puts the boundary of the epoch-aligned grid nearest to its edge plus
1320h.0C there, or leaves phase to the next locked source. -/
def State.sourceTime (s : State) (code : Nat) : Int :=
  if code != 3 then s.plainTime code
  else if s.vrefPhase then
    let since := s.sinceEdge 3
    let shift : Int := s.int 32 0x1320 0x0C * unitsPerNs
    let coarse := (if s.sourceLocked 1 then s.ptpNow else s.hid.time.now) - since + shift
    let aligned : Grid := ⟨0, 0, s.grid.rn, s.grid.rd, 0⟩
    aligned.nearest (coarse / 5) * 5 - shift + since
  else match s.afterVref.head? with
    | some c => s.plainTime c
    | none => s.hid.time.now

/-- FIRST_LOCK_STEP (R174, R177, R180, R528): local time steps to that of the first source, which the command names. -/
def execFirstLockStep (src : Source) (s : State) : Host.Outcome State Fault Refusal :=
  let c := sourceCode src
  let t := (s.sourceTime c).toNat
  perform (Effect.when (s.timingMaster && !s.stepped && s.up .link && s.reg 0x1300 3 == 1 && s.firstSource == some c) (.all [
    noteTime,
    onTime fun m => { m with now := t, rateAt := m.cycles, sources := m.sources.map fun x => { x with offset := none } },
    alignGrid t 1 (s.reg 0x4300 1) (s.reg 0x4300 2) (s.reg 0x4300 3),
    count 16 0x1300 0x0A, set 0x1320 2 c, set 0x1300 3 (if c = 0 then 5 else 2),
    set 0x2100 2 s.address, set 0x2100 3 0xFF])) s

/-- FIRST_LOCK_WAIT (R528): a source has not locked within 1320h.0D seconds. -/
def execFirstLockWait (src : Source) (s : State) : Host.Outcome State Fault Refusal :=
  perform (Effect.when (s.isSender && !s.stepped && !s.sourceLocked (sourceCode src))
    (onSource (sourceCode src) fun x => { x with passed := true })) s

/-- SOURCE_LOST (R177, R179, R182): the timing master falls back to the next locked source; to FREE it is in HOLDOVER. An
announce timeout takes the master of the port in use; PTP that then finds one on the other port is not lost. -/
def execSourceLost (src : Source) (s : State) : Host.Outcome State Fault Refusal :=
  let code := sourceCode src
  let x := s.hid.time.ptp
  let other := s.reg 0x6200 2 == 0 && (s.ptpBest (1 - x.port)).isSome
  let silence : Effect := Effect.when (code == 1) (.seq (onPtp fun y => { y with best := setAt y.best x.port none }) choosePtp)
  perform (Effect.when (s.isSender && code != 0) (if code = 1 && other then silence else .all [
    noteTime,
    silence,
    onSource code fun x => { x with locked := false, good := 0, bad := 0, offset := none, edges := [] },
    .look fun t => Effect.when (t.timingMaster && t.stepped && t.reg 0x1320 2 == code) nextSource])) s

/-- SOURCE_JUMP (R182): three consecutive offsets beyond the threshold. -/
def execSourceJump (s : State) : Host.Outcome State Fault Refusal :=
  perform (Effect.when (s.timingMaster && s.stepped && [2, 3].contains (s.reg 0x1300 3) &&
    3 ≤ (s.sourceState (s.reg 0x1320 2)).bad) jumpTime) s

/-- The source by which the timing master may return to LOCKED (R182): in JUMPED the active one, in HOLDOVER the first
that is locked, FREE apart. -/
def State.returning (s : State) : Option Nat :=
  if s.reg 0x1300 3 == 4 then some (s.reg 0x1320 2) else s.sourceOrder.find? fun c => c != 0 && s.sourceLocked c

/-- SOURCE_RETURN (R182): that source agrees again. -/
def execSourceReturn (s : State) : Host.Outcome State Fault Refusal :=
  perform (Effect.when (s.timingMaster && s.stepped && [3, 4].contains (s.reg 0x1300 3))
    (Effect.ofOption s.returning fun c => Effect.when (c != 0 && s.agrees c) (.all [
      noteTime, set 0x1320 2 c, set 0x1300 3 2]))) s

/-- INTERCALATION_UPDATE (R181): the steering follows the active source inside the correction limit, the slew limit and
±200 ppm; the law itself is open (log 11). While the time core is held the word stays (R196). -/
def execIntercalationUpdate (s : State) : Host.Outcome State Fault Refusal :=
  perform (Effect.when (s.timingMaster && s.stepped && !s.hid.time.held && [2, 5].contains (s.reg 0x1300 3))
    (Effect.ofOption ((s.sourceState (s.reg 0x1320 2)).offset) fun d =>
      let rate := s.int 32 0x1300 5
      let slew : Int := s.reg 0x1320 6 * ((s.hid.time.cycles - s.hid.time.rateAt) * 4 / 5) / 10 ^ 9
      let near : Int := s.reg 0x1320 5
      let source := Config.sourceRate d rate
      let asked := max (source - near) (min (source + near) (Config.servoRate d rate))
      let want := max (rate - slew) (min (rate + slew) asked)
      .all [
        noteTime,
        setRate (max (-13107200) (min 13107200 want)),
        onTime fun m => { m with rateAt := m.cycles },
        Effect.when (13107200 < want.natAbs) (raise 181)])) s

/-- A re-epoch command of 1330h.01 (R197): what it leaves in 1330h.03. One that replaces another first reports that one
SUPERSEDED, with an event (DEDUCED, log 95). -/
def reepochCommand (kind : Nat) : Effect := .look fun s =>
  let offset := (s.sourceState (s.reg 0x1320 2)).offset
  let announce (plain : Bool) (m : Nat) (d : Int) : Effect := .all [
    Effect.when s.hid.time.reepoch.isSome (.seq (set 0x1330 3 Status.superseded) (raise 197 Status.superseded)),
    onTime fun t => { t with reepoch := some ⟨plain, m, d⟩ },
    set 0x1330 3 Status.pending, setInt 64 0x1330 4 (wholeNs d), set 0x1330 5 (ofSigned 16 d)]
  if !s.timingMaster then set 0x1330 3 Status.mode
  else match kind with
  | 1 =>
    if s.mode != Mode.dark then set 0x1330 3 Status.mode
    else match offset with
      | none => set 0x1330 3 Status.consistency
      | some d => announce true (s.firstTickAfter 0 (s.ns + 999999)) d
  | 2 =>
    if !commitModes.contains s.mode then set 0x1330 3 Status.mode
    else if !s.atLeastP (lt32Diff (s.lt (s.reg 0x1330 2)) s.lt32) 4 then set 0x1330 3 Status.late
    else match offset with
      | none => set 0x1330 3 Status.consistency
      | some d => announce false (s.reg 0x1330 2) d
  | _ => Effect.when s.hid.time.reepoch.isSome (.seq (onTime fun t => { t with reepoch := none })
      (set 0x1330 3 Status.cancelled))

/-- A re-epoch whose boundary has come, and not yet been applied, comes before what else the boundary brings (R199). -/
def reepochFirst : Effect := .look fun s => Effect.ofOption s.hid.time.reepoch fun r =>
  Effect.when (r.tick ≤ s.tick) (applyReepoch r)

/-- REEPOCH_APPLY (R197 to R199): at the boundary that the announcement names. -/
def execReepochApply (s : State) : Host.Outcome State Fault Refusal :=
  perform (Effect.when s.stepped (Effect.ofOption s.hid.time.reepoch fun r =>
    .seq (advanceTo (s.at r.tick)) (applyReepoch r))) s

/-- 1302h.0B (R202). -/
def timeCounterClear : Effect := .look fun s => .seq
  (Effect.each (fun i => set 0x1302 i 0) [2, 3, 4, 9, 0x0A])
  (Effect.each (fun p => .seq (set (0x1310 + p) 5 0) (set (0x1310 + p) 6 0)) s.ports)

/-- 6200h.10 (R204). -/
def ptpCounterClear : Effect := .seq (set 0x6200 0x0E 0) (set 0x6200 0x0F 0)

end Sys2Proof.Machine
end

