-- ==== Sys2Proof/Machine/Commits.lean ====
section
/-! DEFINITION. The commit engine (R45 to R51, R436 step 5, R527) and the tick boundary (R75). -/

namespace Sys2Proof.Machine

/-! Taking a commit (R46, R47, R50). -/

/-- The commit built from the staging set, over the pending commit's entries when there is one (R50). -/
def State.newCommit (s : State) (time : Option Nat) (boot : Bool) : Commit :=
  let t := s.hid.commit
  let base := (t.pend.map Commit.entries).getD []
  let content := (t.pend.map Commit.content).getD []
  ⟨overlayKeys base t.staged, overlayKeys content t.content, time, boot, 0, if boot then none else s.lateEntry time⟩

/-- The staging set becomes a commit under check, and is empty. -/
def checkNew (c : Commit) : Effect := onCommit fun t => { t with
  staged := [], content := [], checking := some c }

/-- IMMEDIATE or TIMED is taken (R47, R50): 1010h.04 counts it. -/
def takeCommit (timed : Bool) : Effect := .look fun s => .all [
  set 0x1010 0x0B (if s.hid.commit.pend.isSome then Status.pending else 0),
  setBy 0x1010 4 fun t => (t.reg 0x1010 4 + 1) % 2 ^ 16,
  set 0x1010 3 Status.pending,
  checkNew (s.newCommit (if timed then some (s.reg 0x1010 2) else none) false)]

/-- Commands 0x01 and 0x02 of 1010h.01: one that finds a commit under check waits (R47). -/
def commandCommit (timed : Bool) : Effect := .look fun s =>
  if s.hid.commit.checking.isSome then onCommit fun t => { t with waiting := some timed } else takeCommit timed

/-- Command 0x03 (R46, R47). -/
def cancelCommit : Effect := dropCommits Status.cancelled

/-- Command 0x04 (R46). -/
def discardStaged : Effect := onCommit fun t => { t with staged := [], content := [] }

/-- BOOT_COMMIT (R436 step 5): in DARK, once time has stepped, and once. -/
def execBootCommit (s : State) : Host.Outcome State Fault Refusal :=
  perform (Effect.when (s.mode == Mode.dark && s.hid.reset.settingsRead && !s.hid.reset.bootRan &&
      s.hid.commit.checking.isNone && [2, 3, 4, 5].contains (s.reg 0x1300 3)) (.all [
    onReset fun r => { r with bootRan := true },
    set 0x1110 3 Status.pending,
    checkNew (s.newCommit none true)])) s

/-! The end of the checks (R48, R527). -/

/-- A failure is reported where the commit reports (R48, R436, R527): phase 0 at the command, 1 at the due boundary. The
boot commit keeps its entries in the staging set, under what has been staged since. -/
def refuseCommit (c : Commit) (f : Failure) (phase : Nat) : Effect := .all [
  if c.boot then .all [
      set 0x1110 3 f.code, set 0x1110 4 f.entry,
      onCommit fun t => { t with staged := overlayKeys c.entries t.staged, content := overlayKeys c.content t.content }]
    else .all [set 0x1010 5 f.entry, set 0x1010 6 (if f.profileB then 1 else 0), set 0x1010 7 phase],
  almanac 1 6]

/-- The tick at which a commit that has passed is due (R46). -/
def State.dueTick (s : State) (c : Commit) : Nat := match c.time with
  | some t => s.tickFrom ((s.ns : Int) + lt32Diff t s.lt32)
  | none => s.firstTickAfter 2 s.ns

/-- COMMIT_CHECKS_END (R47, R48, R50). -/
def execCommitChecksEnd (s : State) : Host.Outcome State Fault Refusal :=
  perform (Effect.when (s.up .core) (Effect.ofOption s.hid.commit.checking fun c =>
    let r := s.checkCommit c false
    .all [
      recordChecks (s.withCommit c) r,
      match r.failure with
        | some f => .seq (refuseCommit c f 0) (Effect.when (!c.boot) (set 0x1010 3 f.code))
        | none => .all [
            Effect.when s.hid.commit.pend.isSome (set 0x1010 0x0B Status.superseded),
            Effect.when (s.hid.commit.pend.any Commit.boot) (set 0x1110 3 Status.superseded),
            onCommit fun t => { t with pend := some { c with due := s.dueTick c } }],
      onCommit fun t => { t with checking := none, waiting := none },
      Effect.ofOption s.hid.commit.waiting takeCommit])) s

/-! Applying (R49, R174, R257, R267, R304, R321, R322). -/

/-- A commit changes the ratio RN/RD. -/
def State.changesRate (s c : State) : Bool :=
  c.reg 0x4300 1 * s.reg 0x4300 2 != s.reg 0x4300 1 * c.reg 0x4300 2

/-- The grid follows the tick settings (R174, R322): the timing master's boot commit aligns it, a change of rate re-locks
at this tick, and anything else keeps it. -/
def followRate (before : State) (boot : Bool) (n : Nat) : Effect := .look fun s =>
  let rn := s.reg 0x4300 1
  let rd := s.reg 0x4300 2
  let slots := s.reg 0x4300 3
  if before.changesRate s && boot && s.timingMaster then alignGrid ((s.at n).toNat * unitsPerNs) 1 rn rd slots
  else if before.changesRate s && !boot then onTime fun m => { m with relockAt := some n }
  else onTime fun m => { m with grid := m.grid.map fun g => { g with rn := rn, rd := rd, slots := slots } }

/-- What follows on a tile from the entries that a commit has changed. -/
def followTile (before : State) (n : Nat) : Effect := .look fun s =>
  let resized := s.lambda != before.lambda || s.reg 0x4100 1 != before.reg 0x4100 1
  .all [
    set 0x4100 3 (((List.range 8).map s.poolNeed).foldl (· + ·) 0),
    copyScan,
    Effect.when resized (onCompose fun x => { x with
      images := x.images.filter fun q => n ≤ q.2.tick, older := x.older.filter fun q => n ≤ q.2.tick }),
    Effect.when (s.layerDirect 7 && !before.layerDirect 7) (onCompose fun x => { x with lines := [] }),
    Effect.when (s.reg 0x4180 1 == 1 && before.reg 0x4180 1 == 0) (onCompose fun x => { x with captureFrom := some n })]

/-- What follows on a sender. -/
def followSender : Effect := .all [
  followPtp,
  followSources,
  followFences,
  Effect.each followLegs (List.range 16),
  driveHpds,
  Effect.each followPreview (List.range 2)]

/-- The whole commit takes effect at tick n (R49). -/
def applyCommit (c : Commit) (n : Nat) : Effect := .look fun before => .all [
  Effect.when (before.isSender && before.selfConditions != 0) noteSelf,
  Effect.each (fun e => set (e.1 / 256) (e.1 % 256) e.2) c.entries,
  Effect.each (fun b => storeAt b.1 [b.2]) c.content,
  followRegions before,
  followRate before c.boot n,
  computeBudgets,
  Effect.each applyPortEnable before.ports,
  if before.isTile then followTile before n else followSender,
  .look fun s => Effect.when (s.tgs.any fun r => s.tgOn s.profileB r) (onScan fun x => { x with running := true }),
  set 0x1010 8 n,
  setBit 0x1500 0x0F 7 true,
  endPending Status.applied]

/-- The mode that follows the boot commit (R436 step 6, R446). -/
def modeAfterBoot : Effect := .look fun s =>
  let m := s.reg 0x1001 2
  Effect.when (s.mode == Mode.dark && m != Mode.dark && s.requestStatus m == Status.ok) (changeMode m Cause.bootStep)

/-- COMMIT_APPLY (R49, R199): at the boundary where the pending commit is due, after a re-epoch of that boundary. -/
def execCommitApply (s : State) : Host.Outcome State Fault Refusal :=
  perform (Effect.when (s.up .core && s.stepped && s.hid.commit.pend.any fun c => c.due ≤ s.tick) (.seq reepochFirst
    (.look fun s => Effect.ofOption s.hid.commit.pend fun c =>
      let r := s.checkCommit c true
      .seq (recordChecks (s.withCommit c) r) (match r.failure with
        | some f => .seq (refuseCommit c f 1) (endPending f.code)
        | none => .seq (applyCommit c s.tick) (Effect.when c.boot modeAfterBoot))))) s

/-! The tick boundary (R75, R439, R445, R486). -/

/-- The smallest eye height over the UP ports, in mV (X4 of R486). -/
def State.leastHeight (s : State) : Nat :=
  (s.upPorts.flatMap fun p => (List.range 4).map fun k => field (s.reg (portIndex p) 0x0F) (16 * k + 15) (16 * k + 8)).foldl
    min 255

/-- The samples of the tick that has just ended (R486). The peak fill of a tile's receive FIFO of 16 KiB is open (log 9). -/
def State.samples (s : State) : List (Nat × Int) :=
  let t := s.hid.counts
  let n (v : Nat) : Int := v
  let most (l : List Nat) : Nat := l.foldl max 0
  let tile : List (Nat × Int) := [
    (1, (s.hid.scan.tds.foldl max (s.hid.scan.tds.headD 0))),
    (5, (s.hid.compose.margins.getLast?.getD 0) / 64),
    (6, ((s.tgs.filter fun r => s.tgOn s.profileB r).map fun r => s.reg (0x4000 + r) 0x0E).foldl min (2 ^ 31 - 1)),
    (7, s.hid.scan.derateNow.foldl min 65536 / 2),
    (8, s.reg 0x4200 5),
    (12, s.reg 0x5200 6)]
  [(0, s.int 16 0x1200 1), (2, roundDiv (s.int 32 0x1300 4) 32), (3, roundDiv (s.int 32 0x1300 5 * 100) 65536),
    (4, n s.leastHeight), (9, n t.memErrors), (10, n t.linkBits), (11, n s.hid.time.accepted),
    (13, n (if s.isTile then t.duplicates else t.harvests)), (14, n s.largestCharge),
    (15, n (if s.isTile then min 256 (s.freeValue 9) else most t.cells))] ++ if s.isTile then tile else []

/-- The mode interrupted by a warm reset returns at the first boundary after PIPE release (R390, R439): DERATE in place of
it, or its return mode, as the throttle level then asks (R402). -/
def returnMode : Effect := .look fun s => Effect.when (s.hid.reset.warmStart && s.up .pipe) (.seq
  (onReset fun r => { r with warmStart := false })
  (Effect.when (s.mode == Mode.boot && s.hid.reset.interrupted != Mode.boot) (.all [
    changeMode s.hid.reset.interrupted Cause.warm,
    onMode fun m => { m with byEnum := s.hid.mode.byEnum, automatic := s.hid.mode.automatic },
    followThrottle])))

/-- What the supervisor does at a boundary. -/
def supervise : Effect := .look fun s => Effect.when (s.up .core) (.all [
  budgetBoundary,
  countDeferrals,
  equinoxBoundary,
  returnMode,
  sessionOn,
  Effect.when s.isSender (.all [runQueues, runLoader, updateOn])])

/-- Whole ticks without and with an accepted beacon (R445). -/
def countMissed : Effect := .look fun s => .seq
  (onMode fun m => if s.hid.time.accepted = 0 then { m with missed := m.missed + 1, seen := 0 }
    else { m with missed := 0, seen := m.seen + 1 })
  (onTime fun m => { m with accepted := 0 })

/-- TICK_BOUNDARY (R75): tick n + 1 begins at LT(n + 1). -/
def execTickBoundary (s : State) : Host.Outcome State Fault Refusal :=
  let n := s.tick + 1
  perform (Effect.when (s.up .link && s.stepped) (.all [
    advanceTo (s.at n),
    almanacSample s.samples,
    Effect.when s.isTile useFree,
    almanacBoundary,
    pairBoundary,
    beaconRuns,
    pairChoices,
    countMissed,
    set 0x1001 5 n,
    hidden fun h => { h with lastCounts := { h.counts with holdover := s.holdoverSeen }, counts := TickCounts.initial },
    supervise])) s

end Sys2Proof.Machine
end

