-- ==== Sys2Proof/Machine/Links.lean ====
section
/-! DEFINITION. Slots, cells and service cells of the Elxel ports (R101 to R136), and enumeration (R18 to R21, R123). -/

namespace Sys2Proof.Machine

/-! Counters of a port (R133, R135, R137): in the dictionary, in the tick and in the Almanac. -/

/-- n corrected bits of a lane. -/
def countCorrected (p lane n : Nat) : Effect := Effect.when (n != 0) (.all [
  addTo 32 (portIndex p) (8 + lane) n, almanacCount 0 0 n,
  onCounts fun t => { t with linkBits := t.linkBits + n, corrected := updateAt t.corrected p (· + n) }])

/-- n uncorrectable blocks. -/
def countUncorrectable (p n : Nat) : Effect := Effect.when (n != 0) (.all [
  addTo 32 (portIndex p) 0x0C n, almanacCount 0 1 n,
  onCounts fun t => { t with uncorrectable := updateAt t.uncorrectable p (· + n) }])

/-- n poisoned blocks received. -/
def countPoisoned (p n : Nat) : Effect := Effect.when (n != 0) (.seq
  (addTo 32 (portIndex p) 0x0D n) (almanacCount 0 2 n))

/-- n idle bit errors. -/
def countIdle (p n : Nat) : Effect := Effect.when (n != 0) (.all [
  addTo 32 (portIndex p) 0x0E n, almanacCount 0 3 n,
  onCounts fun t => { t with idle := updateAt t.idle p (· + n) }])

/-- A cell of a reserved kind, or a unicast cell that no device takes (R109, R110). -/
def countUntaken (p : Nat) : Effect := .seq (count 32 (portIndex p) 0x0C) (almanac 0 7)

/-! What a port sends (R111, R112, R117, R119, R120). -/

/-- The port that stands for the other end of the same chain: E1 for E0 of a tile, E(k+8) for Ek of a sender. -/
def State.otherPort (s : State) (p : Nat) : Nat := if s.isSender then (p + 8) % 16 else opposite p

/-- The ALIGN block of a lane of a port (R111). Byte 7 bit 0 speaks of the other port of the device that sends the slot
(DEDUCED, log 78). -/
def State.alignLane (s : State) (p seed lane : Nat) : List Byte :=
  let hops := if s.isSender then 0
    else
      let h := (s.port (opposite p)).hops
      if h = 0x3F then 0x3F else min 0x3E (h + 1)
  let addr := if s.address ≤ 511 then s.address else 0x3FF
  [0xA7] ++ bytesLE 1 lane ++ bytesLE 1 p ++ bytesLE 1 (if s.isSender then 2 else 1) ++ bytesLE 1 hops ++
    bytesLE 2 addr ++ bytesLE 1 ((if s.portUp (s.otherPort p) then 1 else 0) + if s.originates p then 2 else 0) ++
    bytesLE 8 seed

/-- The seeds of the four lanes out of one free value of 232 bits: R105 does not say how a transmitter chooses them (log 9). -/
def laneSeeds (v : Nat) : List Nat := (List.range 4).map fun l => v / 2 ^ (58 * l) % 2 ^ 58

/-- A port's own ALIGN slot: it is not scrambled, and both generators start again after it (R105, R111, R112). -/
def sendAlign (p : Nat) : Effect := .look fun s =>
  let seeds := laneSeeds (s.freeValue 232)
  .all [
    emit (.slot p (slotLanes (alignSlotBlocks fun l => s.alignLane p (seeds.getD l 0) l))), useFree,
    onPort p fun q => { q with tx := Line.start seeds }]

/-- ALIGN_SLOT_SEND (R107, R111, R117): an originator's ALIGN slot. -/
def execAlignSlotSend (port : Nat) (s : State) : Host.Outcome State Fault Refusal :=
  perform (Effect.when (s.portLive port && s.portUp port && s.originates port)
    (.seq (sendAlign port) (onPort port fun q => { q with slots := q.slots + 1 }))) s

/-- The equalization request of a TRAIN slot: what the receiver asks for is a matter of its adaption, and free but for the
codes that R120 lists (log 9). Outside EQ nothing is asked. -/
def State.eqRequest (s : State) (p : Nat) : Nat :=
  let v := s.freeValue 8
  let code (i : Nat) : Nat := let c := field v (2 * i + 1) (2 * i); if c = 3 then 0 else c
  if s.link p = 2 then code 0 + 4 * code 1 + 16 * code 2 + 64 * (field v 6 6) else 0

/-- The TRAIN block of a lane of a port: link state, personality, port, request, status and flags (R111, R120). -/
def State.trainLane (s : State) (p lane : Nat) : List Byte :=
  let n := s.link p
  let bit (i : Nat) (b : Bool) : Nat := if b then 2 ^ i else 0
  [0x71] ++ bytesLE 1 lane ++ bytesLE 1 n ++ bytesLE 1 (if s.isSender then 2 else 1) ++ bytesLE 1 p ++
    bytesLE 1 (s.eqRequest p) ++ bytesLE 1 (s.port p).eqStatus ++
    bytesLE 1 (bit 0 (3 ≤ n) + bit 1 (4 ≤ n) + bit 2 (5 ≤ n) + bit 3 (n == 6)) ++ zeroBytes 8

/-- A TRAIN slot, whose fill is not scrambled (R111, R112). -/
def sendTrain (p : Nat) : Effect := .look fun s => .all [
  emit (.slot p (slotLanes ((s.port p).tx.filled (s.trainLane p)))), useFree,
  onPort p fun q => { q with tx := q.tx.next }]

/-- An empty slot leaves on the opposite port of a tile, if that port is UP. -/
def passEmpty (p : Nat) : Effect := .look fun s =>
  Effect.when (s.isTile && s.portUp (opposite p)) (fillSlot (opposite p))

/-- A slot leaves on the opposite port of a tile as it is. -/
def passSlot (p : Nat) (blocks : List Block) : Effect := .look fun s =>
  Effect.when (s.isTile && s.portUp (opposite p)) (sendSlot (opposite p) blocks)

/-- A slot that is lost leaves an empty one, and is counted (R106, R114, R135). -/
def loseSlot (p : Nat) : Effect := .seq (almanac 0 4) (passEmpty p)

/-- PHASE_SLIP (R116): the slot in progress is lost, and the receiver realigns at the next ALIGN slot. -/
def execPhaseSlip (port : Nat) (s : State) : Host.Outcome State Fault Refusal :=
  perform (Effect.when (s.portLive port && [5, 6].contains (s.link port))
    (.seq (loseAlign port) (Effect.when (s.portUp port) (loseSlot port)))) s

/-- The receive FIFO of a port of a tile, 16 KiB for 64 slots of QUEUE cells, is full (R94). -/
def State.fifoFull (s : State) (p : Nat) : Bool :=
  s.isTile && 64 ≤ (s.hid.link.rx.filter fun q => q.1 == p && q.2.kind == 1).length

/-- A cell is taken; a QUEUE cell that a tile has no room for is dropped and counted (R94). -/
def takeCellIn (p : Nat) (c : Cell) : Effect := .look fun s =>
  if c.kind == 1 && s.fifoFull p then .seq (count 32 0x1644 0x0B) (onCounts fun t => { t with underruns := t.underruns + 1 })
  else onLink fun l => { l with rx := l.rx ++ [(p, c)] }

/-- A cell, some of its blocks poisoned, is turned around on the port that it arrived on (R118). -/
def turnCell (p : Nat) (c : Cell) (bad : List Nat) : Effect := .look fun s =>
  queueUp p (s.waiting { c with turned := true } bad)

/-! Sweeps (R125 to R131). -/

/-- The status that the passing cell takes for an entry; none where the tile does not act on it. The rows of R126 that
speak of any entry stand before the others (R126, R131; which of the two comes first DEDUCED, log 58). -/
def State.passingStatus (s : State) (waiting : Nat) (e : ServiceEntry) : Option Nat :=
  if e.target != s.address || e.status != 0xFF then none
  else if s.hid.reset.coreHeld || !s.up .core then some Status.unavailable
  else if 64 ≤ waiting then some Status.busy
  else if e.op = 1 && s.isFast e.key && s.served e.key then some Status.ok
  else some Status.deferred

/-- What a tile does with one entry of a sweep, n blocks from block i on, with a number of entries deferred before it: the
answer that goes into the passing cell, and the entry as deferred. A broadcast write that finds the deferred queue full or
CORE in reset is dropped: R131 leaves its STATUS alone and has no answer for it (DESIGN CHOICE, log 79). -/
def State.sweepEntry (s : State) (p : Nat) (c : Cell) (bad : List Nat) (i waiting : Nat) (e : ServiceEntry) (n : Nat) :
    Option ServiceEntry × Option Deferred :=
  let d : Deferred :=
    ⟨p, c.queue % 512, c.src, c.fromEnd, e.op, e.key, e.label, e.value, e.target == 0xFFFF, n⟩
  if (List.range n).any fun j => bad.contains (i + j) then (none, none)
  else if e.target = 0xFFFF then
    (none, if 64 ≤ waiting || s.hid.reset.coreHeld || !s.up .core then none else some d)
  else match s.passingStatus waiting e with
    | none => (none, none)
    | some st => (some (if st = Status.ok then { e with status := st, value := bytesLE 8 (s.value e.key) }
        else { e with status := st }), if st = Status.deferred then some d else none)

/-- What a tile does with the entries of a sweep, in order from block i on: the answers in the passing cell by block, and
the deferred entries. -/
def State.sweepEntries (s : State) (p : Nat) (c : Cell) (bad : List Nat) :
    (entries : List (ServiceEntry × Nat)) → (block waiting : Nat) → List (Nat × ServiceEntry) × List Deferred
  | [], _, _ => ([], [])
  | (e, n) :: r, i, waiting =>
    let (a, d) := s.sweepEntry p c bad i waiting e n
    let (as, ds) := s.sweepEntries p c bad r (i + n) (waiting + d.toList.length)
    (a.toList.map (fun x => (i, x)) ++ as, d.toList ++ ds)

/-- The passing cell with answers in some of its entry blocks; entry k stands in block k + 1. -/
def answeredCell (c : Cell) (as : List (Nat × ServiceEntry)) : Cell :=
  { c with body := (List.range 15).flatMap fun k => match lookupKey as (k + 1) with
      | some e => (serviceBytes { e with value := e.value.take 8 })
      | none => slice c.body (16 * k) 16 }

/-- A sweep passes (R126 to R128): answers go in, and the deferred entries queue with one answer cell owed. -/
def passSweep (p : Nat) (c : Cell) (bad : List Nat) : Effect := .look fun s =>
  let groups := groupEntries 15 (serviceEntries c)
  let (as, ds) := if c.turned then ([], []) else s.sweepEntries p c bad groups 1 s.hid.link.deferred.length
  let d := answeredCell c as
  let owing := ds.filter fun x => !x.silent
  .all [
    onLink fun l => { l with
      deferred := l.deferred ++ ds
      owed := if owing.isEmpty then l.owed
        else l.owed ++ [⟨p, c.queue % 512, c.src, c.fromEnd, owing.length, [], c.seq⟩] },
    if s.portUp (opposite p) then passSlot p (cellBlocks d bad)
    else if c.turned then .nothing else turnCell p d bad]

/-- A tile takes a copy of a cell, or the cell itself (R110, R114). -/
def State.takes (s : State) (c : Cell) : Bool :=
  match c.kind with
  | 1 => c.bcast || c.queue / 512 == s.address
  | 4 => true
  | 7 => c.bcast
  | _ => false

/-- The kind is reserved (R109). -/
def reservedKind (k : Nat) : Bool := k == 0 || 8 ≤ k

/-- A SYNC beacon with a bad block is none that time is kept by (R187). -/
def rejectBeacon : Effect := .seq (count 32 0x1302 4) (almanac 2 0)

/-- A cell arrives at a tile (R114, R118, R135, R188). -/
def tileCell (p : Nat) (c : Cell) (bad : List Nat) : Effect := .look fun s =>
  let onward : Effect :=
    if s.portUp (opposite p) then passSlot p (cellBlocks c bad)
    else Effect.when (!c.bcast && c.kind != 5 && !(s.port (opposite p)).wasUp) (countUntaken p)
  if bad.contains 0 then passSlot p (cellBlocks c bad)
  else if reservedKind c.kind then .seq (countUntaken p) (passSlot p (cellBlocks c bad))
  else if c.kind = 2 then passSweep p c bad
  else if s.takes c && bad.isEmpty then
    .seq (takeCellIn p c) (if c.bcast then passSlot p (cellBlocks c bad) else passEmpty p)
  else if c.kind = 4 then if c.bcast then .seq rejectBeacon onward else passEmpty p
  else onward

/-- A QUEUE cell brings a gateway the content of a DOMAIN_READ (R56, R132; DEDUCED, log 58). -/
def State.bringsContent (s : State) (c : Cell) : Bool :=
  !c.bcast && c.queue / 512 == s.address && 128 ≤ c.queue % 512 && c.queue % 512 < 192

/-- A DIGEST of the peer arrives (R153, R157): its configuration digest shows at once, and the cell waits for the own one
unless its tick is settled. -/
def takeDigest (p : Nat) (c : Cell) : Effect := .look fun s => .seq
  (peerConfig (cellField c 20 4))
  (Effect.when (!s.settled (cellField c 0 1) (cellField c 4 8)) (takeCellIn p c))

/-- A cell arrives at a sender (R109, R110, R118). One that no device takes counts, whatever its body (R135). -/
def senderCell (p : Nat) (c : Cell) (bad : List Nat) : Effect := .look fun s =>
  let take : Effect :=
    if bad.isEmpty then takeCellIn p c
    else Effect.when (c.kind == 4 && c.bcast && s.reg 0x2100 1 != 0) rejectBeacon
  if bad.contains 0 then .nothing
  else match c.kind with
  | 2 =>
    if c.src = s.address then
      takeCellIn p (answeredCell c (bad.map fun i => (i, ⟨0xFFFE, 0, 0, 0, 0, []⟩)))
    else if c.turned then .nothing else turnCell p c bad
  | 3 => if c.queue / 512 = s.address then take else countUntaken p
  | 6 => if c.queue / 512 != s.address then countUntaken p else Effect.when bad.isEmpty (takeDigest p c)
  | 4 | 5 => take
  | 7 => .nothing
  | 1 => if s.bringsContent c then take else Effect.when (!c.bcast) (countUntaken p)
  | _ => countUntaken p

/-- The 16 blocks of a slot of a type, decoded. -/
def decodeSlot (header : BitVec 2) (blocks : List Block) : List (List Byte × Decoded) :=
  (List.range 16).map fun i => decodeBlock header (blocks.getD i ⟨0b00, 0⟩)

/-- The errors of a slot's blocks are counted (R135). -/
def countBlocks (p : Nat) (d : List (List Byte × Decoded)) : Effect :=
  let which (x : Decoded) : List Nat := (List.range 16).filter fun i => (d.getD i ([], .clean)).2 == x
  .all [
    Effect.each (fun l => countCorrected p l ((which .corrected).filter fun i => i % 4 == l).length) (List.range 4),
    countUncorrectable p (which .uncorrectable).length,
    countPoisoned p (which .poisoned).length]

/-- A data slot (R104, R106, R135). -/
def dataSlot (p : Nat) (blocks : List Block) : Effect := .look fun s =>
  let d := decodeSlot 0b01 blocks
  let bad := (List.range 16).filter fun i => !decoded (d.getD i ([], .clean))
  let c := cellOf (d.flatMap (·.1))
  .all [
    countBlocks p d,
    onCounts fun t => { t with ports := if t.ports.contains p then t.ports else t.ports ++ [p] },
    if s.isSender then senderCell p c bad else tileCell p c bad]

/-- The fields of an ALIGN slot are recorded (R121, R138), and its seeds start the receiver's generators (R105, R112). -/
def recordAlign (p : Nat) (blocks : List (List Byte)) : Effect :=
  let b := blocks.headD []
  let at' (o n : Nat) := natLE (slice b o n)
  .seq (set (portIndex p) 3 (at' 3 1 % 4 * 2 ^ 28 + at' 2 1 % 16 * 2 ^ 24 + at' 4 1 % 64 * 2 ^ 18 + at' 5 2 % 1024 * 256))
    (onPort p fun q => { q with hops := at' 4 1 % 64, rx := Line.start (alignSeeds blocks), lost := false })

/-- A RESET slot (R124): a second one within 1 ms makes it ready. No block of it may be uncorrectable. -/
def resetSlot (p : Nat) (d : List (List Byte × Decoded)) : Effect := .look fun s =>
  let copies := d.take 4
  let b := (copies.headD ([], .clean)).1
  let at' (o n : Nat) := natLE (slice b o n)
  let target := at' 2 2
  let kind := at' 4 1
  let whole := d.all decoded && copies.all fun q => q.1.take 1 == b.take 1 && slice q.1 2 6 == slice b 2 6
  let ok := whole && at' 5 2 == 65535 - target && at' 7 1 == 255 - kind && (kind == 1 || kind == 2) &&
    (target == s.address || (target == 0xFFFF && s.isTile))
  Effect.when ok (match (s.port p).rst with
    | some (t, k, at0) =>
      if t = target && k = kind && s.uptime ≤ at0 + 1000000 then
        onPort p fun q => { q with rst := none, rstReady := some kind }
      else onPort p fun q => { q with rst := some (target, kind, s.uptime) }
    | none => onPort p fun q => { q with rst := some (target, kind, s.uptime) })

/-- The type byte of a control slot that is not ALIGN: that of the first beat-0 block that decodes; with none the slot
reads as IDLE (R111; DEDUCED, log 58). -/
def controlType (d : List (List Byte × Decoded)) : Nat :=
  natLE ((((d.take 4).find? decoded).getD ([], .clean)).1.take 1)

/-- The blocks of a control slot as a tile encodes them again: what could not be decoded leaves poisoned (R113, R114). -/
def recoded (d : List (List Byte × Decoded)) : List Block :=
  d.map fun q => ⟨0b10, if decoded q then encodeWord q.1 else poisonWord q.1⟩

/-- A control slot other than ALIGN, descrambled (R106, R111, R114, R133, R135). -/
def controlSlotIn (p : Nat) (blocks : List Block) : Effect := .look fun s =>
  let rx := (s.port p).rx
  let d := decodeSlot 0b10 blocks
  .seq (countBlocks p d)
    (if controlType d = 0xC3 then .all [countIdle p (rx.fillErrors 8 blocks), resetSlot p d, passSlot p (recoded d)]
    else if controlType d = 0 then .seq (countIdle p (rx.fillErrors 1 blocks)) (passEmpty p)
    else passEmpty p)

/-- An ALIGN slot, or the place of one that is not accepted: a tile sends its own on the other port (R111, R114). -/
def alignSlot (p : Nat) (raw : List Block) : Effect := .all [
  countBlocks p (decodeSlot 0b10 raw),
  match alignBlocks raw with
    | some bs => recordAlign p bs
    | none => onPort p fun q => { q with rx := q.rx.next },
  .look fun s => Effect.when (s.isTile && s.portUp (opposite p)) (sendAlign (opposite p))]

/-- The 65,536th slot of a direction is its ALIGN slot (R107). -/
def alignAt : Nat := 65535

/-- A slot in UP (R106, R109 to R118, R124, R126, R133, R135). -/
def upSlot (p : Nat) (raw : List Block) : Effect := .look fun s =>
  let q := s.port p
  let moveOn : Effect := onPort p fun q => { q with rx := q.rx.next }
  if (alignBlocks raw).isSome then alignSlot p raw
  else if q.lost then .seq (loseSlot p) moveOn
  else match slotType raw with
    | .lost => .all [
        countUncorrectable p (raw.filter fun b => b.sync == 0b00 || b.sync == 0b11).length, loseSlot p, moveOn]
    | .data => .seq (dataSlot p (q.rx.scramble raw)) moveOn
    | .control => if q.rx.slot = alignAt then alignSlot p raw else .seq (controlSlotIn p (q.rx.scramble raw)) moveOn

/-- A slot in CHECK (R119, R133, R135): its errors count, and nothing of it is taken. -/
def checkSlot (p : Nat) (raw : List Block) : Effect := .look fun s =>
  let rx := (s.port p).rx
  let blocks := rx.scramble raw
  match alignBlocks raw, slotType raw with
  | some bs, _ => .seq (countBlocks p (decodeSlot 0b10 raw)) (recordAlign p bs)
  | none, t => .seq
      (match t with
        | .control => .seq (countBlocks p (decodeSlot 0b10 blocks))
            (Effect.when (controlType (decodeSlot 0b10 blocks) == 0) (countIdle p (rx.fillErrors 1 blocks)))
        | .data => countBlocks p (decodeSlot 0b01 blocks)
        | .lost => countUncorrectable p (raw.filter fun b => b.sync == 0b00 || b.sync == 0b11).length)
      (onPort p fun q => { q with rx := q.rx.next })

/-- The limits of the taps: pre-cursor, main and post-cursor (R140). -/
def tapLimits : List (Nat × Nat) := [(0, 16), (24, 64), (0, 24)]

/-- One tap answers one request: the taps, and the two bits of its status (R120, R140). -/
def moveTap (taps : List Nat) (i code : Nat) : List Nat × Nat :=
  let v := taps.getD i 0
  let (lo, hi) := tapLimits.getD i (0, 0)
  if code = 1 then if hi ≤ v || 64 ≤ taps.sum then (taps, 2) else (setAt taps i (v + 1), 0)
  else if code = 2 then if v ≤ lo then (taps, 1) else (setAt taps i (v - 1), 0)
  else (taps, 0)

/-- The taps after a request, and the status byte (R120): the default preset, or a step of each tap. -/
def answerTaps (taps : List Nat) (request : Nat) : List Nat × Nat :=
  if field request 7 6 = 1 then ([4, 52, 8], 0)
  else (List.range 3).foldl (fun q i =>
    let r := moveTap q.1 i (field request (2 * i + 1) (2 * i))
    (r.1, q.2 + r.2 * 4 ^ i)) (taps, 0)

/-- A TRAIN slot in EQ: a port whose AUTO is 1 follows the far end's request, and any other answers with hold (R120, R140). -/
def trainSlot (p : Nat) (raw : List Block) : Effect := .look fun s =>
  Effect.ofOption (((decodeSlot 0b10 raw).take 4).find? fun q => decoded q && q.1.head? == some 0x71) fun q =>
    let a := if s.flag (portIndex p) 6 31 then answerTaps (s.port p).taps (natLE (slice q.1 5 1)) else ((s.port p).taps, 0)
    onPort p fun q => { q with taps := a.1, eqStatus := a.2 }

/-- The blocks of a slot as its symbols arrive on the four lanes of a port, polarity and order put right (R98, R100, R101,
R139). -/
def State.slotIn (s : State) (p : Nat) (lanes : List (List Level)) : List Block :=
  let map := s.reg (portIndex p) 5
  slotBlocks (straighten (field map 11 8) (bitAt map 0) lanes)

/-- RECEIVE_SLOT (R98, R105, R119, R120): a slot on a port. -/
def execReceiveSlot (port : Nat) (lanes : List (List Level)) (s : State) : Host.Outcome State Fault Refusal :=
  let raw := s.slotIn port lanes
  perform (Effect.when (s.portLive port) (match s.link port with
    | 2 => trainSlot port raw
    | 4 => Effect.ofOption (alignBlocks raw) (recordAlign port)
    | 5 => checkSlot port raw
    | 6 => upSlot port raw
    | _ => .nothing)) s

/-! Enumeration (R14 to R21, R123). -/

/-- The hops of a chain that get an address: at most 32, while addresses are left (R20). -/
def assignChain (port : Nat) (next length : Nat) : List (Nat × Nat × Nat) × Nat :=
  let n := min (min 32 length) (512 - next)
  ((List.range n).map fun h => (next + h, port, h + 1), next + n)

/-- The addresses of all chains in ascending port order (R18); after the first tile without one, no tile gets one (R20). -/
def assignAll : (next : Nat) → List (Nat × Nat) → List (Nat × Nat × Nat)
  | _, [] => []
  | next, (p, n) :: r =>
    let (l, next') := assignChain p next n
    if l.length < n then l else l ++ assignAll next' r

/-- The chains in ascending port order. -/
def sortChains (l : List (Nat × Nat)) : List (Nat × Nat) :=
  l.foldl (fun acc c => insertKey acc c.1 c.2) []

/-- The first tile without an address, by port and hop. -/
def firstUnassigned (assigned : List (Nat × Nat × Nat)) (chains : List (Nat × Nat)) : Option (Nat × Nat) :=
  (chains.find? fun c => (assigned.filter fun a => a.2.1 == c.1).length < c.2).map fun c =>
    (c.1, (assigned.filter fun a => a.2.1 == c.1).length + 1)

/-- A chain that enumeration counts: not one found again at the return port of its loop (R16, R18), nor, while the other sender
of a pair is seen, one on whose port that sender finds no chain (R17). -/
def State.counts (s : State) (p : Nat) : Bool := s.chainPort p == p && (!s.peerSeen || s.otherEndKnown p)

/-- ENUMERATION (R14, R16 to R20): the enumerating sender finds chains, each a port and a tile count counted from the
address-0 end, and assigns addresses. -/
def execEnumeration (chains : List (Nat × Nat)) (s : State) : Host.Outcome State Fault Refusal :=
  let sorted := sortChains (chains.filter fun c => s.counts c.1)
  let assigned := assignAll (if s.pairLayout then 2 else 1) sorted
  perform (Effect.when (s.isSender && s.up .core) (.all [
    Effect.when (s.address == 0xFFFF) (set 0x1000 6 0),
    s.setRole (s.address == 1),
    onLink fun l => { l with addresses := assigned, chains := sorted, enumerated := true },
    Effect.ofOption (firstUnassigned assigned sorted) fun q => raise 20 (q.1 * 64 + q.2)])) s

/-- The address of hop h of chain k, counted from the end where the cell starts; 0xFFFF for a hop without one (R123). -/
def State.enumAddress (s : State) (k : Nat) (fromEnd : Bool) (h : Nat) : Nat :=
  let hop := if fromEnd then s.chainLength k + 1 - h else h
  ((s.hid.link.addresses.find? fun a => a.2.1 == k && a.2.2 == hop).map (·.1)).getD 0xFFFF

/-- The body of the ENUM cell for chain k on port p (R123). -/
def State.enumBody (s : State) (k p : Nat) : List Byte :=
  bytesLE 1 p ++ bytesLE 1 (if s.endOf p then 1 else 0) ++ zeroBytes 2 ++ (List.range 32).flatMap fun h =>
    bytesLE 2 (s.enumAddress k (s.endOf p) (h + 1))

/-- The UP port on which a chain's ENUM cell leaves: its first port, else the return port of a loop. -/
def State.enumPort (s : State) (k : Nat) : Option Nat := s.upPorts.find? fun p => s.chainPort p == k

/-- ENUM_SEND (R123): one ENUM cell on each chain. -/
def execEnumSend (s : State) : Host.Outcome State Fault Refusal :=
  perform (Effect.when (s.isSender && s.hid.link.enumerated) (Effect.each (fun (c : Nat × Nat) =>
    Effect.when (c.2 != 0) (Effect.ofOption (s.enumPort c.1) fun p => postCell p
      (plainCell 7 s.address 68 0 0 true (s.endOf p) false (s.enumBody c.1 p)))) s.hid.link.chains)) s

/-- The hops of a tile counted from an end (R121). -/
def State.hopsFrom (s : State) (fromEnd : Bool) : Nat :=
  let h := (s.port (if fromEnd then 1 else 0)).hops
  if h = 0x3F then 0x3F else min 0x3E (h + 1)

/-- An address from an ENUM cell, or the command to PASSTHROUGH (R20, R123, R446). -/
def takeAddress (a : Nat) : Effect := .look fun s =>
  if a = 0xFFFF then .seq (set 0x1000 6 0xFFFF)
    (Effect.when ([2, 3, 4, 5, 6, 11].contains s.mode) (.seq (enterMode Mode.passthrough Cause.enumeration)
      (onMode fun m => { m with byEnum := true })))
  else .seq (Effect.when (a != s.address) (set 0x1000 6 a))
    (Effect.when (s.mode == Mode.passthrough && s.hid.mode.byEnum) (enterMode Mode.dark Cause.enumeration))

/-- ENUM_RECEIVE (R20, R21, R123): the oldest ENUM cell taken by a tile. A tile past hop 32 gets no address. -/
def execEnumReceive (s : State) : Host.Outcome State Fault Refusal :=
  perform (withCell (fun c => c.kind == 7) fun _ c => .look fun t =>
    let h := t.hopsFrom (cellField c 1 1 == 1)
    Effect.when (t.isTile && 1 ≤ h && h != 0x3F)
      (takeAddress (if h ≤ 32 then cellField c (4 + 2 * (h - 1)) 2 else 0xFFFF))) s

/-- Answered entries packed into bodies of at most 15 blocks, an entry and its continuations in one. -/
def packAnswers (l : List (List Byte)) : List (List Byte) :=
  l.foldl (fun acc g => match acc.getLast? with
    | some b => if b.length + g.length ≤ 240 then acc.dropLast ++ [b ++ g] else acc ++ [g]
    | none => [g]) []

/-- An answer cell of a sweep, when its last deferred entry has been answered (R129); answers that one cell does not hold
continue in further ones with the same tag. SEQ is that of the sweep, the gateway's count (R108; both DEDUCED, log 58). -/
def answerCell (a : SweepAnswer) (mine : Nat) (body : List Byte) : Cell :=
  ⟨3, false, a.fromEnd, false, false, a.src * 512 + a.tag, mine, body.length, false, false, a.seq, 0, padTo 240 body, 0⟩

/-- One deferred entry has its status and value (R128, R129); a broadcast write has none. -/
def answerDeferred (d : Deferred) (status : Nat) (value : List Byte) : Effect := .look fun s => Effect.when (!d.silent)
  (let blocks := spreadEntry ⟨s.address, d.key, d.op, status, d.label, value⟩
   onLink fun l => { l with owed := match takeFirst (fun a => a.port == d.port && a.tag == d.tag && a.src == d.src && a.left != 0) l.owed with
     | some (a, _) => l.owed.map fun b => if b == a then { a with left := a.left - 1, done := a.done ++ [blocks.flatten] } else b
     | none => l.owed })

/-- SERVICE_ANS_SEND (R129): the answer cell of the oldest sweep whose entries are all answered leaves on the port that
faces the sweep's end, or on the other one. -/
def execServiceAnsSend (s : State) : Host.Outcome State Fault Refusal :=
  perform (Effect.ofOption (takeFirst (fun a => a.left == 0) s.hid.link.owed) fun (a, rest) => .seq
    (onLink fun l => { l with owed := rest })
    (Effect.ofOption ([a.port, opposite a.port].find? s.portUp) fun p =>
      Effect.each (fun b => postCell p (answerCell a s.address b)) (packAnswers a.done))) s

/-- Queued deferred entries at a warm reset: answered ABORTED (R130). -/
def abortDeferred : Effect := .look fun s => .seq
  (Effect.each (fun d => answerDeferred d Status.aborted d.value) s.hid.link.deferred)
  (onLink fun l => { l with deferred := [] })

end Sys2Proof.Machine
end

