-- ==== Sys2Proof/Machine/Resets.lean ====
section
/-! DEFINITION. Resets, the release of the domains and the start (R428 to R442, R450). -/

namespace Sys2Proof.Machine

/-! Sources (R430 to R433). -/

/-- The brownout threshold of VIO_B, in tenths of a mV: 90 % of the level that the part has selected (R430, R504). -/
def State.vioThreshold (s : State) : Nat := 9 * if s.hid.vioHigh then 3300 else 1800

/-- A rail is below its threshold (R430). -/
def State.railLow (s : State) (r : Rails) : Bool :=
  r.vdd < 680 || r.vddSer < 810 || r.vddM < 1220 || r.vioA < 1620 || 10 * r.vioB < s.vioThreshold

/-- BROWNOUT (R430): the rails as they stand for 2 µs. -/
def execBrownout (s : State) (rails : Rails := {}) : Host.Outcome State Fault Refusal :=
  perform (Effect.when (s.railLow rails) (assertReset 0x02)) s

/-- NRESET (R430). -/
def execNreset (s : State) : Host.Outcome State Fault Refusal := perform (assertReset 0x03) s

/-- NWARM (R430). -/
def execNwarm (s : State) : Host.Outcome State Fault Refusal := perform (assertReset 0x04) s

/-- WATCHDOG_EXPIRY (R433): warm, or cold when the count is already 3 or more; not in VIGIL. -/
def execWatchdogExpiry (s : State) : Host.Outcome State Fault Refusal :=
  perform (Effect.when (s.up .core && s.mode != Mode.vigil)
    (.seq (count 8 0x1100 5) (assertReset (if 3 ≤ s.reg 0x1100 5 then 0x08 else 0x07)))) s

/-- CLOCK_FAIL (R430, R510). -/
def execClockFail (s : State) : Host.Outcome State Fault Refusal := perform (assertReset 0x0C) s

/-- START_TIMEOUT (R441, R469): the start is still unconfirmed; none runs in VIGIL. -/
def execStartTimeout (s : State) : Host.Outcome State Fault Refusal :=
  perform (Effect.when (s.up .core && s.reg 0x1101 4 == 0 && s.mode != Mode.vigil) (assertReset 0x0D)) s

/-- LINK_COMMANDED_RESET (R124, R430): port has received the same RESET slot twice. -/
def execLinkCommandedReset (port : Nat) (s : State) : Host.Outcome State Fault Refusal :=
  perform (Effect.ofOption (s.port port).rstReady fun kind => .seq
    (onPort port fun q => { q with rstReady := none })
    (assertReset (if kind = 1 then 0x0A else 0x0B))) s

/-! POR and cold reset (R429). -/

/-- The personality that the strap selects (R1, R3). -/
def strapPersonality (b : BitVec 2) : Option Personality :=
  if b = 0b10 then some .sender else if b = 0b01 then some .tile else none

/-- What AON keeps through a cold reset, and the entries that count since POR (R428, R429). -/
def keptEntries : List Key :=
  [keyOf 0x1100 2, keyOf 0x1100 5, keyOf 0x1101 1, keyOf 0x1200 1, keyOf 0x1200 2, keyOf 0x1200 3, keyOf 0x1200 4] ++
    (List.range 12).map (fun k => keyOf 0x1201 (k + 1)) ++ (List.range 4).map (fun i => keyOf 0x1202 (i + 1)) ++
    [keyOf 0x1203 1, keyOf 0x1203 2, keyOf 0x1204 1, keyOf 0x1205 1, keyOf 0x1300 0x0A, keyOf 0x1400 0x0B]

/-- The part beside its dictionary after a POR or cold reset: the sensors of AON run on, and a broken one may become valid
again (R400); the shutdown level waits for CORE (R408); memory runs at the default pin rate (R371). -/
def Hidden.restarted (h : Hidden) (p : Personality) (level : Bool) : Hidden := { Hidden.initial with
  vioHigh := h.vioHigh
  extest := h.extest
  reset := { ResetState.initial with tripped := h.reset.tripped }
  memory := { MemoryState.initial with rate := if p = .sender then 200 else 160 }
  heat := { HeatState.initial with
    sensors := h.heat.sensors.map fun x => { x with passed := 0, eligible := true }
    shutdownWaits := level } }

/-- XSPI_RESET_N is driven low from AON as a POR or cold reset takes effect, for 10 µs (R502; log 104). -/
def flashResetStart : Effect := .seq (hidden fun h => { h with flashReset := true }) (emit (.pin 502 0 false))

/-- Any release comes after those 10 µs (R435): the pin is high again. -/
def flashResetEnd : Effect := .look fun s => Effect.when s.hid.flashReset
  (.seq (hidden fun h => { h with flashReset := false }) (emit (.pin 502 0 true)))

/-- Entry to VIGIL for a cause and with a fault code (R3, R441, R468). -/
def enterVigil (cause fault : Nat) : Effect := .all [
  darkOutputs, enterMode Mode.vigil cause, set 0x1001 4 fault, set 0x1101 4 2]

/-- All memory but the flash is lost (R429). -/
def loseMemory : Effect := .seq (.act (.erase 0 (Space.flash.at 0))) (.act (.erase (Space.banks.at 0) (Space.tableBuild.at (2 ^ 56))))

/-- The strap is sampled (R2, R3): an invalid one leads to VIGIL, on the dictionary of a tile (log 12). -/
def sampleStrap : Effect := .look fun s => .seq (set 0x1000 5 s.strap.toNat)
  (Effect.when (strapPersonality s.strap).isNone (.seq (set 0x1100 1 0x0E) (enterVigil Cause.invalidStrap FaultCode.strap)))

/-- A cold reset with its cause (R429, R431, R446). -/
def coldReset (code : Nat) : Effect := .look fun s =>
  let p := (strapPersonality s.strap).getD .tile
  .all [
    darkOutputs,
    dropHpds,
    count 32 0x1100 2,
    .act (.resetRegs p keptEntries),
    loseMemory,
    hidden fun h => h.restarted p (s.flag 0x1200 4 2),
    flashResetStart,
    set 0x1100 1 code, setBit 0x1200 4 6 (code == 0x09), setBit 0x1200 4 3 false,
    set 0x1001 1 Mode.boot, set 0x1001 3 Cause.start,
    sampleStrap]

/-- POR (R429, R430, R446, R504): everything but the flash is lost, the Advent counter comes from its mirror, and VIO_B, in mV
at the release, selects the levels. -/
def execPor (s : State) (vioB : Nat := 1800) : Host.Outcome State Fault Refusal :=
  let p := (strapPersonality s.strap).getD .tile
  perform (.all [
    darkOutputs,
    dropHpds,
    .act (.resetRegs p []),
    loseMemory,
    hidden fun _ => HeatState.initial |> fun t =>
      { Hidden.initial with
        memory := { MemoryState.initial with rate := if p = .sender then 200 else 160 }, heat := t, vioHigh := 2500 < vioB },
    flashResetStart,
    set 0x1100 1 0x01,
    setBy 0x1101 1 State.adventMirror,
    set 0x1001 1 Mode.boot, set 0x1001 3 Cause.start,
    sampleStrap]) s

/-! Warm reset (R429, R438, R450). -/

/-- 1030h.07 (R71). -/
def clearDoorCounters : Effect := .all [set 0x1030 5 0, set 0x1030 6 0, set 0x1030 8 0]

/-- The counters of the blocks of CORE and PIPE (R428). -/
def clearCounters : Effect := .look fun s => .all [
  budgetCounterClear,
  Effect.each (fun i => set 0x1302 i 0) [2, 3, 4, 9, 0x0A],
  set 0x1620 4 0, set 0x1600 0x0A 0, set 0x1500 0x13 0,
  clearDoorCounters,
  clearReceiveCounters,
  if s.isTile then .all [
      Effect.each clearLayerCounters (List.range 8), clearUploadCounters, set 0x4180 8 0, set 0x4180 9 0]
    else .all [
      ptpCounterClear, clearSlicerCounters, clearQueueCounters, clearBuildCounters, clearPcieCounters,
      Effect.each clearDpCounters (List.range 4), Effect.each clearFlowCounters (List.range 16)]]

/-- PIPE loses what it was at (R429, R257): the queue contexts and the previews' banks stay. -/
def stopPipe : Effect := .look fun s => .all [
  onCompose fun c => { c with
    gathering := [], messages := [], fresh := [], current := [], previous := [], todo := [], tick := none, lines := [] },
  onIngest fun i => { IngestState.initial with
    queues := i.queues
    edges := i.edges
    hpd := i.hpd
    full := i.full
    dpAt := i.dpAt
    flows := i.flows.map fun x => { FlowState.initial with joined := x.joined, since := x.completedAt.getD x.since }
    previews := i.previews.map fun p => { p with building := none } },
  Effect.when s.isSender (.seq (eraseAt (domainBase (keyOf 0x6031 1)) 4096) (eraseAt (domainBase (keyOf 0x6102 2)) 512)),
  resetTableLoader,
  Effect.when s.isTile (.seq releaseSlot (set 0x4100 0x0A 0))]

/-- CORE loses what it was at (R429, R51, R93, R130, R199, R423, R464). -/
def stopCore : Effect := .look fun s => .all [
  abortDeferred,
  endTests,
  dropCommits Status.abortedReset,
  onCommit fun c => { c with staged := [], content := [] },
  Effect.when s.hid.time.reepoch.isSome (.seq (set 0x1330 3 Status.abortedReset) (onTime fun t => { t with reepoch := none })),
  onTime fun t => { t with held := true },
  budgetReset,
  Effect.ofOption s.hid.heat.run fun _ => clearRun,
  onHeat fun h => { h with bandgapNext := none, commanded := [] },
  endMaintenance,
  Effect.when (s.reg 0x1500 0x11 == Status.inProgress) (set 0x1500 0x11 Status.aborted),
  endSession Status.aborted 0,
  onUpdate fun _ => UpdateState.initial,
  Effect.each (fun (q : Nat × Nat) => Effect.when (s.reg q.1 q.2 == Status.inProgress) (set q.1 q.2 Status.aborted))
    ([(0x1102, 4), (0x2202, 6), (0x1520, 6)] ++ (List.range 8).map fun n => (0x1020 + n, 0x0F)),
  Effect.when (s.reg 0x1103 4 == 1) (set 0x1103 4 0),
  onDoors fun _ => DoorState.initial,
  set 0x1400 2 (defaultOf s.pers (keyOf 0x1400 2)), almanacSetFreeze false,
  set 0x1400 4 (defaultOf s.pers (keyOf 0x1400 4)), set 0x1400 8 0]

/-- A warm reset with its cause (R390, R429, R438, R439, R446): the mode reads BOOT and its lanes latch as in the mode
interrupted; VIGIL stays. One that meets a start by warm reset keeps the mode that was first interrupted. -/
def warmReset (code : Nat) : Effect := .look fun s =>
  let m := if s.mode = Mode.boot && s.hid.reset.warmStart then s.hid.reset.interrupted
    else if s.mode = Mode.freeze then Mode.dark else s.mode
  .all [
    Effect.when (s.mode == Mode.freeze) freezeRelease,
    count 32 0x1100 2, set 0x1100 1 code,
    Effect.when (!s.hid.reset.coreHeld) stopCore,
    stopPipe,
    clearCounters,
    setBit 0x1100 6 Dom.core.bit false, setBit 0x1100 6 Dom.pipe.bit false,
    Effect.when ([FaultCode.memoryData, FaultCode.memoryCommand].contains (s.reg 0x1001 4)) (set 0x1001 4 0),
    set 0x1001 1 (if s.mode = Mode.vigil then Mode.vigil else Mode.boot),
    set 0x1001 3 Cause.warm, set 0x1001 6 s.tick,
    onMode fun d => { d with request := none, throttleTick := none },
    onReset fun r => { r with
      request := none
      held := false
      coreHeld := true
      interrupted := m
      warmStart := m != Mode.boot && m != Mode.vigil
      settingsRead := r.settingsRead && m != Mode.boot
      bootRan := r.bootRan && m != Mode.boot
      imagePending := false }]

/-! Performing a reset (R431, R432). -/

/-- The reset that has been asserted is performed. -/
def performReset : Effect := .look fun s => Effect.ofOption s.hid.reset.request fun code =>
  if s.hid.reset.scope = 1 then warmReset code else coldReset code

/-- COLD_RESET (R429): a cold source is asserted and not held. -/
def execColdReset (s : State) : Host.Outcome State Fault Refusal :=
  perform (Effect.when (2 ≤ s.hid.reset.scope && !s.hid.reset.held) performReset) s

/-- WARM_RESET (R438): a warm source is asserted and not held. -/
def execWarmReset (s : State) : Host.Outcome State Fault Refusal :=
  perform (Effect.when (s.hid.reset.scope == 1 && !s.hid.reset.held) performReset) s

/-- RESET_HELD_RELEASE (R432): the flash pulse has ended, and the held reset takes effect. -/
def execResetHeldRelease (s : State) : Host.Outcome State Fault Refusal :=
  perform (Effect.when s.hid.reset.held performReset) s

/-! Release (R434, R435). -/

/-- The domains may be released: no reset is asserted, and no trip holds them (R407). -/
def State.releasing (s : State) : Bool := s.hid.reset.request.isNone && !s.hid.reset.tripped

/-- A PLL has failed since the reset (R434): 0 core, 1 memory, 2 SerDes. -/
def State.pllFailed (s : State) (k : Nat) : Bool := s.hid.reset.failed.contains k

/-- The entry to VIGIL for want of an image (R468). -/
def vigilNoImage : Effect := enterVigil Cause.noImage FaultCode.noImage

/-- The Advent check (R441): VIGIL at the limit, or one more start counted and the start e run. -/
def adventCheck (e : Effect) : Effect := .look fun s =>
  if 4 ≤ s.reg 0x1101 1 then enterVigil Cause.adventLimit FaultCode.advent
  else .seq (setAdvent (s.reg 0x1101 1 + 1)) e

/-- The image of a cold start is chosen (R456, R468): a delta waits for MEM. -/
def chooseImage : Effect := .all [
  chooseBase,
  .look fun t =>
    if t.noImage then vigilNoImage
    else if t.wantsDelta && t.reg 0x3000 3 != 2 && t.reg 0x3000 3 != 5 && !t.pllFailed 1 then
      onReset fun r => { r with imagePending := true }
    else chooseDelta (t.reg 0x3000 3 == 2) vigilNoImage]

/-- CORE is released (R435 step 5, R441, R446, R456, R495): the supervisor runs from ROM, which reads the boot header. -/
def releaseCore : Effect := .look fun s => .all [
  setBit 0x1100 6 Dom.core.bit true,
  Effect.when (!s.bootHeader) (raise 456),
  onReset fun r => { r with coreHeld := false, confirmFrom := s.uptime },
  Effect.when (s.mode != Mode.vigil) (.all [
    set 0x1101 4 0,
    adventCheck (if s.hid.reset.coreHeld then .nothing else chooseImage),
    .look fun t => Effect.when (t.mode != Mode.vigil) (.all [
      almanacStart s.hid.reset.coreHeld,
      Effect.when t.hid.heat.shutdownWaits (.seq (onHeat fun h => { h with shutdownWaits := false })
        (if s.hid.reset.coreHeld then .all [
            endForShutdown, sendDarkLatches, set 0x1001 4 FaultCode.shutdown, darkOutputs,
            onReset fun r => { r with interrupted := Mode.shutdown, warmStart := true }]
          else shutDown))])])]

/-- The time-core program is loaded and the time core runs, from ROM in VIGIL (R196, R435 step 6): an image that waits for
MEM is chosen first. The servo of a timing master that has stepped starts again in HOLDOVER (R180). -/
def releaseTime : Effect := .look fun s =>
  let loaded : Effect := .look fun t => .seq
    (onTime fun m => { m with held := false })
    (Effect.when t.isSender (.all [
      driveHpds,
      followPtp,
      Effect.when (t.reg 0x1300 3 == 0) (set 0x1300 3 1),
      Effect.when (t.timingMaster && t.stepped && [2, 3, 4].contains (t.reg 0x1300 3)) enterHoldover]))
  if !s.hid.reset.imagePending then loaded
  else Effect.when (s.reg 0x3000 3 == 2 || s.reg 0x3000 3 == 5 || s.pllFailed 1) (.all [
    onReset fun r => { r with imagePending := false },
    chooseDelta (s.reg 0x3000 3 == 2) vigilNoImage,
    loaded])

/-- PIPE is released (R435 step 8, R439): a mode interrupted returns at the next boundary, or at once without a grid. -/
def releasePipe : Effect := .look fun s => .all [
  setBit 0x1100 6 Dom.pipe.bit true,
  onCompose fun c => { c with firstAfter := if s.stepped then some (s.tickFrom ((s.ns : Int) + ((2 * s.period).ceil : Int))) else none },
  Effect.when (!s.stepped) returnMode]

/-- DOMAIN_RELEASE (R434, R435, R442): the next domain in the order, once its clock is good. In VIGIL only LINK and CORE
run. -/
def execDomainRelease (d : Domain) (s : State) : Host.Outcome State Fault Refusal :=
  let vigil := s.mode == Mode.vigil
  perform (Effect.when s.releasing (.seq flashResetEnd (match d with
    | .mem => Effect.when (!vigil && !s.up .mem && !s.pllFailed 1) (.all [
        setBit 0x1100 6 Dom.mem.bit true, setBit 0x1100 7 1 true,
        set 0x3000 3 1, Effect.each (fun c => setField (channelIndex c) 1 2 0 1) s.channels])
    | .link => Effect.when (!s.up .link && !s.pllFailed 0 && !s.pllFailed 2) (.all [
        setBit 0x1100 6 Dom.link.bit true, setBit 0x1100 7 0 true, setBit 0x1100 7 2 true])
    | .core => Effect.when (!s.up .core && !s.pllFailed 0) (.seq (setBit 0x1100 7 0 true) releaseCore)
    | .time => Effect.when (s.up .core && s.hid.time.held) releaseTime
    | .scan => Effect.when (s.up .core && !vigil && !s.up .scan && !s.hid.time.held && !s.hid.reset.warmStart) (.seq
        (setBit 0x1100 6 Dom.scan.bit true)
        (Effect.when s.isTile (setField 0x5000 0x0A 3 0 15)))
    | .pipe => Effect.when (s.up .core && !vigil && !s.up .pipe && !s.hid.time.held &&
        (s.up .scan || s.hid.reset.warmStart)) releasePipe))) s

/-- CLOCK_NOT_GOOD (R434, R446): the failure is recorded; a memory or SerDes clock leads to FAULTDARK. -/
def execClockNotGood (pll : Pll) (s : State) : Host.Outcome State Fault Refusal :=
  let k := match pll with | .core => 0 | .mem => 1 | .serdes => 2
  let waits := match pll with | .core => !s.up .core | .mem => !s.up .mem | .serdes => !s.up .link
  let fault := match pll with | .core => 0 | .mem => FaultCode.memoryClock | .serdes => FaultCode.serdesClock
  perform (Effect.when (s.releasing && waits && !s.pllFailed k && !s.hid.reset.coreHeld) (.all [
    flashResetEnd,
    setBit 0x1100 7 7 true, count 32 0x1100 9,
    onReset fun r => { r with failed := k :: r.failed },
    Effect.when (fault != 0 && s.mode != Mode.vigil) (.seq (set 0x1001 4 fault) (enterMode Mode.faultdark Cause.fault))])) s

/-- CORE_PLL_RETRY (R434): the release is asked for again from step 2, for every PLL. -/
def execCorePllRetry (s : State) : Host.Outcome State Fault Refusal :=
  perform (Effect.when (s.pllFailed 0) (onReset fun r => { r with failed := [] })) s

/-! The start (R436). -/

/-- One record of the settings is loaded, or counted as skipped (R475). -/
def loadRecord (r : SettingsRecord) : Effect := .look fun s =>
  if r.index = 0 && (r.sub = 1 || r.sub = 2) then .nothing
  else match s.loads r with
    | some row => storeEntry row (keyOf r.index r.sub) r.value
    | none => addField 0x1500 0x13 47 32 1

/-- The settings that the staging set would make, for the sizes of the tables (R293). -/
def State.stagedConfig (s : State) : State := s.withCommit ⟨s.hid.commit.staged, s.hid.commit.content, none, true, 0, none⟩

/-- The settings store is read (R436 step 2, R473). -/
def readSettings : Effect := .look fun s => match s.settingsSlot with
  | some slot => Effect.each loadRecord (s.settingsIn slot)
  | none => Effect.when (!s.settingsErased) (set 0x1001 4 FaultCode.settings)

/-- The tables of the settings are loaded (R293, R436 step 4). -/
def loadTables : Effect := .look fun s => Effect.ofOption s.settingsSlot fun slot =>
  Effect.each (fun (r : SettingsRecord) => Effect.when (r.index == 0 && (r.sub == 1 || r.sub == 2))
    (.look fun t => loadTable (r.sub - 1) (t.stagedConfig.tableSize (r.sub - 1)) r.value)) (s.settingsIn slot)

/-- MEM_READY (R419, R436 steps 1 to 4, R446). -/
def execMemReady (s : State) : Host.Outcome State Fault Refusal :=
  perform (Effect.when (s.mode == Mode.boot && s.up .pipe && !s.hid.reset.warmStart && !s.hid.reset.settingsRead &&
      s.reg 0x3000 3 == 2) (.all [
    readSettings,
    onReset fun r => { r with settingsRead := true },
    .look fun t => onMemory fun m => { m with rate := t.reg 0x3000 2 },
    enterMode Mode.dark Cause.bootStep,
    Effect.when s.isTile (.seq loadTables loadLampMap),
    loadCalibration])) s

end Sys2Proof.Machine
end

