-- ==== Sys2Proof/Machine/Bringup.lean ====
section
/-! DEFINITION. Bring-up tests (R518 to R523), poisoned reads (R391), persistence of the Almanac (R493, R494), and resets of one
block (R440). -/

namespace Sys2Proof.Machine

/-! Tests (R518 to R521). -/

/-- The answer to a write that would start a test (R518). -/
def State.testStatus (s : State) (starts : Bool) : Nat :=
  if starts && s.mode != Mode.bringup then Status.unavailable else Status.ok

/-- 7010h+p.01 (R519): a mode other than 0 takes the port out of UP, and a clock-upstream port under test means HOLDOVER
(R194). -/
def portTest (p mode : Nat) : Effect := .look fun s => .all [
  Effect.when (mode != 0) (portDown p),
  set (0x7010 + p) 1 mode,
  Effect.when (mode != 0 && s.isTile && p == s.reg 0x2100 3 && s.stepped && s.reg 0x1300 3 == 2) startTileHoldover]

/-- 7010h+p.05 (R519). -/
def clearPortTest (p : Nat) : Effect := .seq (set (0x7010 + p) 2 0) (set (0x7010 + p) 3 0)

/-- The answer to 7030h.01 (R518, R521). -/
def State.memoryTestStatus (s : State) (v : Nat) : Nat :=
  if v = 1 && s.mode != Mode.bringup then Status.unavailable
  else if v = 1 && !s.testRegionFree then Status.range
  else Status.ok

/-- 7030h.01 = 0x02 (R521). -/
def stopMemoryTest : Effect := .look fun s => Effect.when (s.reg 0x7030 3 == 1) (set 0x7030 3 4)

/-- 7040h.02 (R522): the level of each GPIO that is an output. -/
def driveGpio (v : Nat) : Effect := .look fun s => .seq (set 0x7040 2 v) (Effect.each (fun g =>
  Effect.when (s.flag 0x7040 1 g && s.flag 0x7040 2 g != bitAt v g) (emit (.pin 522 g (bitAt v g)))) (List.range 16))

/-! Poisoned reads (R391). -/

/-- POISONED_READ (R391): the read of a poisoned word counts, and freezes nothing; what each requester does with the word
stands with that requester's reads. -/
def execPoisonedRead (place : MemPlace) (address : Nat) (s : State) : Host.Outcome State Fault Refusal :=
  perform (Effect.when (s.up .mem && s.channels.contains place.channel && s.poisoned address)
    (.all [addField (channelIndex place.channel) 2 31 16 1, almanac 4 1, resultOf place.channel (some place) 3])) s

/-! Persistence (R493, R494). -/

/-- The pages that wait to be persisted. -/
def State.pagesWaiting (s : State) : Nat := s.reg 0x1400 7 - s.hid.almanac.persisted

/-- A recorder sector is begun: the first without a valid header, or else the one with the lowest SEQ. -/
def beginSector : Effect := .look fun s =>
  let sector := match (List.range 128).find? fun i => (s.recorderSeq i).isNone with
    | some i => i
    | none => ((s.recorderBest false 128).map (·.1)).getD 0
  let seq := match s.recorderBest true 128 with
    | some (_, q) => (q + 1) % 2 ^ 32
    | none => 0
  let head := bytesLE 4 0x4E4D4C41 ++ bytesLE 4 seq ++ bytesLE 8 (s.reg 0x1000 7) ++ zeroBytes 12
  .seq (eraseFlash (Flash.recorder sector) 65536) (program (Flash.recorder sector) (head ++ bytesLE 4 (crc32 head)))

/-- One page goes into the sector with the highest SEQ, which has room (R494). -/
def persistPage (i : Nat) : Effect := .seq
  (.look fun s => Effect.when (match s.recorderBest true 128 with
    | some (sector, _) => s.recorderFill sector 255 == 255
    | none => true) beginSector)
  (.look fun s => Effect.ofOption (s.recorderBest true 128) fun (sector, _) =>
    program (Flash.recorder sector + 256 * (1 + s.recorderFill sector 255)) (s.bytes (Space.almanac.at (256 * i)) 256))

/-- A run: every page closed since the last one persisted, in slot order. -/
def persistPages : Effect := .look fun s => .all [
  Effect.each persistPage (List.range' s.hid.almanac.persisted s.pagesWaiting),
  addTo 32 0x1400 0x0B s.pagesWaiting,
  onAlmanac fun a => { a with persisted := s.reg 0x1400 7, queued := false },
  set 0x1400 0x0C 0,
  endActivity Activity.persistence]

/-- 1400h.05 = 0x03 (R493). -/
def persistNow : Effect := .all [
  onAlmanac fun a => { a with queued := true },
  set 0x1400 0x0C 1,
  requestActivity Activity.persistence]

/-- PERSISTENCE_RUN (R493): asked for at the interval while pages wait; a run that holds the FLASH token copies them. Pages
wait while master 8 is frozen (R496). -/
def execPersistenceRun (s : State) : Host.Outcome State Fault Refusal :=
  perform (Effect.when (s.up .core && !s.frozen 8) (.seq
    (Effect.when (!s.hid.almanac.queued && s.reg 0x1400 0x0A != 0 && s.pagesWaiting != 0) persistNow)
    (.look fun t => Effect.when (t.hid.almanac.queued && t.running Activity.persistence) persistPages))) s

/-! One block (R440). -/

/-- The block is not idle. -/
def State.blockBusy (s : State) (code : Nat) : Bool :=
  match code with
  | 0x01 => !s.hid.doors.transfers.isEmpty || s.hid.doors.requests.any fun r => r.stream.isSome
  | 0x02 => (List.range 4).any fun i => s.bankCode (i / 2) (i % 2) == Bank.loading
  | 0x03 => s.reg 0x4180 0x0B != 0xFF
  | 0x20 => !s.hid.ingest.jobs.isEmpty
  | 0x21 => s.layersWaiting != 0
  | 0x22 => s.hid.ingest.queues.any fun q => q.2.state == 1
  | 0x28 => !s.hid.compose.todo.isEmpty
  | 0x30 => s.hid.ingest.previews.any fun p => p.building.isSome
  | _ =>
    if 0x10 ≤ code && code < 0x14 then s.reg (dpIndex (code - 0x10)) 3 == 2
    else if code = 0x18 || code = 0x19 then
      (List.range 16).any fun f => [2, 3].contains (s.reg (flowIndex f) 7) && s.flag (flowIndex f) 1 (code - 0x18)
    else false

/-- What the reset of a block does. -/
def resetEffect (code : Nat) : Effect := .look fun s =>
  match code with
  | 0x01 => .seq
      (Effect.each (fun (r : Request) => Effect.when r.stream.isSome (finishRequest r Status.aborted [])) s.hid.doors.requests)
      (onDoors fun d => { d with transfers := [] })
  | 0x02 => resetTableLoader
  | 0x03 => releaseSlot
  | 0x20 => .seq (addTo 32 0x6104 4 s.hid.ingest.jobs.length) (onIngest fun i => { i with jobs := [] })
  | 0x21 => dropLayers
  | 0x22 => .seq (onIngest fun i => { i with held := [] }) runQueues
  | 0x28 => Effect.each abandonView s.hid.compose.todo
  | 0x30 => Effect.each abandonBuild (List.range 2)
  | _ =>
    if 0x10 ≤ code && code < 0x14 then Effect.when (s.reg (dpIndex (code - 0x10)) 3 == 2) (loseDp (code - 0x10))
    else if code = 0x18 || code = 0x19 then Effect.each (fun f =>
      Effect.when ([2, 3].contains (s.reg (flowIndex f) 7) && s.flag (flowIndex f) 1 (code - 0x18)) (loseFlow f))
      (List.range 16)
    else .nothing

/-- The answer to 1103h.02. -/
def State.blockStatus (s : State) : Nat :=
  if !(blockCodes s.pers).contains (s.reg 0x1103 1) then Status.range
  else if s.reg 0x1103 4 = 1 then Status.busy
  else Status.ok

/-- 1103h.02 (R440): an idle block is reset at once, another is asked to go idle. -/
def resetBlockNow : Effect := .look fun s =>
  let code := s.reg 0x1103 1
  if s.blockBusy code then .seq (set 0x1103 4 1) (onReset fun r => { r with block := code })
  else .seq (resetEffect code) (set 0x1103 4 2)

/-- BLOCK_RESET_FORCE (R440): at the end of the idle timeout, a block that is not idle is forced. -/
def execBlockResetForce (s : State) : Host.Outcome State Fault Refusal :=
  let code := s.hid.reset.block
  perform (Effect.when (s.reg 0x1103 4 == 1) (
    if s.blockBusy code then .all [count 32 0x1103 5, set 0x1103 6 code, resetEffect code, set 0x1103 4 3]
    else .seq (resetEffect code) (set 0x1103 4 2))) s

/-- 1100h.0A (R451). -/
def clearResetCounters : Effect := .all [set 0x1100 8 0, set 0x1100 9 0, set 0x1103 5 0]

end Sys2Proof.Machine
end

