-- ==== Sys2Proof/Machine/Doors.lean ====
section
/-! DEFINITION. Dictionary accesses (R36 to R45, R70, R524): the checks of R41 in their order, what a read gives and does, what a
write does, and DOMAIN content. -/

namespace Sys2Proof.Machine

/-- What an access comes to: its status, the value that it answers, and what it does to the part. -/
structure Served where
  status : Nat
  value : List Byte
  effect : Effect

/-- A refused access: it changes nothing (R41). -/
def refuse (status : Nat) : Served := ⟨status, [], .nothing⟩

/-! The checks (R41). -/

/-- The first checks: the object, the subindex, and whether the mode serves the entry. -/
def State.absent (s : State) (k : Key) : Option Nat :=
  if (rowsOf s.pers (k / 256)).isNone then some Status.noObject
  else if k % 256 != 0 && (s.row k).isNone then some Status.noSub
  else if !s.served k then some Status.unavailable
  else none

/-- A DOMAIN entry that the domain mover cannot reach in the mode: one whose content lies in GDDR6 in FREEZE (R388), and in
PASSTHROUGH, where no budgeted master runs, each but that of a session, which every mode serves (R93, R461; DEDUCED, log 84). -/
def State.unreadable (s : State) (k : Key) : Bool :=
  (s.mode == Mode.freeze && (k == keyOf 0x2210 5 || k == keyOf 0x4180 6 || k == keyOf 0x5200 8)) ||
    (s.mode == Mode.passthrough && k != keyOf 0x1500 8)

/-- The budgeted master that moves a DOMAIN entry's content (R71, R265). -/
def moverOf (k : Key) : Nat := if k = keyOf 0x4180 6 then 2 else 0

/-! The window of BAR0 (R65). -/

/-- The entry behind the window, its offset, and what the window shows: a status and up to 64 bytes. -/
def State.windowKey (s : State) : Key := s.reg 0x1050 1
def State.windowOffset (s : State) : Nat := s.reg 0x1050 2

/-! Reads (R40). -/

/-- The first checks of a DOMAIN op. -/
def State.domainAbsent (s : State) (k : Key) : Option Nat :=
  match s.absent k with
  | some st => some st
  | none => if s.unreadable k then some Status.unavailable else none

/-- The checks of a DOMAIN_READ, door limit apart, and the bytes that it finds (R41, R70). -/
def State.domainBytes (s : State) (k : Key) (offset count : Nat) : Nat × List Byte :=
  match s.domainAbsent k with
  | some st => (st, [])
  | none =>
    if ((s.row k).map Row.acc) == some .wo then (Status.writeOnly, [])
    else if s.ty k != some .domain || s.domainSize k < offset then (Status.domainState, [])
    else if s.frozen (moverOf k) then (Status.frozen, [])
    else
      let n := min count (s.domainSize k - offset)
      (Status.ok, if k = keyOf 0x2210 5 then slice (s.hostStream (s.reg 0x2210 1)) offset n
        else s.bytes (domainBase k + offset) n)

/-- What a DOMAIN_READ does: stream data is consumed, a capture slot is held, and a session's holder is heard (R234, R265,
R462). -/
def domainReadEffect (d : Door) (k : Key) (offset n : Nat) : Effect := .look fun s =>
  if k = keyOf 0x2210 5 then consumeStream (s.reg 0x2210 1) (offset + n)
  else if k = keyOf 0x4180 6 then readCapture offset n
  else Effect.when (k == keyOf 0x1500 8 && s.session != 0 && !s.notHolder d) (onUpdate fun u => { u with touched := s.uptime })

/-- What a slot of the window reads as (R65): bytes of the content, zero past its end; a free value where the window
cannot be read (log 59). -/
def State.windowSlot (s : State) (j : Nat) : Nat :=
  let r := s.domainBytes s.windowKey s.windowOffset 64
  if r.1 = Status.ok then natLE (slice r.2 (8 * j) 8) else s.freeValue 64

/-- What an entry reads as at the doors. -/
def State.readValue (s : State) (k : Key) : Nat :=
  if s.isSender && k / 256 = 0x1050 && 0x10 ≤ k % 256 && k % 256 ≤ 0x17 then s.windowSlot (k % 256 - 0x10) else s.value k

/-- What a read does: the windows of the Almanac and of BAR0 move on (R65, R492). -/
def readEffect (d : Door) (k : Key) : Effect := .look fun s =>
  if k = keyOf 0x1401 9 then setBy 0x1401 1 fun t => (t.reg 0x1401 1 + 64) % 524288
  else if s.isSender && k / 256 = 0x1050 && 0x10 ≤ k % 256 && k % 256 ≤ 0x17 then
    let r := s.domainBytes s.windowKey s.windowOffset 64
    .all [
      Effect.when (r.1 != Status.ok) useFree,
      set 0x1050 3 r.1,
      Effect.when (k % 256 == 0x17) (.seq
        (Effect.when (r.1 == Status.ok) (domainReadEffect d s.windowKey s.windowOffset r.2.length))
        (set 0x1050 2 (s.windowOffset + 64)))]
  else .nothing

/-- READ (R40). -/
def State.readAccess (s : State) (d : Door) (k : Key) : Served :=
  match s.absent k with
  | some st => refuse st
  | none =>
    match s.row k with
    | none => ⟨Status.ok, bytesLE 1 (s.value k), .nothing⟩
    | some r =>
      if r.acc = .wo then refuse Status.writeOnly
      else if r.ty = .domain then ⟨Status.ok, bytesLE 4 (s.domainSize k), .nothing⟩
      else ⟨Status.ok, bytesLE r.ty.size (s.readValue k), readEffect d k⟩

/-- READ_STAGED (R40). -/
def State.stagedAccess (s : State) (d : Door) (k : Key) : Served :=
  let a := s.readAccess d k
  if a.status = Status.ok && ((s.row k).map Row.acc) == some .rws then
    match lookupKey s.hid.commit.staged k, s.ty k with
    | none, _ => { a with status := Status.notStaged }
    | some _, some .domain => a
    | some v, some t => { a with value := bytesLE t.size v }
    | some _, none => a
  else a

/-- DOMAIN_READ (R70): at most the limit of the door. -/
def State.domainReadAccess (s : State) (d : Door) (k : Key) (offset count limit : Nat) : Served :=
  match s.domainAbsent k with
  | some st => refuse st
  | none =>
    if ((s.row k).map Row.acc) == some .wo then refuse Status.writeOnly
    else if count = 0 || limit < count then refuse Status.length
    else
      let r := s.domainBytes k offset count
      ⟨r.1, r.2, Effect.when (r.1 == Status.ok) (domainReadEffect d k offset r.2.length)⟩

/-! Writes (R40, R45, R524). -/

/-- An entry whose value the settings save has been written (R480). -/
def markChanged (r : Row) (k : Key) : Effect :=
  Effect.when (r.acc == .rw && savedRow k r) (setBit 0x1500 0x0F 7 true)

/-- An entry staged while the set is full (R45). -/
def State.stageFull (s : State) (r : Row) (k : Key) : Bool :=
  r.acc == .rws && 1024 ≤ s.hid.commit.staged.length && (lookupKey s.hid.commit.staged k).isNone

/-- DOMAIN_WRITE (R70): at most the limit of the door; into the staged content, into the update session, or at once. -/
def State.domainWriteAccess (s : State) (d : Door) (k : Key) (offset : Nat) (bs : List Byte) (limit : Nat) : Served :=
  match s.domainAbsent k with
  | some st => refuse st
  | none =>
    match s.row k with
    | none => refuse Status.readOnly
    | some r =>
      if r.acc = .ro || r.acc = .konst then refuse Status.readOnly
      else if bs.length = 0 || limit < bs.length then refuse Status.length
      else if r.ty != .domain then refuse Status.domainState
      else if k = keyOf 0x1500 8 then
        let st := s.chunkStatus (!s.notHolder d) offset bs
        if st != Status.range && s.frozen 0 then refuse Status.frozen
        else ⟨st, [], Effect.when (st == Status.ok) (takeChunks offset bs)⟩
      else if s.domainSize k < offset + bs.length then refuse Status.domainState
      else if s.stageFull r k then refuse Status.stageFull
      else if s.frozen 0 then refuse Status.frozen
      else ⟨Status.ok, [], .seq
        (if r.acc = .rws then stageContent k offset bs else storeAt (domainBase k + offset) bs) (markChanged r k)⟩

/-- A command taken, with what it does. -/
def taken (e : Effect) : Option (Nat × Effect) := some (Status.ok, e)

/-- A command whose answer is st: it acts when that is OK, or QUEUED. -/
def answered (st : Nat) (e : Effect) : Option (Nat × Effect) :=
  some (st, Effect.when (st == Status.ok || st == Status.queued) e)

/-- Writes of the supervisor's entries that do more than store a value: 1000h to 16FFh. -/
def State.coreCommand (s : State) (go : Nat → Effect) (d : Door) (i sub v : Nat) : Option (Nat × Effect) :=
  match i, sub with
  | 0x1001, 2 => answered (s.requestStatus v) (acceptRequest v)
  | 0x1010, 1 => taken (match v with
      | 1 => commandCommit false
      | 2 => commandCommit true
      | 3 => cancelCommit
      | _ => discardStaged)
  | 0x1030, 7 => taken clearDoorCounters
  | 0x1100, 3 => taken (assertReset (if v = 1 then 0x06 else 0x05))
  | 0x1100, 0x0A => taken clearResetCounters
  | 0x1101, 2 => taken (setAdvent 0)
  | 0x1102, 3 => taken (Effect.when (v == 1) resetLink)
  | 0x1103, 2 => answered s.blockStatus resetBlockNow
  | 0x1204, 2 => taken (set 0x1204 1 0)
  | 0x1210, 1 => taken (throttleTest v)
  | 0x1302, 0x0B => taken timeCounterClear
  | 0x1320, 0x0C =>
      answered (if (toSigned 32 v).natAbs * s.grid.rn ≤ s.grid.rd * 10 ^ 9 then Status.ok else Status.range) (set 0x1320 0x0C v)
  | 0x1330, 1 => taken (reepochCommand v)
  | 0x1400, 3 => taken (almanacSetFreeze (v == 1))
  | 0x1400, 5 => match v with
      | 1 => taken almanacClear
      | 2 => taken (beginClose 3)
      | _ => answered (s.activityStatus Activity.persistence) persistNow
  | 0x1400, 0x0D => taken (.seq (set 0x1400 8 0) (set 0x1400 0x0B 0))
  | 0x1500, 1 => match v with
      | 1 => answered (s.openStatus d) (openSession d)
      | 2 => answered (s.holderStatus d) closeSession
      | _ => answered (s.holderStatus d) (endSession Status.cancelled 0)
  | 0x1500, 0x10 =>
      if v = 1 then answered s.storeStatus (requestStore 0)
      else answered (if [Mode.dark, Mode.bringup, Mode.vigil].contains s.mode then Status.ok else Status.unavailable)
        (.seq (eraseFlash (Flash.settings 0) 0x400000) (eraseFlash (Flash.settings 1) 0x400000))
  | 0x1500, 0x14 => taken (set 0x1500 0x13 0)
  | 0x1520, 5 =>
      if v = 1 then answered (if s.reg 0x1520 6 = 0xFF then Status.busy else Status.ok) startUpdate else taken .nothing
  | 0x1600, 3 => match v with
      | 1 => answered s.calibrateStatus (calibrate [s.reg 0x1600 4])
      | 2 => answered s.calibrateStatus (calibrate s.items)
      | 3 => answered s.storeStatus (requestStore 1)
      | 4 => taken loadCalibration
      | _ => taken clearSuspects
  | 0x1600, 0x0D => taken (set 0x1600 0x0A 0)
  | 0x1644, 2 => taken (askRelease v)
  | 0x1644, 0x0D => taken budgetCounterClear
  | _, _ =>
    if 0x1020 ≤ i && i < 0x1028 && sub = 0x0E then
      if v = 1 then answered (if s.reg i 0x0F = 0xFF then Status.busy else Status.ok) (go (i - 0x1020)) else taken .nothing
    else if i = 0x1050 && sub = 0x17 then
      let k := s.windowKey
      let bs := (List.range 7).flatMap (fun j => bytesLE 8 (s.reg 0x1050 (0x10 + j))) ++ bytesLE 8 v
      let r := s.domainWriteAccess d k s.windowOffset bs 64
      taken (.all [
        set 0x1050 0x17 v,
        r.effect,
        set 0x1050 3 r.status, set 0x1050 2 (s.windowOffset + 64)])
    else none

/-- Writes of the link's, the queues', the memory's and the bring-up entries that do more than store a value. -/
def State.linkCommand (s : State) (i sub v : Nat) : Option (Nat × Effect) :=
  let q := s.reg 0x2200 1
  let ring' (e : Effect) : Option (Nat × Effect) := answered (if q % 512 < 256 then Status.range else Status.ok) e
  match i, sub with
  | 0x2100, 4 => answered (s.mastershipStatus v) (mastership v)
  | 0x2101, 9 => taken clearRedundancyCounters
  | 0x2102, 0x0B => taken clearRedundancyCounters
  | 0x2200, 2 => answered (if q % 512 < 256 || v % 256 != 0 || hostArea ≤ v then Status.range else Status.ok)
      (onQueue q fun c => { c with base := v })
  | 0x2200, 3 => ring' (onQueue q fun c => { c with size := v })
  | 0x2200, 5 => some (if s.tailRefused q v then Status.range else Status.ok, ring q v)
  | 0x2200, 9 => ring' (match v with
      | 1 => resetQueue q
      | 2 => disableQueue q
      | _ => enableQueue q)
  | 0x2201, 3 => taken clearQueueCounters
  | 0x2202, 5 => if v = 1 then some (s.loaderStatus, startLoader) else taken .nothing
  | 0x2210, 6 => taken clearReceiveCounters
  | 0x3001, 1 => match v with
      | 1 => answered (if s.reg 0x3000 3 = 3 then Status.ok else Status.unavailable) freezeRelease
      | 2 => taken clearFreezeRecord
      | 3 => some (Status.queued, retrainAll)
      | 4 => taken scrubNow
      | _ => taken clearChannels
  | 0x7020, 1 => answered (s.testStatus (v != 0)) (set 0x7020 1 v)
  | 0x7030, 1 => answered (s.memoryTestStatus v) (if v = 1 then startMemoryTest else stopMemoryTest)
  | 0x7040, 2 => taken (driveGpio v)
  | _, _ =>
    if 0x2000 ≤ i && i < 0x2010 && sub = 4 then taken (if v = 1 then portRetrain (i - 0x2000) else portGoDown (i - 0x2000))
    else if 0x2000 ≤ i && i < 0x2010 && sub = 0x12 then taken (portCounterClear (i - 0x2000))
    else if 0x3030 ≤ i && i < 0x3054 && sub = 7 then taken (clearChannel (i - 0x3030))
    else if 0x7010 ≤ i && i < 0x7020 && sub = 1 then answered (s.testStatus (v != 0)) (portTest (i - 0x7010) v)
    else if 0x7010 ≤ i && i < 0x7020 && sub = 5 then taken (clearPortTest (i - 0x7010))
    else none

/-- Writes of the content pipeline's and the scan path's entries that do more than store a value. -/
def State.pipeCommand (s : State) (i sub v : Nat) : Option (Nat × Effect) :=
  match i, sub with
  | 0x4100, 9 => taken (Effect.each clearLayerCounters (List.range 8))
  | 0x4100, 0x0B => taken (clearFirstSubstitution v)
  | 0x4180, 0x0A => taken (if v = 1 then emptyRing else releaseSlot)
  | 0x4204, 4 => taken clearUploadCounters
  | 0x4320, 1 => taken planSlots
  | 0x5000, 0x0D => taken (clearLampCounters (keyOf 0x5000 0x0D))
  | 0x5100, 3 => taken (clearLampCounters (keyOf 0x5100 3))
  | 0x5200, 9 => match v with
      | 1 => answered s.storeStatus (requestStore 2)
      | 2 => answered s.mapClearStatus clearMap
      | _ => taken loadLampMap
  | 0x5200, 0x0F => taken (clearLampCounters (keyOf 0x5200 0x0F))
  | 0x6020, 5 => taken clearPcieCounters
  | 0x6031, 2 => taken (resetFence v)
  | 0x6105, 3 => taken clearSlicerCounters
  | 0x6200, 0x10 => taken ptpCounterClear
  | 0x6302, 8 => taken clearBuildCounters
  | _, _ =>
    if 0x4000 ≤ i && i < 0x4004 && sub = 0x13 then taken (clearTgCounters (i - 0x4000))
    else if 0x4110 ≤ i && i < 0x4118 && sub = 0x12 then taken (clearLayerCounters (i - 0x4110))
    else if 0x4330 ≤ i && i < 0x4338 && sub = 7 then taken (writeStartTime (i - 0x4330) v)
    else if 0x6001 ≤ i && i < 0x6005 && sub = 9 then taken (clearDpCounters (i - 0x6001))
    else if 0x6010 ≤ i && i < 0x6020 && sub = 9 then taken (clearFlowCounters (i - 0x6010))
    else if 0x6300 ≤ i && i < 0x6302 && sub = 0x10 then taken (clearPreviewCounters (i - 0x6300))
    else none

/-- What a write of an entry does beyond storing its value, with its answer; none for an entry that has no behaviour of its
own. -/
def State.command (s : State) (go : Nat → Effect) (d : Door) (k : Key) (v : Nat) : Option (Nat × Effect) :=
  if k / 256 < 0x2000 then s.coreCommand go d (k / 256) (k % 256) v
  else if k / 256 < 0x4000 || 0x7000 ≤ k / 256 then s.linkCommand (k / 256) (k % 256) v
  else s.pipeCommand (k / 256) (k % 256) v

/-- WRITE (R40). -/
def State.writeAccess (s : State) (go : Nat → Effect) (d : Door) (k : Key) (bs : List Byte) : Served :=
  match s.absent k with
  | some st => refuse st
  | none =>
    match s.row k with
    | none => refuse Status.readOnly
    | some r =>
      if r.acc = .ro || r.acc = .konst then refuse Status.readOnly
      else if r.ty = .domain then refuse Status.domainState
      else if !lengthOk r.ty bs then refuse Status.length
      else if !r.takes s.pers (entryValue r.ty bs) then refuse Status.range
      else if s.stageFull r k then refuse Status.stageFull
      else match s.command go d k (entryValue r.ty bs) with
        | some (st, e) => ⟨st, [], .seq e (Effect.when (st == Status.ok) (markChanged r k))⟩
        | none =>
          if r.acc = .wo then ⟨Status.ok, [], .nothing⟩
          else if r.acc = .rw1c then ⟨Status.ok, [], clearOnes k (natLE bs)⟩
          else ⟨Status.ok, [], .seq (storeEntry r k bs) (markChanged r k)⟩

/-! One access (R37, R40, R485). -/

/-- An access as any door carries it: the op, the entry, the value, and for a DOMAIN op its offset, count and limit. -/
structure Ask where
  op : Nat
  key : Key
  value : List Byte
  offset : Nat
  count : Nat
  limit : Nat

/-- What an access comes to. -/
def State.access (s : State) (go : Nat → Effect) (d : Door) (a : Ask) : Served :=
  match a.op with
  | 1 => s.readAccess d a.key
  | 2 => s.writeAccess go d a.key a.value
  | 3 => s.stagedAccess d a.key
  | 4 => s.domainReadAccess d a.key a.offset a.count a.limit
  | 5 => s.domainWriteAccess d a.key a.offset a.value a.limit
  | _ => refuse Status.range

/-- The bin of H7 for writes to an index (R485). -/
def writeBin (index : Nat) : Nat :=
  if index < 0x2000 then 0 else if index < 0x3000 then 1 else if index < 0x4000 then 2 else if index < 0x5000 then 3
  else if index < 0x6000 then 4 else if index < 0x7000 then 5 else 6

/-- The dictionary engine serves an access: its effect, the counts of the Almanac, and what is done with the answer. -/
def serve (go : Nat → Effect) (d : Door) (a : Ask) (reply : Nat → List Byte → Effect) : Effect := .look fun s =>
  let r := s.access go d a
  .all [
    r.effect,
    Effect.when ((a.op == 2 || a.op == 5) && (r.status == Status.ok || r.status == Status.queued))
      (almanac 7 (writeBin (a.key / 256))),
    Effect.when (r.status != Status.ok) (almanac 7 7),
    reply r.status r.value]

/-! Mailboxes (R66). -/

/-- The value or the data of a mailbox. -/
def State.mailboxBytes (s : State) (n count : Nat) : List Byte :=
  ((List.range 8).flatMap fun j => bytesLE 8 (s.reg (0x1020 + n) (6 + j))).take count

/-- A mailbox request (R53, R54, R66): served here, broadcast, or sent to its target. -/
def mailboxRequest (go : Nat → Effect) (n : Nat) : Effect := .look fun s =>
  let i := 0x1020 + n
  let target := s.reg i 1
  let op := s.reg i 3
  let count := s.reg i 4
  let value := if op = 2 || op = 5 then s.mailboxBytes n count else []
  let show' (st : Nat) (v : List Byte) : Effect := .seq
    (Effect.when (!v.isEmpty) (Effect.each (fun j => set i (6 + j) (natLE (slice v (8 * j) 8))) (List.range 8)))
    (set i 0x0F st)
  .seq (set i 0x0F Status.inProgress) (
    if target = 0xFFFF then
      let st := s.broadcastStatus op (s.reg i 2) value
      .seq (Effect.when (st == Status.ok) (sendBroadcast (s.reg i 2) value)) (set i 0x0F st)
    else if target = s.address then serve go .pcie ⟨op, s.reg i 2, value, s.reg i 5, count, 64⟩ show'
    else if op = 4 || op = 5 then
      if count = 0 || 64 < count then set i 0x0F Status.length
      else sendDomain (.mailbox n) target op (s.reg i 2) (s.reg i 5) count value
    else if op = 0 || 5 < op then set i 0x0F Status.range
    else sendRequest (.mailbox n) target op (s.reg i 2) value none)

/-- A mailbox goes (R66). A request to the sender itself may be the write that makes another mailbox go, and so on for at
most the eight of them: one in flight refuses with BUSY. -/
def mailboxGo : (fuel : Nat) → Nat → Effect
  | 0 => fun _ => .nothing
  | n + 1 => mailboxRequest (mailboxGo n)

/-- The engine serves an access from a door. -/
def serveDoor (d : Door) (a : Ask) (reply : Nat → List Byte → Effect) : Effect := serve (mailboxGo 8) d a reply

/-- The door is one that the personality has (R4, R53, R57, R62, R67): SPI and service cells on a tile, the management port and
PCIe on a sender. An access that arrives at another one meets a block that is held in reset, and is neither performed nor
answered (DEDUCED, log 85). -/
def State.hasDoor (s : State) : Door → Bool
  | .spi | .service _ => s.isTile
  | .tlaroek | .pcie => s.isSender

/-- An access from a door whose answer goes out at that door. While CORE is held, SPI and service cells are answered
UNAVAILABLE, and the other doors neither act nor answer (R126, R437). -/
def atDoor (d : Door) (a : Ask) : Effect := .look fun s =>
  let out (st : Nat) (v : List Byte) : Effect := emit (.answer d st v)
  if !s.hasDoor d then .nothing
  else if s.up .core then serveDoor d a out
  else match d with
    | .spi | .service _ => out Status.unavailable []
    | .tlaroek | .pcie => .nothing

/-- A WRITE at a door. -/
def writeAt (d : Door) (k : Key) (bs : List Byte) : Effect := atDoor d ⟨2, k, bs, 0, 0, 0⟩

/-- A WRITE of one byte at a door: a command. -/
def commandAt (d : Door) (index sub v : Nat) : Effect := writeAt d (keyOf index sub) (bytesLE 1 v)

/-- The chunk limit of DOMAIN content at a door (R70). -/
def chunkLimit : Door → Nat
  | .pcie => 64
  | _ => 1024

end Sys2Proof.Machine
end

