-- ==== Sys2Proof/Machine/Gateway.lean ====
section
/-! DEFINITION. What arrives at the doors: Tlaroek datagrams (R57 to R60), BAR0 (R62 to R65), SPI frames (R67, R68), the
deferred service entries of a tile (R126 to R132), and what answers a gateway's requests (R53 to R56). -/

namespace Sys2Proof.Machine

/-! Answers to a gateway (R55, R129). -/

/-- An answered entry is final: it is neither unanswered, nor deferred, nor in a block that arrived spoilt. -/
def ServiceEntry.final (e : ServiceEntry) : Bool :=
  e.status != 0xFF && e.status != Status.deferred && e.target != 0xFFFE

/-- The first entry of a service cell with its whole value. -/
def Cell.entry (c : Cell) : Option ServiceEntry := ((groupEntries 15 (serviceEntries c)).map (·.1)).head?

/-- The request that a service cell answers (R129): that of its tag, sent on the end of the same chain whose END it carries. -/
def State.requestOf (s : State) (q : Nat × Cell) : Option Request :=
  s.hid.doors.requests.find? fun r => r.tag == q.2.queue % 512 && s.chainPort r.port == s.chainPort q.1 &&
    s.endOf r.port == q.2.fromEnd

/-- The content that a DOMAIN_READ's answer announces, when all of it is here (R132). -/
def State.contentOf (s : State) (r : Request) (e : ServiceEntry) : Option (List Byte) :=
  let n := natLE (slice e.value 4 2)
  if r.op != 4 || e.status != Status.ok || n = 0 then some []
  else (s.hid.compose.messages.find? fun m => some m.stream == r.stream && m.src == r.target).map fun m => m.bytes.take n

/-- A service cell for this gateway can be handled: an answer with content waits for the content. -/
def State.answerReady (s : State) (q : Nat × Cell) : Bool :=
  (q.2.kind == 3 || q.2.kind == 2) && match s.requestOf q, Cell.entry q.2 with
    | some r, some e => !e.final || (s.contentOf r e).isSome
    | _, _ => true

/-- An answer, or a sweep that has come back. -/
def takeAnswer (p : Nat) (c : Cell) : Effect := .look fun s =>
  match s.requestOf (p, c), Cell.entry c with
  | some r, some e => Effect.when e.final (.seq
      (finishRequest r e.status (if r.op = 4 then (s.contentOf r e).getD [] else e.value))
      (Effect.when (r.op == 4) (onCompose fun x => { x with
        messages := x.messages.filter fun m => !(some m.stream == r.stream && m.src == r.target) })))
  | none, some e => Effect.when (c.kind == 3 || e.final) (count 32 0x1030 8)
  | _, none => Effect.when (c.kind == 3) (count 32 0x1030 8)

/-- SERVICE_ANS_RECEIVE (R55, R129): the oldest answer cell, or the oldest sweep that has come back. -/
def execServiceAnsReceive (s : State) : Host.Outcome State Fault Refusal :=
  perform (Effect.when (s.isSender && s.up .core) (.seq (withCellOf s.answerReady takeAnswer) updateOn)) s

/-- GATEWAY_TIMEOUT (R55): 2 ms have passed since a request was sent. -/
def execGatewayTimeout (sweep : SweepName) (s : State) : Host.Outcome State Fault Refusal :=
  perform (Effect.ofOption (s.hid.doors.requests.find? fun r => r.port == sweep.port && r.tag == sweep.tag) fun r => .all [
    waitUntil (r.sentAt + 2000000), finishRequest r Status.timeout [], updateOn]) s

/-- DOMAIN_TRANSFER_IDLE (R56, R265): a transfer has been idle for 30 s. The hold of a capture slot ends with it, and a
deferred write that waits for content on its stream is not performed. -/
def execDomainTransferIdle (stream : Nat) (s : State) : Host.Outcome State Fault Refusal :=
  let waits (d : Deferred) : Bool := d.op == 5 && natLE (slice d.value 6 2) == stream
  perform (.all [
    Effect.ofOption (s.hid.doors.transfers.find? fun t => t.stream == stream) fun t => .all [
      waitUntil (t.touched + 30 * 10 ^ 9),
      onDoors fun d => { d with transfers := d.transfers.filter fun x => x.stream != stream },
      Effect.when (s.isTile && t.key == keyOf 0x4180 6) releaseSlot],
    Effect.each (fun d => answerDeferred d Status.aborted d.value) (s.hid.link.deferred.filter waits),
    onLink fun l => { l with deferred := l.deferred.filter fun d => !waits d }]) s

/-! Tlaroek (R57 to R59). -/

/-- n records, each with its 16 bytes and its value; none where they are not well formed or do not fill the bytes (R58). -/
def parseRecords : (n : Nat) → List Byte → Option (List (List Byte))
  | 0, bs => if bs.isEmpty then some [] else none
  | n + 1, bs =>
    let at' (o w : Nat) := natLE (slice bs o w)
    let op := at' 0 1
    let v := if op = 4 then 0 else at' 12 2
    let padded := ceilDiv v 4 * 4
    if bs.length < 16 + padded || at' 1 1 != 0 || at' 7 1 != 0 || at' 14 2 != 0 ||
        (op != 4 && op != 5 && at' 8 4 != 0) || ((op == 1 || op == 3) && v != 0) || at' (16 + v) (padded - v) != 0 then none
    else (parseRecords n (bs.drop (16 + padded))).map (bs.take (16 + v) :: ·)

/-- The transaction and the records of a well-formed request (R57, R58). -/
def parseDatagram (bs : List Byte) : Option (Nat × List (List Byte)) :=
  let at' (o w : Nat) := natLE (slice bs o w)
  if bs.length < 32 || 1472 < bs.length || at' 0 2 != 0x4C54 || at' 2 1 != 1 || at' 3 1 != 0 || at' 8 2 = 0 ||
      64 < at' 8 2 || at' 10 2 != bs.length || at' 12 4 != 0 then none
  else (parseRecords (at' 8 2) (bs.drop 16)).map fun l => (at' 4 4, l)

/-- A record has its answer. -/
def answerRecord (d i status : Nat) (value : List Byte) : Effect := onDoors fun x => { x with
  datagrams := x.datagrams.map fun q =>
    if q.number = d then { q with records := updateAt q.records i fun c => { c with status := some status, value := value } }
    else q }

/-- One record of a datagram (R53, R54, R59). -/
def performRecord (d i : Nat) (r : List Byte) : Effect := .look fun s =>
  let at' (o w : Nat) := natLE (slice r o w)
  let op := at' 0 1
  let target := at' 2 2
  let key := keyOf (at' 4 2) (at' 6 1)
  let value := r.drop 16
  if op = 0 || 5 < op then answerRecord d i Status.range []
  else if target = 0xFFFF then
    let st := s.broadcastStatus op key value
    .seq (Effect.when (st == Status.ok) (sendBroadcast key value)) (answerRecord d i st [])
  else if target = s.address then serveDoor .tlaroek ⟨op, key, value, at' 8 4, at' 12 2, 1024⟩ (answerRecord d i)
  else if op = 4 || op = 5 then sendDomain (.record d i) target op key (at' 8 4) (at' 12 2) value
  else sendRequest (.record d i) target op key value none

/-- TLAROEK_DATAGRAM (R57 to R60, R437): a datagram for a UDP port, with its source. Each one is performed, repeated or not. -/
def execTlaroekDatagram (path : UdpPath) (payload : List Byte) (s : State) : Host.Outcome State Fault Refusal :=
  perform (Effect.when (s.isSender && s.up .core && path.target == s.reg 0x1031 1) (match parseDatagram payload with
    | none => count 32 0x1030 5
    | some (transaction, records) =>
      let n := s.hid.doors.nextDatagram
      .seq (onDoors fun d => { d with
          datagrams := d.datagrams ++ [⟨n, path.address, path.port, transaction, records.map fun r => ⟨r.take 16, none, []⟩⟩]
          nextDatagram := n + 1 })
        (Effect.each (fun q => performRecord n q.2 q.1) records.zipIdx))) s

/-- A record of an answer (R58, R59). -/
def RecordState.bytes (r : RecordState) : List Byte :=
  r.request.take 1 ++ bytesLE 1 (r.status.getD 0) ++ slice r.request 2 10 ++ bytesLE 2 r.value.length ++ zeroBytes 2 ++
    padTo (ceilDiv r.value.length 4 * 4) r.value

/-- The answer to a datagram (R58, R59). -/
def Datagram.answer (d : Datagram) : List Byte :=
  let body := d.records.flatMap RecordState.bytes
  bytesLE 2 0x4C54 ++ bytesLE 1 1 ++ bytesLE 1 1 ++ bytesLE 4 d.transaction ++ bytesLE 2 d.records.length ++
    bytesLE 2 (16 + body.length) ++ zeroBytes 4 ++ body

/-- TLAROEK_ANSWER (R59): the oldest datagram with an answer for every record is answered, to the source of the request. -/
def execTlaroekAnswer (s : State) : Host.Outcome State Fault Refusal :=
  perform (Effect.ofOption (takeFirst (fun d => d.records.all fun r => r.status.isSome) s.hid.doors.datagrams) fun q => .seq
    (onDoors fun d => { d with datagrams := q.2 })
    (emit (.datagram q.1.address q.1.port q.1.answer))) s

/-- BROADCAST_WRITE (R54): a WRITE to all tiles, from a Tlaroek or a PCIe request. -/
def execBroadcastWrite (door : Door) (key : Key) (value : List Byte) (s : State) : Host.Outcome State Fault Refusal :=
  let st := s.broadcastStatus 2 key value
  perform (Effect.when (s.isSender && s.up .core && (door == .tlaroek || door == .pcie)) (.seq
    (Effect.when (st == Status.ok) (sendBroadcast key value))
    (emit (.answer door st [])))) s

/-! BAR0 (R62 to R65). -/

/-- An access of BAR0 has its status (R63). -/
def bar0Status (k : Key) (status : Nat) : Effect := .seq (set 0x1030 1 status)
  (Effect.when (status != Status.ok && status != Status.queued) (set 0x1030 2 k))

/-- The eight bytes of a slot (R62). -/
def slotBytes (t : Option Ty) (v : List Byte) : List Byte :=
  match t with
  | some .i16 | some .i32 | some .fix16 => bytesLE 8 (ofSigned 64 (toSigned (8 * v.length) (natLE v)))
  | _ => (padTo 8 v).take 8

/-- Bytes 8 and upward of a value go into the wide latch (R64). -/
def latchWide (v : List Byte) : Effect :=
  Effect.each (fun j => set 0x1040 (j + 1) (natLE (slice v (8 + 8 * j) 8))) (List.range (ceilDiv (v.length - 8) 8))

/-- A read of bytes of a slot. -/
def bar0Read (k first n : Nat) : Effect := .look fun s =>
  serveDoor .pcie ⟨1, k, [], 0, 0, 64⟩ fun st v => .all [
    Effect.when (st == Status.ok) (latchWide v),
    bar0Status k st,
    emit (.completion (slice (if st = Status.ok then slotBytes (s.ty k) v else List.replicate 8 0xFF) first n) false)]

/-- The value that a slot write carries: none of it when the bytes enabled are not those that the type asks for. -/
def State.slotValue (s : State) (k first : Nat) (data : List Byte) : List Byte :=
  let size := ((s.ty k).map Ty.size).getD 0
  if first != 0 || data.length != min 8 size then []
  else if size ≤ 8 then data
  else (data ++ (List.range 7).flatMap fun j => bytesLE 8 (s.reg 0x1040 (j + 1))).take size

/-- A write of a slot; one of other bytes than the type asks for is discarded, and recorded with LENGTH (R63). -/
def bar0Write (k first : Nat) (data : List Byte) : Effect := .look fun s =>
  serveDoor .pcie ⟨2, k, s.slotValue k first data, 0, 0, 64⟩ fun st _ => bar0Status k st

/-- An access of BAR0: 1, 2, 4 or 8 bytes within one slot; any other write is discarded and recorded. While CORE is held, reads
are all ones (R63, R437). -/
def bar0 (isWrite : Bool) (offset first n : Nat) (data : List Byte) : Effect := .look fun s =>
  let n := if isWrite then data.length else n
  let accepted := [1, 2, 4, 8].contains n && first + n ≤ 8
  Effect.when (s.isSender && offset < 2 ^ 27) (.seq trainPcie (
    if !s.up .core || (!isWrite && !accepted) then Effect.when (!isWrite) (emit (.completion (List.replicate n 0xFF) false))
    else if isWrite then bar0Write (offset / 8) first (if accepted then data else [])
    else bar0Read (offset / 8) first n))

/-- BAR0_ACCESS (R62 to R65): bytes from firstByte on of the slot at an offset. -/
def execBar0Access (isWrite : Bool) (offset firstByte count : Nat) (data : List Byte) (s : State) :
    Host.Outcome State Fault Refusal := perform (bar0 isWrite offset firstByte count data) s

/-- BAR0_WINDOW_ADVANCE (R65): the last slot of the window, 1050h.17, is read or written. -/
def execBar0WindowAdvance (isWrite : Bool) (data : List Byte) (s : State) : Host.Outcome State Fault Refusal :=
  perform (bar0 isWrite (8 * keyOf 0x1050 0x17) 0 8 data) s

/-- MAILBOX_GO (R66): 0x01 is written to the Go entry of mailbox n. -/
def execMailboxGo (n : Nat) (s : State) : Host.Outcome State Fault Refusal :=
  perform (Effect.when (n < 8) (commandAt .pcie (0x1020 + n) 0x0E 1)) s

/-! SPI (R67, R68). -/

/-- A frame is dropped (R68). -/
def dropFrame : Effect := count 32 0x1030 6

/-- The bytes that a frame's request needs; none for an unknown command (R67). -/
def frameLength (f : List Byte) : Option Nat :=
  let at' (o w : Nat) := natLE (slice f o w)
  match at' 0 1 with
  | 0x03 | 0x0B => some 4
  | 0x02 => some (max 5 (5 + at' 4 1))
  | 0x13 => some 10
  | 0x12 => some (10 + at' 8 2)
  | _ => none

/-- What the part drives after a request (R67). -/
def frameAnswer (cmd status : Nat) (v : List Byte) : List Byte :=
  bytesLE 1 status ++ match cmd with
    | 0x03 | 0x0B => bytesLE 1 v.length ++ v
    | 0x13 => bytesLE 2 v.length ++ v
    | _ => []

/-- A whole frame is performed. When no answer was ready in time, as the command after it says, its result waits for the
TIMEOUT instead of going out (R68). -/
def performFrame (f : List Byte) (late : Bool) : Effect :=
  let at' (o w : Nat) := natLE (slice f o w)
  let cmd := at' 0 1
  let k := keyOf (at' 1 2) (at' 3 1)
  let ask : Ask := match cmd with
    | 0x03 => ⟨1, k, [], 0, 0, 1024⟩
    | 0x0B => ⟨3, k, [], 0, 0, 1024⟩
    | 0x02 => ⟨2, k, slice f 5 (at' 4 1), 0, 0, 1024⟩
    | 0x13 => ⟨4, k, [], at' 4 4, at' 8 2, 1024⟩
    | _ => ⟨5, k, slice f 10 (at' 8 2), at' 4 4, at' 8 2, 1024⟩
  serveDoor .spi ask fun st v => .seq
    (onDoors fun d => { d with spiWrite := if late && (ask.op == 2 || ask.op == 5) then some (k, bytesLE 1 st) else none })
    (Effect.when (!late) (emit (.spi (frameAnswer cmd st v))))

/-- SPI_FRAME (R67, R68, R437): the bytes that the controller drives in one assertion of chip select. After an unknown command the
part drives 0xFF for each further byte. A frame that SPI_WAIT_TIMEOUT follows in the queue is one whose answer came too late
(DESIGN CHOICE, log 87). -/
def execSpiFrame (frame : List Byte) (s : State) : Host.Outcome State Fault Refusal :=
  perform (Effect.when s.isTile (
    if !s.up .core then emit (.spi (0xFF :: bytesLE 1 Status.unavailable))
    else match frameLength frame with
      | none => .seq dropFrame (emit (.spi (List.replicate (frame.length - 1) 0xFF)))
      | some n => if frame.length < n then dropFrame else performFrame frame (s.pending.head? == some .spiWaitTimeout))) s

/-- SPI_WAIT_TIMEOUT (R68): no answer was ready after 64 wait bytes; the write in question completes, and its result is
recorded. -/
def execSpiWaitTimeout (s : State) : Host.Outcome State Fault Refusal :=
  perform (Effect.when (s.isTile && s.up .core) (.seq (emit (.spi (bytesLE 1 Status.timeout)))
    (Effect.ofOption s.hid.doors.spiWrite fun w => .all [
      set 0x1030 3 (natLE w.2), set 0x1030 4 w.1, onDoors fun d => { d with spiWrite := none }]))) s

/-- SPI_FRAME_DISCARD (R68): chip select rises before the last request byte. -/
def execSpiFrameDiscard (s : State) : Host.Outcome State Fault Refusal :=
  perform (Effect.when (s.isTile && s.up .core) dropFrame) s

/-! The deferred entries of a tile (R126 to R132). -/

/-- The message that a deferred DOMAIN_WRITE waits for (R132). -/
def State.contentFor (s : State) (d : Deferred) : Option Message :=
  s.hid.compose.messages.find? fun m => m.stream == natLE (slice d.value 6 2) && m.src == d.src

/-- A deferred entry that the engine can perform: a DOMAIN_WRITE that has content waits for it (R132). -/
def State.deferredReady (s : State) (d : Deferred) : Bool :=
  let count := natLE (slice d.value 4 2)
  let stream := natLE (slice d.value 6 2)
  d.op != 5 || !(128 ≤ stream && stream < 192) || count == 0 || 1024 < count || (s.contentFor d).isSome

/-- Content leaves for a gateway, on the port that faces it or on the other one (R129, R132). -/
def sendContent (d : Deferred) (stream : Nat) (v : List Byte) : Effect := .look fun s =>
  Effect.ofOption ([d.port, opposite d.port].find? s.portUp) fun p =>
    Effect.when (!v.isEmpty) (sendMessage [p] (d.src * 512 + stream) false false 0 v)

/-- The statuses of the checks that come before the range of a value (R41). -/
def earlyChecks : List Nat :=
  [Status.noObject, Status.noSub, Status.unavailable, Status.readOnly, Status.writeOnly, Status.length]

/-- A deferred DOMAIN op (R56, R70, R132). Content of another length than the entry's count is refused with LENGTH, and a stream
outside 128 to 191 with RANGE, in the order of R41. -/
def performDomain (d : Deferred) : Effect := .look fun s =>
  let at' (o w : Nat) := natLE (slice d.value o w)
  let stream := at' 6 2
  let badStream := stream < 128 || 192 ≤ stream
  let content := if badStream then zeroBytes (at' 4 2) else ((s.contentFor d).map Message.bytes).getD []
  let ask : Ask := ⟨d.op, d.key, if content.length = at' 4 2 then content else [], at' 0 4, at' 4 2, 1024⟩
  let st := (s.access (fun _ => .nothing) (.service d.src) ask).status
  let open' := s.hid.doors.transfers
  let answer (n : Nat) := bytesLE 4 (at' 0 4) ++ bytesLE 2 n ++ bytesLE 2 stream
  let taken : Effect := onCompose fun x => { x with messages := x.messages.filter fun m =>
    !(d.op == 5 && m.stream == stream && m.src == d.src) }
  if badStream then answerDeferred d (if earlyChecks.contains st then st else Status.range) d.value
  else if st = Status.ok && 64 ≤ open'.length && !(open'.any fun t => t.stream == stream) then
    .seq taken (answerDeferred d Status.busy d.value)
  else .all [
    taken,
    Effect.when (st == Status.ok) (touchTransfer stream d.src d.key),
    serveDoor (.service d.src) ask fun st v => .seq
      (Effect.when (d.op == 4) (sendContent d stream v))
      (answerDeferred d st (answer (if d.op = 4 then v.length else at' 4 2)))]

/-- A deferred entry of another op: a value that the entry's type is shorter than is cut to it (R128). -/
def performEntry (d : Deferred) : Effect := .look fun s =>
  let value := match s.ty d.key with
    | some t => if t = .domain then d.value else d.value.take t.size
    | none => d.value
  serveDoor (.service d.src) ⟨d.op, d.key, value, 0, 0, 1024⟩ fun st v =>
    answerDeferred d st (if d.op = 1 || d.op = 3 then v else d.value)

/-- DEFERRED_PERFORM (R127, R131, R132): the engine performs the oldest deferred entry, in order of arrival; one that waits for its
content holds up the others. Of a broadcast entry only a WRITE is performed. -/
def execDeferredPerform (s : State) : Host.Outcome State Fault Refusal :=
  perform (Effect.when (s.isTile && s.up .core && !s.hid.reset.coreHeld)
    (Effect.ofOption (s.hid.link.deferred.head?.filter s.deferredReady) fun d => .seq
      (onLink fun l => { l with deferred := l.deferred.tail })
      (if d.silent then Effect.when (d.op == 2) (performEntry d)
        else if d.op = 4 || d.op = 5 then performDomain d
        else performEntry d))) s

end Sys2Proof.Machine
end

