-- ==== Sys2Proof/Machine/DoorCommands.lean ====
section
/-! DEFINITION. The commands that are one access at a door: the ops of R40, and the writes of command entries (R12, R524,
R525). -/

namespace Sys2Proof.Machine

/-- A WRITE of a number in the size of the entry's type; a number that does not fit in it is refused with LENGTH by the
access itself. -/
def valueAt (d : Door) (k : Key) (v : Nat) : Effect := .look fun s =>
  let size := max 1 (((s.ty k).map Ty.size).getD 1)
  writeAt d k (bytesLE (if v < 256 ^ size then size else size + 1) v)

/-! The ops of R40. -/

/-- READ (R40). -/
def execRead (door : Door) (key : Key) (s : State) : Host.Outcome State Fault Refusal :=
  perform (atDoor door ⟨1, key, [], 0, 0, 0⟩) s

/-- WRITE (R40). -/
def execWrite (door : Door) (key : Key) (value : List Byte) (s : State) : Host.Outcome State Fault Refusal :=
  perform (writeAt door key value) s

/-- READ_STAGED (R40). -/
def execReadStaged (door : Door) (key : Key) (s : State) : Host.Outcome State Fault Refusal :=
  perform (atDoor door ⟨3, key, [], 0, 0, 0⟩) s

/-- DOMAIN_READ (R70). -/
def execDomainRead (door : Door) (key : Key) (offset count : Nat) (s : State) : Host.Outcome State Fault Refusal :=
  perform (atDoor door ⟨4, key, [], offset, count, chunkLimit door⟩) s

/-- DOMAIN_WRITE (R70). -/
def execDomainWrite (door : Door) (key : Key) (offset : Nat) (data : List Byte) (s : State) : Host.Outcome State Fault Refusal :=
  perform (atDoor door ⟨5, key, data, offset, data.length, chunkLimit door⟩) s

/-- REGISTER_WRITE (R12): a WRITE of an entry that has no behaviour of its own. -/
def execRegisterWrite (door : Door) (key : Key) (value : List Byte) (s : State) : Host.Outcome State Fault Refusal :=
  perform (Effect.when (s.command (fun _ => .nothing) door key (natLE value)).isNone (writeAt door key value)) s

/-- HOST_STREAM_READ (R234): a DOMAIN_READ of 2210h.05. -/
def execHostStreamRead (door : Door) (offset count : Nat) (s : State) : Host.Outcome State Fault Refusal :=
  perform (atDoor door ⟨4, keyOf 0x2210 5, [], offset, count, chunkLimit door⟩) s

/-- SESSION_CHUNK (R463): a DOMAIN_WRITE of 1500h.08. -/
def execSessionChunk (door : Door) (offset : Nat) (data : List Byte) (s : State) : Host.Outcome State Fault Refusal :=
  perform (atDoor door ⟨5, keyOf 0x1500 8, data, offset, data.length, chunkLimit door⟩) s

/-- ALMANAC_WINDOW_ADVANCE (R492): a READ of 1401h.09. -/
def execAlmanacWindowAdvance (door : Door) (s : State) : Host.Outcome State Fault Refusal :=
  perform (atDoor door ⟨1, keyOf 0x1401 9, [], 0, 0, 0⟩) s

/-! Command entries. -/

/-- SOFTWARE_WARM (R430): 0x01 to 1100h.03. -/
def execSoftwareWarm (door : Door) (s : State) : Host.Outcome State Fault Refusal :=
  perform (commandAt door 0x1100 3 1) s

/-- SOFTWARE_COLD (R430, R469): 0x02 to 1100h.03. -/
def execSoftwareCold (door : Door) (s : State) : Host.Outcome State Fault Refusal :=
  perform (commandAt door 0x1100 3 2) s

/-- BLOCK_RESET (R440): 0x01 to 1103h.02. -/
def execBlockReset (door : Door) (s : State) : Host.Outcome State Fault Refusal :=
  perform (commandAt door 0x1103 2 1) s

/-- ADVENT_CLEAR (R442): 0x01 to 1101h.02. -/
def execAdventClear (door : Door) (s : State) : Host.Outcome State Fault Refusal :=
  perform (commandAt door 0x1101 2 1) s

/-- RESET_COUNTER_CLEAR (R451): 0x01 to 1100h.0A. -/
def execResetCounterClear (door : Door) (s : State) : Host.Outcome State Fault Refusal :=
  perform (commandAt door 0x1100 0xA 1) s

/-- LINK_RESET_GO (R451): 0x01 to 1102h.03. -/
def execLinkResetGo (door : Door) (s : State) : Host.Outcome State Fault Refusal :=
  perform (commandAt door 0x1102 3 1) s

/-- MODE_REQUEST_DARK (R444): 3 to 1001h.02. -/
def execModeRequestDark (door : Door) (s : State) : Host.Outcome State Fault Refusal :=
  perform (commandAt door 0x1001 2 3) s

/-- MODE_REQUEST_RUN (R444): 4 to 1001h.02. -/
def execModeRequestRun (door : Door) (s : State) : Host.Outcome State Fault Refusal :=
  perform (commandAt door 0x1001 2 4) s

/-- MODE_REQUEST_HOLD (R444): 5 to 1001h.02. -/
def execModeRequestHold (door : Door) (s : State) : Host.Outcome State Fault Refusal :=
  perform (commandAt door 0x1001 2 5) s

/-- MODE_REQUEST_PASSTHROUGH (R444): 10 to 1001h.02. -/
def execModeRequestPassthrough (door : Door) (s : State) : Host.Outcome State Fault Refusal :=
  perform (commandAt door 0x1001 2 10) s

/-- MODE_REQUEST_BRINGUP (R444): 11 to 1001h.02. -/
def execModeRequestBringup (door : Door) (s : State) : Host.Outcome State Fault Refusal :=
  perform (commandAt door 0x1001 2 11) s

/-- BUDGET_COUNTER_CLEAR (R95): 0x01 to 1644h.0D. -/
def execBudgetCounterClear (door : Door) (s : State) : Host.Outcome State Fault Refusal :=
  perform (commandAt door 0x1644 0xD 1) s

/-- IMMEDIATE (R46): 0x01 to 1010h.01. -/
def execImmediate (door : Door) (s : State) : Host.Outcome State Fault Refusal :=
  perform (commandAt door 0x1010 1 1) s

/-- TIMED (R46): 0x02 to 1010h.01. -/
def execTimed (door : Door) (s : State) : Host.Outcome State Fault Refusal :=
  perform (commandAt door 0x1010 1 2) s

/-- CANCEL (R46): 0x03 to 1010h.01. -/
def execCancel (door : Door) (s : State) : Host.Outcome State Fault Refusal :=
  perform (commandAt door 0x1010 1 3) s

/-- DISCARD (R46): 0x04 to 1010h.01. -/
def execDiscard (door : Door) (s : State) : Host.Outcome State Fault Refusal :=
  perform (commandAt door 0x1010 1 4) s

/-- DOOR_COUNTER_CLEAR (R72): 0x01 to 1030h.07. -/
def execDoorCounterClear (door : Door) (s : State) : Host.Outcome State Fault Refusal :=
  perform (commandAt door 0x1030 7 1) s

/-- CLAIM_NOW (R167): 0x01 to 2100h.04. -/
def execClaimNow (door : Door) (s : State) : Host.Outcome State Fault Refusal :=
  perform (commandAt door 0x2100 4 1) s

/-- HAND_OVER (R167): 0x02 to 2100h.04. -/
def execHandOver (door : Door) (s : State) : Host.Outcome State Fault Refusal :=
  perform (commandAt door 0x2100 4 2) s

/-- REEPOCH_PLAIN (R197): 0x01 to 1330h.01. -/
def execReepochPlain (door : Door) (s : State) : Host.Outcome State Fault Refusal :=
  perform (commandAt door 0x1330 1 1) s

/-- REEPOCH_FORCE (R197): 0x02 to 1330h.01. -/
def execReepochForce (door : Door) (s : State) : Host.Outcome State Fault Refusal :=
  perform (commandAt door 0x1330 1 2) s

/-- REEPOCH_CANCEL (R197): 0x03 to 1330h.01. -/
def execReepochCancel (door : Door) (s : State) : Host.Outcome State Fault Refusal :=
  perform (commandAt door 0x1330 1 3) s

/-- TIME_COUNTER_CLEAR (R202): 0x01 to 1302h.0B. -/
def execTimeCounterClear (door : Door) (s : State) : Host.Outcome State Fault Refusal :=
  perform (commandAt door 0x1302 0xB 1) s

/-- PTP_COUNTER_CLEAR (R204): 0x01 to 6200h.10. -/
def execPtpCounterClear (door : Door) (s : State) : Host.Outcome State Fault Refusal :=
  perform (commandAt door 0x6200 0x10 1) s

/-- QUEUE_RESET (R241): 0x01 to 2200h.09. -/
def execQueueReset (door : Door) (s : State) : Host.Outcome State Fault Refusal :=
  perform (commandAt door 0x2200 9 1) s

/-- QUEUE_DISABLE (R241): 0x02 to 2200h.09. -/
def execQueueDisable (door : Door) (s : State) : Host.Outcome State Fault Refusal :=
  perform (commandAt door 0x2200 9 2) s

/-- QUEUE_ENABLE (R241): 0x03 to 2200h.09. -/
def execQueueEnable (door : Door) (s : State) : Host.Outcome State Fault Refusal :=
  perform (commandAt door 0x2200 9 3) s

/-- SLICER_COUNTER_CLEAR (R245): 0x01 to 6105h.03. -/
def execSlicerCounterClear (door : Door) (s : State) : Host.Outcome State Fault Refusal :=
  perform (commandAt door 0x6105 3 1) s

/-- CAPTURE_RING_EMPTY (R279): 0x01 to 4180h.0A. -/
def execCaptureRingEmpty (door : Door) (s : State) : Host.Outcome State Fault Refusal :=
  perform (commandAt door 0x4180 0xA 1) s

/-- CAPTURE_SLOT_RELEASE (R279): 0x02 to 4180h.0A. -/
def execCaptureSlotRelease (door : Door) (s : State) : Host.Outcome State Fault Refusal :=
  perform (commandAt door 0x4180 0xA 2) s

/-- TABLE_LOADER_GO (R294): 0x01 to 2202h.05. -/
def execTableLoaderGo (door : Door) (s : State) : Host.Outcome State Fault Refusal :=
  perform (commandAt door 0x2202 5 1) s

/-- UPLOAD_COUNTER_CLEAR (R305): 0x01 to 4204h.04. -/
def execUploadCounterClear (door : Door) (s : State) : Host.Outcome State Fault Refusal :=
  perform (commandAt door 0x4204 4 1) s

/-- PLAN (R303): 0x01 to 4320h.01. -/
def execPlan (door : Door) (s : State) : Host.Outcome State Fault Refusal :=
  perform (commandAt door 0x4320 1 1) s

/-- MAP_STORE (R360): 0x01 to 5200h.09. -/
def execMapStore (door : Door) (s : State) : Host.Outcome State Fault Refusal :=
  perform (commandAt door 0x5200 9 1) s

/-- MAP_CLEAR (R366): 0x02 to 5200h.09. -/
def execMapClear (door : Door) (s : State) : Host.Outcome State Fault Refusal :=
  perform (commandAt door 0x5200 9 2) s

/-- MAP_RELOAD (R366): 0x03 to 5200h.09. -/
def execMapReload (door : Door) (s : State) : Host.Outcome State Fault Refusal :=
  perform (commandAt door 0x5200 9 3) s

/-- FREEZE_RELEASE (R390): 0x01 to 3001h.01. -/
def execFreezeRelease (door : Door) (s : State) : Host.Outcome State Fault Refusal :=
  perform (commandAt door 0x3001 1 1) s

/-- FREEZE_RECORD_CLEAR (R393): 0x02 to 3001h.01. -/
def execFreezeRecordClear (door : Door) (s : State) : Host.Outcome State Fault Refusal :=
  perform (commandAt door 0x3001 1 2) s

/-- RETRAIN_ALL (R393): 0x03 to 3001h.01. -/
def execRetrainAll (door : Door) (s : State) : Host.Outcome State Fault Refusal :=
  perform (commandAt door 0x3001 1 3) s

/-- SCRUB_NOW (R393): 0x04 to 3001h.01. -/
def execScrubNow (door : Door) (s : State) : Host.Outcome State Fault Refusal :=
  perform (commandAt door 0x3001 1 4) s

/-- THERMAL_COUNTER_CLEAR (R424): 0x01 to 1204h.02. -/
def execThermalCounterClear (door : Door) (s : State) : Host.Outcome State Fault Refusal :=
  perform (commandAt door 0x1204 2 1) s

/-- EQUINOX_CALIBRATE_ITEM (R426): 0x01 to 1600h.03. -/
def execEquinoxCalibrateItem (door : Door) (s : State) : Host.Outcome State Fault Refusal :=
  perform (commandAt door 0x1600 3 1) s

/-- EQUINOX_CALIBRATE_ALL (R426): 0x02 to 1600h.03. -/
def execEquinoxCalibrateAll (door : Door) (s : State) : Host.Outcome State Fault Refusal :=
  perform (commandAt door 0x1600 3 2) s

/-- CALIBRATION_RELOAD (R426): 0x04 to 1600h.03. -/
def execCalibrationReload (door : Door) (s : State) : Host.Outcome State Fault Refusal :=
  perform (commandAt door 0x1600 3 4) s

/-- SUSPECT_CLEAR (R426): 0x05 to 1600h.03. -/
def execSuspectClear (door : Door) (s : State) : Host.Outcome State Fault Refusal :=
  perform (commandAt door 0x1600 3 5) s

/-- EQUINOX_COUNTER_CLEAR (R426): 0x01 to 1600h.0D. -/
def execEquinoxCounterClear (door : Door) (s : State) : Host.Outcome State Fault Refusal :=
  perform (commandAt door 0x1600 0xD 1) s

/-- SESSION_OPEN (R461): 0x01 to 1500h.01. -/
def execSessionOpen (door : Door) (s : State) : Host.Outcome State Fault Refusal :=
  perform (commandAt door 0x1500 1 1) s

/-- SESSION_CLOSE (R464): 0x02 to 1500h.01. -/
def execSessionClose (door : Door) (s : State) : Host.Outcome State Fault Refusal :=
  perform (commandAt door 0x1500 1 2) s

/-- SESSION_ABORT (R464): 0x03 to 1500h.01. -/
def execSessionAbort (door : Door) (s : State) : Host.Outcome State Fault Refusal :=
  perform (commandAt door 0x1500 1 3) s

/-- UPDATE_BROADCAST (R466): 0x01 to 1520h.05. -/
def execUpdateBroadcast (door : Door) (s : State) : Host.Outcome State Fault Refusal :=
  perform (commandAt door 0x1520 5 1) s

/-- SETTINGS_SAVE (R474): 0x01 to 1500h.10. -/
def execSettingsSave (door : Door) (s : State) : Host.Outcome State Fault Refusal :=
  perform (commandAt door 0x1500 0x10 1) s

/-- SETTINGS_ERASE (R480): 0x02 to 1500h.10. -/
def execSettingsErase (door : Door) (s : State) : Host.Outcome State Fault Refusal :=
  perform (commandAt door 0x1500 0x10 2) s

/-- UPDATE_COUNTER_CLEAR (R480): 0x01 to 1500h.14. -/
def execUpdateCounterClear (door : Door) (s : State) : Host.Outcome State Fault Refusal :=
  perform (commandAt door 0x1500 0x14 1) s

/-- ALMANAC_CLEAR (R497): 0x01 to 1400h.05. -/
def execAlmanacClear (door : Door) (s : State) : Host.Outcome State Fault Refusal :=
  perform (commandAt door 0x1400 5 1) s

/-- ALMANAC_CLOSE_PAGE (R488): 0x02 to 1400h.05. -/
def execAlmanacClosePage (door : Door) (s : State) : Host.Outcome State Fault Refusal :=
  perform (commandAt door 0x1400 5 2) s

/-- PERSIST_NOW (R493): 0x03 to 1400h.05. -/
def execPersistNow (door : Door) (s : State) : Host.Outcome State Fault Refusal :=
  perform (commandAt door 0x1400 5 3) s

/-- ALMANAC_COUNTER_CLEAR (R497): 0x01 to 1400h.0D. -/
def execAlmanacCounterClear (door : Door) (s : State) : Host.Outcome State Fault Refusal :=
  perform (commandAt door 0x1400 0xD 1) s

/-- MEMORY_TEST_START (R521): 0x01 to 7030h.01. -/
def execMemoryTestStart (door : Door) (s : State) : Host.Outcome State Fault Refusal :=
  perform (commandAt door 0x7030 1 1) s

/-- MEMORY_TEST_STOP (R521): 0x02 to 7030h.01. -/
def execMemoryTestStop (door : Door) (s : State) : Host.Outcome State Fault Refusal :=
  perform (commandAt door 0x7030 1 2) s

/-- ALMANAC_FREEZE (R491): a BOOL to 1400h.03. -/
def execAlmanacFreeze (door : Door) (on : Bool) (s : State) : Host.Outcome State Fault Refusal :=
  perform (commandAt door 0x1400 3 (if on then 1 else 0)) s

/-- CALIBRATION_STORE (R419): 0x03 to 1600h.03 at a door, or the store interval while the set has changed. -/
def execCalibrationStore (door : Option Door) (s : State) : Host.Outcome State Fault Refusal :=
  perform (match door with
    | some d => commandAt d 0x1600 3 3
    | none => Effect.when (s.up .core && s.reg 0x1600 5 != 0 && s.flag 0x1600 9 7) (requestStore 1)) s

/-- PORT_RETRAIN (R137): 0x01 to 2000h+p.04. -/
def execPortRetrain (door : Door) (port : Nat) (s : State) : Host.Outcome State Fault Refusal :=
  perform (Effect.when (port < 16) (commandAt door (0x2000 + port) 4 1)) s

/-- PORT_GO_DOWN (R137): 0x02 to 2000h+p.04. -/
def execPortGoDown (door : Door) (port : Nat) (s : State) : Host.Outcome State Fault Refusal :=
  perform (Effect.when (port < 16) (commandAt door (0x2000 + port) 4 2)) s

/-- PORT_COUNTER_CLEAR (R137): 0x01 to 2000h+p.12. -/
def execPortCounterClear (door : Door) (port : Nat) (s : State) : Host.Outcome State Fault Refusal :=
  perform (Effect.when (port < 16) (commandAt door (0x2000 + port) 0x12 1)) s

/-- TG_COUNTER_CLEAR (R325): 0x01 to 4000h+r.13. -/
def execTgCounterClear (door : Door) (r : Nat) (s : State) : Host.Outcome State Fault Refusal :=
  perform (Effect.when (r < 4) (commandAt door (0x4000 + r) 0x13 1)) s

/-- PORT_TEST_COUNTER_CLEAR (R519): 0x01 to 7010h+p.05. -/
def execPortTestCounterClear (door : Door) (port : Nat) (s : State) : Host.Outcome State Fault Refusal :=
  perform (Effect.when (port < 16) (commandAt door (0x7010 + port) 5 1)) s

/-! Entries that take 1s, a value, or stand at more than one place. -/

/-- FIRST_DIVERGENCE_CLEAR (R169): 1s to 2101h.08. -/
def execFirstDivergenceClear (door : Door) (s : State) : Host.Outcome State Fault Refusal :=
  perform (writeAt door (keyOf 0x2101 8) (bytesLE 8 (2 ^ 64 - 1))) s

/-- FIRST_SUBSTITUTION_CLEAR (R276): 1s to 4100h.0B. -/
def execFirstSubstitutionClear (door : Door) (s : State) : Host.Outcome State Fault Refusal :=
  perform (writeAt door (keyOf 0x4100 0xB) (bytesLE 8 (2 ^ 64 - 1))) s

/-- LAST_LOCATE_CLEAR (R367): 1s to 5200h.0A. -/
def execLastLocateClear (door : Door) (s : State) : Host.Outcome State Fault Refusal :=
  perform (writeAt door (keyOf 0x5200 0xA) (bytesLE 8 (2 ^ 64 - 1))) s

/-- LAST_RESULT_CLEAR (R427): 1s to 1600h.0B. -/
def execLastResultClear (door : Door) (s : State) : Host.Outcome State Fault Refusal :=
  perform (writeAt door (keyOf 0x1600 0xB) (bytesLE 8 (2 ^ 64 - 1))) s

/-- BUDGET_RELEASE (R91): a mask of masters to 1644h.02. -/
def execBudgetRelease (door : Door) (mask : Nat) (s : State) : Host.Outcome State Fault Refusal :=
  perform (valueAt door (keyOf 0x1644 2) mask) s

/-- FENCE_RESET (R242): a fence number to 6031h.02. -/
def execFenceReset (door : Door) (fence : Nat) (s : State) : Host.Outcome State Fault Refusal :=
  perform (valueAt door (keyOf 0x6031 2) fence) s

/-- LAMP_PATTERN (R520): a pattern to 7020h.01. -/
def execLampPattern (door : Door) (pattern : Nat) (s : State) : Host.Outcome State Fault Refusal :=
  perform (valueAt door (keyOf 0x7020 1) pattern) s

/-- PORT_TEST_MODE (R519): a test to 7010h+p.01. -/
def execPortTestMode (door : Door) (port mode : Nat) (s : State) : Host.Outcome State Fault Refusal :=
  perform (Effect.when (port < 16) (valueAt door (keyOf (0x7010 + port) 1) mode)) s

/-- SYNC_START_TIME_WRITE (R300): a start time to 4330h+k.07. -/
def execSyncStartTimeWrite (door : Door) (k time : Nat) (s : State) : Host.Outcome State Fault Refusal :=
  perform (Effect.when (k < 8) (valueAt door (keyOf (0x4330 + k) 7) time)) s

/-- INGEST_COUNTER_CLEAR (R242): 0x01 to 6001h+d.09, 6010h+f.09 or 6020h.05. -/
def execIngestCounterClear (door : Door) (key : Key) (s : State) : Host.Outcome State Fault Refusal :=
  perform (Effect.when ((0x6001 ≤ key / 256 && key / 256 < 0x6005 && key % 256 == 9) ||
    (0x6010 ≤ key / 256 && key / 256 < 0x6020 && key % 256 == 9) || key == keyOf 0x6020 5)
    (writeAt door key (bytesLE 1 1))) s

/-- QUEUE_COUNTER_CLEAR (R241): 0x01 to 2201h.03 or 2210h.06. -/
def execQueueCounterClear (door : Door) (key : Key) (s : State) : Host.Outcome State Fault Refusal :=
  perform (Effect.when (key == keyOf 0x2201 3 || key == keyOf 0x2210 6)
    (writeAt door key (bytesLE 1 1))) s

/-- COMPOSE_COUNTER_CLEAR (R273): 0x01 to 4100h.09 or 4110h+x.12. -/
def execComposeCounterClear (door : Door) (key : Key) (s : State) : Host.Outcome State Fault Refusal :=
  perform (Effect.when (key == keyOf 0x4100 9 || (0x4110 ≤ key / 256 && key / 256 < 0x4118 && key % 256 == 0x12))
    (writeAt door key (bytesLE 1 1))) s

/-- PREVIEW_COUNTER_CLEAR (R280): 0x01 to 6300h+o.10 or 6302h.08. -/
def execPreviewCounterClear (door : Door) (key : Key) (s : State) : Host.Outcome State Fault Refusal :=
  perform (Effect.when (key == keyOf 0x6300 0x10 || key == keyOf 0x6301 0x10 || key == keyOf 0x6302 8)
    (writeAt door key (bytesLE 1 1))) s

/-- LAMP_COUNTER_CLEAR (R363, R364, R366): 0x01 to 5000h.0D, 5100h.03 or 5200h.0F. -/
def execLampCounterClear (door : Door) (key : Key) (s : State) : Host.Outcome State Fault Refusal :=
  perform (Effect.when (key == keyOf 0x5000 0x0D || key == keyOf 0x5100 3 || key == keyOf 0x5200 0x0F)
    (writeAt door key (bytesLE 1 1))) s

/-- REDUNDANCY_COUNTER_CLEAR (R167): 0x01 to 2101h.09 of a tile, or to 2102h.0B of a sender. -/
def execRedundancyCounterClear (door : Door) (s : State) : Host.Outcome State Fault Refusal :=
  perform (if s.isTile then commandAt door 0x2101 9 1 else commandAt door 0x2102 0xB 1) s

/-- CHANNEL_COUNTERS_CLEAR (R393, R396): 0x05 to 3001h.01, or 0x01 to 3030h+c.07. -/
def execChannelCountersClear (door : Door) (key : Key) (s : State) : Host.Outcome State Fault Refusal :=
  perform (if key = keyOf 0x3001 1 then commandAt door 0x3001 1 5
    else Effect.when (0x3030 ≤ key / 256 && key / 256 < 0x3054 && key % 256 == 7) (writeAt door key (bytesLE 1 1))) s

/-- TG_EVENT_STATUS_CLEAR (R328): 1s to 4000h+r.09 or 4000h+r.10. -/
def execTgEventStatusClear (door : Door) (key : Key) (ones : Nat) (s : State) : Host.Outcome State Fault Refusal :=
  perform (Effect.when (0x4000 ≤ key / 256 && key / 256 < 0x4004 && (key % 256 == 9 || key % 256 == 0x10))
    (valueAt door key ones)) s

end Sys2Proof.Machine
end

