-- ==== Sys2Proof/Machine/Egress.lean ====
section
/-! DEFINITION. The slot grids that a part originates (R107, R111, R117, R119, R236, R237): what leaves each port as its slots
come, and the end of a distribution window. -/

namespace Sys2Proof.Machine

/-- A port sends slots of its own grid: it trains, or it is UP and has no stream to forward (R117, R119). -/
def State.sendsOwn (s : State) (p : Nat) : Bool :=
  [1, 2, 3, 4, 5].contains (s.link p) || (s.portUp p && s.originates p)

/-- The instant, in 2⁻¹⁶ ns of local time, at which the last bit of beat 0 of slot k of a port's own grid leaves: a slot
begins every 1168/85 cc, and a beat lasts a quarter of it (R107, R183). -/
def State.departure (s : State) (k : Nat) : Int :=
  s.fine - ((s.hid.time.cycles * 85 : Nat) - (1168 * k + 292 : Nat) : Int) * 262144 / 425

/-- A slot of a port that is UP and originates its grid (R107, R117, R236). -/
def sendUp (p : Nat) : Effect := .look fun s =>
  let q := s.port p
  if alignAt ≤ q.tx.slot then sendAlign p
  else
    let (w, q') := q.grant s.mayLeave fun w => s.isSender && w.rank == 1
    .seq (onPort p fun _ => q') (match w with
      | some w => .seq (sendWaiting p (s.departure q.slots) w) (Effect.ofOption w.ring moveRing)
      | none => sendSlot p q.tx.idle)

/-- The next slot of a port's own grid (R119): TRAIN in DETECT, EQ and LOCK; in ALIGN and CHECK an ALIGN slot every 64 or 65,536
slots and IDLE between. -/
def sendNext (p : Nat) : Effect := .look fun s =>
  let q := s.port p
  let orAlign (every : Nat) : Effect := if every ≤ q.tx.slot + 1 then sendAlign p else sendSlot p q.tx.idle
  .seq (match s.link p with
    | 1 | 2 | 3 => sendTrain p
    | 4 => orAlign 64
    | 5 => orAlign 65536
    | _ => sendUp p) (onPort p fun q => { q with slots := q.slots + 1 })

/-- Every slot leaves that has come on a port's own grid. -/
def sendDue (p : Nat) : Effect := .look fun s => Effect.when (s.sendsOwn p)
  (Effect.each (fun _ => sendNext p) (List.range (s.slotClock - (s.port p).slots)))

/-- The slots of all ports' own grids leave, up to the present. -/
def passSlots : Effect := .look fun s => Effect.when (s.up .link) (Effect.each sendDue s.ports)

/-- LAUNCH_CUTOFF (R94, R237): at LT(n) − P − G. Slots that have come until then leave first. -/
def execLaunchCutoff (s : State) : Host.Outcome State Fault Refusal :=
  let n := s.hid.ingest.launchTick
  perform (Effect.when (s.isSender && s.stepped && s.hid.ingest.sliced == some n)
    (.all [advanceTo (s.at (n - 1) - (s.reg 0x6101 1 : Nat)), passSlots, dropLayers])) s

end Sys2Proof.Machine
end

