-- ==== Sys2Proof/Machine/Dispatch.lean ====
section
/-! DEFINITION. One arm for each command. -/

namespace Sys2Proof.Machine

/-- The meaning of a command. -/
def exec (i : Instr) (s : State) : Host.Outcome State Fault Refusal :=
  match i with
  | .por vioB => Sys2Proof.Machine.execPor s vioB
  | .brownout rails => Sys2Proof.Machine.execBrownout s rails
  | .nreset => Sys2Proof.Machine.execNreset s
  | .nwarm => Sys2Proof.Machine.execNwarm s
  | .softwareWarm door => Sys2Proof.Machine.execSoftwareWarm door s
  | .softwareCold door => Sys2Proof.Machine.execSoftwareCold door s
  | .watchdogExpiry => Sys2Proof.Machine.execWatchdogExpiry s
  | .clockFail => Sys2Proof.Machine.execClockFail s
  | .startTimeout => Sys2Proof.Machine.execStartTimeout s
  | .linkCommandedReset port => Sys2Proof.Machine.execLinkCommandedReset port s
  | .resetHeldRelease => Sys2Proof.Machine.execResetHeldRelease s
  | .coldReset => Sys2Proof.Machine.execColdReset s
  | .warmReset => Sys2Proof.Machine.execWarmReset s
  | .domainRelease d => Sys2Proof.Machine.execDomainRelease d s
  | .clockNotGood pll => Sys2Proof.Machine.execClockNotGood pll s
  | .corePllRetry => Sys2Proof.Machine.execCorePllRetry s
  | .memReady => Sys2Proof.Machine.execMemReady s
  | .bootCommit => Sys2Proof.Machine.execBootCommit s
  | .blockReset door => Sys2Proof.Machine.execBlockReset door s
  | .blockResetForce => Sys2Proof.Machine.execBlockResetForce s
  | .adventClear door => Sys2Proof.Machine.execAdventClear door s
  | .resetCounterClear door => Sys2Proof.Machine.execResetCounterClear door s
  | .linkResetGo door => Sys2Proof.Machine.execLinkResetGo door s
  | .modeRequestDark door => Sys2Proof.Machine.execModeRequestDark door s
  | .modeRequestRun door => Sys2Proof.Machine.execModeRequestRun door s
  | .modeRequestHold door => Sys2Proof.Machine.execModeRequestHold door s
  | .modeRequestPassthrough door => Sys2Proof.Machine.execModeRequestPassthrough door s
  | .modeRequestBringup door => Sys2Proof.Machine.execModeRequestBringup door s
  | .modeChange => Sys2Proof.Machine.execModeChange s
  | .automaticHold => Sys2Proof.Machine.execAutomaticHold s
  | .automaticHoldReturn => Sys2Proof.Machine.execAutomaticHoldReturn s
  | .holdLimit => Sys2Proof.Machine.execHoldLimit s
  | .startConfirmation => Sys2Proof.Machine.execStartConfirmation s
  | .tickBoundary => Sys2Proof.Machine.execTickBoundary s
  | .arbiterGrant point waiting => Sys2Proof.Machine.execArbiterGrant point waiting s
  | .budgetRelease door mask => Sys2Proof.Machine.execBudgetRelease door mask s
  | .budgetCounterClear door => Sys2Proof.Machine.execBudgetCounterClear door s
  | .read door key => Sys2Proof.Machine.execRead door key s
  | .write door key value => Sys2Proof.Machine.execWrite door key value s
  | .readStaged door key => Sys2Proof.Machine.execReadStaged door key s
  | .domainRead door key offset count => Sys2Proof.Machine.execDomainRead door key offset count s
  | .domainWrite door key offset data => Sys2Proof.Machine.execDomainWrite door key offset data s
  | .registerWrite door key value => Sys2Proof.Machine.execRegisterWrite door key value s
  | .immediate door => Sys2Proof.Machine.execImmediate door s
  | .timed door => Sys2Proof.Machine.execTimed door s
  | .cancel door => Sys2Proof.Machine.execCancel door s
  | .discard door => Sys2Proof.Machine.execDiscard door s
  | .commitChecksEnd => Sys2Proof.Machine.execCommitChecksEnd s
  | .commitApply => Sys2Proof.Machine.execCommitApply s
  | .tlaroekDatagram path payload => Sys2Proof.Machine.execTlaroekDatagram path payload s
  | .tlaroekAnswer => Sys2Proof.Machine.execTlaroekAnswer s
  | .broadcastWrite door key value => Sys2Proof.Machine.execBroadcastWrite door key value s
  | .gatewayTimeout sweep => Sys2Proof.Machine.execGatewayTimeout sweep s
  | .domainTransferIdle stream => Sys2Proof.Machine.execDomainTransferIdle stream s
  | .bar0Access isWrite offset firstByte count data => Sys2Proof.Machine.execBar0Access isWrite offset firstByte count data s
  | .bar0WindowAdvance isWrite data => Sys2Proof.Machine.execBar0WindowAdvance isWrite data s
  | .mailboxGo n => Sys2Proof.Machine.execMailboxGo n s
  | .spiFrame frame => Sys2Proof.Machine.execSpiFrame frame s
  | .spiWaitTimeout => Sys2Proof.Machine.execSpiWaitTimeout s
  | .spiFrameDiscard => Sys2Proof.Machine.execSpiFrameDiscard s
  | .doorCounterClear door => Sys2Proof.Machine.execDoorCounterClear door s
  | .receiveSlot port lanes => Sys2Proof.Machine.execReceiveSlot port lanes s
  | .alignSlotSend port => Sys2Proof.Machine.execAlignSlotSend port s
  | .alignMissing port foundElsewhere => Sys2Proof.Machine.execAlignMissing port foundElsewhere s
  | .phaseSlip port => Sys2Proof.Machine.execPhaseSlip port s
  | .blockLockLoss port lane => Sys2Proof.Machine.execBlockLockLoss port lane s
  | .portDownWait port => Sys2Proof.Machine.execPortDownWait port s
  | .signalDetect port => Sys2Proof.Machine.execSignalDetect port s
  | .eqAdapted port => Sys2Proof.Machine.execEqAdapted port s
  | .lockAcquired port polarity reversed skews => Sys2Proof.Machine.execLockAcquired port polarity reversed skews s
  | .alignFound port farPers farPort farHops farAddr => Sys2Proof.Machine.execAlignFound port farPers farPort farHops farAddr s
  | .checkPassed port => Sys2Proof.Machine.execCheckPassed port s
  | .checkFailed port => Sys2Proof.Machine.execCheckFailed port s
  | .trainingTimeout port => Sys2Proof.Machine.execTrainingTimeout port s
  | .trainingBackoff port => Sys2Proof.Machine.execTrainingBackoff port s
  | .portLeavesUp port => Sys2Proof.Machine.execPortLeavesUp port s
  | .portRetrain door port => Sys2Proof.Machine.execPortRetrain door port s
  | .portGoDown door port => Sys2Proof.Machine.execPortGoDown door port s
  | .portCounterClear door port => Sys2Proof.Machine.execPortCounterClear door port s
  | .marginMeasure port heights widths => Sys2Proof.Machine.execMarginMeasure port heights widths s
  | .enumeration chains => Sys2Proof.Machine.execEnumeration chains s
  | .enumSend => Sys2Proof.Machine.execEnumSend s
  | .enumReceive => Sys2Proof.Machine.execEnumReceive s
  | .deferredPerform => Sys2Proof.Machine.execDeferredPerform s
  | .serviceAnsSend => Sys2Proof.Machine.execServiceAnsSend s
  | .serviceAnsReceive => Sys2Proof.Machine.execServiceAnsReceive s
  | .queueCellReceive => Sys2Proof.Machine.execQueueCellReceive s
  | .digestSend port tick => Sys2Proof.Machine.execDigestSend port tick s
  | .digestCompare port tick => Sys2Proof.Machine.execDigestCompare port tick s
  | .digestMissing port tick => Sys2Proof.Machine.execDigestMissing port tick s
  | .yieldResume port => Sys2Proof.Machine.execYieldResume port s
  | .harvestSend => Sys2Proof.Machine.execHarvestSend s
  | .harvestReceive => Sys2Proof.Machine.execHarvestReceive s
  | .deviceSilent address => Sys2Proof.Machine.execDeviceSilent address s
  | .clockUpstreamChange => Sys2Proof.Machine.execClockUpstreamChange s
  | .masterTakeover => Sys2Proof.Machine.execMasterTakeover s
  | .masterClaim => Sys2Proof.Machine.execMasterClaim s
  | .masterReturn => Sys2Proof.Machine.execMasterReturn s
  | .dualMaster => Sys2Proof.Machine.execDualMaster s
  | .claimNow door => Sys2Proof.Machine.execClaimNow door s
  | .handOver door => Sys2Proof.Machine.execHandOver door s
  | .firstDivergenceClear door => Sys2Proof.Machine.execFirstDivergenceClear door s
  | .redundancyCounterClear door => Sys2Proof.Machine.execRedundancyCounterClear door s
  | .beaconSend port => Sys2Proof.Machine.execBeaconSend port s
  | .beaconReceive entryDelay phase => Sys2Proof.Machine.execBeaconReceive entryDelay phase s
  | .tileHoldover => Sys2Proof.Machine.execTileHoldover s
  | .delayReqSend port => Sys2Proof.Machine.execDelayReqSend port s
  | .delayReqReceive arrival => Sys2Proof.Machine.execDelayReqReceive arrival s
  | .delayRespReceive arrival => Sys2Proof.Machine.execDelayRespReceive arrival s
  | .ptpMessage netPort m arrival => Sys2Proof.Machine.execPtpMessage netPort m arrival s
  | .ppsEdge refPresent entryDelay phase => Sys2Proof.Machine.execPpsEdge refPresent entryDelay phase s
  | .vrefFrame rate arrival => Sys2Proof.Machine.execVrefFrame rate arrival s
  | .sourceLock src => Sys2Proof.Machine.execSourceLock src s
  | .firstLockStep src => Sys2Proof.Machine.execFirstLockStep src s
  | .firstLockWait src => Sys2Proof.Machine.execFirstLockWait src s
  | .sourceLost src => Sys2Proof.Machine.execSourceLost src s
  | .sourceJump => Sys2Proof.Machine.execSourceJump s
  | .sourceReturn => Sys2Proof.Machine.execSourceReturn s
  | .intercalationUpdate => Sys2Proof.Machine.execIntercalationUpdate s
  | .reepochPlain door => Sys2Proof.Machine.execReepochPlain door s
  | .reepochForce door => Sys2Proof.Machine.execReepochForce door s
  | .reepochCancel door => Sys2Proof.Machine.execReepochCancel door s
  | .reepochApply => Sys2Proof.Machine.execReepochApply s
  | .timeCounterClear door => Sys2Proof.Machine.execTimeCounterClear door s
  | .ptpCounterClear door => Sys2Proof.Machine.execPtpCounterClear door s
  | .dpFrameComplete d signal rate data => Sys2Proof.Machine.execDpFrameComplete d signal rate data s
  | .dpFrameDrop d => Sys2Proof.Machine.execDpFrameDrop d s
  | .dpLost loss => Sys2Proof.Machine.execDpLost loss s
  | .flowPacket leg path seq marker payload => Sys2Proof.Machine.execFlowPacket leg path seq marker payload s
  | .flowFrameComplete flow => Sys2Proof.Machine.execFlowFrameComplete flow s
  | .flowLost flow => Sys2Proof.Machine.execFlowLost flow s
  | .ingestCounterClear door key => Sys2Proof.Machine.execIngestCounterClear door key s
  | .bar2Access isWrite address count data => Sys2Proof.Machine.execBar2Access isWrite address count data s
  | .fenceWrite access data => Sys2Proof.Machine.execFenceWrite access data s
  | .fenceReset door fence => Sys2Proof.Machine.execFenceReset door fence s
  | .compressionDone source => Sys2Proof.Machine.execCompressionDone source s
  | .flipDeadline => Sys2Proof.Machine.execFlipDeadline s
  | .directLineSlice source line data => Sys2Proof.Machine.execDirectLineSlice source line data s
  | .launchCutoff => Sys2Proof.Machine.execLaunchCutoff s
  | .doorbell offset data => Sys2Proof.Machine.execDoorbell offset data s
  | .timedMessageRelease queue => Sys2Proof.Machine.execTimedMessageRelease queue s
  | .hostStreamDeliver stream => Sys2Proof.Machine.execHostStreamDeliver stream s
  | .hostStreamRead door offset count => Sys2Proof.Machine.execHostStreamRead door offset count s
  | .queueReset door => Sys2Proof.Machine.execQueueReset door s
  | .queueDisable door => Sys2Proof.Machine.execQueueDisable door s
  | .queueEnable door => Sys2Proof.Machine.execQueueEnable door s
  | .queueCounterClear door key => Sys2Proof.Machine.execQueueCounterClear door key s
  | .slicerCounterClear door => Sys2Proof.Machine.execSlicerCounterClear door s
  | .windowComplete stream => Sys2Proof.Machine.execWindowComplete stream s
  | .composeDeadline => Sys2Proof.Machine.execComposeDeadline s
  | .viewComposed view => Sys2Proof.Machine.execViewComposed view s
  | .composeUnderrun view => Sys2Proof.Machine.execComposeUnderrun view s
  | .captureRingEmpty door => Sys2Proof.Machine.execCaptureRingEmpty door s
  | .captureSlotRelease door => Sys2Proof.Machine.execCaptureSlotRelease door s
  | .directSegmentReceive stream => Sys2Proof.Machine.execDirectSegmentReceive stream s
  | .firstSubstitutionClear door => Sys2Proof.Machine.execFirstSubstitutionClear door s
  | .composeCounterClear door key => Sys2Proof.Machine.execComposeCounterClear door key s
  | .previewBuild o => Sys2Proof.Machine.execPreviewBuild o s
  | .previewBuildAbandon o => Sys2Proof.Machine.execPreviewBuildAbandon o s
  | .previewFrameStart start => Sys2Proof.Machine.execPreviewFrameStart start s
  | .previewCounterClear door key => Sys2Proof.Machine.execPreviewCounterClear door key s
  | .tableMessage stream => Sys2Proof.Machine.execTableMessage stream s
  | .tableLoaderGo door => Sys2Proof.Machine.execTableLoaderGo door s
  | .uploadCounterClear door => Sys2Proof.Machine.execUploadCounterClear door s
  | .plan door => Sys2Proof.Machine.execPlan door s
  | .syncEdge k => Sys2Proof.Machine.execSyncEdge k s
  | .syncStart k => Sys2Proof.Machine.execSyncStart k s
  | .slotLatch => Sys2Proof.Machine.execSlotLatch s
  | .blank r => Sys2Proof.Machine.execBlank r s
  | .matchLine r => Sys2Proof.Machine.execMatchLine r s
  | .done r => Sys2Proof.Machine.execDone r s
  | .underrun r lanes => Sys2Proof.Machine.execUnderrun r lanes s
  | .l7LineUnderrun r row => Sys2Proof.Machine.execL7LineUnderrun r row s
  | .previewLineUnderrun o => Sys2Proof.Machine.execPreviewLineUnderrun o s
  | .relock => Sys2Proof.Machine.execRelock s
  | .tgEventStatusClear door key ones => Sys2Proof.Machine.execTgEventStatusClear door key ones s
  | .tgCounterClear door r => Sys2Proof.Machine.execTgCounterClear door r s
  | .laneFrameStart lane => Sys2Proof.Machine.execLaneFrameStart lane s
  | .laneRowSend lane row => Sys2Proof.Machine.execLaneRowSend lane row s
  | .diagSend lane => Sys2Proof.Machine.execDiagSend lane s
  | .laneFrameEnd lane => Sys2Proof.Machine.execLaneFrameEnd lane s
  | .latch lane => Sys2Proof.Machine.execLatch lane s
  | .diagnosticSlot lane => Sys2Proof.Machine.execDiagnosticSlot lane s
  | .returnFrame lane frame => Sys2Proof.Machine.execReturnFrame lane frame s
  | .returnFrameMissing lane => Sys2Proof.Machine.execReturnFrameMissing lane s
  | .diodeSample d reading => Sys2Proof.Machine.execDiodeSample d reading s
  | .sweepStart => Sys2Proof.Machine.execSweepStart s
  | .mapStore door => Sys2Proof.Machine.execMapStore door s
  | .mapStoreInterval => Sys2Proof.Machine.execMapStoreInterval s
  | .mapClear door => Sys2Proof.Machine.execMapClear door s
  | .mapReload door => Sys2Proof.Machine.execMapReload door s
  | .lastLocateClear door => Sys2Proof.Machine.execLastLocateClear door s
  | .lampCounterClear door key => Sys2Proof.Machine.execLampCounterClear door key s
  | .memoryTraining channel density passed => Sys2Proof.Machine.execMemoryTraining channel density passed s
  | .retrainStep channel completed last => Sys2Proof.Machine.execRetrainStep channel completed last s
  | .retrainDue channel => Sys2Proof.Machine.execRetrainDue channel s
  | .refresh channel bank => Sys2Proof.Machine.execRefresh channel bank s
  | .deviceTempReadout channel temps => Sys2Proof.Machine.execDeviceTempReadout channel temps s
  | .edcRetry channel => Sys2Proof.Machine.execEdcRetry channel s
  | .correctedRead place => Sys2Proof.Machine.execCorrectedRead place s
  | .scrub place found => Sys2Proof.Machine.execScrub place found s
  | .hammerThreshold place => Sys2Proof.Machine.execHammerThreshold place s
  | .modeRegisterCheck channel matched => Sys2Proof.Machine.execModeRegisterCheck channel matched s
  | .memoryFreeze trigger place => Sys2Proof.Machine.execMemoryFreeze trigger place s
  | .poisonedRead place address => Sys2Proof.Machine.execPoisonedRead place address s
  | .freezeRelease door => Sys2Proof.Machine.execFreezeRelease door s
  | .freezeRecordClear door => Sys2Proof.Machine.execFreezeRecordClear door s
  | .retrainAll door => Sys2Proof.Machine.execRetrainAll door s
  | .scrubNow door => Sys2Proof.Machine.execScrubNow door s
  | .channelCountersClear door key => Sys2Proof.Machine.execChannelCountersClear door key s
  | .sensorSample sensors rings => Sys2Proof.Machine.execSensorSample sensors rings s
  | .throttle => Sys2Proof.Machine.execThrottle s
  | .shutdown => Sys2Proof.Machine.execShutdown s
  | .hardwareTrip source => Sys2Proof.Machine.execHardwareTrip source s
  | .compensationUpdate => Sys2Proof.Machine.execCompensationUpdate s
  | .thermalCounterClear door => Sys2Proof.Machine.execThermalCounterClear door s
  | .equinoxEvaluate => Sys2Proof.Machine.execEquinoxEvaluate s
  | .equinoxSwapIn => Sys2Proof.Machine.execEquinoxSwapIn s
  | .equinoxMeasurement points => Sys2Proof.Machine.execEquinoxMeasurement points s
  | .equinoxSwapOut => Sys2Proof.Machine.execEquinoxSwapOut s
  | .equinoxAbort cause => Sys2Proof.Machine.execEquinoxAbort cause s
  | .equinoxCalibrateItem door => Sys2Proof.Machine.execEquinoxCalibrateItem door s
  | .equinoxCalibrateAll door => Sys2Proof.Machine.execEquinoxCalibrateAll door s
  | .calibrationStore door => Sys2Proof.Machine.execCalibrationStore door s
  | .calibrationReload door => Sys2Proof.Machine.execCalibrationReload door s
  | .suspectClear door => Sys2Proof.Machine.execSuspectClear door s
  | .lastResultClear door => Sys2Proof.Machine.execLastResultClear door s
  | .equinoxCounterClear door => Sys2Proof.Machine.execEquinoxCounterClear door s
  | .tokenGrant token => Sys2Proof.Machine.execTokenGrant token s
  | .sessionOpen door => Sys2Proof.Machine.execSessionOpen door s
  | .sessionEraseDone => Sys2Proof.Machine.execSessionEraseDone s
  | .sessionChunk door offset data => Sys2Proof.Machine.execSessionChunk door offset data s
  | .sessionClose door => Sys2Proof.Machine.execSessionClose door s
  | .sessionAbort door => Sys2Proof.Machine.execSessionAbort door s
  | .sessionIdleTimeout => Sys2Proof.Machine.execSessionIdleTimeout s
  | .updateBroadcast door => Sys2Proof.Machine.execUpdateBroadcast door s
  | .firmwareBlock stream => Sys2Proof.Machine.execFirmwareBlock stream s
  | .settingsSave door => Sys2Proof.Machine.execSettingsSave door s
  | .settingsErase door => Sys2Proof.Machine.execSettingsErase door s
  | .storeComplete verified => Sys2Proof.Machine.execStoreComplete verified s
  | .consolidation verified => Sys2Proof.Machine.execConsolidation verified s
  | .updateCounterClear door => Sys2Proof.Machine.execUpdateCounterClear door s
  | .almanacEvent hist bin => Sys2Proof.Machine.execAlmanacEvent hist bin s
  | .pageClose => Sys2Proof.Machine.execPageClose s
  | .almanacFreeze door on => Sys2Proof.Machine.execAlmanacFreeze door on s
  | .almanacClear door => Sys2Proof.Machine.execAlmanacClear door s
  | .almanacClosePage door => Sys2Proof.Machine.execAlmanacClosePage door s
  | .persistNow door => Sys2Proof.Machine.execPersistNow door s
  | .persistenceRun => Sys2Proof.Machine.execPersistenceRun s
  | .almanacWindowAdvance door => Sys2Proof.Machine.execAlmanacWindowAdvance door s
  | .almanacCounterClear door => Sys2Proof.Machine.execAlmanacCounterClear door s
  | .portTestMode door port mode => Sys2Proof.Machine.execPortTestMode door port mode s
  | .portTestCounterClear door port => Sys2Proof.Machine.execPortTestCounterClear door port s
  | .lampPattern door pattern => Sys2Proof.Machine.execLampPattern door pattern s
  | .memoryTestStart door => Sys2Proof.Machine.execMemoryTestStart door s
  | .memoryTestStop door => Sys2Proof.Machine.execMemoryTestStop door s
  | .memoryTestDone failure => Sys2Proof.Machine.execMemoryTestDone failure s
  | .refreshWindow channel => Sys2Proof.Machine.execRefreshWindow channel s
  | .syncStartTimeWrite door k time => Sys2Proof.Machine.execSyncStartTimeWrite door k time s

end Sys2Proof.Machine
end

