-- ==== Sys2Proof/Machine/Step.lean ====
section
/-! DEFINITION. One step of the block: the command at the front of the queue, or one cycle of the clock. -/

namespace Sys2Proof.Machine

/-- One step: the command at the front of the queue runs on the rest of the queue. On an empty queue one cc of local
time passes, and the slots leave that have come on the ports' own grids (R9, R107, R172; DESIGN CHOICE, log 4). -/
def step (s : State) : Host.Outcome State Fault Refusal :=
  match s.pending with
  | [] => perform (.seq (advanceCycles 1) passSlots) s
  | c :: rest => exec c { s with pending := rest }

/-- The state with the command that a word spells put at the front of its queue; the same state where it spells none
(log 8). -/
def State.withFetchWord (s : State) (nbits w : Nat) : State :=
  match decodeTableWord nbits w with
  | some c => { s with pending := c :: s.pending }
  | none => s

end Sys2Proof.Machine
end

