-- ==== Sys2Proof/Machine/Pins.lean ====
section
/-! DEFINITION. The test access port and what it can do to the lamp outputs (R514). No row of the opcode table commands it
(log 105). -/

namespace Sys2Proof.Machine

/-- The IDCODE that the TAP shifts out, in every mode while VAON is in range (R514). -/
def idcode : BitVec 32 := 0xB61804D7

/-- The LAMP_EN ball is high: under EXTEST its boundary cell can only drive it low (R514). -/
def State.lampBall (s : State) : Bool := s.hid.lampEn && !s.hid.extest

/-- The currents of the CR outputs: zero while they are clamped, as they stay under EXTEST (R350, R514). -/
def State.crOutputs (s : State) : List Nat := s.hid.scan.refs.map fun i => if s.hid.clamped || s.hid.extest then 0 else i

end Sys2Proof.Machine
end

