-- ==== Sys2Proof/Safety.lean ====
section
/-! DEFINITION. What a safe run keeps, and the words in which statements speak of a command: that it completes, what it leaves
as it was, and which door serves an entry. -/

namespace Sys2Proof.Machine

/-- The dictionary values are canonical: keys rise, no entry holds its default, every entry that is listed exists, is not
CONST, and holds a value of its width (R11, R12, R34). -/
def Values.wf (p : Personality) (r : Values) : Bool :=
  Sparse.wf (defaultOf p) r && r.all fun c => match rowAt p c.1 with
    | some row => row.acc != .konst && decide (c.2 < 2 ^ row.ty.width)
    | none => false

/-- A sound state: memory and the dictionary values are in their canonical forms. -/
def State.sound (s : State) : Bool := Memory.wf s.mem && Values.wf s.pers s.regs

/-- A command completes from a state with a next state of which something holds. -/
def Completes (c : Instr) (s : State) (holds : State → Prop) : Prop := ∃ t, exec c s = .next t ∧ holds t

/-- An entry reads a value in effect. -/
def State.entry (s : State) (k : Key) : Nat := valueOf s.pers s.regs k

/-- Every entry but those of a list keeps its value. -/
def SameEntriesBut (ks : List Key) (s t : State) : Prop := t.pers = s.pers ∧ ∀ k, k ∉ ks → t.entry k = s.entry k

/-- Every byte of memory reads as before. -/
def SameMemory (s t : State) : Prop := ∀ a, t.byte a = s.byte a

/-- Every byte of memory outside n bytes from an address reads as before. -/
def SameMemoryBut (a n : Nat) (s t : State) : Prop := ∀ x, x < a ∨ a + n ≤ x → t.byte x = s.byte x

/-- The entries that any access at a door may count in: the lost count of the Almanac (R485, R489), and the change mark of the
settings (R480). -/
def doorMarks : List Key := [keyOf 0x1400 8, keyOf 0x1500 0x0F]

/-- The last thing that has gone out is a door's answer with a status and a value. -/
def Answered (d : Door) (status : Nat) (value : List Byte) (t : State) : Prop :=
  t.outputs.getLast? = some (.answer d status value)

/-- Of what stands beside the dictionary, only the Almanac's engine may differ (R485). -/
def SameBeside (s t : State) : Prop := t.hid = { s.hid with almanac := t.hid.almanac }

/-- A command at a door that is answered OK, leaves these entries at 0 and changes no other entry, no byte of memory and
nothing beside them but the door's marks. -/
def Clears (c : Instr) (d : Door) (ks : List Key) (s : State) : Prop :=
  Completes c s fun t => Answered d Status.ok [] t ∧ (∀ k ∈ ks, t.entry k = 0) ∧ SameEntriesBut (ks ++ doorMarks) s t ∧
    SameMemory s t ∧ SameBeside s t

/-- A command at a door that is refused with a status: it changes no entry but the door's marks, no byte of memory, and
nothing beside them. -/
def Refused (c : Instr) (d : Door) (status : Nat) (s : State) : Prop :=
  Completes c s fun t => Answered d status [] t ∧ SameEntriesBut doorMarks s t ∧ SameMemory s t ∧ SameBeside s t

/-- No entry but those of a list changes, and no byte of memory. -/
def Only (ks : List Key) (s t : State) : Prop := SameEntriesBut ks s t ∧ SameMemory s t

/-- The status of every lane (R365). -/
def laneEntries : List Key := (List.range 32).map fun l => keyOf (0x5110 + l) 3

/-- The entries that the entry to a mode may change (R51, R209, R343, R402, R404, R423, R443, R447, R518). -/
def State.modeEntries (s : State) : List Key :=
  [keyOf 0x1001 1, keyOf 0x1001 3, keyOf 0x1001 4, keyOf 0x1001 6, keyOf 0x1010 3, keyOf 0x1010 5, keyOf 0x1010 6,
    keyOf 0x1010 7, keyOf 0x1010 0x0B, keyOf 0x1110 3, keyOf 0x1100 6, keyOf 0x1210 2, keyOf 0x3000 3, keyOf 0x4300 0x0B,
    keyOf 0x5000 1, keyOf 0x7020 1, keyOf 0x7030 3] ++
  s.ports.map (fun p => keyOf (0x7010 + p) 1) ++ (List.range 11).map (fun m => keyOf 0x1642 (m + 1)) ++
  s.channels.map (fun c => keyOf (0x3030 + c) 1) ++ keyOf 0x1600 6 :: laneEntries ++
  (List.range 4).map fun d => keyOf (0x6001 + d) 3

/-- CORE is released and VIGIL is not the mode: the dictionary engine serves every entry that exists (R41, R73). -/
def State.serves (s : State) : Bool := s.up .core && s.mode != Mode.vigil

/-- A door that the personality has, while CORE is released: the dictionary engine performs its accesses (R4, R41, R57). -/
def State.hears (s : State) (d : Door) : Bool := s.hasDoor d && s.up .core

/-- The same, outside VIGIL: every entry that exists is served. -/
def State.servesAt (s : State) (d : Door) : Bool := s.hasDoor d && s.serves

/-- No reset of a wider scope than this is asserted (R431). -/
def State.yields (s : State) (scope : Nat) : Prop := s.hid.reset.request = none ∨ s.hid.reset.scope ≤ scope

/-- A command that asserts a reset with its code and scope, held during a flash pulse unless it is the brownout, code 2: the
held count and these entries apart, no entry changes, and no memory (R430 to R432). -/
def Asserts (c : Instr) (code scope : Nat) (ks : List Key) (s : State) (more : State → Prop) : Prop :=
  Completes c s fun t =>
    t.hid.reset = { s.hid.reset with request := some code, scope := scope, held := s.flashBusy && code != 2 } ∧
    t.entry (keyOf 0x1100 8) = (if s.flashBusy && code != 2 && !s.hid.reset.held then
      satAdd 32 (s.entry (keyOf 0x1100 8)) 1 else s.entry (keyOf 0x1100 8)) ∧
    Only (keyOf 0x1100 8 :: ks) s t ∧ more t

/-- A command at a door that is answered with a status: of the entries only these and the door's marks change, and no
memory. -/
def Acts (c : Instr) (d : Door) (status : Nat) (ks : List Key) (s : State) (more : State → Prop) : Prop :=
  Completes c s fun t => Answered d status [] t ∧ Only (ks ++ doorMarks) s t ∧ more t

/-- Every byte of memory outside some ranges of addresses, each from its first up to its second, reads as before. -/
def SameMemoryOutside (rs : List (Nat × Nat)) (s t : State) : Prop :=
  ∀ a, (∀ r ∈ rs, a < r.1 ∨ r.2 ≤ a) → t.byte a = s.byte a

/-- The addresses of a space. -/
def Space.range (sp : Space) : Nat × Nat := (sp.at 0, sp.at (2 ^ 56))

/-- n addresses of the flash. -/
def flashRange (a n : Nat) : Nat × Nat := (Space.flash.at a, Space.flash.at (a + n))

/-- The sectors of the pointer words and of the Advent mirror (R455). -/
def bootSectors : Nat × Nat := flashRange 0x10000 0x30000

/-- The entries that the request, the start or the end of a background activity may change (R420, R421, R476, R480). -/
def State.activityEntries (s : State) : List Key :=
  [keyOf 0x1620 1, keyOf 0x1620 2, keyOf 0x1620 3, keyOf 0x1600 6, keyOf 0x1500 0x11, keyOf 0x1500 0x0E] ++
  s.channels.map (fun c => keyOf (0x3030 + c) 1)

/-- The first n bytes of the content of a DOMAIN entry. -/
def contentRange (index sub n : Nat) : Nat × Nat :=
  (domainBase (keyOf index sub), domainBase (keyOf index sub) + n)

/-- The entries that show the tick grid (R174). -/
def gridEntries : List Key := [keyOf 0x1300 6, keyOf 0x1300 7, keyOf 0x1300 8, keyOf 0x1300 0x0B]

/-- The entries that show the budgets (R86, R87). -/
def budgetEntries : List Key := (List.range 11).map fun m => keyOf 0x1642 (m + 1)

/-- Local time has run on to an instant in ns, if that lay ahead. -/
def RunsTo (ns : Int) (s t : State) : Prop := t.hid.time.now = max s.hid.time.now (ns.toNat * unitsPerNs)

/-- Of what stands beside the dictionary the time core comes to a state, and only it changes, the marks of the tick for the
self-check and the Harvest (R154, R159) and the Almanac's engine apart. -/
def TimeMoves (x : TimeState) (s t : State) : Prop := t.hid = { s.hid with
  almanac := t.hid.almanac
  pair := { s.hid.pair with selfSeen := t.hid.pair.selfSeen }
  counts := { s.hid.counts with holdover := t.hid.counts.holdover }
  time := x }

/-- The command history of the channels (R389). -/
def historyRange : Nat × Nat := contentRange 0x3060 1 36864

/-- The lists of a state that stand for a fixed number of like things have that length: 16 ports, 11 budgeted masters, 32
lanes, 4 sources, 2 networks, 4 receivers, 4 engines, 2 previews, 16 flows, 12 sensors, 36 channels, 128 arrays. -/
def State.shaped (s : State) : Bool :=
  let h := s.hid
  h.ports.length == 16 && h.budget.bytes.length == 11 && h.budget.cycles.length == 11 && h.budget.streak.length == 11 &&
    h.scan.lanes.length == 32 && h.scan.kinds.length == 32 && h.scan.refs.length == 65 && h.scan.diodes.length == 4 &&
    h.scan.margins.length == 4 && h.scan.sweepAt.length == 128 && h.time.sources.length == 4 && h.time.ptp.best.length == 2 &&
    h.ingest.hpd.length == 4 && h.ingest.full.length == 4 && h.ingest.dpAt.length == 4 && h.ingest.engines.length == 4 &&
    h.ingest.previews.length == 2 && h.ingest.flows.length == 16 && h.heat.sensors.length == 12 &&
    h.memory.writeBacks.length == 36 && h.memory.halving.length == 36 &&
    h.memory.attempts.length == 36 && h.pair.agree.length == 16 && h.counts.corrected.length == 16 &&
    h.counts.uncorrectable.length == 16 && h.counts.idle.length == 16 && h.counts.cells.length == 16

end Sys2Proof.Machine
end

