-- ==== Sys2Proof/WellFormed.lean ====
section
/-! DEFINITION. Which commands are well formed: every operand inside the range that the spec gives the thing it names.
An ill-formed command has a meaning all the same (a door that names an absent port is answered, a list is read as far as
it goes); well-formedness says what the outside can send. -/

namespace Sys2Proof

/-- A cell as R106 and R108 frame it: each field inside its width, and 240 body bytes. -/
def Cell.wf (c : Cell) : Bool :=
  c.kind < 16 && c.queue < 2 ^ 18 && c.src < 512 && c.len ≤ 240 && c.seq < 2 ^ 32 && c.lt < 2 ^ 32 && c.body.length == 240 &&
    c.spare < 2 ^ 19

/-- The symbols of a slot: 292 on each of four lanes (R98, R106). -/
def lanesWf (lanes : List (List Level)) : Bool := lanes.length == 4 && lanes.all fun l => l.length == 292

/-- A shared point that exists (R78). -/
def SharedPoint.wf : SharedPoint → Bool
  | .channel c => c < 36
  | .crossbar => true
  | .egress p => p < 16

/-- A master that exists (R77, R82). -/
def Master.wf : Master → Bool
  | .budgeted m => m < 11
  | _ => true

/-- A place in memory (R372). -/
def MemPlace.wf (p : MemPlace) : Bool :=
  p.channel < 36 && p.bank < 16 && p.row < 2 ^ 17 && p.atom < 64 && p.word < 2

/-- A dictionary key has an index and a subindex (R34). -/
def keyWf (k : Key) : Bool := k < 2 ^ 24

/-- The well-formed commands. -/
def Instr.wf : Instr → Bool
  | .linkCommandedReset port | .alignSlotSend port | .alignMissing port _ | .phaseSlip port | .portDownWait port
  | .signalDetect port | .eqAdapted port | .checkPassed port | .checkFailed port | .trainingTimeout port
  | .trainingBackoff port | .portLeavesUp port | .digestSend port _ | .digestCompare port _ | .digestMissing port _
  | .yieldResume port | .beaconSend port | .delayReqSend port => port < 16
  | .portRetrain _ port | .portGoDown _ port | .portCounterClear _ port | .portTestCounterClear _ port => port < 16
  | .portTestMode _ port mode => port < 16 && mode < 256
  | .blockLockLoss port lane => port < 16 && lane < 4
  | .receiveSlot port lanes => port < 16 && lanesWf lanes
  | .lockAcquired port polarity _ skews => port < 16 && polarity < 16 && skews.length == 4
  | .alignFound port p q h a => port < 16 && p < 4 && q < 16 && h < 256 && a < 65536
  | .marginMeasure port hs ws => port < 16 && hs.length == 4 && ws.length == 4
  | .arbiterGrant point waiting => point.wf && waiting.all fun r => r.master.wf && r.bytes ≤ 256
  | .budgetRelease _ mask => mask < 2 ^ 16
  | .read _ k | .readStaged _ k | .write _ k _ | .registerWrite _ k _ | .broadcastWrite _ k _ | .domainRead _ k _ _
  | .domainWrite _ k _ _ | .ingestCounterClear _ k | .queueCounterClear _ k | .composeCounterClear _ k
  | .previewCounterClear _ k | .tgEventStatusClear _ k _ | .lampCounterClear _ k | .channelCountersClear _ k => keyWf k
  | .enumeration chains => chains.all fun c => c.1 < 16 && 1 ≤ c.2 && c.2 ≤ 62
  | .gatewayTimeout q => q.port < 16 && q.tag < 512
  | .tlaroekDatagram q _ => q.address < 2 ^ 32 && q.port < 65536 && q.target < 65536
  | .mailboxGo n => n < 8
  | .deviceSilent a => a < 65536
  | .ptpMessage n m a => n < 2 && m.domain < 128 && a.phase < 64
  | .beaconReceive _ phase | .ppsEdge _ _ phase => phase < 64
  | .delayReqReceive a | .delayRespReceive a => a.phase < 64
  | .vrefFrame q a => 0 < q.1 && 0 < q.2 && a.phase < 64
  | .dpFrameComplete d _ _ _ | .dpFrameDrop d => d < 4
  | .dpLost q => q.receiver < 4
  | .flowPacket leg q seq _ _ => leg < 2 && q.source < 2 ^ 32 && q.group < 2 ^ 32 && q.udpPort < 65536 && seq < 2 ^ 32
  | .flowFrameComplete f | .flowLost f => f < 16
  | .fenceReset _ f => f < 256
  | .compressionDone g => g < 256
  | .directLineSlice source line _ => source < 256 && line < 2 ^ 16
  | .viewComposed v | .composeUnderrun v => v < 8
  | .previewBuild o | .previewBuildAbandon o | .previewLineUnderrun o => o < 2
  | .previewFrameStart q => q.output < 2 && q.sink.all fun x => x.lanes ≤ 4
  | .syncEdge k | .syncStart k => k < 8
  | .syncStartTimeWrite _ k t => k < 8 && t < 2 ^ 32
  | .blank r | .matchLine r | .done r => r < 4
  | .underrun r lanes => r < 4 && lanes < 2 ^ 32
  | .l7LineUnderrun r row => r < 4 && row < 256
  | .tgCounterClear _ r => r < 4
  | .laneFrameStart l | .diagSend l | .laneFrameEnd l | .latch l | .diagnosticSlot l | .returnFrameMissing l => l < 32
  | .laneRowSend l row => l < 32 && row < 256
  | .returnFrame l q => l < 32 && q.before < 2 ^ 58 && q.words.all fun w => w < 2 ^ 66
  | .diodeSample d _ => d < 4
  | .memoryTraining c density _ => c < 36 && density < 256
  | .retrainStep c _ _ | .retrainDue c | .edcRetry c | .modeRegisterCheck c _ | .refreshWindow c => c < 36
  | .refresh c b => c < 36 && b < 16
  | .deviceTempReadout c temps => c < 36 && temps.length == 2
  | .correctedRead p | .hammerThreshold p | .memoryFreeze _ p | .poisonedRead p _ => p.wf
  | .scrub p found => p.wf && found < 4
  | .hardwareTrip source => source < 12 || (16 ≤ source && source < 20)
  | .equinoxAbort cause => 1 ≤ cause && cause ≤ 3
  | .sensorSample sensors rings => sensors.length ≤ 12 && rings.length ≤ 4
  | .equinoxMeasurement points => points.length ≤ 256
  | .tokenGrant t => t < 256
  | .almanacEvent h b => h < 8 && b < 8
  | .lampPattern _ p => p < 256
  | .flipDeadline | .launchCutoff | .queueCellReceive => true
  | .por _ | .brownout _ | .nreset | .nwarm | .softwareWarm _ | .softwareCold _ | .watchdogExpiry | .clockFail
  | .startTimeout | .resetHeldRelease | .coldReset | .warmReset | .domainRelease _ | .clockNotGood _ | .corePllRetry
  | .memReady | .bootCommit | .blockReset _ | .blockResetForce | .adventClear _ | .resetCounterClear _
  | .linkResetGo _ | .modeRequestDark _ | .modeRequestRun _ | .modeRequestHold _ | .modeRequestPassthrough _
  | .modeRequestBringup _ | .modeChange | .automaticHold | .automaticHoldReturn | .holdLimit | .startConfirmation
  | .tickBoundary | .budgetCounterClear _ | .immediate _ | .timed _ | .cancel _ | .discard _ | .commitChecksEnd
  | .commitApply | .tlaroekAnswer | .domainTransferIdle _ | .bar0Access _ _ _ _ _
  | .bar0WindowAdvance _ _ | .spiFrame _ | .spiWaitTimeout | .spiFrameDiscard | .doorCounterClear _ | .enumSend
  | .enumReceive | .deferredPerform | .serviceAnsSend | .serviceAnsReceive | .harvestSend | .harvestReceive
  | .clockUpstreamChange | .masterTakeover | .masterClaim | .masterReturn | .dualMaster | .claimNow _ | .handOver _
  | .firstDivergenceClear _ | .redundancyCounterClear _ | .tileHoldover | .sourceLock _ | .firstLockStep _ | .firstLockWait _
  | .sourceLost _ | .sourceJump | .sourceReturn | .intercalationUpdate | .reepochPlain _ | .reepochForce _
  | .reepochCancel _ | .reepochApply | .timeCounterClear _ | .ptpCounterClear _ | .bar2Access _ _ _ _
  | .fenceWrite _ _ | .doorbell _ _ | .timedMessageRelease _ | .hostStreamDeliver _ | .hostStreamRead _ _ _
  | .queueReset _ | .queueDisable _ | .queueEnable _ | .slicerCounterClear _ | .windowComplete _ | .composeDeadline
  | .captureRingEmpty _ | .captureSlotRelease _ | .directSegmentReceive _ | .firstSubstitutionClear _
  | .tableMessage _ | .tableLoaderGo _ | .uploadCounterClear _ | .plan _ | .slotLatch | .relock | .sweepStart
  | .mapStore _ | .mapStoreInterval | .mapClear _ | .mapReload _ | .lastLocateClear _ | .freezeRelease _
  | .freezeRecordClear _ | .retrainAll _ | .scrubNow _ | .throttle | .shutdown
  | .compensationUpdate | .thermalCounterClear _ | .equinoxEvaluate | .equinoxSwapIn | .equinoxSwapOut
  | .equinoxCalibrateItem _ | .equinoxCalibrateAll _ | .calibrationStore _ | .calibrationReload _
  | .suspectClear _ | .lastResultClear _ | .equinoxCounterClear _ | .sessionOpen _ | .sessionEraseDone
  | .sessionChunk _ _ _ | .sessionClose _ | .sessionAbort _ | .sessionIdleTimeout | .updateBroadcast _
  | .firmwareBlock _ | .settingsSave _ | .settingsErase _ | .storeComplete _ | .consolidation _
  | .updateCounterClear _ | .pageClose | .almanacFreeze _ _ | .almanacClear _ | .almanacClosePage _ | .persistNow _
  | .persistenceRun | .almanacWindowAdvance _ | .almanacCounterClear _
  | .memoryTestStart _ | .memoryTestStop _ | .memoryTestDone _ => true

end Sys2Proof
end

