-- ==== Sys2Proof/Certificates/Slice0/Obligations.lean ====
section
/-! DEFINITION. The statements of this model: what the rules of the spec say that each command does, what it leaves as it
was, and the states in which it completes. A premise s.sound is the invariant of StepKeepsSound. -/

open Sys2Proof Sys2Proof.Machine

/-- For every state with a command at the front of its queue, step is exec of that command on the state with the rest of the
queue. The queue is the model's own form of the commands that wait (log 8), no rule of the spec. (spec/INDEX.md) -/
def Obligations.StepRunsFrontCommand : Prop :=
  ∀ (s : State) (c : Instr) (rest : List Instr), s.pending = c :: rest → step s = exec c { s with pending := rest }

/-- On an empty queue a step answers a next state in which the cycle counter is one further, local time is 262144 units of
1/(5*2^16) ns further, one cc of 0.8 ns, with the part of a trim under way that falls into the cycle, and the queue is
empty. Where no port sends slots of its own grid, nothing but the time core differs. That an idle step passes a cycle is a
choice of the model (log 4); the length of a cc is R9. (R9, R107, R172, R192) -/
def Obligations.IdleStepPassesOneCycle : Prop :=
  ∀ s : State, s.pending = [] → ∃ t, step s = .next t ∧ t.pending = [] ∧ t.hid.time.cycles = s.hid.time.cycles + 1 ∧
    t.hid.time.now = ((s.hid.time.now + 262144 : Nat) + 5 *
      (s.hid.time.trimmed (s.hid.time.cycles + 1) - s.hid.time.trimDone) : Int).toNat ∧
    ((∀ p ∈ s.ports, s.sendsOwn p = false) → t = { s with hid := { s.hid with time := t.hid.time } })

/-- State.reset is sound, has an empty queue and no memory listed, is in BOOT, has AON as its one released domain, has no time
yet, and every entry reads its default. That it is a tile is a choice of the model (log 1). (R35, R429, R435, R446) -/
def Obligations.ResetStateIsBoot : Prop :=
  State.reset.sound = true ∧ State.reset.pending = [] ∧ State.reset.mem = [] ∧ State.reset.mode = Mode.boot ∧
  (∀ d : Dom, State.reset.up d = (d == .aon)) ∧ State.reset.stepped = false ∧
  ∀ k : Key, State.reset.entry k = defaultOf .tile k

/-- From every sound state, every command answers a sound next state, and so does every step: the addresses of memory rise and
list no byte at its unlisted value; the listed entries rise, exist, are not CONST, hold a value of their width and not
their default. (R11, R12, R34) -/
def Obligations.StepKeepsSound : Prop :=
  (∀ (c : Instr) (s : State), s.sound = true → ∃ t, exec c s = .next t ∧ t.sound = true) ∧
  ∀ s : State, s.sound = true → ∃ t, step s = .next t ∧ t.sound = true

/-- From every state whose fixed lists have their lengths (16 ports, 11 budgeted masters, 32 lanes, 65 references, 4 sources,
2 previews, 16 flows, 12 sensors, 36 channels, 128 arrays), every command answers such a state, and so does every step;
the state after reset is one. (R4, R82, R369, R398) -/
def Obligations.StepKeepsShape : Prop :=
  State.reset.shaped = true ∧ (∀ (c : Instr) (s : State), s.shaped = true → ∃ t, exec c s = .next t ∧ t.shaped = true) ∧
  ∀ s : State, s.shaped = true → ∃ t, step s = .next t ∧ t.shaped = true

/-- For every command and state exec answers a next state with the same queue and the same strap, and what has gone out before
stays the first part of the outputs. (R2, R37) -/
def Obligations.CommandsLeaveQueueStrapAndPastOutputs : Prop :=
  ∀ (c : Instr) (s : State), ∃ t, exec c s = .next t ∧ t.pending = s.pending ∧ t.strap = s.strap ∧ s.outputs <+: t.outputs

/-- For every command and every sound state, every entry that is CONST on the personality after the command reads its default.
(R12, R34) -/
def Obligations.ConstEntriesNeverChange : Prop :=
  ∀ (c : Instr) (s : State), s.sound = true → ∃ t, exec c s = .next t ∧
    ∀ (k : Key) (r : Row), rowAt t.pers k = some r → r.acc = .konst → t.entry k = defaultOf t.pers k

/-- For every 16 payload bytes: their codeword decodes to them as clean; with any one of its 144 bits inverted it decodes to
them as corrected; with any two distinct bits inverted it is uncorrectable; with several bits inverted inside one aligned
byte of the 18 it is uncorrectable; the word with all check bits inverted decodes to them as poisoned. (R104) -/
def Obligations.LinkCodeCorrectsEverySingleBit : Prop :=
  ∀ bs : List Byte, bs.length = 16 →
    decodeWord (encodeWord bs) = (bs, .clean) ∧
    (∀ i < 144, decodeWord (encodeWord bs ^^^ BitVec.ofNat 144 (2 ^ i)) = (bs, .corrected)) ∧
    (∀ i < 144, ∀ j < 144, i ≠ j →
      (decodeWord (encodeWord bs ^^^ BitVec.ofNat 144 (2 ^ i) ^^^ BitVec.ofNat 144 (2 ^ j))).2 = .uncorrectable) ∧
    (∀ b < 18, ∀ x : Nat, 0 < x → x < 256 → (∀ j < 8, x ≠ 2 ^ j) →
      (decodeWord (encodeWord bs ^^^ BitVec.ofNat 144 (x * 2 ^ (8 * b)))).2 = .uncorrectable) ∧
    decodeWord (poisonWord bs) = (bs, .poisoned)

/-- For every well-formed cell, reading a cell from the 16 header bytes of R108 followed by its 240 body bytes gives the cell,
with every field at every value. For every service entry whose fields lie inside their widths and whose value has 8 bytes,
reading an entry from its 16 bytes gives the entry. For every sixteen blocks and every state of a direction: its lanes
carry 292 PAM4 symbols each on four lanes, and reading the blocks from the symbols and descrambling them in the same state
gives the sixteen blocks with every bit. For every run of blocks with 64-bit payloads and every content of the scrambler:
the blocks read from the words that leave, with the same content before them, are the blocks. (R98, R105, R106, R108,
R125, R333, R334) -/
def Obligations.WireFormatsReadBack : Prop :=
  (
  ∀ c : Cell, c.wf = true → cellOf (headerBytes c ++ c.body) = c) ∧
  (
  ∀ e : ServiceEntry, e.target < 2 ^ 16 → e.key < 2 ^ 24 → e.op < 2 ^ 8 → e.status < 2 ^ 8 → e.label < 2 ^ 8 →
    e.value.length = 8 → (serviceBytes e).length = 16 ∧ serviceEntry (serviceBytes e) = e) ∧
  (
  ∀ (d : Line) (blocks : List Block), blocks.length = 16 →
    (d.lanes blocks).length = 4 ∧ (∀ l ∈ d.lanes blocks, l.length = 292) ∧
    d.scramble (slotBlocks (d.lanes blocks)) = blocks) ∧
  (
  ∀ (line : Nat) (bs : List LaneBlock), (∀ b ∈ bs, b.payload < 2 ^ 64) → laneBlocks line (laneWords line bs) = bs)

/-- The IDCODE is 0xB618_04D7. Under EXTEST the LAMP_EN ball is low and every CR output carries no current; without it the
ball follows LAMP_EN, and the outputs carry their currents unless they are clamped. That no command enters EXTEST is the
model's (log 105). (R350, R514) -/
def Obligations.BoundaryCellsHoldTheLamps : Prop :=
  idcode = 0xB61804D7 ∧ ∀ s : State,
    (s.hid.extest = true → s.lampBall = false ∧ ∀ i ∈ s.crOutputs, i = 0) ∧
    (s.hid.extest = false → s.lampBall = s.hid.lampEn ∧ (s.hid.clamped = false → s.crOutputs = s.hid.scan.refs))

/-- Where CORE runs and the mode serves an entry: READ of one that is neither WO nor a DOMAIN answers OK with the value in its
type's bytes, READ of subindex 00 the highest subindex, READ of a DOMAIN its content size as a U32; the state is otherwise
as before. The slots of the window of BAR0 and the last slot of the Almanac window are the exceptions that move a window
on: the latter adds 64 to 1401h.01, modulo 524288 (R492). READ_STAGED of an RWS entry with a staged value answers OK with
that value and changes nothing; with none it answers NOT_STAGED with the value in effect and changes nothing but the
Almanac; of any entry that is not RWS it does exactly what READ does. (R34, R37, R40, R41, R492) -/
def Obligations.ReadsAnswer : Prop :=
  (
  (∀ (s : State) (d : Door) (k : Key) (r : Row), s.hears d = true → s.served k = true → s.row k = some r →
    r.acc ≠ .wo → r.ty ≠ .domain → k ≠ keyOf 0x1401 9 →
    ¬(s.isSender = true ∧ k / 256 = 0x1050 ∧ 0x10 ≤ k % 256 ∧ k % 256 ≤ 0x17) →
    exec (.read d k) s = .next { s with outputs := s.outputs ++ [.answer d Status.ok (bytesLE r.ty.size (s.value k))] }) ∧
  (∀ (s : State) (d : Door) (i : Nat), s.hears d = true → s.served (i * 256) = true → (rowsOf s.pers i).isSome = true →
    exec (.read d (i * 256)) s =
      .next { s with outputs := s.outputs ++ [.answer d Status.ok (bytesLE 1 (highestSub s.pers i))] }) ∧
  (∀ (s : State) (d : Door) (k : Key) (r : Row), s.hears d = true → s.served k = true → s.row k = some r →
    r.acc ≠ .wo → r.ty = .domain →
    exec (.read d k) s = .next { s with outputs := s.outputs ++ [.answer d Status.ok (bytesLE 4 (s.domainSize k))] }) ∧
  (∀ (s : State) (d : Door), s.sound = true → s.servesAt d = true →
    Completes (.almanacWindowAdvance d) s fun t =>
      Answered d Status.ok (bytesLE 8 (natLE (slice s.almanacWindow 56 8))) t ∧
      t.entry (keyOf 0x1401 1) = (s.entry (keyOf 0x1401 1) + 64) % 524288 ∧ Only [keyOf 0x1401 1] s t ∧ t.hid = s.hid)) ∧
  (
  (∀ (s : State) (d : Door) (k : Key) (r : Row) (v : Nat), s.hears d = true → s.served k = true → s.row k = some r →
    r.acc = .rws → r.ty ≠ .domain → lookupKey s.hid.commit.staged k = some v →
    exec (.readStaged d k) s = .next { s with outputs := s.outputs ++ [.answer d Status.ok (bytesLE r.ty.size v)] }) ∧
  (∀ (s : State) (d : Door) (k : Key) (r : Row), s.sound = true → s.hears d = true → s.served k = true → s.row k = some r →
    r.acc = .rws → r.ty ≠ .domain → lookupKey s.hid.commit.staged k = none →
    Completes (.readStaged d k) s fun t => Answered d Status.notStaged (bytesLE r.ty.size (s.value k)) t ∧
      Only [keyOf 0x1400 8] s t ∧ SameBeside s t) ∧
  (∀ (s : State) (d : Door) (k : Key), (s.row k).map Row.acc ≠ some .rws → exec (.readStaged d k) s = exec (.read d k) s))

/-- For a value of the right length and inside the entry's range, where the entry has no behaviour of its own: WRITE and
REGISTER_WRITE of an RW entry answer OK and the entry reads that value; of an RWS entry that the staging set has room for
they put the value into the set and leave every value in effect; TG_EVENT_STATUS_CLEAR of an RW1C event entry clears the
bits written as 1 and keeps the others. No other entry changes but the door's marks, and no memory. (R12, R40, R45) -/
def Obligations.WriteSetsOrStagesValue : Prop :=
  (∀ (s : State) (d : Door) (k : Key) (r : Row) (bs : List Byte), s.sound = true → s.hears d = true → s.served k = true →
    s.row k = some r → r.acc = .rw → r.ty ≠ .domain → lengthOk r.ty bs = true → r.takes s.pers (entryValue r.ty bs) = true →
    s.command (mailboxGo 8) d k (entryValue r.ty bs) = none → ∀ c ∈ [Instr.write d k bs, Instr.registerWrite d k bs],
    Completes c s fun t => Answered d Status.ok [] t ∧ t.entry k = entryValue r.ty bs ∧ Only (k :: doorMarks) s t ∧
      SameBeside s t) ∧
  (∀ (s : State) (d : Door) (k : Key) (r : Row) (bs : List Byte), s.sound = true → s.hears d = true → s.served k = true →
    s.row k = some r → r.acc = .rws → r.ty ≠ .domain → lengthOk r.ty bs = true → r.takes s.pers (entryValue r.ty bs) = true →
    s.command (mailboxGo 8) d k (entryValue r.ty bs) = none →
    (s.hid.commit.staged.length < 1024 ∨ (lookupKey s.hid.commit.staged k).isSome = true) →
    ∀ c ∈ [Instr.write d k bs, Instr.registerWrite d k bs],
    Completes c s fun t => Answered d Status.ok [] t ∧ lookupKey t.hid.commit.staged k = some (entryValue r.ty bs) ∧
      (∀ q, q ≠ k → lookupKey t.hid.commit.staged q = lookupKey s.hid.commit.staged q) ∧ Only doorMarks s t ∧
      t.hid = { s.hid with almanac := t.hid.almanac, commit := { s.hid.commit with staged := t.hid.commit.staged } }) ∧
  (∀ (s : State) (d : Door) (k : Key) (r : Row) (ones : Nat), s.sound = true → s.servesAt d = true → s.row k = some r →
    (∃ g < 4, k = keyOf (0x4000 + g) 9 ∨ k = keyOf (0x4000 + g) 0x10) → ones < 2 ^ r.ty.width →
    Completes (.tgEventStatusClear d k ones) s fun t => Answered d Status.ok [] t ∧
      t.entry k = s.entry k - (s.entry k &&& ones) ∧ Only (k :: doorMarks) s t ∧ SameBeside s t)

/-- While CORE runs: an absent index is answered NO_OBJECT, an absent subindex of an index that exists NO_SUB, an entry that
the mode does not serve UNAVAILABLE; then a WRITE to an RO or CONST entry READ_ONLY, a READ of a WO entry WRITE_ONLY, a
WRITE of another length LENGTH, of a value outside the range RANGE, to a DOMAIN entry DOMAIN_STATE, and an RWS WRITE of a
new entry to a full staging set STAGE_FULL; a DOMAIN_READ with a count of 0 or above the door's limit LENGTH, of an entry
that is no DOMAIN or beyond its content DOMAIN_STATE, and one that the domain mover cannot reach in the mode UNAVAILABLE.
At a door that the personality lacks an access does nothing and is not answered. None of the refused accesses changes an
entry (the door's marks apart), a byte of memory, or anything beside them. (R4, R34, R41, R70, R73, R93) -/
def Obligations.FailedAccessChangesNothing : Prop :=
  (∀ (s : State) (d : Door) (k : Key) (bs : List Byte) (o n : Nat), s.sound = true → s.hears d = true →
    ∀ c ∈ [Instr.read d k, .write d k bs, .readStaged d k, .domainRead d k o n, .domainWrite d k o bs],
    ((rowsOf s.pers (k / 256)).isNone = true → Refused c d Status.noObject s) ∧
    ((rowsOf s.pers (k / 256)).isSome = true → k % 256 ≠ 0 → s.row k = none → Refused c d Status.noSub s) ∧
    ((s.row k).isSome = true → s.served k = false → Refused c d Status.unavailable s)) ∧
  (∀ (s : State) (d : Door) (k : Key) (r : Row) (bs : List Byte), s.sound = true → s.hears d = true → s.served k = true →
    s.row k = some r →
    (r.acc = .ro ∨ r.acc = .konst → Refused (.write d k bs) d Status.readOnly s) ∧
    (r.acc = .wo → Refused (.read d k) d Status.writeOnly s) ∧
    (r.acc ≠ .ro → r.acc ≠ .konst →
      (r.ty = .domain → Refused (.write d k bs) d Status.domainState s) ∧
      (r.ty ≠ .domain → lengthOk r.ty bs = false → Refused (.write d k bs) d Status.length s) ∧
      (r.ty ≠ .domain → lengthOk r.ty bs = true → r.takes s.pers (entryValue r.ty bs) = false →
        Refused (.write d k bs) d Status.range s) ∧
      (r.ty ≠ .domain → lengthOk r.ty bs = true → r.takes s.pers (entryValue r.ty bs) = true → r.acc = .rws →
        1024 ≤ s.hid.commit.staged.length → lookupKey s.hid.commit.staged k = none →
        Refused (.write d k bs) d Status.stageFull s))) ∧
  (∀ (s : State) (d : Door) (k : Key) (r : Row) (o n : Nat), s.sound = true → s.hears d = true → s.served k = true →
    s.row k = some r → s.unreadable k = false → r.acc ≠ .wo →
    (n = 0 ∨ chunkLimit d < n → Refused (.domainRead d k o n) d Status.length s) ∧
    (n ≠ 0 → n ≤ chunkLimit d → r.ty ≠ .domain ∨ s.domainSize k < o → Refused (.domainRead d k o n) d Status.domainState s)) ∧
  (∀ (s : State) (d : Door) (k : Key) (r : Row) (o n : Nat), s.sound = true → s.hears d = true → s.served k = true →
    s.row k = some r → s.unreadable k = true → Refused (.domainRead d k o n) d Status.unavailable s) ∧
  (∀ (s : State) (d : Door) (k : Key) (bs : List Byte) (o n : Nat), s.hasDoor d = false →
    ∀ c ∈ [Instr.read d k, .write d k bs, .readStaged d k, .domainRead d k o n, .domainWrite d k o bs], exec c s = .next s)

/-- A DOMAIN_READ within the limits, of plain content, answers OK with the bytes from its offset up to its count or the end of
the content and changes nothing. A DOMAIN_WRITE of an RW DOMAIN that fits leaves exactly those bytes there; of an RWS
DOMAIN it stages them and leaves memory as it is. HOST_STREAM_READ answers bytes of the selected stream and removes them
and what lies before them. (R40, R45, R70, R234) -/
def Obligations.DomainOpsMoveContent : Prop :=
  (∀ (s : State) (d : Door) (k : Key) (r : Row) (o n : Nat), s.hears d = true → s.served k = true →
    s.unreadable k = false → s.row k = some r → r.ty = .domain → r.acc ≠ .wo → k ≠ keyOf 0x2210 5 → k ≠ keyOf 0x4180 6 → k ≠ keyOf 0x1500 8 →
    1 ≤ n → n ≤ chunkLimit d → o ≤ s.domainSize k → s.frozen 0 = false →
    exec (.domainRead d k o n) s = .next { s with outputs := s.outputs ++
      [.answer d Status.ok (s.bytes (domainBase k + o) (min n (s.domainSize k - o)))] }) ∧
  (∀ (s : State) (d : Door) (k : Key) (r : Row) (o : Nat) (bs : List Byte), s.sound = true → s.hears d = true →
    s.served k = true → s.unreadable k = false → s.row k = some r → r.ty = .domain → r.acc = .rw → k ≠ keyOf 0x1500 8 →
    bs ≠ [] → bs.length ≤ chunkLimit d → o + bs.length ≤ s.domainSize k → s.frozen 0 = false →
    Completes (.domainWrite d k o bs) s fun t => Answered d Status.ok [] t ∧ t.bytes (domainBase k + o) bs.length = bs ∧
      SameMemoryBut (domainBase k + o) bs.length s t ∧ SameEntriesBut doorMarks s t ∧ SameBeside s t) ∧
  (∀ (s : State) (d : Door) (k : Key) (r : Row) (o : Nat) (bs : List Byte), s.sound = true → s.hears d = true →
    s.served k = true → s.unreadable k = false → s.row k = some r → r.ty = .domain → r.acc = .rws → k ≠ keyOf 0x1500 8 →
    bs ≠ [] → bs.length ≤ chunkLimit d → o + bs.length ≤ s.domainSize k → s.frozen 0 = false →
    (s.hid.commit.staged.length < 1024 ∨ (lookupKey s.hid.commit.staged k).isSome = true) →
    Completes (.domainWrite d k o bs) s fun t => Answered d Status.ok [] t ∧
      t.stagedBytes t.hid.commit.content (domainBase k + o) bs.length = bs ∧
      (lookupKey t.hid.commit.staged k).isSome = true ∧ Only doorMarks s t) ∧
  (∀ (s : State) (d : Door) (o n : Nat), s.sound = true → s.servesAt d = true → s.isTile = true →
    s.unreadable (keyOf 0x2210 5) = false → 1 ≤ n → n ≤ chunkLimit d → o ≤ (s.hostStream (s.reg 0x2210 1)).length → s.frozen 0 = false →
    Completes (.hostStreamRead d o n) s fun t =>
      Answered d Status.ok (slice (s.hostStream (s.reg 0x2210 1)) o n) t ∧
      t.hostStream (s.reg 0x2210 1) = (s.hostStream (s.reg 0x2210 1)).drop (o + n) ∧ Only [] s t)

/-- Where the dictionary engine serves, each counter clear answers OK, leaves its counters at 0 and changes no other entry but
the door's marks, no memory, and nothing beside them: the reset counters, those of the budgets, the doors, the time core
and its hops, heat, Equinox, updates, an Elxel port, a port test and a timing generator. After the Almanac's clear the
persisted count is 0 and the lost count at most 1, for the write itself is an event. (R71, R95, R137, R202, R325, R424,
R426, R451, R480, R497, R519) -/
def Obligations.CommonCountersClear : Prop :=
  ∀ (s : State) (d : Door), s.sound = true → s.servesAt d = true →
    Clears (.resetCounterClear d) d [keyOf 0x1100 8, keyOf 0x1100 9, keyOf 0x1103 5] s ∧
    Clears (.budgetCounterClear d) d ((List.range 11).map (fun i => keyOf 0x1643 (i + 1)) ++
      [keyOf 0x1644 0x0A, keyOf 0x1644 0x0B, keyOf 0x1644 0x0C]) s ∧
    Clears (.doorCounterClear d) d [keyOf 0x1030 5, keyOf 0x1030 6, keyOf 0x1030 8] s ∧
    Clears (.timeCounterClear d) d ([2, 3, 4, 9, 0x0A].map (keyOf 0x1302) ++
      s.ports.flatMap fun p => [keyOf (0x1310 + p) 5, keyOf (0x1310 + p) 6]) s ∧
    Clears (.thermalCounterClear d) d [keyOf 0x1204 1] s ∧
    Clears (.equinoxCounterClear d) d [keyOf 0x1600 0x0A] s ∧
    Clears (.updateCounterClear d) d [keyOf 0x1500 0x13] s ∧
    (∀ p ∈ s.ports, Clears (.portCounterClear d p) d
      ((List.range 7).map (fun i => keyOf (0x2000 + p) (8 + i)) ++ [keyOf (0x2000 + p) 0x10]) s) ∧
    (∀ p ∈ s.ports, Clears (.portTestCounterClear d p) d [keyOf (0x7010 + p) 2, keyOf (0x7010 + p) 3] s) ∧
    (∀ r < if s.isSender then 2 else 4, Clears (.tgCounterClear d r) d
      [keyOf (0x4000 + r) 0x0A, keyOf (0x4000 + r) 0x0F, keyOf (0x4000 + r) 0x12] s) ∧
    Completes (.almanacCounterClear d) s fun t => Answered d Status.ok [] t ∧ t.entry (keyOf 0x1400 0x0B) = 0 ∧
      t.entry (keyOf 0x1400 8) ≤ 1 ∧ Only (keyOf 0x1400 0x0B :: doorMarks) s t ∧ SameBeside s t

/-- On a sender whose dictionary engine serves: the clears of PTP, of the slicer, of a DisplayPort input, a flow or PCIe, of a
preview output or the preview builds, and of redundancy leave their counters at 0 and change nothing else but the door's
marks; the queue clear also leaves the cell count of every queue at 0. (R167, R204, R241, R242, R245, R280) -/
def Obligations.SenderCountersClear : Prop :=
  ∀ (s : State) (d : Door), s.sound = true → s.servesAt d = true → s.isSender = true →
    Clears (.ptpCounterClear d) d [keyOf 0x6200 0x0E, keyOf 0x6200 0x0F] s ∧
    Clears (.slicerCounterClear d) d [keyOf 0x6102 3, keyOf 0x6102 4, keyOf 0x6104 2, keyOf 0x6104 3, keyOf 0x6104 4,
      keyOf 0x6105 1, keyOf 0x6105 2] s ∧
    (∀ i < 4, Clears (.ingestCounterClear d (keyOf (0x6001 + i) 9)) d [keyOf (0x6001 + i) 6] s) ∧
    (∀ f < 16, Clears (.ingestCounterClear d (keyOf (0x6010 + f) 9)) d [keyOf (0x6010 + f) 8] s) ∧
    Clears (.ingestCounterClear d (keyOf 0x6020 5)) d [keyOf 0x6020 2, keyOf 0x6020 3, keyOf 0x6020 4] s ∧
    (∀ o < 2, Clears (.previewCounterClear d (keyOf (0x6300 + o) 0x10)) d
      [keyOf (0x6300 + o) 0x0C, keyOf (0x6300 + o) 0x0D] s) ∧
    Clears (.previewCounterClear d (keyOf 0x6302 8)) d [keyOf 0x6302 5, keyOf 0x6302 6] s ∧
    Clears (.redundancyCounterClear d) d [keyOf 0x2102 3, keyOf 0x2102 4] s ∧
    Completes (.queueCounterClear d (keyOf 0x2201 3)) s fun t => Answered d Status.ok [] t ∧ t.entry (keyOf 0x2201 2) = 0 ∧
      t.hid.ingest.queues = s.hid.ingest.queues.map (fun q => (q.1, { q.2 with cells := 0 })) ∧
      Only (keyOf 0x2201 2 :: doorMarks) s t

/-- On a tile whose dictionary engine serves: the clears of table uploads, of a layer, of lamp output, of the lanes, of lamp
diagnosis, of redundancy, and of the first substitution, first divergence and last locate records leave their entries at 0
and change nothing else but the door's marks; that of composition at 4100h.09 clears the counters of every layer. The
receive clear also forgets what was taken from each stream. The last-result clear of Equinox and the channel counter
clears hold on both personalities. (R167, R169, R241, R273, R276, R305, R363, R364, R366, R367, R393, R396) -/
def Obligations.TileCountersAndRecordsClear : Prop :=
  (∀ (s : State) (d : Door), s.sound = true → s.servesAt d = true → s.isTile = true →
    Clears (.uploadCounterClear d) d [keyOf 0x4204 1, keyOf 0x4204 2, keyOf 0x4204 3] s ∧
    Clears (.composeCounterClear d (keyOf 0x4100 9)) d
      ((List.range 8).flatMap fun x => [keyOf (0x4110 + x) 0x10, keyOf (0x4110 + x) 0x11]) s ∧
    (∀ x < 8, Clears (.composeCounterClear d (keyOf (0x4110 + x) 0x12)) d
      [keyOf (0x4110 + x) 0x10, keyOf (0x4110 + x) 0x11] s) ∧
    Clears (.lampCounterClear d (keyOf 0x5000 0x0D)) d [keyOf 0x5000 0x0C] s ∧
    Clears (.lampCounterClear d (keyOf 0x5100 3)) d ((List.range 32).map fun l => keyOf (0x5110 + l) 4) s ∧
    Clears (.lampCounterClear d (keyOf 0x5200 0x0F)) d [keyOf 0x5200 0x0B] s ∧
    Clears (.redundancyCounterClear d) d ((List.range 7).map fun i => keyOf 0x2101 (i + 1)) s ∧
    Clears (.firstSubstitutionClear d) d [keyOf 0x4100 0x0B, keyOf 0x4100 0x0C] s ∧
    Clears (.firstDivergenceClear d) d [keyOf 0x2101 8] s ∧
    Clears (.lastLocateClear d) d [keyOf 0x5200 0x0A] s ∧
    Completes (.queueCounterClear d (keyOf 0x2210 6)) s fun t => Answered d Status.ok [] t ∧ t.entry (keyOf 0x2210 4) = 0 ∧
      t.hid.compose.taken = [] ∧ Only (keyOf 0x2210 4 :: doorMarks) s t) ∧
  (∀ (s : State) (d : Door), s.sound = true → s.servesAt d = true →
    Clears (.lastResultClear d) d [keyOf 0x1600 0x0B] s ∧
    Clears (.channelCountersClear d (keyOf 0x3001 1)) d
      (s.channels.flatMap fun c => [keyOf (0x3030 + c) 2, keyOf (0x3030 + c) 3, keyOf (0x3030 + c) 4]) s ∧
    ∀ c ∈ s.channels, Clears (.channelCountersClear d (keyOf (0x3030 + c) 7)) d
      [keyOf (0x3030 + c) 2, keyOf (0x3030 + c) 3, keyOf (0x3030 + c) 4] s)

/-- IMMEDIATE and TIMED with no commit under check empty the staging set into a new commit under check, over the entries of a
pending one, with T from 1010h.02 for TIMED; 1010h.03 reads PENDING, 1010h.04 counts, and 1010h.0B reads PENDING over a
pending commit and 0x00 without one. While a commit is under check they only wait, in place of one that waited before.
CANCEL discards the pending commit, the one under check and the one that waits, keeps the staging set, and 1010h.03 reads
CANCELLED when the commit under check was not the boot commit. DISCARD empties the staging set and keeps the pending
commit. At the end of the checks of a commit that is not the boot commit, with no command waiting: a failure puts its code
into 1010h.03, its entry and profile into 1010h.05 and 1010h.06 and 0 into 1010h.07, and keeps what was pending; with
none, the commit is the pending one, due at its tick, and 1010h.0B reads SUPERSEDED if another was, and 1110h.03 too if
that was the boot commit. A command that waited is taken then. The boot commit reports in 1110h.03 and 1110h.04, and one
refused goes back into the staging set, under what has been staged since. In a mode that allows no commit the failure is
MODE; a command given in UNSET fails with LATE and names 1300h.03, and one whose T is nearer than 2P names 1010h.02.
BOOT_COMMIT in DARK with the settings read and time stepped takes the staging set as the boot commit, once, and 1110h.03
reads PENDING. Beside these, only the values that the checks report change. (R46, R47, R48, R50, R436, R527) -/
def Obligations.CommitCommandsActAndChecksEndDecides : Prop :=
  (
  ∀ (s : State) (d : Door), s.sound = true → s.servesAt d = true →
    (s.hid.commit.checking = none → ∀ q ∈ [(Instr.immediate d, false), (Instr.timed d, true)],
      Completes q.1 s fun t => Answered d Status.ok [] t ∧
        t.hid = { s.hid with almanac := t.hid.almanac, commit := { s.hid.commit with
          staged := [], content := [],
          checking := some (s.newCommit (if q.2 then some (s.reg 0x1010 2) else none) false) } } ∧
        t.entry (keyOf 0x1010 3) = Status.pending ∧ t.entry (keyOf 0x1010 4) = (s.entry (keyOf 0x1010 4) + 1) % 2 ^ 16 ∧
        t.entry (keyOf 0x1010 0x0B) = (if s.hid.commit.pend.isSome then Status.pending else 0) ∧
        Only ([keyOf 0x1010 3, keyOf 0x1010 4, keyOf 0x1010 0x0B] ++ doorMarks) s t) ∧
    (s.hid.commit.checking.isSome = true → ∀ q ∈ [(Instr.immediate d, false), (Instr.timed d, true)],
      Completes q.1 s fun t => Answered d Status.ok [] t ∧
        t.hid = { s.hid with almanac := t.hid.almanac, commit := { s.hid.commit with waiting := some q.2 } } ∧
        Only doorMarks s t) ∧
    (Completes (.cancel d) s fun t => Answered d Status.ok [] t ∧ t.hid.commit.pend = none ∧ t.hid.commit.checking = none ∧
      (s.hid.commit.checking.isSome = true → t.hid.commit.waiting = none) ∧
      t.hid.commit.staged = s.hid.commit.staged ∧ t.hid.commit.content = s.hid.commit.content ∧
      (∀ c, s.hid.commit.checking = some c → c.boot = false → t.entry (keyOf 0x1010 3) = Status.cancelled) ∧
      (∀ c, s.hid.commit.pend = some c → c.boot = false → s.hid.commit.checking = none →
        s.entry (keyOf 0x1010 0x0B) ≠ Status.pending → t.entry (keyOf 0x1010 3) = Status.cancelled) ∧
      Only ([keyOf 0x1010 3, keyOf 0x1010 0x0B, keyOf 0x1110 3] ++ doorMarks) s t) ∧
    Completes (.discard d) s fun t => Answered d Status.ok [] t ∧
      t.hid = { s.hid with almanac := t.hid.almanac, commit := { s.hid.commit with staged := [], content := [] } } ∧
      Only doorMarks s t) ∧
  (
  (∀ (s : State) (c : Commit), s.sound = true → s.up .core = true → s.hid.commit.checking = some c → c.boot = false →
    s.hid.commit.waiting = none →
    (∀ f, (s.checkCommit c false).failure = some f →
      Completes .commitChecksEnd s fun t => t.entry (keyOf 0x1010 3) = f.code % 2 ^ 8 ∧
        t.entry (keyOf 0x1010 5) = f.entry % 2 ^ 32 ∧ t.entry (keyOf 0x1010 6) = (if f.profileB then 1 else 0) ∧
        t.entry (keyOf 0x1010 7) = 0 ∧ t.hid.commit = { s.hid.commit with checking := none } ∧
        Only ((s.checkCommit c false).results.map (·.1) ++
          [keyOf 0x1010 3, keyOf 0x1010 5, keyOf 0x1010 6, keyOf 0x1010 7, keyOf 0x1400 8]) s t) ∧
    ((s.checkCommit c false).failure = none →
      Completes .commitChecksEnd s fun t =>
        t.hid.commit = { s.hid.commit with checking := none, pend := some { c with due := s.dueTick c } } ∧
        (s.hid.commit.pend.isSome = true → t.entry (keyOf 0x1010 0x0B) = Status.superseded) ∧
        (s.hid.commit.pend.any Commit.boot = true → t.entry (keyOf 0x1110 3) = Status.superseded) ∧
        Only ((s.checkCommit c false).results.map (·.1) ++ [keyOf 0x1010 0x0B] ++
          if s.hid.commit.pend.any Commit.boot then [keyOf 0x1110 3] else []) s t)) ∧
  (∀ (s : State) (c : Commit) (timed : Bool), s.sound = true → s.up .core = true → s.hid.commit.checking = some c →
    s.hid.commit.waiting = some timed →
    Completes .commitChecksEnd s fun t => t.entry (keyOf 0x1010 3) = Status.pending ∧ t.hid.commit.staged = [] ∧
      t.hid.commit.content = [] ∧ t.hid.commit.checking.isSome = true ∧ t.hid.commit.waiting = none) ∧
  (∀ (s : State) (c : Commit), commitModes.contains s.mode = false →
    (s.checkCommit c false).failure = some ⟨Status.mode, 0, false⟩) ∧
  (∀ (s : State) (c : Commit) (k : Key), commitModes.contains s.mode = true → c.late = some k →
    (s.checkCommit c false).failure = some ⟨Status.late, k, false⟩) ∧
  (∀ (s : State) (time : Option Nat), (s.newCommit time true).late = none ∧
    (s.reg 0x1300 3 = 0 → (s.newCommit time false).late = some (keyOf 0x1300 3)) ∧
    (s.reg 0x1300 3 ≠ 0 → ∀ T, s.atLeastP (lt32Diff T s.lt32) 2 = false → (s.newCommit (some T) false).late = some (keyOf 0x1010 2))) ∧
  (∀ (s : State) (c : Commit), s.sound = true → s.up .core = true → s.hid.commit.checking = some c → c.boot = true →
    s.hid.commit.waiting = none →
    (∀ f, (s.checkCommit c false).failure = some f → Completes .commitChecksEnd s fun t =>
      t.entry (keyOf 0x1110 3) = f.code % 2 ^ 8 ∧ t.entry (keyOf 0x1110 4) = f.entry % 2 ^ 32 ∧
      t.hid.commit = { s.hid.commit with
        checking := none, staged := overlayKeys c.entries s.hid.commit.staged
        content := overlayKeys c.content s.hid.commit.content } ∧
      Only ((s.checkCommit c false).results.map (·.1) ++ [keyOf 0x1110 3, keyOf 0x1110 4, keyOf 0x1400 8]) s t) ∧
    ((s.checkCommit c false).failure = none → Completes .commitChecksEnd s fun t =>
      t.hid.commit = { s.hid.commit with checking := none, pend := some { c with due := s.dueTick c } } ∧
      Only ((s.checkCommit c false).results.map (·.1) ++ [keyOf 0x1010 0x0B, keyOf 0x1110 3]) s t)) ∧
  (∀ s : State, s.sound = true → s.mode = Mode.dark → s.hid.reset.settingsRead = true → s.hid.reset.bootRan = false →
    s.hid.commit.checking = none → s.reg 0x1300 3 ∈ [2, 3, 4, 5] →
    Completes .bootCommit s fun t => t.entry (keyOf 0x1110 3) = Status.pending ∧
      t.hid = { s.hid with reset := { s.hid.reset with bootRan := true }, commit := { s.hid.commit with
        staged := [], content := [], checking := some (s.newCommit none true) } } ∧ Only [keyOf 0x1110 3] s t))

/-- COMMIT_APPLY of a due commit, with no re-epoch due before it: where the repeated checks pass, every RWS entry that the
commit names once reads its committed value cut to its width, every other RWS entry reads as before, 1010h.08 is the tick
now shown, no commit is pending, and 1010h.03 reads APPLIED (or 1010h.0B, where a later command's commit was refused over
it; 1110h.03 for the boot commit). Of memory only the committed content changes, and what lies in GDDR6, where the commit
maps its regions or kinds otherwise (R392). Where a check fails, no RWS entry changes, the code goes into 1010h.03 (or
1010h.0B) with 1 in 1010h.07, and for the boot commit into 1110h.03 with its entry in 1110h.04, and its entries are staged
again. The values that the checks report are apart. (R49, R50, R392, R436, R527) -/
def Obligations.CommitAppliesWhole : Prop :=
  ∀ (s : State) (c : Commit), s.sound = true → s.up .core = true → s.stepped = true → s.hid.commit.pend = some c →
    c.due ≤ s.tick → (∀ r, s.hid.time.reepoch = some r → s.tick < r.tick) →
    ((s.checkCommit c true).failure = none →
      Completes .commitApply s fun t =>
        (∀ (k : Key) (v : Nat) (r : Row), (k, v) ∈ c.entries → (c.entries.map (·.1)).Nodup → s.row k = some r → r.acc = .rws →
          t.entry k = v % 2 ^ r.ty.width) ∧
        (∀ (k : Key) (r : Row), k ∉ c.entries.map (·.1) → k ∉ (s.checkCommit c true).results.map (·.1) → s.row k = some r →
          r.acc = .rws → t.entry k = s.entry k) ∧
        t.pers = s.pers ∧ t.entry (keyOf 0x1010 8) = s.tick % 2 ^ 64 ∧ t.hid.commit.pend = none ∧
        (c.boot = false → keyOf 0x1010 0x0B ∉ c.entries.map (·.1) →
          keyOf 0x1010 0x0B ∉ (s.checkCommit c true).results.map (·.1) →
          t.entry (if s.entry (keyOf 0x1010 0x0B) = Status.pending then keyOf 0x1010 0x0B else keyOf 0x1010 3) =
            Status.applied) ∧
        (c.boot = true → s.hid.commit.checking = none → t.entry (keyOf 0x1110 3) = Status.applied) ∧
        SameMemoryOutside ([Space.payload.range, Space.banks.range, Space.capture.range, Space.lampMap.range,
          Space.upload.range] ++ c.content.map fun b => (b.1, b.1 + 1)) s t) ∧
    (∀ f, (s.checkCommit c true).failure = some f → c.boot = false →
      Completes .commitApply s fun t => t.entry (keyOf 0x1010 7) = 1 ∧ t.entry (keyOf 0x1010 5) = f.entry % 2 ^ 32 ∧
        t.hid.commit.pend = none ∧ t.hid.commit.staged = s.hid.commit.staged ∧
        Only ((s.checkCommit c true).results.map (·.1) ++ [keyOf 0x1010 3, keyOf 0x1010 5, keyOf 0x1010 6, keyOf 0x1010 7,
          keyOf 0x1010 0x0B, keyOf 0x1400 8]) s t) ∧
    (∀ f, (s.checkCommit c true).failure = some f → c.boot = true →
      Completes .commitApply s fun t => t.entry (keyOf 0x1110 3) = f.code % 2 ^ 8 ∧
        t.entry (keyOf 0x1110 4) = f.entry % 2 ^ 32 ∧ t.hid.commit.pend = none ∧
        t.hid.commit.staged = overlayKeys c.entries s.hid.commit.staged ∧
        Only ((s.checkCommit c true).results.map (·.1) ++ [keyOf 0x1110 3, keyOf 0x1110 4, keyOf 0x1010 0x0B, keyOf 0x1400 8]) s t)

/-- Each request is answered OK exactly from the modes of R444's table: 3 from BOOT, DARK, RUN, HOLD, DERATE, PASSTHROUGH,
BRINGUP, and from SHUTDOWN below 110 degrees; 4 and 5 from BOOT, DARK, RUN, HOLD, DERATE, BRINGUP; 10 on a tile from DARK,
RUN, HOLD, DERATE, BRINGUP, and RANGE on a sender; 11 from BOOT, DARK, RUN, HOLD, DERATE; the settings fault refuses all
but 3. A refused request changes nothing but the door's marks. An accepted one puts its code into 1001h.02; in BOOT that
is all; in DERATE, 4, 5 and 11 set the return mode 1210h.02; with a grid it waits for the first tick n whose LT(n) - P
lies after the write and ends an automatic HOLD; without one it takes effect at once, as DERATE with that return mode
while throttled. MODE_CHANGE of a request that no change to or from DERATE precedes enters the mode at its tick with cause
2 and that tick in 1001h.06 (DERATE with that return mode while throttled); of a due throttle it enters DERATE with
profile B and the mode left as the return mode, and of its end the return mode, causes 4 and 5. A tile in RUN, or in
DERATE with return mode RUN, enters HOLD with cause 10 after 3 ticks without a beacon where 1110h.01 is set; after 16
ticks with one it returns with cause 11; at the limit it enters DARK with cause 10. START_CONFIRMATION clears the Advent
counter and the watchdog count and confirms the start. Only the entries that a mode entry may change do. (R402, R406,
R444, R445, R446, R447, R470) -/
def Obligations.ModesChange : Prop :=
  (
  (∀ s : State, s.isTile = true ∨ s.isSender = true →
    (s.requestStatus 3 = Status.ok ↔ s.mode ∈ [2, 3, 4, 5, 6, 10, 11] ∨ (s.mode = 9 ∧ s.int 16 0x1200 3 < 1760)) ∧
    (∀ m ∈ [4, 5], s.requestStatus m = Status.ok ↔ s.reg 0x1001 4 ≠ FaultCode.settings ∧ s.mode ∈ [2, 3, 4, 5, 6, 11]) ∧
    (s.requestStatus 10 = Status.ok ↔ s.isTile = true ∧ s.reg 0x1001 4 ≠ FaultCode.settings ∧ s.mode ∈ [3, 4, 5, 6, 11]) ∧
    (s.requestStatus 11 = Status.ok ↔ s.reg 0x1001 4 ≠ FaultCode.settings ∧ s.mode ∈ [2, 3, 4, 5, 6]) ∧
    (s.isSender = true → s.requestStatus 10 = Status.range)) ∧
  (∀ (s : State) (d : Door), s.sound = true → s.hears d = true →
    ∀ q ∈ [(Instr.modeRequestDark d, 3), (.modeRequestRun d, 4), (.modeRequestHold d, 5), (.modeRequestPassthrough d, 10),
      (.modeRequestBringup d, 11)],
    (s.requestStatus q.2 ≠ Status.ok → Refused q.1 d (s.requestStatus q.2) s) ∧
    (s.requestStatus q.2 = Status.ok → s.mode = Mode.boot →
      Completes q.1 s fun t => Answered d Status.ok [] t ∧ t.entry (keyOf 0x1001 2) = q.2 ∧
        Only (keyOf 0x1001 2 :: doorMarks) s t ∧ SameBeside s t) ∧
    (s.requestStatus q.2 = Status.ok → s.mode = Mode.derate → q.2 ∈ [4, 5, 11] →
      Completes q.1 s fun t => Answered d Status.ok [] t ∧ t.entry (keyOf 0x1001 2) = q.2 ∧ t.entry (keyOf 0x1210 2) = q.2 ∧
        Only ([keyOf 0x1001 2, keyOf 0x1210 2] ++ doorMarks) s t ∧ SameBeside s t) ∧
    (s.requestStatus q.2 = Status.ok → s.mode ≠ Mode.boot → ¬(s.mode = Mode.derate ∧ q.2 ∈ [4, 5, 11]) → s.stepped = true →
      Completes q.1 s fun t => Answered d Status.ok [] t ∧ t.entry (keyOf 0x1001 2) = q.2 ∧
        t.hid = { s.hid with almanac := t.hid.almanac, mode := { s.hid.mode with
          request := some (q.2, s.firstTickAfter 1 s.ns), automatic := none } } ∧
        Only (keyOf 0x1001 2 :: doorMarks) s t) ∧
    (s.requestStatus q.2 = Status.ok → s.mode ≠ Mode.boot → s.stepped = false →
      (¬(s.throttled = true ∧ q.2 ∈ [4, 5, 11]) → ¬(s.mode = Mode.derate ∧ q.2 ∈ [4, 5, 11]) →
        Completes q.1 s fun t => Answered d Status.ok [] t ∧ t.entry (keyOf 0x1001 2) = q.2 ∧ t.mode = q.2 ∧
          Only (keyOf 0x1001 2 :: s.modeEntries ++ doorMarks) s t) ∧
      (s.throttled = true → q.2 ∈ [4, 5, 11] → s.mode ≠ Mode.derate →
        Completes q.1 s fun t => Answered d Status.ok [] t ∧ t.entry (keyOf 0x1001 2) = q.2 ∧ t.mode = Mode.derate ∧
          t.entry (keyOf 0x1210 2) = q.2 ∧ Only (keyOf 0x1001 2 :: s.modeEntries ++ doorMarks) s t)))) ∧
  (
  (∀ (s : State) (m n : Nat), s.sound = true → s.hid.mode.request = some (m, n) → s.throttleChange = none → s.mode ≠ m →
    ¬(s.throttled = true ∧ m ∈ [4, 5, 11]) →
    Completes .modeChange s fun t => t.mode = m % 2 ^ 8 ∧ t.entry (keyOf 0x1001 3) = Cause.request ∧
      t.entry (keyOf 0x1001 6) = n % 2 ^ 64 ∧ t.hid.mode.request = none ∧ Only s.modeEntries s t) ∧
  (∀ (s : State) (m n : Nat), s.sound = true → s.hid.mode.request = some (m, n) → s.throttleChange = none →
    s.mode ≠ Mode.derate →
    s.throttled = true → m ∈ [4, 5, 11] →
    Completes .modeChange s fun t => t.mode = Mode.derate ∧ t.entry (keyOf 0x1210 2) = m ∧
      t.entry (keyOf 0x4300 0x0B) = 1 ∧ Only s.modeEntries s t) ∧
  (∀ (s : State) (n : Nat), s.sound = true → s.throttleChange = some (true, n) →
    Completes .modeChange s fun t => t.mode = Mode.derate ∧ t.entry (keyOf 0x1210 2) = s.mode ∧
      t.hid.mode.request = s.hid.mode.request ∧
      t.entry (keyOf 0x4300 0x0B) = 1 ∧ t.entry (keyOf 0x1001 3) = Cause.throttle ∧ Only s.modeEntries s t) ∧
  (∀ (s : State) (n : Nat), s.sound = true → s.throttleChange = some (false, n) →
    Completes .modeChange s fun t => t.mode = s.entry (keyOf 0x1210 2) ∧ t.hid.mode.request = s.hid.mode.request ∧ t.entry (keyOf 0x1001 3) = Cause.throttleEnded ∧
      Only s.modeEntries s t) ∧
  (∀ s : State, s.sound = true → s.isTile = true → s.reg 0x1110 1 = 1 → 3 ≤ s.hid.mode.missed →
    s.mode = Mode.run ∨ (s.mode = Mode.derate ∧ s.reg 0x1210 2 = Mode.run) →
    Completes .automaticHold s fun t => t.mode = Mode.hold ∧ t.entry (keyOf 0x1001 3) = Cause.contentLost ∧
      t.hid.mode.automatic = some s.mode ∧ Only s.modeEntries s t) ∧
  (∀ (s : State) (m : Nat), s.sound = true → s.mode = Mode.hold → 16 ≤ s.hid.mode.seen → s.hid.mode.automatic = some m →
    m ≠ Mode.hold → ¬(s.throttled = true ∧ m ∈ [4, 5, 11]) → s.stepped = true ∨ m ≠ Mode.derate →
    Completes .automaticHoldReturn s fun t => t.mode = m % 2 ^ 8 ∧ t.entry (keyOf 0x1001 3) = Cause.contentReturned ∧
      t.hid.mode.automatic = none ∧ Only s.modeEntries s t) ∧
  (∀ s : State, s.sound = true → s.mode = Mode.hold → s.hid.mode.automatic.isSome = true → s.reg 0x1110 2 ≠ 0 →
    Completes .holdLimit s fun t => t.mode = Mode.dark ∧ t.entry (keyOf 0x1001 3) = Cause.contentLost ∧
      Only s.modeEntries s t) ∧
  (∀ s : State, s.sound = true → s.up .core = true → s.reg 0x1101 4 = 0 → s.hid.reset.settingsRead = true →
    s.reg 0x1001 4 = 0 → commitModes.contains s.mode = true →
    Completes .startConfirmation s fun t => t.entry (keyOf 0x1101 4) = 1 ∧ t.entry (keyOf 0x1101 1) = 0 ∧
      t.entry (keyOf 0x1100 5) = 0 ∧ t.mode = s.mode ∧ s.hid.time.now ≤ t.hid.time.now ∧
      SameEntriesBut ([keyOf 0x1101 1, keyOf 0x1101 4, keyOf 0x1100 5] ++ s.activityEntries) s t ∧
      SameMemoryOutside [bootSectors] s t))

/-- Where no reset of a wider scope is asserted, each source asserts its code and scope: nRESET 3, clock fail 0x0C cold;
brownout 2 cold, where a rail is below its threshold, that of VIO_B being 90 % of the level that the part has selected;
nWARM 4 warm; the watchdog 7 warm, or 8 cold where 1100h.05 held 3 or more, adding 1 there, outside VIGIL; start timeout
0x0D cold for an unconfirmed start; a RESET slot pair 0x0A cold or 0x0B warm; software warm 6 and cold 5 at a door; the
hardware trip 9 cold, which also records its source, darkens the outputs and stops the scan. During a flash pulse each but
the brownout is held, and counted once. A source of a narrower scope than the one asserted changes nothing. No other
entry, and no memory, changes. (R407, R430, R431, R432, R433, R441, R469, R504) -/
def Obligations.ResetSourcesAreAsserted : Prop :=
  (∀ s : State, s.sound = true → ∀ q ∈ [(Instr.nreset, 3, 2), (.nwarm, 4, 1), (.clockFail, 0x0C, 2)],
    (s.yields q.2.2 → Asserts q.1 q.2.1 q.2.2 [] s fun t => t.hid = { s.hid with reset := t.hid.reset }) ∧
    (¬ s.yields q.2.2 → Completes q.1 s fun t => t.hid = s.hid ∧ Only [] s t)) ∧
  (∀ (s : State) (v : Rails), s.sound = true →
    (s.railLow v = true ↔ v.vdd < 680 ∨ v.vddSer < 810 ∨ v.vddM < 1220 ∨ v.vioA < 1620 ∨
      10 * v.vioB < 9 * if s.hid.vioHigh then 3300 else 1800) ∧
    (s.railLow v = true → s.yields 2 → Asserts (.brownout v) 2 2 [] s fun t => t.hid = { s.hid with reset := t.hid.reset }) ∧
    (s.railLow v = false → exec (.brownout v) s = .next s)) ∧
  (∀ s : State, s.sound = true → s.up .core = true → s.mode ≠ Mode.vigil →
    (s.reg 0x1100 5 < 3 → s.yields 1 → Asserts .watchdogExpiry 7 1 [keyOf 0x1100 5] s fun t =>
      t.entry (keyOf 0x1100 5) = s.entry (keyOf 0x1100 5) + 1 ∧ t.hid = { s.hid with reset := t.hid.reset }) ∧
    (3 ≤ s.reg 0x1100 5 → s.yields 2 → Asserts .watchdogExpiry 8 2 [keyOf 0x1100 5] s fun t =>
      t.entry (keyOf 0x1100 5) = satAdd 8 (s.entry (keyOf 0x1100 5)) 1 ∧ t.hid = { s.hid with reset := t.hid.reset }) ∧
    (s.reg 0x1101 4 = 0 → s.yields 2 → Asserts .startTimeout 0x0D 2 [] s fun t => t.hid = { s.hid with reset := t.hid.reset })) ∧
  (∀ (s : State) (p kind : Nat), s.sound = true → (s.port p).rstReady = some kind →
    ((kind = 1 → s.yields 2 → Asserts (.linkCommandedReset p) 0x0A 2 [] s fun t => (t.port p).rstReady = none ∧
      t.hid = { s.hid with reset := t.hid.reset, ports := t.hid.ports }) ∧
    (kind = 2 → s.yields 1 → Asserts (.linkCommandedReset p) 0x0B 1 [] s fun t => (t.port p).rstReady = none ∧
      t.hid = { s.hid with reset := t.hid.reset, ports := t.hid.ports }))) ∧
  (∀ (s : State) (d : Door), s.sound = true → s.hears d = true →
    ∀ q ∈ [(Instr.softwareWarm d, 6, 1), (.softwareCold d, 5, 2)], s.served (keyOf 0x1100 3) = true → s.yields q.2.2 →
    Asserts q.1 q.2.1 q.2.2 doorMarks s fun t => Answered d Status.ok [] t ∧
      t.hid = { s.hid with reset := t.hid.reset, almanac := t.hid.almanac }) ∧
  (∀ (s : State) (source : Nat), s.sound = true → s.yields 2 →
    (source < 12 ∧ field (s.reg 0x1203 2) (2 * source + 1) (2 * source) ≠ 1) ∨ (16 ≤ source ∧ source < 20) →
    Completes (.hardwareTrip source) s fun t => t.entry (keyOf 0x1205 1) = source ∧ t.hid.lampEn = false ∧
      t.hid.clamped = true ∧ t.hid.scan.running = false ∧ t.hid.reset.tripped = true ∧ t.hid.reset.request = some 9 ∧
      t.hid.reset.scope = 2 ∧ t.hid.reset.held = s.flashBusy ∧
      Only ([keyOf 0x1205 1, keyOf 0x1100 8, keyOf 0x5000 1] ++ laneEntries) s t)

/-- POR, and a cold reset performed at its row or when its hold ends, sample the strap, drop all memory but the flash, take
every entry to its default, and start in BOOT; the cause code goes to 1100h.01. POR reloads the Advent counter from its
mirror; a cold reset keeps what AON holds and adds 1 to 1100h.02. With an invalid strap the part enters VIGIL with reset
cause 0x0E. The outputs are dark, XSPI_RESET_N is driven low, and nothing is staged or pending. POR selects the level of
VIO_B (from which voltage on it selects 3.3 V is the model's, log 104), and a cold reset keeps it. (A tile's dictionary
for an invalid strap: log 12.) A warm reset performed at its row, or when its hold ends, holds CORE and PIPE and no other
domain, reads BOOT (VIGIL stays VIGIL) with the warm cause and its code in 1100h.01, adds 1 to 1100h.02, and keeps the
personality, every RWS entry, the scan path, the ports and the queue contexts. The staging set and the pending commit are
gone, the fences and open transfers of PIPE too. The mode interrupted is kept for its return; FREEZE returns as DARK. (R2,
R3, R93, R429, R430, R431, R438, R439, R446, R447, R502, R504) -/
def Obligations.ResetsStartOverOrKeepTheShow : Prop :=
  (
  (∀ (s : State) (p : Personality) (vioB : Nat), s.sound = true → (p = .sender ∧ s.strap = 0b10) ∨ (p = .tile ∧ s.strap = 0b01) →
    Completes (.por vioB) s (fun t => t.pers = p ∧ t.mode = Mode.boot ∧ t.entry (keyOf 0x1001 3) = Cause.start ∧
      t.entry (keyOf 0x1100 1) = 1 ∧ t.entry (keyOf 0x1000 5) = s.strap.toNat ∧
      t.entry (keyOf 0x1101 1) = s.adventMirror % 2 ^ 8 ∧
      (∀ k, k ∉ [keyOf 0x1001 1, keyOf 0x1001 3, keyOf 0x1100 1, keyOf 0x1000 5, keyOf 0x1101 1] →
        t.entry k = defaultOf p k) ∧
      t.hid.reset = ResetState.initial ∧ t.hid.commit = CommitState.initial ∧ t.hid.lampEn = false ∧
      t.hid.flashReset = true ∧ t.hid.vioHigh = decide (2500 < vioB) ∧ .pin 502 0 false ∈ t.outputs.drop s.outputs.length ∧
      (∀ a, Space.flash.at 0 ≤ a → a < Space.banks.at 0 → t.byte a = s.byte a) ∧
      (∀ a, a < Space.flash.at 0 ∨ (Space.banks.at 0 ≤ a ∧ a < 13 * 2 ^ 56) → t.byte a = memDefault a)) ∧
    ∀ code, s.hid.reset.request = some code → code < 2 ^ 8 → 2 ≤ s.hid.reset.scope →
      ∀ c ∈ [(Instr.coldReset, false), (.resetHeldRelease, true)], s.hid.reset.held = c.2 →
      Completes c.1 s fun t => t.pers = p ∧ t.mode = Mode.boot ∧ t.entry (keyOf 0x1001 3) = Cause.start ∧
        t.entry (keyOf 0x1100 1) = code ∧ t.entry (keyOf 0x1000 5) = s.strap.toNat ∧
        (s.pers = p → t.entry (keyOf 0x1100 2) = satAdd 32 (s.entry (keyOf 0x1100 2)) 1 ∧
          ∀ k ∈ keptEntries, k ∉ [keyOf 0x1100 2, keyOf 0x1200 4] → t.entry k = s.entry k) ∧
        (∀ k, k ∉ keptEntries → k ∉ [keyOf 0x1001 1, keyOf 0x1001 3, keyOf 0x1100 1, keyOf 0x1000 5] →
          t.entry k = defaultOf p k) ∧
        t.hid.reset = { ResetState.initial with tripped := s.hid.reset.tripped } ∧ t.hid.commit = CommitState.initial ∧
        t.hid.lampEn = false ∧ t.hid.flashReset = true ∧ t.hid.vioHigh = s.hid.vioHigh ∧
        .pin 502 0 false ∈ t.outputs.drop s.outputs.length ∧
        (∀ a, Space.flash.at 0 ≤ a → a < Space.banks.at 0 → t.byte a = s.byte a) ∧
        (∀ a, a < Space.flash.at 0 ∨ (Space.banks.at 0 ≤ a ∧ a < 13 * 2 ^ 56) → t.byte a = memDefault a)) ∧
  (∀ (s : State) (vioB : Nat), s.sound = true → s.strap = 0b00 ∨ s.strap = 0b11 →
    Completes (.por vioB) s (fun t => t.mode = Mode.vigil ∧ t.entry (keyOf 0x1001 3) = Cause.invalidStrap ∧
      t.entry (keyOf 0x1100 1) = 0x0E ∧ t.entry (keyOf 0x1000 5) = s.strap.toNat) ∧
    ∀ code, s.hid.reset.request = some code → 2 ≤ s.hid.reset.scope → s.hid.reset.held = false →
      Completes .coldReset s fun t => t.mode = Mode.vigil ∧ t.entry (keyOf 0x1001 3) = Cause.invalidStrap ∧
        t.entry (keyOf 0x1100 1) = 0x0E ∧ t.entry (keyOf 0x1000 5) = s.strap.toNat)) ∧
  (
  ∀ (s : State) (code : Nat), s.sound = true → s.hid.reset.request = some code → code < 2 ^ 8 → s.hid.reset.scope = 1 →
    ∀ c ∈ [(Instr.warmReset, false), (.resetHeldRelease, true)], s.hid.reset.held = c.2 → s.hid.reset.coreHeld = false →
    Completes c.1 s fun t => t.pers = s.pers ∧ t.mode = (if s.mode = Mode.vigil then Mode.vigil else Mode.boot) ∧
      t.entry (keyOf 0x1001 3) = Cause.warm ∧ t.entry (keyOf 0x1100 1) = code ∧
      t.entry (keyOf 0x1100 2) = satAdd 32 (s.entry (keyOf 0x1100 2)) 1 ∧
      t.up .core = false ∧ t.up .pipe = false ∧
      (∀ d ∈ [Dom.aon, Dom.mem, Dom.link, Dom.scan], t.up d = s.up d) ∧
      (∀ k row, rowAt s.pers k = some row → row.acc = .rws → t.entry k = s.entry k) ∧
      (∀ k ∈ keptEntries, k ∉ [keyOf 0x1100 2, keyOf 0x1200 4] → t.entry k = s.entry k) ∧
      t.hid.reset.request = none ∧ t.hid.reset.coreHeld = true ∧
      (s.mode ≠ Mode.boot → t.hid.reset.interrupted = if s.mode = Mode.freeze then Mode.dark else s.mode) ∧
      t.hid.commit.staged = [] ∧ t.hid.commit.pend = none ∧ t.hid.commit.checking = none ∧
      t.hid.scan = s.hid.scan ∧
      t.hid.ingest.queues = s.hid.ingest.queues ∧ t.hid.budget = BudgetState.initial ∧ t.hid.ports = s.hid.ports)

/-- With no reset asserted and no trip, every DOMAIN_RELEASE first lets XSPI_RESET_N go high where it is low. MEM with its PLL
not failed is released and its training starts (3000h.03 and each channel 1); LINK is released with the core and SerDes
PLLs; the time core runs, on a sender in ACQUIRE where it read UNSET and in HOLDOVER where it had stepped as timing
master, and where an image waits for MEM that is chosen first; SCAN is released, with the lanes of 5000h.0A reading idle
on a tile; PIPE is released and, without a grid, the interrupted mode returns at once, as DERATE while throttled. In VIGIL
MEM, SCAN and PIPE stay held. A clock that is not good sets 1100h.07 bit 7 and adds 1 to 1100h.09; a memory or SerDes
clock leads to FAULTDARK with its code. A retry of the core PLL asks for its release again. No other entry and no memory
changes. (R180, R434, R435, R439, R446, R502) -/
def Obligations.DomainsAreReleasedInOrder : Prop :=
  (∀ s : State, s.sound = true → s.hid.reset.request = none → s.hid.reset.tripped = false →
    let high := { s.hid with flashReset := false }
    (∀ d, s.hid.flashReset = true → Completes (.domainRelease d) s fun t =>
      t.outputs[s.outputs.length]? = some (.pin 502 0 true)) ∧
    (s.mode = Mode.vigil → ∀ d ∈ [Domain.mem, .scan, .pipe], Completes (.domainRelease d) s fun t =>
      t.hid = high ∧ Only [] s t) ∧
    (s.up .link = false → s.pllFailed 0 = false → s.pllFailed 2 = false →
      Completes (.domainRelease .link) s fun t => t.up .link = true ∧ bitAt (t.entry (keyOf 0x1100 7)) 0 = true ∧
        bitAt (t.entry (keyOf 0x1100 7)) 2 = true ∧ t.hid = high ∧ Only [keyOf 0x1100 6, keyOf 0x1100 7] s t) ∧
    (s.up .core = true → s.hid.time.held = true → s.hid.reset.imagePending = false →
      (s.isTile = true → Completes (.domainRelease .time) s fun t =>
        t.hid = { high with time := { s.hid.time with held := false } } ∧ Only [] s t) ∧
      (s.isSender = true → Completes (.domainRelease .time) s fun t => t.hid.time.held = false ∧
        t.entry (keyOf 0x1300 3) = (if s.reg 0x1300 3 = 0 then 1
          else if s.timingMaster ∧ s.stepped ∧ s.reg 0x1300 3 ∈ [2, 3, 4] then 3 else s.reg 0x1300 3) ∧
        (∀ d < 4, s.hid.ingest.hpd.length = 4 → t.hid.ingest.hpd.getD d false = s.hpdWanted d) ∧
        Only ([keyOf 0x1300 3, keyOf 0x1320 7, keyOf 0x1400 8] ++ [5, 6, 7, 8, 0x0B, 0x0C].map (keyOf 0x6200) ++
          (List.range 4).map fun d => keyOf (0x6001 + d) 3) s t)) ∧
    (s.up .core = true → s.hid.time.held = true → s.hid.reset.imagePending = true →
      (s.reg 0x3000 3 ∉ [2, 5] → s.pllFailed 1 = false → Completes (.domainRelease .time) s fun t =>
        t.hid = high ∧ Only [] s t) ∧
      (s.reg 0x3000 3 ∈ [2, 5] ∨ s.pllFailed 1 = true → Completes (.domainRelease .time) s fun t =>
        t.hid.time.held = false ∧ t.hid.reset.imagePending = false ∧
        SameMemoryOutside [bootSectors, Space.firmware.range] s t)) ∧
    (s.mode ≠ Mode.vigil →
      (s.up .mem = false → s.pllFailed 1 = false → Completes (.domainRelease .mem) s fun t => t.up .mem = true ∧
        bitAt (t.entry (keyOf 0x1100 7)) 1 = true ∧ t.entry (keyOf 0x3000 3) = 1 ∧
        (∀ c ∈ s.channels, field (t.entry (keyOf (0x3030 + c) 1)) 2 0 = 1) ∧ t.hid = high ∧
        Only ([keyOf 0x1100 6, keyOf 0x1100 7, keyOf 0x3000 3] ++ s.channels.map fun c => keyOf (0x3030 + c) 1) s t) ∧
      (s.up .core = true → s.up .scan = false → s.hid.time.held = false → s.hid.reset.warmStart = false →
        Completes (.domainRelease .scan) s fun t => t.up .scan = true ∧
          (s.isTile = true → field (t.entry (keyOf 0x5000 0x0A)) 3 0 = 15) ∧ t.hid = high ∧
          Only ([keyOf 0x1100 6] ++ if s.isTile then [keyOf 0x5000 0x0A] else []) s t) ∧
      (s.up .core = true → s.up .pipe = false → s.hid.time.held = false → s.up .scan = true ∨ s.hid.reset.warmStart = true →
        (s.stepped = true → Completes (.domainRelease .pipe) s fun t => t.up .pipe = true ∧ t.mode = s.mode ∧
          t.hid = { high with compose := { s.hid.compose with
            firstAfter := some (s.tickFrom ((s.ns : Int) + ((2 * s.period).ceil : Int))) } } ∧ Only [keyOf 0x1100 6] s t) ∧
        (s.stepped = false → s.hid.reset.warmStart = false → Completes (.domainRelease .pipe) s fun t =>
          t.up .pipe = true ∧ t.hid = { high with compose := { s.hid.compose with firstAfter := none } } ∧
          Only [keyOf 0x1100 6] s t) ∧
        (s.stepped = false → s.hid.reset.warmStart = true → s.mode = Mode.boot →
          ∀ m ∈ [3, 4, 5, 8, 9, 10, 11], s.hid.reset.interrupted = m →
          let derates := s.throttled = true ∧ m ∈ [4, 5, 11]
          Completes (.domainRelease .pipe) s fun t => t.mode = (if derates then Mode.derate else m) ∧
            t.entry (keyOf 0x1001 3) = (if derates then Cause.throttle else Cause.warm) ∧
            t.hid.reset.warmStart = false ∧ Only s.modeEntries s t)))) ∧
  (∀ s : State, s.sound = true → s.hid.reset.request = none → s.hid.reset.tripped = false → s.hid.reset.coreHeld = false →
    (s.up .core = false → s.pllFailed 0 = false → Completes (.clockNotGood .core) s fun t =>
      bitAt (t.entry (keyOf 0x1100 7)) 7 = true ∧ t.entry (keyOf 0x1100 9) = satAdd 32 (s.entry (keyOf 0x1100 9)) 1 ∧
      t.hid = { s.hid with flashReset := false, reset := { s.hid.reset with failed := 0 :: s.hid.reset.failed } } ∧
      Only [keyOf 0x1100 7, keyOf 0x1100 9] s t) ∧
    (s.mode ≠ Mode.vigil → ∀ q ∈ [(Pll.mem, Dom.mem, 1, 0x0101), (.serdes, .link, 2, 0x0102)],
      s.up q.2.1 = false → s.pllFailed q.2.2.1 = false → Completes (.clockNotGood q.1) s fun t =>
        t.mode = Mode.faultdark ∧ t.entry (keyOf 0x1001 4) = q.2.2.2 ∧ t.entry (keyOf 0x1001 3) = Cause.fault ∧
        bitAt (t.entry (keyOf 0x1100 7)) 7 = true ∧ t.entry (keyOf 0x1100 9) = satAdd 32 (s.entry (keyOf 0x1100 9)) 1 ∧
        t.pllFailed q.2.2.1 = true ∧ Only ([keyOf 0x1100 7, keyOf 0x1100 9] ++ s.modeEntries) s t)) ∧
  (∀ s : State, s.sound = true → s.pllFailed 0 = true → Completes .corePllRetry s fun t =>
    (∀ k, t.pllFailed k = false) ∧ t.hid = { s.hid with reset := { s.hid.reset with failed := [] } } ∧
    Only [] s t)

/-- CORE release with no reset asserted and no trip sets CORE released. In VIGIL nothing else changes but the start's own
record. Outside it, an Advent counter of 4 or more enters VIGIL with cause ADVENT_LIMIT and fault 0x0501; a lower one is
raised by 1, and of memory only the pointer and mirror sectors, the running image and the Almanac may change; a release
after a warm reset keeps the running image. ADVENT_CLEAR at a door writes 0 to the counter and changes memory only in the
mirror's sector. (R433, R435, R441, R442, R446, R447, R468) -/
def Obligations.EveryStartIsCounted : Prop :=
  (∀ s : State, s.sound = true → s.hid.reset.request = none → s.hid.reset.tripped = false → s.up .core = false →
    s.pllFailed 0 = false →
    (s.mode = Mode.vigil → Completes (.domainRelease .core) s fun t => t.up .core = true ∧ t.mode = Mode.vigil ∧
      t.hid = { s.hid with
        flashReset := false, reset := { s.hid.reset with coreHeld := false, confirmFrom := s.uptime } } ∧
      Only [keyOf 0x1100 6, keyOf 0x1100 7] s t) ∧
    (s.mode ≠ Mode.vigil → 4 ≤ s.reg 0x1101 1 → Completes (.domainRelease .core) s fun t => t.up .core = true ∧
      t.mode = Mode.vigil ∧ t.entry (keyOf 0x1001 3) = Cause.adventLimit ∧ t.entry (keyOf 0x1001 4) = 0x0501 ∧
      t.entry (keyOf 0x1101 1) = s.entry (keyOf 0x1101 1) ∧ t.hid.lampEn = false ∧
      Only ([keyOf 0x1100 6, keyOf 0x1100 7, keyOf 0x1101 4] ++ s.modeEntries) s t) ∧
    (s.mode ≠ Mode.vigil → s.reg 0x1101 1 < 4 → Completes (.domainRelease .core) s fun t => t.up .core = true ∧
      t.entry (keyOf 0x1101 1) = s.entry (keyOf 0x1101 1) + 1 ∧ t.hid.reset.coreHeld = false ∧
      t.hid.reset.confirmFrom = s.uptime ∧
      (s.hid.reset.coreHeld = true → t.entry (keyOf 0x1000 8) = s.entry (keyOf 0x1000 8) ∧
        t.entry (keyOf 0x1000 9) = s.entry (keyOf 0x1000 9)) ∧
      SameEntriesBut ([keyOf 0x1100 7, keyOf 0x1101 1, keyOf 0x1101 4, keyOf 0x1000 8, keyOf 0x1000 9, keyOf 0x1400 7,
        keyOf 0x1400 8, keyOf 0x1400 9, keyOf 0x1500 2, keyOf 0x1500 3, keyOf 0x1500 5, keyOf 0x1500 0x0E,
        keyOf 0x1500 0x11, keyOf 0x1600 6, keyOf 0x1600 7, keyOf 0x1600 0x0B, keyOf 0x1620 1, keyOf 0x1620 2,
        keyOf 0x1620 3] ++ s.modeEntries) s t ∧
      SameMemoryOutside [bootSectors, Space.firmware.range, Space.almanac.range] s t)) ∧
  (∀ (s : State) (d : Door), s.sound = true → s.hears d = true → s.served (keyOf 0x1101 2) = true →
    Completes (.adventClear d) s fun t => Answered d Status.ok [] t ∧ t.entry (keyOf 0x1101 1) = 0 ∧
      SameEntriesBut (keyOf 0x1101 1 :: doorMarks) s t ∧ SameMemoryOutside [flashRange 0x30000 0x10000] s t ∧
      SameBeside s t)

/-- In BOOT after a cold start, with PIPE released and MEM READY, MEM_READY enters DARK with the boot-step cause, and the pin
rate in effect is that of 3000h.02. Of the settings slot in use the last record of an entry that may be loaded gives an RW
entry its value at once, and stages an RWS entry; with no slot readable and the store not erased 1001h.04 reads
SETTINGS_UNREADABLE. Beside the RW entries of the settings no other entry changes but those of the mode entry, of skipped
records, of the calibration set, and on a tile of its tables and lamp map. Without a slot memory changes only in the
content of 1610h and 1220h and in a tile's lamp map, and on a sender nothing is staged. (R35, R436, R446, R473, R475) -/
def Obligations.StartReadsTheSettings : Prop :=
  ∀ s : State, s.sound = true → s.mode = Mode.boot → s.up .pipe = true → s.hid.reset.warmStart = false →
    s.hid.reset.settingsRead = false → s.reg 0x3000 3 = 2 →
    let marks := [keyOf 0x1500 0x13, keyOf 0x1600 8, keyOf 0x1600 9, keyOf 0x4201 3, keyOf 0x5200 6, keyOf 0x5200 7,
      keyOf 0x5200 0x0D] ++ s.modeEntries
    Completes .memReady s fun t => t.mode = Mode.dark ∧ t.entry (keyOf 0x1001 3) = Cause.bootStep ∧
      t.hid.reset.settingsRead = true ∧ t.hid.memory.rate = t.entry (keyOf 0x3000 2) ∧
      (s.settingsSlot = none →
        t.entry (keyOf 0x1001 4) = (if s.settingsErased then s.entry (keyOf 0x1001 4) else 0x0150) ∧
        t.hid.commit = s.hid.commit ∧ SameEntriesBut marks s t ∧
        SameMemoryOutside [(domainBase (keyOf 0x1610 1), domainBase (keyOf 0x1610 1) + 1120),
          (domainBase (keyOf 0x1220 1), domainBase (keyOf 0x1220 1) + 36), Space.lampMap.range] s t) ∧
      (∀ slot k r row, s.settingsSlot = some slot →
        ((s.settingsIn slot).filter fun q => keyOf q.index q.sub == k && (s.loads q).isSome).getLast? = some r →
        s.loads r = some row → row.ty ≠ .domain →
        (row.acc = .rw → k ∉ marks → t.entry k = natLE r.value) ∧
        (row.acc = .rws → s.isSender = true ∨ k ∉ [keyOf 0x4201 1, keyOf 0x4201 2] →
          lookupKey t.hid.commit.staged k = some (natLE r.value))) ∧
      (∀ k, (∀ row, rowAt s.pers k = some row → savedRow k row = true → row.acc ≠ .rw) → k ∉ marks → t.entry k = s.entry k)

/-- BUDGET_RELEASE asks for the release of those masters of its mask that are frozen, and changes nothing else but the door's
marks. At the next tick boundary a frozen master that was asked for is released and its bit in 1644h.05 cleared; one that
is held stays frozen; of the others, one that has overrun in as many consecutive ticks as 1644h.04 sets is held in
1644h.05 and stays frozen, and else it is released exactly when its bit in 1644h.03 is 1. A master that is not frozen
stays so. Both charges of every master restart from zero, and a tick without an overrun sets the count of consecutive
overruns to 0. (R91) -/
def Obligations.FrozenMastersAreReleased : Prop :=
  (∀ (s : State) (d : Door) (mask : Nat), s.sound = true → s.hears d = true → s.served (keyOf 0x1644 2) = true →
    mask < 2 ^ 16 → Acts (.budgetRelease d mask) d Status.ok [] s fun t =>
      t.hid = { s.hid with almanac := t.hid.almanac, budget := { s.hid.budget with
        release := s.hid.budget.release ||| (mask &&& s.reg 0x1644 1) } } ∧
      ∀ m, bitAt mask m = true → s.frozen m = true → bitAt t.hid.budget.release m = true) ∧
  (∀ (s : State) (m : Nat), s.sound = true → s.up .link = true → s.up .core = true → s.stepped = true → m ∈ s.masters →
    s.shaped = true →
    let b := s.hid.budget
    let streak := if bitAt b.overran m then b.streak.getD m 0 + 1 else 0
    Completes .tickBoundary s fun t =>
      t.hid.budget.bytes.getD m 0 = 0 ∧ t.hid.budget.cycles.getD m 0 = 0 ∧ t.hid.budget.streak.getD m 0 = streak ∧
      (s.frozen m = false → t.frozen m = false) ∧
      (s.frozen m = true → bitAt b.release m = true → t.frozen m = false ∧ t.flag 0x1644 5 m = false) ∧
      (s.frozen m = true → bitAt b.release m = false → s.flag 0x1644 5 m = true →
        t.frozen m = true ∧ t.flag 0x1644 5 m = true) ∧
      (s.frozen m = true → bitAt b.release m = false → s.flag 0x1644 5 m = false →
        (s.reg 0x1644 4 ≤ streak → t.frozen m = true ∧ t.flag 0x1644 5 m = true) ∧
        (streak < s.reg 0x1644 4 → t.flag 0x1644 5 m = false ∧ t.frozen m = !s.flag 0x1644 3 m)))

/-- TICK_BOUNDARY with a grid moves 1001h.05 on by 1 and local time to LT of it, keeps the counts of the tick that ended and
starts them at 0; on a tile with no calibration run and no session it leaves memory alone. A shared point grants a request
of the first class that waits, of a frozen master only one that was issued before; the grant turns the order, and charges
a budgeted master its cycles, and on a channel its bytes, freezing it and counting one overrun where that takes it above
its budget. A grant on a channel that is ready opens the row of the atom; of memory only the command history changes, and
with no request that can be granted, or on a channel that is not ready, nothing does. TOKEN_GRANT gives a free token to
the first activity that can start, and nothing else takes place. (R75, R77, R78, R83, R89, R92, R378, R389, R421, R445,
R486) -/
def Obligations.TicksGrantsAndTokens : Prop :=
  (∀ s : State, s.sound = true → s.up .link = true → s.stepped = true → Completes .tickBoundary s fun t =>
    t.tick = (s.tick + 1) % 2 ^ 64 ∧ s.hid.time.now ≤ t.hid.time.now ∧
    ((s.at (s.tick + 1)).toNat * unitsPerNs ≤ t.hid.time.now) ∧
    (s.isTile = true → s.hid.heat.run = none → s.session = 0 → t.hid.counts = TickCounts.initial ∧
      t.hid.doors = s.hid.doors ∧ t.hid.update = s.hid.update ∧ t.hid.scan = s.hid.scan ∧
      Only ([keyOf 0x1001 5, keyOf 0x1400 8, keyOf 0x1620 4, keyOf 0x1644 1, keyOf 0x1644 5, keyOf 0x2101 6] ++
        s.modeEntries) s t)) ∧
  (∀ (s : State) (point : SharedPoint) (waiting : List BusRequest) (r : BusRequest),
    s.chooseGrant point waiting = some r → r ∈ waiting ∧
    (∀ m, r.master = .budgeted m → s.charging = true ∧ (s.frozen m = false ∨ (r.issued = true ∧
      s.hid.budget.flight.getD m 0 ≠ 0))) ∧
    ∀ q ∈ waiting, masterClass q.master < masterClass r.master →
      ∃ m, q.master = .budgeted m ∧ (s.frozen m = true ∨ s.charging = false)) ∧
  (∀ (s : State) (point : SharedPoint) (waiting : List BusRequest),
    s.chooseGrant point waiting = none ∨ ((∃ c, point = .channel c) ∧ s.granting = false) →
    exec (.arbiterGrant point waiting) s = .next s) ∧
  (∀ (s : State) (point : SharedPoint) (waiting : List BusRequest) (r : BusRequest), s.sound = true → s.shaped = true →
    ((∀ c, point ≠ .channel c) ∨ s.granting = true) → s.chooseGrant point waiting = some r →
    let onChannel := match point with | .channel _ => true | _ => false
    let channels := (List.range 36).flatMap fun c => [keyOf (0x3030 + c) 1, keyOf (0x3030 + c) 4]
    let rows := if onChannel then keyOf 0x1400 8 :: channels else []
    Completes (.arbiterGrant point waiting) s fun t =>
      lookupKey t.hid.budget.turn (8 * pointNumber point + masterClass r.master) = some (masterRequester r.master) ∧
      t.hid.ports = s.hid.ports ∧ SameMemoryOutside [historyRange] s t ∧ (onChannel = false → SameMemory s t) ∧
      ((∀ m, r.master ≠ .budgeted m) → SameEntriesBut rows s t ∧ t.hid.budget = { s.hid.budget with turn := t.hid.budget.turn }) ∧
      (onChannel = true → r.bytes ≠ 0 → r.address % 32 + r.bytes ≤ 32 →
        ∀ p, s.placeOf (r.address / 32 * 32) (masterRequester r.master) = some p →
        (t.openRow p.channel p.bank).map OpenRow.row = some p.row) ∧
      (∀ m, r.master = .budgeted m → m ∈ s.masters →
        let bytes := s.charged m (if onChannel then r.bytes else 0)
        let cycles := s.hid.budget.cycles.getD m 0 + min 32 r.cycles
        let exceeds := s.hid.budget.limits.getD m 0 < bytes ∨ field (s.reg 0x1642 (m + 1)) 63 32 < cycles
        t.hid.budget.bytes.getD m 0 = bytes ∧ t.hid.budget.cycles.getD m 0 = cycles ∧
        (exceeds ∧ s.hid.budget.compute = false ∧ bitAt s.hid.budget.overran m = false →
          t.frozen m = true ∧ t.entry (keyOf 0x1643 (m + 1)) = satAdd 32 (s.entry (keyOf 0x1643 (m + 1))) 1 ∧
          bitAt t.hid.budget.overran m = true ∧
          SameEntriesBut ([keyOf 0x1643 (m + 1), keyOf 0x1644 1, keyOf 0x1400 8, keyOf 0x1600 6] ++ rows) s t) ∧
        (¬ exceeds ∨ s.hid.budget.compute = true ∨ bitAt s.hid.budget.overran m = true →
          SameEntriesBut rows s t ∧ (s.frozen m = true →
            t.hid.budget.flight.getD m 0 = s.hid.budget.flight.getD m 0 - 1)))) ∧
  (∀ (s : State) (token : Nat), s.sound = true → token < 5 →
    (∀ a, s.tokenFree token = true → (s.wanting token).find? s.canStart = some a → Completes (.tokenGrant token) s fun t =>
      t.running a = true ∧ t.hid.heat.waiting = s.hid.heat.waiting.filter (· != a) ∧ Only s.activityEntries s t) ∧
    (s.tokenFree token = false ∨ (s.wanting token).find? s.canStart = none → exec (.tokenGrant token) s = .next s))

/-- BLOCK_RESET is answered RANGE for a code that the personality has no block for, and BUSY while one is in progress. A block
that is idle, by the model's reading of idle, is reset at once and 1103h.04 reads done; one that is not is asked to go
idle. BLOCK_RESET_FORCE adds 1 to 1103h.05, records the code and forces it, or resets a block that has gone idle. For
every block: the domain mover closes its transfers and aborts their requests, LOADING banks become EMPTY, the capture slot
is released, the compressor's frames and the slicer's cells are dropped and counted, held messages are let go, the views
and the builds in progress are abandoned and counted, and a DisplayPort receiver or the flows of a 100GbE port become
LOST. LINK_RESET_GO has two RESET slots, 100 µs apart, wait on the port that reaches the target, or for a broadcast on
every port with a chain; with none it reports UNREACHABLE. (R124, R440, R451) -/
def Obligations.BlocksAreResetAlone : Prop :=
  (∀ (s : State) (d : Door), s.sound = true → s.hears d = true → s.served (keyOf 0x1103 2) = true →
    let code := s.reg 0x1103 1
    (s.blockStatus = Status.range ↔ (blockCodes s.pers).contains code = false) ∧
    (s.blockStatus = Status.busy ↔ (blockCodes s.pers).contains code = true ∧ s.reg 0x1103 4 = 1) ∧
    (s.blockStatus ≠ Status.ok → Refused (.blockReset d) d s.blockStatus s) ∧
    (s.blockStatus = Status.ok → s.blockBusy code = true → Acts (.blockReset d) d Status.ok [keyOf 0x1103 4] s
      fun t => t.entry (keyOf 0x1103 4) = 1 ∧ t.hid = { s.hid with
        almanac := t.hid.almanac, reset := { s.hid.reset with block := code } }) ∧
    (s.blockStatus = Status.ok → s.blockBusy code = false →
      Acts (.blockReset d) d Status.ok [keyOf 0x1103 4, keyOf 0x2201 2] s fun t => t.entry (keyOf 0x1103 4) = 2 ∧
        (code ≠ 0x22 → SameBeside s t ∧ t.entry (keyOf 0x2201 2) = s.entry (keyOf 0x2201 2)))) ∧
  (∀ s : State, s.sound = true → s.shaped = true → s.reg 0x1103 4 = 1 →
    let code := s.hid.reset.block
    code ∈ blockCodes s.pers →
    let boxes := s.hid.doors.requests.flatMap fun r => match r.asker with
      | .mailbox n => (List.range' 6 10).map (keyOf (0x1020 + n))
      | _ => []
    let flows := (List.range 16).filter fun f => [2, 3].contains (s.reg (0x6010 + f) 7) && s.flag (0x6010 + f) 1 (code - 0x18)
    let marks : List Key := match code with
      | 0x01 => boxes
      | 0x02 => [keyOf 0x4201 3]
      | 0x03 => [keyOf 0x4180 0x0B]
      | 0x20 => [keyOf 0x6104 4]
      | 0x21 => [keyOf 0x1644 0x0C, keyOf 0x1400 8]
      | 0x22 => [keyOf 0x2201 2]
      | 0x28 => [keyOf 0x1644 0x0B, keyOf 0x1400 8, keyOf 0x4100 0x0A]
      | 0x30 => [keyOf 0x6302 6, keyOf 0x6302 7]
      | c => if c < 0x14 then [keyOf (0x6001 + (c - 0x10)) 3, keyOf (0x6001 + (c - 0x10)) 6]
        else flows.flatMap fun f => [keyOf (0x6010 + f) 7, keyOf (0x6010 + f) 8]
    (s.blockBusy code = true → Completes .blockResetForce s fun t => t.entry (keyOf 0x1103 4) = 3 ∧
      t.entry (keyOf 0x1103 5) = satAdd 32 (s.entry (keyOf 0x1103 5)) 1 ∧ t.entry (keyOf 0x1103 6) = code ∧
      Only ([keyOf 0x1103 4, keyOf 0x1103 5, keyOf 0x1103 6] ++ marks) s t ∧
      (code = 0x01 → t.hid.doors.transfers = [] ∧
        t.hid.doors.requests = s.hid.doors.requests.filter fun r => r.stream.isNone) ∧
      (code = 0x02 → (∀ i < 4, t.bankCode (i / 2) (i % 2) ≠ Bank.loading) ∧ t.hid = s.hid) ∧
      (code = 0x03 → t.entry (keyOf 0x4180 0x0B) = 0xFF ∧ t.hid = s.hid) ∧
      (code = 0x20 → t.entry (keyOf 0x6104 4) = satAdd 32 (s.entry (keyOf 0x6104 4)) s.hid.ingest.jobs.length ∧
        t.hid = { s.hid with ingest := { s.hid.ingest with jobs := [] } }) ∧
      (code = 0x21 → t.layersWaiting = 0 ∧
        t.entry (keyOf 0x1644 0x0C) = satAdd 32 (s.entry (keyOf 0x1644 0x0C)) s.layersWaiting) ∧
      (code = 0x28 → t.hid.compose.todo = [] ∧ t.entry (keyOf 0x4100 0x0A) = 2 ∧
        t.entry (keyOf 0x1644 0x0B) = satAdd 32 (s.entry (keyOf 0x1644 0x0B)) s.hid.compose.todo.length) ∧
      (code = 0x30 → (∀ o < 2, (t.preview o).building = none) ∧ t.entry (keyOf 0x6302 7) = 0) ∧
      (∀ d < 4, code = 0x10 + d → t.entry (keyOf (0x6001 + d) 3) = 3) ∧
      (code = 0x18 ∨ code = 0x19 → ∀ f ∈ flows, t.entry (keyOf (0x6010 + f) 7) = 4)) ∧
    (s.blockBusy code = false → Completes .blockResetForce s fun t => t.entry (keyOf 0x1103 4) = 2 ∧
      Only [keyOf 0x1103 4, keyOf 0x2201 2] s t ∧
      (code ≠ 0x22 → t.hid = s.hid ∧ t.entry (keyOf 0x2201 2) = s.entry (keyOf 0x2201 2)))) ∧
  (∀ (s : State) (d : Door), s.sound = true → s.shaped = true → s.hears d = true → s.isSender = true →
    s.served (keyOf 0x1102 3) = true →
    let target := s.reg 0x1102 1
    let slot (after : Nat) : Waiting := ⟨3, .reset target (s.reg 0x1102 2), after, none⟩
    let ports := if target = 0xFFFF then s.castPorts else (s.portTo target).toList
    (ports = [] → Acts (.linkResetGo d) d Status.ok [keyOf 0x1102 4] s fun t =>
      t.entry (keyOf 0x1102 4) = Status.unreachable ∧ SameBeside s t) ∧
    (ports ≠ [] → Acts (.linkResetGo d) d Status.ok [keyOf 0x1102 4] s fun t => t.entry (keyOf 0x1102 4) = Status.ok ∧
      (∀ p ∈ ports, (t.port p).egress = (s.port p).egress ++ [slot s.uptime, slot (s.uptime + 100000)]) ∧
      ∀ p, p ∉ ports → t.port p = s.port p))

/-- With U[b] of R102, the column of data bit 8b + j is U[b] in bits 15:8 and 1 << j in bits 7:0. Codeword bits 0 to 127 are
the data bits; check bit c, codeword bit 128 + c, is the XOR of every data bit whose column has bit c set. So check bit j
below 8 is the XOR of bit j of all bytes, and check bit 8 + k that of all bits of every byte b whose U[b] has bit k set.
(R102, R103) -/
def Obligations.CheckBitsAreTheXorOfTheirColumns : Prop :=
  ∀ bs : List Byte, bs.length = 16 →
    let u : List Nat := [0x03, 0x05, 0x06, 0x09, 0x0A, 0x0C, 0x0F, 0x11, 0x12, 0x14, 0x17, 0x18, 0x1B, 0x1D, 0x1E, 0x21]
    let data (i : Nat) : Bool := (bs.getD (i / 8) 0).getLsbD (i % 8)
    let column (i : Nat) : Nat := u.getD (i / 8) 0 * 256 + 2 ^ (i % 8)
    let odd (l : List Nat) : Bool := l.length % 2 == 1
    (∀ i < 128, (encodeWord bs).getLsbD i = data i) ∧
    (∀ c < 16, (encodeWord bs).getLsbD (128 + c) = odd ((List.range 128).filter fun i => data i && (column i).testBit c)) ∧
    (∀ j < 8, (encodeWord bs).getLsbD (128 + j) = odd ((List.range 16).filter fun b => data (8 * b + j))) ∧
    ∀ k < 8, (encodeWord bs).getLsbD (136 + k) =
      odd ((List.range 128).filter fun i => data i && (u.getD (i / 8) 0).testBit k)

/-- For a live port: from DOWN, enabled, not told to stay down and not under test, the 1 ms wait with fewer than three
failures, or the 100 ms wait with three or more, leads to DETECT with the taps of 2000h+p.06 and counts a retrain after
UP; a signal to EQ; adapted receivers to LOCK; a lock with skews of at most 212 UI to ALIGN, recording polarity, order and
skews; an ALIGN to CHECK, recording the far end; a passed CHECK without a cabling fault to UP. A larger skew, a timeout of
EQ, LOCK or ALIGN, a failed CHECK or a cabling fault leads to DOWN and counts a failure; so do a lock loss in ALIGN or
CHECK and two missing ALIGN slots in CHECK, counted as LOCKLOSS. A phase slip or an ALIGN found elsewhere in CHECK counts
a realignment. Only the port's own entries change, and on a sender that reaches UP its address and role; no other port and
no memory changes. A live port in UP goes DOWN when it leaves UP, at a lock loss or two missing ALIGN slots (counted as
LOCKLOSS), and at the commands to retrain or to stay DOWN: what waits on it is dropped but for answers, which move to the
other port of a tile when that is UP, and the layer cells of a sender; its hops are unknown and its path delay invalid. A
phase slip or an ALIGN found elsewhere counts a realignment and keeps it UP, waiting for the next ALIGN slot. A margin
measurement records height and width of each lane, each as its low 8 bits (log 77), and the third low height in a row on a
lane raises the event. Only entries of the port and no memory change. (R119, R120, R121, R122, R134, R135, R136, R138,
R139, R141, R142, R143) -/
def Obligations.PortsTrainAndLeaveUp : Prop :=
  (
  ∀ (s : State) (p : Nat), s.sound = true → s.shaped = true → s.portLive p = true →
    let i := 0x2000 + p
    let alone (t : State) : Prop := t.hid = { s.hid with ports := t.hid.ports, almanac := t.hid.almanac } ∧
      ∀ q, q ≠ p → t.port q = s.port q
    let fails (t : State) : Prop := t.link p = 0 ∧ (t.port p).failures = (s.port p).failures + 1 ∧ alone t
    let failed (t : State) : Prop := fails t ∧ Only [keyOf i 2] s t
    let counted (t : State) (hi lo : Nat) : Prop :=
      field (t.entry (keyOf i 0x10)) hi lo = satAdd 8 (field (s.entry (keyOf i 0x10)) hi lo) 1
    (s.link p = 0 → s.reg i 1 = 1 → (s.port p).heldDown = false → s.reg (0x7010 + p) 1 = 0 →
      ∀ c ∈ [(Instr.portDownWait p, false), (.trainingBackoff p, true)], decide (3 ≤ (s.port p).failures) = c.2 →
      Completes c.1 s fun t => t.link p = 1 ∧ (t.port p).fromUp = false ∧ (t.port p).taps = s.tapsSet p ∧ alone t ∧
        field (t.entry (keyOf i 0x10)) 31 16 = (if (s.port p).fromUp then satAdd 16 (field (s.entry (keyOf i 0x10)) 31 16) 1
          else field (s.entry (keyOf i 0x10)) 31 16) ∧ Only [keyOf i 2, keyOf i 0x10] s t) ∧
    (s.link p = 1 → Completes (.signalDetect p) s fun t => t.link p = 2 ∧ t.hid = s.hid ∧ Only [keyOf i 2] s t) ∧
    (s.link p = 2 → Completes (.eqAdapted p) s fun t => t.link p = 3 ∧ t.hid = s.hid ∧ Only [keyOf i 2] s t) ∧
    (∀ polarity reversed skews, s.link p = 3 → polarity < 16 → skews.length = 4 →
      ((∀ k ∈ skews, k ≤ 212) → Completes (.lockAcquired p polarity reversed skews) s fun t => t.link p = 4 ∧
        field (t.entry (keyOf i 5)) 11 8 = polarity ∧ bitAt (t.entry (keyOf i 5)) 0 = reversed ∧
        (∀ k < 4, field (t.entry (keyOf i 7)) (8 * k + 7) (8 * k) = skews.getD k 0) ∧ alone t ∧
        Only [keyOf i 2, keyOf i 5, keyOf i 7] s t) ∧
      ((∃ k ∈ skews, 212 < k) → Completes (.lockAcquired p polarity reversed skews) s failed)) ∧
    (∀ pers port hops addr, s.link p = 4 → pers < 4 → port < 16 → hops < 64 → addr < 1024 →
      Completes (.alignFound p pers port hops addr) s fun t => t.link p = 5 ∧ (t.port p).hops = hops ∧
        field (t.entry (keyOf i 3)) 29 28 = pers ∧ field (t.entry (keyOf i 3)) 27 24 = port ∧
        field (t.entry (keyOf i 3)) 23 18 = hops ∧ field (t.entry (keyOf i 3)) 17 8 = addr ∧ alone t ∧
        Only [keyOf i 2, keyOf i 3] s t) ∧
    (s.link p = 5 → s.cablingFault p = false → Completes (.checkPassed p) s fun t => t.link p = 6 ∧
      (t.port p).failures = 0 ∧ (t.port p).wasUp = true ∧ alone t ∧
      Only (keyOf i 2 :: if s.isSender then [keyOf 0x1000 6, keyOf 0x2100 1] else []) s t) ∧
    (s.link p = 5 → s.cablingFault p = true → Completes (.checkPassed p) s failed) ∧
    (s.link p = 5 → Completes (.checkFailed p) s failed) ∧
    (2 ≤ s.link p → s.link p ≤ 4 → Completes (.trainingTimeout p) s failed) ∧
    (s.link p = 4 ∨ s.link p = 5 → ∀ lane, Completes (.blockLockLoss p lane) s fun t => fails t ∧ counted t 7 0 ∧
      Only [keyOf i 2, keyOf i 0x10, keyOf 0x1400 8] s t) ∧
    (s.link p = 5 → Completes (.alignMissing p false) s fun t => fails t ∧ counted t 7 0 ∧
      Only [keyOf i 2, keyOf i 0x10, keyOf 0x1400 8] s t) ∧
    (s.link p = 5 → ∀ c ∈ [Instr.phaseSlip p, .alignMissing p true], Completes c s fun t => t.link p = 5 ∧
      (t.port p).lost = true ∧ counted t 15 8 ∧ alone t ∧ Only [keyOf i 0x10, keyOf 0x1400 8] s t)) ∧
  (
  ∀ (s : State) (p : Nat), s.sound = true → s.shaped = true → s.portLive p = true → s.portUp p = true →
    let i := 0x2000 + p
    let r := 0x1310 + p
    let moves := s.isTile && s.portUp (1 - p)
    let down (t : State) : Prop := t.link p = 0 ∧
      (t.port p).egress = ((s.port p).egress.filter fun w => s.isSender && w.rank == 4) ∧
      (t.port p).hops = 0x3F ∧ (t.port p).fromUp = true ∧ (t.port p).pathValid = false ∧
      (moves = true → (t.port (1 - p)).egress = (s.port (1 - p)).egress ++ (s.port p).egress.filter Waiting.isAnswer) ∧
      (∀ q, q ≠ p → moves = false ∨ q ≠ 1 - p → t.port q = s.port q) ∧
      t.hid = { s.hid with ports := t.hid.ports, almanac := t.hid.almanac }
    (Completes (.portLeavesUp p) s fun t => down t ∧ Only [keyOf i 2, keyOf i 3, keyOf r 3, keyOf r 7] s t) ∧
    (∀ c lane, c = Instr.blockLockLoss p lane ∨ c = .alignMissing p false → Completes c s fun t => down t ∧
      field (t.entry (keyOf i 0x10)) 7 0 = satAdd 8 (field (s.entry (keyOf i 0x10)) 7 0) 1 ∧
      Only [keyOf i 2, keyOf i 3, keyOf i 0x10, keyOf r 3, keyOf r 7, keyOf 0x1400 8] s t) ∧
    (∀ d, s.hears d = true → s.served (keyOf i 4) = true → ∀ c ∈ [(Instr.portRetrain d p, false), (.portGoDown d p, true)],
      Acts c.1 d Status.ok [keyOf i 2, keyOf i 3, keyOf r 3, keyOf r 7] s fun t => down t ∧ (t.port p).heldDown = c.2) ∧
    (∀ c ∈ [Instr.phaseSlip p, .alignMissing p true], Completes c s fun t => t.link p = 6 ∧ (t.port p).lost = true ∧
      field (t.entry (keyOf i 0x10)) 15 8 = satAdd 8 (field (s.entry (keyOf i 0x10)) 15 8) 1 ∧
      (∀ q, q ≠ p → c = .alignMissing p true ∨ moves = false ∨ q ≠ 1 - p → t.port q = s.port q) ∧
      t.hid = { s.hid with ports := t.hid.ports, almanac := t.hid.almanac, counts := t.hid.counts } ∧
      Only [keyOf i 0x10, keyOf 0x1400 8] s t) ∧
    (moves = true → Completes (.phaseSlip p) s fun t => ∃ lanes, t.outputs = s.outputs ++ [.slot (1 - p) lanes]) ∧
    (∀ hs ws : List Nat, hs.length = 4 → ws.length = 4 → (s.port p).lowRun.length = 4 →
      Completes (.marginMeasure p hs ws) s fun t =>
        (∀ k < 4, field (t.entry (keyOf i 0x0F)) (16 * k + 15) (16 * k + 8) = hs.getD k 0 % 256 ∧
          field (t.entry (keyOf i 0x0F)) (16 * k + 7) (16 * k) = ws.getD k 0 % 256 ∧
          (t.port p).lowRun.getD k 0 =
            if hs.getD k 0 < s.reg i 0x11 then (s.port p).lowRun.getD k 0 + 1 else 0) ∧
        ((∃ k < 4, hs.getD k 0 < s.reg i 0x11 ∧ (s.port p).lowRun.getD k 0 = 2) ↔ t.outputs = s.outputs ++ [.event 134 p]) ∧
        Only [keyOf i 0x0F] s t))

/-- A clean sweep cell on a tile's UP port leaves on the other UP port, or turned around on the same port when the other is
not UP. Of any sweep only the STATUS and VALUE of entries for this tile change. Of a sweep of one entry, not turned: an
entry for another device leaves unchanged, as does one whose STATUS is set, and a broadcast, which is deferred without an
answer unless CORE is in reset or 64 entries are deferred. An entry for the tile with STATUS 0xFF gets UNAVAILABLE while
CORE is in reset, else BUSY when 64 entries are deferred, else, for a READ of a fast entry that the mode serves, OK and
the value in effect, else DEFERRED, and it joins the deferred entries and one answer cell is owed. No dictionary entry and
no memory changes. (R43, R106, R108, R113, R118, R125, R126, R127, R131) -/
def Obligations.SweepsPassATile : Prop :=
  ∀ (s : State) (p : Nat) (lanes : List (List Level)) (c : Cell), s.sound = true → s.shaped = true → s.isTile = true →
    p < 2 → s.up .link = true → s.portUp p = true → c.wf = true → c.kind = 2 → (s.port p).lost = false →
    (s.port p).rx.scramble (s.slotIn p lanes) = cellBlocks c [] →
    let q := 1 - p
    let leaves (d : Cell) (t : State) : Prop := Only [] s t ∧
      (s.portUp q = true → t.outputs = s.outputs ++ [.slot q ((s.port q).tx.lanes (cellBlocks d []))] ∧
        t.port p = { s.port p with rx := (s.port p).rx.next } ∧ t.port q = { s.port q with tx := (s.port q).tx.next }) ∧
      (s.portUp q = false → t.outputs = s.outputs ∧ t.port q = s.port q ∧ t.port p = { s.port p with
        rx := (s.port p).rx.next
        egress := (s.port p).egress ++ if c.turned then [] else [s.waiting { d with turned := true }] })
    (Completes (.receiveSlot p lanes) s fun t => ∃ d : Cell, leaves d t ∧ d = { c with body := d.body } ∧ ∀ k < 15,
      slice d.body (16 * k) 6 = slice c.body (16 * k) 6 ∧ slice d.body (16 * k + 7) 1 = slice c.body (16 * k + 7) 1 ∧
      (cellField c (16 * k) 2 ≠ s.address ∨ cellField c (16 * k) 2 = 0xFFFF ∨ c.turned = true →
        slice d.body (16 * k) 16 = slice c.body (16 * k) 16)) ∧
    ∀ e : ServiceEntry, c.len = 16 → c.turned = false → c.body = padTo 240 (serviceBytes e) → e.target < 2 ^ 16 →
      e.key < 2 ^ 24 → e.op < 2 ^ 8 → e.status < 2 ^ 8 → e.label < 2 ^ 8 → e.value.length = 8 →
      let passes (e' : ServiceEntry) (ds : List Deferred) (owed : List SweepAnswer) : Prop :=
        Completes (.receiveSlot p lanes) s fun t => leaves { c with body := padTo 240 (serviceBytes e') } t ∧
          t.hid = { s.hid with
            counts := t.hid.counts, ports := t.hid.ports
            link := { s.hid.link with deferred := s.hid.link.deferred ++ ds, owed := s.hid.link.owed ++ owed } }
      let d : Deferred := ⟨p, c.queue % 512, c.src, c.fromEnd, e.op, e.key, e.label, e.value, e.target == 0xFFFF, 1⟩
      let fast : Bool := e.op == 1 && s.isFast e.key && s.served e.key
      let held : Bool := s.hid.reset.coreHeld || !s.up .core
      let full : Prop := 64 ≤ s.hid.link.deferred.length
      (e.target ≠ s.address ∨ e.status ≠ 0xFF → e.target ≠ 0xFFFF → passes e [] []) ∧
      (e.target = 0xFFFF → (held = true ∨ full → passes e [] []) ∧ (held = false → ¬full → passes e [d] [])) ∧
      (e.target = s.address → e.target ≠ 0xFFFF → e.status = 0xFF →
        (held = true → passes { e with status := 7 } [] []) ∧
        (held = false → full → passes { e with status := 8 } [] []) ∧
        (held = false → ¬full → fast = true → passes { e with status := 0, value := bytesLE 8 (s.value e.key) } [] []) ∧
        (held = false → ¬full → fast = false →
          passes { e with status := 0x0A } [d] [⟨p, c.queue % 512, c.src, c.fromEnd, 1, [], c.seq⟩]))

/-- A clean cell in an UP port. On a tile, by its kind, it is passed on unchanged, taken and passed on, or taken with an empty
slot in its place, which an own cell or IDLE fills; a reserved kind counts in 2000h+p.0C and is passed on; a QUEUE cell
that finds the FIFO of 64 full counts in 1644h.0B. With the far port not UP it is passed on nowhere, and a unicast cell
counts where that port never was UP. On a sender it is taken, turned around, dropped or counted. An ALIGN slot records the
far end, starts the receiver's generators, and is answered by an own one on the other port; IDLE counts its fill errors; a
RESET slot is kept, or ready as the second within 1 ms, and passed on. A slot without a majority of headers counts its
invalid headers and gives no cell; one before a realignment is lost. In EQ a TRAIN slot moves the taps where AUTO is 1; in
ALIGN an ALIGN slot is recorded; CHECK records one too, and takes nothing; elsewhere a slot has no effect. ALIGN_SLOT_SEND
on an originator's UP port sends one ALIGN slot with free seeds. No other entry, and no memory, changes. (R94, R106, R109,
R110, R111, R113, R114, R117, R118, R120, R124, R135) -/
def Obligations.CellsGoWhereTheyAreTaken : Prop :=
  (∀ (s : State) (p : Nat) (lanes : List (List Level)) (c : Cell), s.sound = true → s.shaped = true → s.portLive p = true →
    s.portUp p = true → c.wf = true → (s.port p).lost = false →
    (s.port p).rx.scramble (s.slotIn p lanes) = cellBlocks c [] →
    let q := 1 - p
    let Does (more : State → Prop) : Prop := Completes (.receiveSlot p lanes) s fun t =>
      (t.port p).rx = (s.port p).rx.next ∧ t.hid = { s.hid with
        counts := t.hid.counts, ports := t.hid.ports, link := t.hid.link, almanac := t.hid.almanac } ∧ more t
    let takes (t : State) : Prop := t.hid.link = { s.hid.link with rx := s.hid.link.rx ++ [(p, c)] } ∧ Only [] s t
    let keeps (t : State) : Prop := t.hid.link = s.hid.link ∧ Only [] s t
    let counts (i sub : Nat) (t : State) : Prop := t.hid.link = s.hid.link ∧
      t.entry (keyOf i sub) = satAdd 32 (s.entry (keyOf i sub)) 1 ∧ Only [keyOf i sub, keyOf 0x1400 8] s t
    let untaken := counts (0x2000 + p) 0x0C
    let mine := c.queue / 512 = s.address
    (s.isTile = true → s.portUp q = true →
      let onward (t : State) : Prop := t.outputs = s.outputs ++ [.slot q ((s.port q).tx.lanes (cellBlocks c []))] ∧
        t.port q = { s.port q with tx := (s.port q).tx.next }
      let empties (t : State) : Prop :=
        ((s.port q).nextWaiting s.mayLeave = none →
          t.outputs = s.outputs ++ [.slot q ((s.port q).tx.lanes (s.port q).tx.idle)]) ∧
        (∀ rank d poison after ring q', d.kind ≠ 4 →
          (s.port q).nextWaiting s.mayLeave = some (⟨rank, .cell d poison, after, ring⟩, q') →
          (t.port q).egress = q'.egress ∧ t.outputs = s.outputs ++ [.slot q ((s.port q).tx.lanes (cellBlocks d poison))])
      (c.kind ∈ [3, 5, 6] ∨ (c.kind = 7 ∧ c.bcast = false) ∨ (c.kind = 1 ∧ c.bcast = false ∧ ¬mine) →
        Does fun t => keeps t ∧ onward t) ∧
      (c.kind ∈ [4, 7] ∨ (c.kind = 1 ∧ s.fifoFull p = false) → c.bcast = true → Does fun t => takes t ∧ onward t) ∧
      (c.kind = 4 ∨ (c.kind = 1 ∧ mine ∧ s.fifoFull p = false) → c.bcast = false → Does fun t => takes t ∧ empties t) ∧
      (c.kind = 1 → s.fifoFull p = true → (c.bcast = true → Does fun t => counts 0x1644 0x0B t ∧ onward t) ∧
        (c.bcast = false → mine → Does fun t => counts 0x1644 0x0B t ∧ empties t)) ∧
      (c.kind = 0 ∨ 8 ≤ c.kind → Does fun t => untaken t ∧ onward t)) ∧
    (s.isTile = true → s.portUp q = false → c.kind ∈ [3, 5, 6] ∨ (c.kind = 1 ∧ c.bcast = false ∧ ¬mine) →
      (c.bcast = true ∨ c.kind = 5 ∨ (s.port q).wasUp = true → Does fun t => keeps t ∧ t.outputs = s.outputs) ∧
      (c.bcast = false → c.kind ≠ 5 → (s.port q).wasUp = false → Does fun t => untaken t ∧ t.outputs = s.outputs)) ∧
    (s.isSender = true →
      (c.kind ∈ [4, 5] ∨ (c.kind = 3 ∧ mine) ∨ (c.kind = 2 ∧ c.src = s.address) ∨
        (c.kind = 1 ∧ c.bcast = false ∧ mine ∧ 128 ≤ c.queue % 512 ∧ c.queue % 512 < 192) →
        Does fun t => takes t ∧ t.outputs = s.outputs) ∧
      (c.kind = 0 ∨ 8 ≤ c.kind ∨ (c.kind ∈ [3, 6] ∧ ¬mine) ∨ (c.kind = 1 ∧ c.bcast = false ∧
          (¬mine ∨ c.queue % 512 < 128 ∨ 192 ≤ c.queue % 512)) → Does fun t => untaken t ∧ t.outputs = s.outputs) ∧
      (c.kind = 7 ∨ (c.kind = 1 ∧ c.bcast = true) ∨ (c.kind = 2 ∧ c.src ≠ s.address ∧ c.turned = true) →
        Does fun t => keeps t ∧ t.outputs = s.outputs) ∧
      (c.kind = 2 → c.src ≠ s.address → c.turned = false → Does fun t => keeps t ∧ t.outputs = s.outputs ∧
        (t.port p).egress = (s.port p).egress ++ [s.waiting { c with turned := true }]))) ∧
  (∀ (s : State) (p : Nat) (lanes : List (List Level)), s.sound = true → s.shaped = true → s.portLive p = true →
    let i := 0x2000 + p
    let q := 1 - p
    let raw := s.slotIn p lanes
    let rx := (s.port p).rx
    let blocks := rx.scramble raw
    let errors := (List.range 6).map fun j => keyOf i (8 + j)
    let invalid := (raw.filter fun b => b.sync == 0b00 || b.sync == 0b11).length
    let records (bs : List (List Byte)) (t : State) : Prop :=
      let b := bs.headD []
      let far := t.entry (keyOf i 3)
      field far 29 28 = natLE (slice b 3 1) % 4 ∧ field far 27 24 = natLE (slice b 2 1) % 16 ∧
      field far 23 18 = natLE (slice b 4 1) % 64 ∧ field far 17 8 = natLE (slice b 5 2) % 1024 ∧
      (t.port p).hops = natLE (slice b 4 1) % 64 ∧ (t.port p).rx = Line.start (alignSeeds bs) ∧ (t.port p).lost = false
    let plain (t : State) : Prop := t.hid.link = s.hid.link ∧ (s.isSender = true → t.outputs = s.outputs)
    let own : Output := .slot q (slotLanes (alignSlotBlocks fun l => s.alignLane q ((laneSeeds (s.freeValue 232)).getD l 0) l))
    (s.portUp p = true →
      (∀ bs, alignBlocks raw = some bs → Completes (.receiveSlot p lanes) s fun t => records bs t ∧ plain t ∧
        (s.isTile = true → t.outputs = s.outputs ++ if s.portUp q then [own] else []) ∧
        Only (keyOf i 3 :: keyOf 0x1400 8 :: errors) s t) ∧
      ((s.port p).lost = true → alignBlocks raw = none → Completes (.receiveSlot p lanes) s fun t =>
        (t.port p).rx = rx.next ∧ (t.port p).lost = true ∧ plain t ∧ Only [keyOf 0x1400 8] s t) ∧
      ((s.port p).lost = false → slotType raw = .lost → Completes (.receiveSlot p lanes) s fun t =>
        t.entry (keyOf i 0x0C) = satAdd 32 (s.entry (keyOf i 0x0C)) invalid ∧ (t.port p).rx = rx.next ∧ plain t ∧
        Only [keyOf i 0x0C, keyOf 0x1400 8] s t) ∧
      ((s.port p).lost = false → slotType raw = .control → alignBlocks raw = none → rx.slot ≠ 65535 →
        (decodeSlot 0b10 blocks).all (·.2 == .clean) = true →
        (controlType (decodeSlot 0b10 blocks) = 0 → Completes (.receiveSlot p lanes) s fun t =>
          t.entry (keyOf i 0x0E) = satAdd 32 (s.entry (keyOf i 0x0E)) (rx.fillErrors 1 blocks) ∧
          (t.port p).rx = rx.next ∧ plain t ∧ Only [keyOf i 0x0E, keyOf 0x1400 8] s t) ∧
        ∀ target kind, target < 2 ^ 16 → kind ∈ [1, 2] → blocks = rx.filled (resetBlock target kind) →
          target = s.address ∨ (target = 0xFFFF ∧ s.isTile = true) → Completes (.receiveSlot p lanes) s fun t =>
            ((s.port p).rst = none → (t.port p).rst = some (target, kind, s.uptime)) ∧
            (∀ at0, (s.port p).rst = some (target, kind, at0) → s.uptime ≤ at0 + 1000000 →
              (t.port p).rst = none ∧ (t.port p).rstReady = some kind) ∧
            (s.isTile = true → s.portUp q = true → t.outputs = s.outputs ++ [.slot q ((s.port q).tx.lanes blocks)]) ∧
            plain t ∧ Only [] s t)) ∧
    (s.link p = 2 → ∀ b, ((decodeSlot 0b10 raw).take 4).find? (fun x => decoded x && x.1.head? == some 0x71) = some b →
      Completes (.receiveSlot p lanes) s fun t => Only [] s t ∧ t.outputs = s.outputs ∧
        ((t.port p).taps, (t.port p).eqStatus) = (if s.flag i 6 31 then answerTaps (s.port p).taps (natLE (slice b.1 5 1))
          else ((s.port p).taps, 0))) ∧
    (s.link p = 4 ∨ s.link p = 5 → ∀ bs, alignBlocks raw = some bs → Completes (.receiveSlot p lanes) s fun t =>
      records bs t ∧ t.outputs = s.outputs ∧ t.hid.link = s.hid.link ∧ Only (keyOf i 3 :: keyOf 0x1400 8 :: errors) s t) ∧
    (s.link p = 5 → alignBlocks raw = none → Completes (.receiveSlot p lanes) s fun t =>
      (t.port p).rx = rx.next ∧ t.outputs = s.outputs ∧ t.hid.link = s.hid.link ∧
      Only (keyOf i 0x0E :: keyOf 0x1400 8 :: errors) s t) ∧
    (s.link p = 4 → alignBlocks raw = none → exec (.receiveSlot p lanes) s = .next s) ∧
    (s.link p ∈ [0, 1, 3, 7] → exec (.receiveSlot p lanes) s = .next s)) ∧
  (∀ (s : State) (p : Nat), s.sound = true → s.shaped = true → s.portLive p = true → s.portUp p = true →
    s.originates p = true → Completes (.alignSlotSend p) s fun t =>
      let seeds := laneSeeds (s.freeValue 232)
      t.outputs = s.outputs ++ [.slot p (slotLanes (alignSlotBlocks fun l => s.alignLane p (seeds.getD l 0) l))] ∧
      t.port p = { s.port p with tx := Line.start seeds, slots := (s.port p).slots + 1 } ∧ t.free = s.free + 1 ∧
      t.hid = { s.hid with ports := t.hid.ports } ∧ (∀ q, q ≠ p → t.port q = s.port q) ∧ Only [] s t)

/-- ENUMERATION on a sender gives the tiles of the chains that count consecutive addresses, from 1 or in a pair from 2, in
ascending port order and then hop order, at most 32 on a chain and none above 511; after a tile without an address no tile
gets one. ENUM_SEND queues one ENUM cell for each chain with a port that is UP, naming the address of each hop counted
from the end where the cell starts, or 0xFFFF. A tile that takes one has the address at its hop: 0xFFFF takes it to
PASSTHROUGH from a mode that may leave for it; a real address becomes its own and, where ENUM had put it into PASSTHROUGH,
leads to DARK. Nothing else changes but what such a mode entry changes. (R14, R17, R18, R19, R20, R21, R121, R123) -/
def Obligations.TilesAreEnumerated : Prop :=
  (∀ (s : State) (chains : List (Nat × Nat)), s.sound = true → s.isSender = true → s.up .core = true →
    Completes (.enumeration chains) s fun t =>
      let l := t.hid.link.addresses
      let start := if s.pairLayout then 2 else 1
      let counted := chains.filter fun c => s.counts c.1
      l.map (·.1) = List.range' start l.length ∧
      l.Pairwise (fun a b => a.2.1 < b.2.1 ∨ (a.2.1 = b.2.1 ∧ a.2.2 < b.2.2)) ∧
      (∀ a ∈ l, a.1 ≤ 511 ∧ 1 ≤ a.2.2 ∧ a.2.2 ≤ 32 ∧ ∃ c ∈ counted, c.1 = a.2.1 ∧ a.2.2 ≤ c.2) ∧
      ((counted.map (·.1)).Nodup →
        (∀ c ∈ counted, ∀ d ∈ counted, c.1 < d.1 →
          (l.filter fun a => a.2.1 == c.1).length < c.2 → ∀ a ∈ l, a.2.1 ≠ d.1) ∧
        ((∀ c ∈ counted, c.2 ≤ 32) → start + (counted.map (·.2)).sum ≤ 512 → l.length = (counted.map (·.2)).sum)) ∧
      ((counted.map (·.1)).Pairwise (· < ·) → t.hid.link.chains = counted) ∧
      t.address = (if s.address = 0xFFFF then 0 else s.address) ∧
      t.hid = { s.hid with link := { s.hid.link with addresses := l, chains := t.hid.link.chains, enumerated := true } } ∧
      Only [keyOf 0x1000 6, keyOf 0x2100 1] s t) ∧
  (∀ s : State, s.sound = true → s.shaped = true → s.isSender = true → s.hid.link.enumerated = true →
    Completes .enumSend s fun t =>
      let isCell (k p : Nat) (w : Waiting) : Prop := ∃ c : Cell, w = s.waiting c ∧ c.kind = 7 ∧ c.bcast = true ∧
        c.fromEnd = s.endOf p ∧ cellField c 0 1 = p % 256 ∧ cellField c 1 1 = (if s.endOf p then 1 else 0) ∧
        ∀ h, 1 ≤ h → h ≤ 32 → cellField c (4 + 2 * (h - 1)) 2 =
          ((s.hid.link.addresses.find? fun a => a.2.1 == k &&
            a.2.2 == (if s.endOf p then s.chainLength k + 1 - h else h)).map (·.1)).getD 0xFFFF % 2 ^ 16
      (∀ p, ∃ ws, (t.port p).egress = (s.port p).egress ++ ws ∧
        (∀ w ∈ ws, ∃ c ∈ s.hid.link.chains, c.2 ≠ 0 ∧ s.enumPort c.1 = some p ∧ isCell c.1 p w) ∧
        ∀ c ∈ s.hid.link.chains, c.2 ≠ 0 → s.enumPort c.1 = some p → ∃ w ∈ ws, isCell c.1 p w) ∧
      t.hid = { s.hid with ports := t.hid.ports } ∧ t.outputs = s.outputs ∧ Only [] s t) ∧
  (∀ (s : State) (p : Nat) (c : Cell) (rest : List (Nat × Cell)), s.sound = true → s.isTile = true →
    s.takeCell (fun x => x.2.kind == 7) = some ((p, c), rest) →
    let h := s.hopsFrom (cellField c 1 1 == 1)
    let a := if h ≤ 32 then cellField c (4 + 2 * (h - 1)) 2 else 0xFFFF
    (h = 0 ∨ h = 0x3F → Completes .enumReceive s fun t =>
      t.hid = { s.hid with link := { s.hid.link with rx := rest } } ∧ Only [] s t) ∧
    (1 ≤ h → h ≠ 0x3F →
    (a ≠ 0xFFFF → ¬(s.mode = Mode.passthrough ∧ s.hid.mode.byEnum = true) → Completes .enumReceive s fun t =>
      t.address = a ∧ t.hid = { s.hid with link := { s.hid.link with rx := rest } } ∧ Only [keyOf 0x1000 6] s t) ∧
    (a ≠ 0xFFFF → s.mode = Mode.passthrough → s.hid.mode.byEnum = true → Completes .enumReceive s fun t =>
      t.address = a ∧ t.mode = Mode.dark ∧ t.entry (keyOf 0x1001 3) = Cause.enumeration ∧
      Only (keyOf 0x1000 6 :: s.modeEntries) s t) ∧
    (a = 0xFFFF → s.mode ∉ [2, 3, 4, 5, 6, 11] → Completes .enumReceive s fun t =>
      t.address = 0xFFFF ∧ t.hid = { s.hid with link := { s.hid.link with rx := rest } } ∧ Only [keyOf 0x1000 6] s t) ∧
    (a = 0xFFFF → s.mode ∈ [2, 3, 4, 5, 6, 11] → Completes .enumReceive s fun t =>
      t.address = 0xFFFF ∧ t.mode = Mode.passthrough ∧ t.entry (keyOf 0x1001 3) = Cause.enumeration ∧
      t.hid.mode.byEnum = true ∧ t.hid.lampEn = false ∧ Only (keyOf 0x1000 6 :: s.modeEntries) s t)))

/-- SERVICE_ANS_RECEIVE: a final answer to a request ends it: a mailbox shows its status, and with OK or NOT_STAGED the value
that belongs to the entry; a record takes both. An answer that is not final ends nothing, and one to no request counts in
1030h.08. GATEWAY_TIMEOUT: at 2 ms after it was sent a request ends with TIMEOUT. DOMAIN_TRANSFER_IDLE: at 30 s after its
last use a transfer ends, with the hold of a capture slot, and deferred writes that wait for content on its stream are not
performed. BROADCAST_WRITE from the management port or PCIe answers OK and one sweep cell to 0xFFFF waits on every port
with a chain; with no chain it answers UNREACHABLE and with a value of another length than the tile entry's LENGTH, and
nothing else happens. No other entry, and no memory, changes. On a tile whose engine serves, the oldest deferred entry is
performed: a READ of an entry that is neither WO nor a DOMAIN is answered OK with its value in its type's bytes;
READ_STAGED as the engine answers it; a WRITE of an RW entry without behaviour of its own puts the value in effect and is
answered OK with its own value; an access to an entry that is not there and an unknown op are refused; a broadcast WRITE
puts the value in effect without an answer; a DOMAIN_WRITE waits for its content. The answer goes to the sweep that owes
it. SERVICE_ANS_SEND: the answers of a sweep of which none waits are queued as cells on the port the sweep came from, else
on the other one. No other entry but the door's marks, and no memory, changes. (R41, R54, R55, R56, R66, R126, R127, R128,
R129, R131, R132) -/
def Obligations.GatewayRequestsAndDeferredEntriesEnd : Prop :=
  (
  (∀ (s : State) (p : Nat) (c : Cell) (rest : List (Nat × Cell)), s.sound = true → s.isSender = true → s.up .core = true →
    s.hid.update.stage = 0 → s.takeCell s.answerReady = some ((p, c), rest) →
    let taken : Hidden := { s.hid with link := { s.hid.link with rx := rest } }
    (∀ r e, s.requestOf (p, c) = some r → Cell.entry c = some e → e.final = true → e.status < 256 →
      let st := e.status
      let v := if st = Status.ok ∨ st = Status.notStaged then
        remoteValue r.op r.key (if r.op = 4 then (s.contentOf r e).getD [] else e.value) else []
      let ends (t : State) : Prop := t.outputs = s.outputs ∧ t.hid = { taken with
        doors := { s.hid.doors with
          requests := s.hid.doors.requests.filter (· != r)
          datagrams := t.hid.doors.datagrams }
        compose := { s.hid.compose with messages := t.hid.compose.messages } } ∧
        (r.op ≠ 4 → t.hid.compose = s.hid.compose) ∧
        (r.op = 4 → t.hid.compose.messages =
          s.hid.compose.messages.filter fun m => !(some m.stream == r.stream && m.src == r.target))
      (∀ n, r.asker = .mailbox n → n < 8 → Completes .serviceAnsReceive s fun t => ends t ∧
        t.entry (keyOf (0x1020 + n) 0x0F) = st ∧ t.hid.doors.datagrams = s.hid.doors.datagrams ∧
        (v ≠ [] → ∀ j < 8, t.entry (keyOf (0x1020 + n) (6 + j)) = natLE (slice v (8 * j) 8)) ∧
        (∀ w, r.op = 1 → st = Status.ok → rowAt .tile r.key = some w → w.ty ≠ .domain → w.ty.size ≤ 8 → e.value.length = 8 →
          t.entry (keyOf (0x1020 + n) 6) = natLE (e.value.take w.ty.size)) ∧
        Only (keyOf (0x1020 + n) 0x0F :: if v = [] then [] else (List.range' 6 8).map (keyOf (0x1020 + n))) s t) ∧
      (∀ d i, r.asker = .record d i → Completes .serviceAnsReceive s fun t => ends t ∧
        t.hid.doors.datagrams = (s.hid.doors.datagrams.map fun q => if q.number = d then
          { q with records := updateAt q.records i fun x => { x with status := some st, value := v } } else q) ∧
        Only [] s t)) ∧
    (∀ r e, s.requestOf (p, c) = some r → Cell.entry c = some e → e.final = false → Completes .serviceAnsReceive s fun t =>
      t.hid = taken ∧ t.outputs = s.outputs ∧ Only [] s t) ∧
    (Cell.entry c = none ∨ s.requestOf (p, c) = none → c.kind = 3 → Completes .serviceAnsReceive s fun t =>
      t.entry (keyOf 0x1030 8) = satAdd 32 (s.entry (keyOf 0x1030 8)) 1 ∧ t.hid = taken ∧ Only [keyOf 0x1030 8] s t)) ∧
  (∀ (s : State) (p tag : Nat) (r : Request), s.sound = true → s.isSender = true → s.hid.update.stage = 0 →
    (s.hid.doors.requests.find? fun q => q.port == p && q.tag == tag) = some r →
    let ends (t : State) : Prop := t.hid.time.cycles = max s.hid.time.cycles ((5 * (r.sentAt + 2000000) + 3) / 4) ∧
      t.outputs = s.outputs ∧ t.hid = { s.hid with
        time := { s.hid.time with now := t.hid.time.now, cycles := t.hid.time.cycles, trimDone := t.hid.time.trimDone }
        doors := { s.hid.doors with
          requests := s.hid.doors.requests.filter (· != r)
          datagrams := t.hid.doors.datagrams } }
    (∀ n, r.asker = .mailbox n → n < 8 → Completes (.gatewayTimeout ⟨p, tag⟩) s fun t => ends t ∧
      t.entry (keyOf (0x1020 + n) 0x0F) = Status.timeout ∧ t.hid.doors.datagrams = s.hid.doors.datagrams ∧
      Only [keyOf (0x1020 + n) 0x0F] s t) ∧
    (∀ d i, r.asker = .record d i → Completes (.gatewayTimeout ⟨p, tag⟩) s fun t => ends t ∧ Only [] s t ∧
      t.hid.doors.datagrams = s.hid.doors.datagrams.map fun q => if q.number = d then
        { q with records := updateAt q.records i fun x => { x with status := some Status.timeout, value := [] } } else q)) ∧
  (∀ (s : State) (q : Nat), s.sound = true →
    let waits (d : Deferred) : Bool := d.op == 5 && natLE (slice d.value 6 2) == q
    let found := s.hid.doors.transfers.find? fun x => x.stream == q
    Completes (.domainTransferIdle q) s fun t =>
      t.hid.doors = { s.hid.doors with transfers := s.hid.doors.transfers.filter fun x => x.stream != q } ∧
      t.hid.link.deferred = (s.hid.link.deferred.filter fun d => !waits d) ∧ t.outputs = s.outputs ∧
      (s.hid.link.deferred.all (fun d => !waits d) = true → t.hid.link = s.hid.link) ∧
      (found = none → t.hid.time = s.hid.time ∧ Only [] s t) ∧
      ∀ f, found = some f → t.hid.time.cycles = max s.hid.time.cycles ((5 * (f.touched + 30 * 10 ^ 9) + 3) / 4) ∧
        (s.isTile = true → f.key = keyOf 0x4180 6 → t.entry (keyOf 0x4180 0x0B) = 0xFF) ∧
        Only (if s.isTile ∧ f.key = keyOf 0x4180 6 then [keyOf 0x4180 0x0B] else []) s t) ∧
  (∀ (s : State) (d : Door) (k : Key) (bs : List Byte), s.sound = true → s.shaped = true → s.isSender = true →
    s.up .core = true → d = .tlaroek ∨ d = .pcie →
    (remoteLengthOk 2 k bs = false →
      exec (.broadcastWrite d k bs) s = .next { s with outputs := s.outputs ++ [.answer d Status.length []] }) ∧
    (remoteLengthOk 2 k bs = true → s.castPorts = [] →
      exec (.broadcastWrite d k bs) s = .next { s with outputs := s.outputs ++ [.answer d Status.unreachable []] }) ∧
    (remoteLengthOk 2 k bs = true → s.castPorts ≠ [] → Completes (.broadcastWrite d k bs) s fun t =>
      t.outputs = s.outputs ++ [.answer d Status.ok []] ∧ Only [] s t ∧
      (∀ p ∈ s.castPorts, (s.freeTag p).isSome = true → ∃ c : Cell,
        (t.port p).egress = (s.port p).egress ++ [s.waiting c] ∧ c.kind = 2 ∧ c.bcast = true ∧ c.turned = false ∧
        c.src = s.address ∧ c.fromEnd = s.endOf p ∧
        (s.hid.doors.requests.all fun r => r.port != p || r.tag != c.queue) = true ∧
        c.body = padTo 240 (spreadEntry ⟨0xFFFF, k, 2, 0xFF, 0, bs⟩).flatten) ∧
      (∀ p, p ∉ s.castPorts ∨ s.freeTag p = none → t.port p = s.port p) ∧
      t.hid = { s.hid with
        ports := t.hid.ports
        doors := { s.hid.doors with nextTag := t.hid.doors.nextTag, cells := t.hid.doors.cells } }))) ∧
  (
  (∀ (s : State) (d : Deferred) (rest : List Deferred), s.sound = true → s.isTile = true →
    s.servesAt (.service d.src) = true → s.hid.reset.coreHeld = false → s.hid.link.deferred = d :: rest →
    (s.deferredReady d = false → exec .deferredPerform s = .next s) ∧
    (s.deferredReady d = true →
    let owedTo (a : SweepAnswer) : Bool := a.port == d.port && a.tag == d.tag && a.src == d.src && a.left != 0
    let owes (a : SweepAnswer) : Prop := d.silent = false ∧ ∃ r, takeFirst owedTo s.hid.link.owed = some (a, r)
    let answered (a : SweepAnswer) (st : Nat) (v : List Byte) (t : State) : Prop := t.hid = { s.hid with
      almanac := t.hid.almanac
      link := { s.hid.link with
        deferred := rest
        owed := s.hid.link.owed.map fun b => if b = a then { a with
          left := a.left - 1
          done := a.done ++ [(spreadEntry ⟨s.address, d.key, d.op, st, d.label, v⟩).flatten] } else b } }
    let quiet (t : State) : Prop := t.outputs = s.outputs ∧ Only [keyOf 0x1400 8] s t
    (∀ a r, owes a → d.op = 1 → s.row d.key = some r → r.ty ≠ .domain → r.acc ≠ .wo → d.key ≠ keyOf 0x1401 9 →
      Completes .deferredPerform s fun t => answered a Status.ok (bytesLE r.ty.size (s.value d.key)) t ∧ quiet t) ∧
    (∀ a, owes a → d.op = 3 → d.key ≠ keyOf 0x1401 9 → let x := s.stagedAccess (.service d.src) d.key
      Completes .deferredPerform s fun t => answered a x.status x.value t ∧ quiet t) ∧
    (∀ a st, owes a → d.op = 1 ∨ d.op = 2 ∨ d.op = 3 → s.absent d.key = some st →
      Completes .deferredPerform s fun t => answered a st (if d.op = 2 then d.value else []) t ∧ quiet t) ∧
    (∀ a, owes a → d.op = 0 ∨ 5 < d.op → Completes .deferredPerform s fun t =>
      answered a Status.range d.value t ∧ quiet t) ∧
    (∀ r, d.op = 2 → s.row d.key = some r → r.ty ≠ .domain → r.acc = .rw → lengthOk r.ty (d.value.take r.ty.size) = true →
      let v := entryValue r.ty (d.value.take r.ty.size)
      r.takes s.pers v = true → s.command (mailboxGo 8) (.service d.src) d.key v = none →
      Completes .deferredPerform s fun t => t.entry d.key = v ∧ t.outputs = s.outputs ∧ Only (d.key :: doorMarks) s t ∧
        (∀ a, owes a → answered a Status.ok d.value t) ∧
        (d.silent = true → t.hid = { s.hid with
          almanac := t.hid.almanac, link := { s.hid.link with deferred := rest } })) ∧
    (d.silent = true → d.op ≠ 2 → Completes .deferredPerform s fun t =>
      t.hid = { s.hid with link := { s.hid.link with deferred := rest } } ∧ t.outputs = s.outputs ∧ Only [] s t))) ∧
  (∀ (s : State) (a : SweepAnswer) (rest : List SweepAnswer), s.sound = true → s.shaped = true → s.isTile = true →
    takeFirst (fun x => x.left == 0) s.hid.link.owed = some (a, rest) → a.port < 2 →
    let cells := (packAnswers a.done).map fun b => s.waiting (answerCell a s.address b)
    let p := if s.portUp a.port then a.port else 1 - a.port
    Completes .serviceAnsSend s fun t => t.outputs = s.outputs ∧ Only [] s t ∧
      t.hid = { s.hid with ports := t.hid.ports, link := { s.hid.link with owed := rest } } ∧
      (s.portUp p = true → t.port p = { s.port p with egress := (s.port p).egress ++ cells }) ∧
      ∀ q, q ≠ p ∨ s.portUp p = false → t.port q = s.port q) ∧
  (∀ (a : SweepAnswer) (mine : Nat) (b : List Byte), b.length ≤ 240 →
    let c := answerCell a mine b
    c.kind = 3 ∧ c.queue = a.src * 512 + a.tag ∧ c.src = mine ∧ c.fromEnd = a.fromEnd ∧ c.len = b.length ∧ c.seq = a.seq ∧
      c.body.take b.length = b))

/-- On a sender with CORE running: TLAROEK_DATAGRAM for another UDP port changes nothing; for the Tlaroek port one that is not
well formed counts in 1030h.05 and does nothing else. A datagram of READ records joins the datagrams in progress, with its
source and its records in their order. A READ record for the sender itself is answered OK with its entry's value; one for
an unreachable tile UNREACHABLE; one for a reachable tile notes the request, and one sweep cell waits on the port that
reaches it. TLAROEK_ANSWER sends the answer of the oldest datagram whose records all have one to the source of the
request. No other entry, and no memory, changes. (R53, R55, R57, R58, R59) -/
def Obligations.DatagramsAreAnswered : Prop :=
  (∀ (s : State) (a q u : Nat) (bs : List Byte), s.isSender = false ∨ s.up .core = false ∨ u ≠ s.entry (keyOf 0x1031 1) →
    exec (.tlaroekDatagram ⟨a, q, u⟩ bs) s = .next s) ∧
  (∀ (s : State) (a q : Nat) (bs : List Byte), s.sound = true → s.isSender = true → s.up .core = true →
    parseDatagram bs = none → Completes (.tlaroekDatagram ⟨a, q, s.entry (keyOf 0x1031 1)⟩ bs) s fun t =>
      t.entry (keyOf 0x1030 5) = satAdd 32 (s.entry (keyOf 0x1030 5)) 1 ∧ t.hid = s.hid ∧ t.outputs = s.outputs ∧
      Only [keyOf 0x1030 5] s t) ∧
  (∀ (s : State) (a q tr : Nat) (bs : List Byte) (records : List (List Byte)), s.sound = true → s.isSender = true →
    s.up .core = true → parseDatagram bs = some (tr, records) → (∀ r ∈ records, natLE (slice r 0 1) = 1) →
    Completes (.tlaroekDatagram ⟨a, q, s.entry (keyOf 0x1031 1)⟩ bs) s fun t => t.outputs = s.outputs ∧ SameMemory s t ∧
      ∃ d : Datagram, d.number = s.hid.doors.nextDatagram ∧ d.address = a ∧ d.port = q ∧ d.transaction = tr ∧
        d.records.map RecordState.request = records.map (·.take 16) ∧
        t.hid.doors.nextDatagram = s.hid.doors.nextDatagram + 1 ∧
        ((∀ e ∈ s.hid.doors.datagrams, e.number ≠ s.hid.doors.nextDatagram) →
          t.hid.doors.datagrams = s.hid.doors.datagrams ++ [d])) ∧
  (∀ (s : State) (a q : Nat) (bs r : List Byte) (tr target k : Nat), s.sound = true → s.shaped = true → s.isSender = true →
    s.servesAt .tlaroek = true → parseDatagram bs = some (tr, [r]) → natLE (slice r 0 1) = 1 →
    natLE (slice r 2 2) = target → keyOf (natLE (slice r 4 2)) (natLE (slice r 6 1)) = k →
    (∀ e ∈ s.hid.doors.datagrams, e.number ≠ s.hid.doors.nextDatagram) →
    let n := s.hid.doors.nextDatagram
    let joined (status : Option Nat) (v : List Byte) : DoorState := { s.hid.doors with
      datagrams := s.hid.doors.datagrams ++ [⟨n, a, q, tr, [⟨r.take 16, status, v⟩]⟩]
      nextDatagram := n + 1 }
    let c := Instr.tlaroekDatagram ⟨a, q, s.entry (keyOf 0x1031 1)⟩ bs
    (∀ w, target = s.address → target ≠ 0xFFFF → s.row k = some w → w.acc ≠ .wo → w.ty ≠ .domain → k ≠ keyOf 0x1401 9 →
      k / 256 ≠ 0x1050 → Completes c s fun t => t.outputs = s.outputs ∧ Only [] s t ∧
        t.hid = { s.hid with doors := joined (some Status.ok) (bytesLE w.ty.size (s.value k)) }) ∧
    (target ≠ s.address → target ≠ 0xFFFF → s.portTo target = none → Completes c s fun t => t.outputs = s.outputs ∧
      Only [] s t ∧ t.hid = { s.hid with doors := joined (some Status.unreachable) [] }) ∧
    (∀ p tag, target ≠ s.address → target ≠ 0xFFFF → s.portTo target = some p → s.freeTag p = some tag →
      Completes c s fun t => t.outputs = s.outputs ∧ Only [] s t ∧ ∃ x : Cell,
        (t.port p).egress = (s.port p).egress ++ [s.waiting x] ∧ x.kind = 2 ∧ x.queue = tag ∧ x.seq = s.hid.doors.cells ∧
        x.src = s.address ∧ x.body = padTo 240 (serviceBytes ⟨target, k, 1, 0xFF, 0, []⟩) ∧
        (∀ e, e ≠ p → t.port e = s.port e) ∧
        t.hid = { s.hid with
          ports := t.hid.ports
          doors := { joined none [] with
            nextTag := (tag + 1) % 512
            cells := (s.hid.doors.cells + 1) % 2 ^ 32
            requests := s.hid.doors.requests ++ [⟨tag, p, .record n 0, target, 1, k, none, s.uptime⟩] } })) ∧
  (∀ (s : State) (d : Datagram) (rest : List Datagram),
    takeFirst (fun x : Datagram => x.records.all fun r => r.status.isSome) s.hid.doors.datagrams = some (d, rest) →
    exec .tlaroekAnswer s = .next { s with
      outputs := s.outputs ++ [.datagram d.address d.port d.answer]
      hid := { s.hid with doors := { s.hid.doors with datagrams := rest } } }) ∧
  ∀ d : Datagram, d.transaction < 2 ^ 32 → d.answer.take 2 = bytesLE 2 0x4C54 ∧ natLE (slice d.answer 3 1) = 1 ∧
    natLE (slice d.answer 4 4) = d.transaction ∧
    (d.records.length < 2 ^ 16 → natLE (slice d.answer 8 2) = d.records.length) ∧
    (d.answer.length < 2 ^ 16 → natLE (slice d.answer 10 2) = d.answer.length)

/-- Of an entry that the doors may read and whose value has at most 8 bytes: a BAR0 read of bytes of its slot completes with
those bytes and OK in 1030h.01, of an absent one with ones, its status and its key in 1030h.02; a whole-slot BAR0 write of
an RW entry puts the value in effect, and one of other bytes is recorded with LENGTH; the last slot of the window is read
or written and 1050h.02 moves on by 64; MAILBOX_GO reads it into 102nh.06 with OK, sends it to another target, or is BUSY;
an SPI read frame is answered with status, length and value, and a write frame with its status, unless the answer comes
too late. While CORE is held SPI answers 0xFF and UNAVAILABLE. A short or unknown frame and one cut off count in 1030h.06;
a write not ready after 64 wait bytes answers TIMEOUT and is recorded. The first PCIe access sets 6020h.01. (R53, R62,
R63, R65, R66, R67, R68, R437) -/
def Obligations.HostDoorsServeAnAccess : Prop :=
  (∀ (s : State) (k : Key) (w : Row), s.sound = true → s.row k = some w → w.acc ≠ .wo → w.ty ≠ .domain →
    w.ty.size ≤ 8 → k ≠ keyOf 0x1401 9 → k / 256 ≠ 0x1050 → k < 2 ^ 24 → s.serves = true →
    (s.isSender = true → k ≠ keyOf 0x6020 1 → ∀ f n, n ∈ [1, 2, 4, 8] → f + n ≤ 8 →
      Completes (.bar0Access false (8 * k) f n []) s fun t =>
        t.outputs = s.outputs ++ [.completion (slice (slotBytes (some w.ty) (bytesLE w.ty.size (s.value k))) f n) false] ∧
        t.entry (keyOf 0x1030 1) = Status.ok ∧ t.hid = s.hid ∧ Only [keyOf 0x1030 1, keyOf 0x6020 1] s t) ∧
    (s.isSender = true → ∀ n < 8, s.entry (keyOf (0x1020 + n) 0x0F) ≠ 0xFF → s.entry (keyOf (0x1020 + n) 3) = 1 →
      s.entry (keyOf (0x1020 + n) 2) = k → k / 256 ≠ 0x1020 + n → s.address ≠ 0xFFFF →
      let target := s.entry (keyOf (0x1020 + n) 1)
      (target = s.address → Completes (.mailboxGo n) s fun t => t.entry (keyOf (0x1020 + n) 0x0F) = Status.ok ∧
        t.entry (keyOf (0x1020 + n) 6) = s.value k % 256 ^ w.ty.size ∧ Answered .pcie Status.ok [] t ∧ SameBeside s t ∧
        Only ((List.range' 6 10).map (fun j => keyOf (0x1020 + n) j) ++ doorMarks) s t)) ∧
    (s.isTile = true → ∀ f : List Byte, 4 ≤ f.length → natLE (slice f 0 1) = 0x03 →
      keyOf (natLE (slice f 1 2)) (natLE (slice f 3 1)) = k →
      let late := s.pending.head? = some .spiWaitTimeout
      exec (.spiFrame f) s = .next { s with
        outputs := s.outputs ++ if late then [] else
          [.spi (bytesLE 1 Status.ok ++ bytesLE 1 w.ty.size ++ bytesLE w.ty.size (s.value k))]
        hid := { s.hid with doors := { s.hid.doors with spiWrite := none } } })) ∧
  (∀ (s : State) (n p tag : Nat), s.sound = true → s.shaped = true → s.servesAt .pcie = true → n < 8 →
    s.entry (keyOf (0x1020 + n) 0x0F) ≠ 0xFF → s.entry (keyOf (0x1020 + n) 3) = 1 →
    let target := s.entry (keyOf (0x1020 + n) 1)
    let k := s.entry (keyOf (0x1020 + n) 2)
    target ≠ s.address → target ≠ 0xFFFF → s.portTo target = some p → s.freeTag p = some tag →
    Acts (.mailboxGo n) .pcie Status.ok [keyOf (0x1020 + n) 0x0F] s fun t => t.entry (keyOf (0x1020 + n) 0x0F) = 0xFF ∧
      t.hid.doors.requests = s.hid.doors.requests ++ [⟨tag, p, .mailbox n, target, 1, k, none, s.uptime⟩] ∧
      ∃ x : Cell, (t.port p).egress = (s.port p).egress ++ [s.waiting x] ∧ x.kind = 2 ∧ x.queue = tag ∧
        x.body = padTo 240 (serviceBytes ⟨target, k, 1, 0xFF, 0, []⟩)) ∧
  (∀ (s : State) (n : Nat), s.sound = true → s.servesAt .pcie = true → n < 8 → s.entry (keyOf (0x1020 + n) 0x0F) = 0xFF →
    Refused (.mailboxGo n) .pcie Status.busy s) ∧
  (∀ (s : State) (k : Key) (f n : Nat), s.sound = true → s.isSender = true → s.up .core = true → k < 2 ^ 24 →
    (rowsOf s.pers (k / 256)).isNone = true → n ∈ [1, 2, 4, 8] → f + n ≤ 8 →
    Completes (.bar0Access false (8 * k) f n []) s fun t =>
      t.outputs = s.outputs ++ [.completion (List.replicate n 0xFF) false] ∧ t.entry (keyOf 0x1030 1) = Status.noObject ∧
      t.entry (keyOf 0x1030 2) = k ∧ SameBeside s t ∧
      Only [keyOf 0x1030 1, keyOf 0x1030 2, keyOf 0x6020 1, keyOf 0x1400 8] s t) ∧
  (∀ (s : State) (k : Key) (w : Row) (bs : List Byte), s.sound = true → s.servesAt .pcie = true →
    s.row k = some w → w.acc = .rw → w.ty ≠ .domain → w.ty ≠ .str → w.ty.size ∈ [1, 2, 4, 8] → k < 2 ^ 24 →
    (bs.length = w.ty.size → w.takes s.pers (natLE bs) = true → s.command (mailboxGo 8) .pcie k (natLE bs) = none →
      Completes (.bar0Access true (8 * k) 0 bs.length bs) s fun t => t.entry k = natLE bs ∧ t.outputs = s.outputs ∧
        t.entry (keyOf 0x1030 1) = Status.ok ∧ SameBeside s t ∧
        Only (k :: keyOf 0x1030 1 :: keyOf 0x6020 1 :: doorMarks) s t) ∧
    (∀ f n, f ≠ 0 ∨ bs.length ≠ w.ty.size → Completes (.bar0Access true (8 * k) f n bs) s fun t => t.outputs = s.outputs ∧
      t.entry (keyOf 0x1030 1) = Status.length ∧ t.entry (keyOf 0x1030 2) = k ∧ SameBeside s t ∧
      Only [keyOf 0x1030 1, keyOf 0x1030 2, keyOf 0x6020 1, keyOf 0x1400 8] s t)) ∧
  (∀ s : State, s.sound = true → s.servesAt .pcie = true →
    let r := s.domainBytes s.windowKey s.windowOffset 64
    let moves (t : State) : Prop := t.entry (keyOf 0x1050 2) = (s.windowOffset + 64) % 2 ^ 32 ∧
      t.entry (keyOf 0x1030 1) = Status.ok ∧ SameBeside s t ∧
      Only [keyOf 0x1030 1, keyOf 0x1050 2, keyOf 0x1050 3, keyOf 0x6020 1] s t
    (r.1 = Status.ok → s.windowKey ≠ keyOf 0x1500 8 → Completes (.bar0WindowAdvance false []) s fun t =>
      t.outputs = s.outputs ++ [.completion (bytesLE 8 (natLE (slice r.2 56 8))) false] ∧
      t.entry (keyOf 0x1050 3) = Status.ok ∧ moves t) ∧
    (r.1 ≠ Status.ok → Completes (.bar0WindowAdvance false []) s fun t => t.entry (keyOf 0x1050 3) = r.1 ∧ moves t) ∧
    ∀ (k : Key) (w : Row) (bs : List Byte), bs.length = 8 → s.windowKey = k → k ≠ keyOf 0x1500 8 → s.row k = some w →
      let content := (List.range 7).flatMap (fun j => bytesLE 8 (s.reg 0x1050 (0x10 + j))) ++ bs
      let st := (s.domainWriteAccess .pcie k s.windowOffset content 64).status
      let at0 := domainBase k + s.windowOffset
      Completes (.bar0WindowAdvance true bs) s fun t => t.outputs = s.outputs ∧ t.entry (keyOf 0x1050 3) = st ∧
        t.entry (keyOf 0x1050 2) = (s.windowOffset + 64) % 2 ^ 32 ∧ t.entry (keyOf 0x1050 0x17) = natLE bs ∧
        t.hid = { s.hid with almanac := t.hid.almanac, commit := { s.hid.commit with
          staged := t.hid.commit.staged, content := t.hid.commit.content } } ∧
        (st = Status.ok → w.acc = .rws → t.mem = s.mem ∧ (lookupKey t.hid.commit.staged k).isSome = true ∧
          ∀ i < 64, lookupKey t.hid.commit.content (at0 + i) = some (content.getD i 0)) ∧
        (st = Status.ok → w.acc = .rw → SameMemoryBut at0 64 s t ∧ t.hid.commit = s.hid.commit ∧
          ∀ i < 64, t.byte (at0 + i) = content.getD i 0) ∧
        (st ≠ Status.ok → t.mem = s.mem ∧ t.hid.commit = s.hid.commit) ∧
        SameEntriesBut ([keyOf 0x1030 1, keyOf 0x1050 2, keyOf 0x1050 3, keyOf 0x1050 0x17, keyOf 0x6020 1] ++ doorMarks) s t) ∧
  (∀ (s : State) (f : List Byte), s.sound = true → s.isTile = true →
    (s.up .core = false → exec (.spiFrame f) s =
      .next { s with outputs := s.outputs ++ [.spi (0xFF :: bytesLE 1 Status.unavailable)] }) ∧
    (s.up .core = true →
      let drops (c : Instr) (out : List Output) : Prop := Completes c s fun t => t.hid = s.hid ∧ t.outputs = s.outputs ++ out ∧
        t.entry (keyOf 0x1030 6) = satAdd 32 (s.entry (keyOf 0x1030 6)) 1 ∧ Only [keyOf 0x1030 6] s t
      drops .spiFrameDiscard [] ∧
      (frameLength f = none → drops (.spiFrame f) [.spi (List.replicate (f.length - 1) 0xFF)]) ∧
      (∀ n, frameLength f = some n → f.length < n → drops (.spiFrame f) []) ∧
      (∀ k w, natLE (slice f 0 1) = 0x02 → keyOf (natLE (slice f 1 2)) (natLE (slice f 3 1)) = k → 5 ≤ f.length →
        natLE (slice f 4 1) = f.length - 5 → s.mode ≠ Mode.vigil → s.row k = some w → w.acc = .rw → w.ty ≠ .domain →
        let v := entryValue w.ty (f.drop 5)
        lengthOk w.ty (f.drop 5) = true → w.takes s.pers v = true → s.command (mailboxGo 8) .spi k v = none →
        Completes (.spiFrame f) s fun t => t.entry k = v ∧ Only (k :: doorMarks) s t ∧
          (s.pending.head? ≠ some .spiWaitTimeout → t.outputs = s.outputs ++ [.spi (bytesLE 1 Status.ok)]) ∧
          (s.pending.head? = some .spiWaitTimeout → t.outputs = s.outputs ∧
            t.hid.doors.spiWrite = some (k, bytesLE 1 Status.ok))) ∧
      (s.hid.doors.spiWrite = none → exec .spiWaitTimeout s =
        .next { s with outputs := s.outputs ++ [.spi (bytesLE 1 Status.timeout)] }) ∧
      (∀ k st, s.hid.doors.spiWrite = some (k, [st]) → k < 2 ^ 24 → Completes .spiWaitTimeout s fun t =>
        t.outputs = s.outputs ++ [.spi (bytesLE 1 Status.timeout)] ∧ t.entry (keyOf 0x1030 3) = st.toNat ∧
        t.entry (keyOf 0x1030 4) = k ∧ t.hid = { s.hid with doors := { s.hid.doors with spiWrite := none } } ∧
        Only [keyOf 0x1030 3, keyOf 0x1030 4] s t)))

/-- QUEUE_CELL_RECEIVE on a tile: with d = SEQ − H, a cell of a queue without a window, one ahead of H, one within 4096 of H
not seen, and a FIRST cell further back (counted in 2101h.05) are taken: the window shows it seen, and its digest is kept.
A taken one-cell message of streams 64 to 511 with room in its queue, and a layer cell whose LT lies more than one and at
most four periods ahead, is complete; in FREEZE a cell is dropped and counted. A cell seen counts in 2101h.01, and in
2101h.02 where its digest is kept, and also in 2101h.03 with one event a tick where that differs, else in 2101h.07; one
too far back that is no FIRST counts in 2101h.04. Neither is taken. A sender gathers its cell without a window. (R90,
R149, R151, R152, R176, R232, R250, R290) -/
def Obligations.QueueCellsPassTheirWindow : Prop :=
  (∀ (s : State) (p : Nat) (c : Cell) (rest : List (Nat × Cell)), s.sound = true → s.isTile = true →
    s.takeCell (fun x => x.2.kind == 1) = some ((p, c), rest) →
    let q := c.queue % 512
    let w := lookupKey s.hid.pair.windows q
    let h := (w.map Window.high).getD 0
    let d := lt32Diff c.seq h
    let seen := bitAt ((w.map Window.seen).getD 0) (-d).toNat
    let plain := s.up .pipe = true ∧ s.mode ≠ Mode.freeze
    let gathers : Prop := plain ∧ ((64 ≤ q ∧ s.queueFull q c = false) ∨ (q < 64 ∧ (q / 8 == 7 && s.layerDirect 7) = false ∧
      c.timed = true ∧ s.stepped = true ∧ s.moreThanP (lt32Diff c.lt s.lt32) 4 = false ∧
      s.moreThanP (lt32Diff c.lt s.lt32) 1 = true))
    let marks : List Key := if s.mode = Mode.freeze then [keyOf 0x1644 0x0B]
      else if q < 64 then [keyOf 0x1302 0x0A, keyOf (0x4110 + q / 8) 0x10] else [keyOf 0x4204 2, keyOf 0x4204 3]
    let takenWith (n : Window) (ks : List Key) (t : State) : Prop :=
      lookupKey t.hid.pair.windows q = some n ∧ (∀ x, x ≠ q → lookupKey t.hid.pair.windows x = lookupKey s.hid.pair.windows x) ∧
      t.hid.pair.digests.getLast? = some (c.queue, c.seq, cellDigest c + if c.fromEnd then 2 ^ 32 else 0) ∧
      t.hid.link = { s.hid.link with rx := rest } ∧ t.outputs = s.outputs ∧
      (gathers → c.first = true → c.last = true → (∀ g ∈ s.hid.compose.gathering, g.1 ≠ q) →
        t.hid.compose.messages = s.hid.compose.messages ++ [⟨q, c.body.take c.len, c.lt, c.src⟩] ∧
        t.hid.compose.gathering = s.hid.compose.gathering ∧ Only ks s t) ∧
      (s.mode = Mode.freeze → t.entry (keyOf 0x1644 0x0B) = satAdd 32 (s.entry (keyOf 0x1644 0x0B)) 1 ∧
        t.hid.compose.messages = s.hid.compose.messages ∧ t.hid.compose.gathering = s.hid.compose.gathering) ∧
      Only (ks ++ marks) s t
    (w = none → Completes .queueCellReceive s fun t => takenWith ⟨c.seq, 1⟩ [] t) ∧
    (w.isSome = true → 0 < d → d < 4096 → Completes .queueCellReceive s fun t => ∃ b, takenWith ⟨c.seq, b⟩ [] t ∧
      bitAt b 0 = true ∧ ∀ i, i < 4096 → d.toNat ≤ i → bitAt b i = bitAt ((w.map Window.seen).getD 0) (i - d.toNat)) ∧
    (w.isSome = true → 4096 ≤ d → Completes .queueCellReceive s fun t => takenWith ⟨c.seq, 1⟩ [] t) ∧
    (w.isSome = true → d ≤ 0 → -4096 < d → seen = false → Completes .queueCellReceive s fun t =>
      takenWith ⟨h, withBit ((w.map Window.seen).getD 0) (-d).toNat⟩ [] t) ∧
    (w.isSome = true → d ≤ -4096 → c.first = true → Completes .queueCellReceive s fun t =>
      t.entry (keyOf 0x2101 5) = satAdd 32 (s.entry (keyOf 0x2101 5)) 1 ∧
      takenWith ⟨c.seq, 1⟩ [keyOf 0x2101 5, keyOf 0x1400 8] t)) ∧
  (∀ (s : State) (p : Nat) (c : Cell) (rest : List (Nat × Cell)) (w : Window), s.sound = true → s.isTile = true →
    s.takeCell (fun x => x.2.kind == 1) = some ((p, c), rest) → lookupKey s.hid.pair.windows (c.queue % 512) = some w →
    let d := lt32Diff c.seq w.high
    let kept := s.hid.pair.digests.find? fun x => x.1 == c.queue && x.2.1 == c.seq
    let left (k : Key) (t : State) : Prop := t.entry k = satAdd 32 (s.entry k) 1 ∧ t.hid.compose = s.hid.compose ∧
      t.hid.pair = s.hid.pair ∧ t.hid.link = { s.hid.link with rx := rest }
    (d ≤ -4096 → c.first = false → Completes .queueCellReceive s fun t => left (keyOf 0x2101 4) t ∧
      t.outputs = s.outputs ∧ Only [keyOf 0x2101 4, keyOf 0x1400 8] s t) ∧
    (d ≤ 0 → -4096 < d → bitAt w.seen (-d).toNat = true →
      (kept = none → Completes .queueCellReceive s fun t => left (keyOf 0x2101 1) t ∧ left (keyOf 0x2101 7) t ∧
        t.outputs = s.outputs ∧ Only [keyOf 0x2101 1, keyOf 0x2101 7, keyOf 0x1400 8] s t) ∧
      (∀ x, kept = some x → x.2.2 % 2 ^ 32 = cellDigest c → Completes .queueCellReceive s fun t =>
        left (keyOf 0x2101 1) t ∧ left (keyOf 0x2101 2) t ∧ t.outputs = s.outputs ∧
        Only [keyOf 0x2101 1, keyOf 0x2101 2] s t) ∧
      (∀ x, kept = some x → x.2.2 % 2 ^ 32 ≠ cellDigest c → Completes .queueCellReceive s fun t =>
        (∀ i ∈ [1, 2, 3], left (keyOf 0x2101 i) t) ∧ t.hid.counts.diverged = true ∧
        t.outputs = s.outputs ++ (if s.hid.counts.diverged then [] else [.event 152 c.queue]) ∧
        (s.flag 0x2101 8 59 = true → t.entry (keyOf 0x2101 8) = s.entry (keyOf 0x2101 8)) ∧
        (s.flag 0x2101 8 59 = false → c.queue < 2 ^ 18 → c.seq < 2 ^ 32 → t.flag 0x2101 8 59 = true ∧
          field (t.entry (keyOf 0x2101 8)) 49 32 = c.queue ∧ field (t.entry (keyOf 0x2101 8)) 31 0 = c.seq) ∧
        Only [keyOf 0x2101 1, keyOf 0x2101 2, keyOf 0x2101 3, keyOf 0x2101 8, keyOf 0x1400 8] s t))) ∧
  (∀ (s : State) (p : Nat) (c : Cell) (rest : List (Nat × Cell)), s.isTile = false →
    s.takeCell (fun x => x.2.kind == 1) = some ((p, c), rest) →
    let q := c.queue % 512
    Completes .queueCellReceive s fun t => t.outputs = s.outputs ∧ Only [] s t ∧
      t.hid = { s.hid with
        link := { s.hid.link with rx := rest }
        compose := { s.hid.compose with gathering := t.hid.compose.gathering, messages := t.hid.compose.messages } } ∧
      (c.first = true → c.last = true → (∀ g ∈ s.hid.compose.gathering, g.1 ≠ q) →
        t.hid.compose.messages = s.hid.compose.messages ++ [⟨q, c.body.take c.len, c.lt, c.src⟩] ∧
        t.hid.compose.gathering = s.hid.compose.gathering))

/-- Between the senders of a pair: DIGEST_SEND, when it is due, queues the cell of R153 on a port, once, with the self-check,
the digest and the count of its tick; it is due when the tick's windows are cut, no layer cell waits and LT(n) − P has not
passed. A DIGEST that arrives shows the peer's CFGDIG, and its difference with an event, and waits unless its tick is
settled. DIGEST_COMPARE with digests that agree adds one to the run of agreement of the port; with digests that differ it
ends the run, counts in 2102h.03 and raises an event, and where the table says so and the peer has not yielded the port,
this sender yields it from tick n + 2. DIGEST_MISSING ends the run and counts in 2102h.04. YIELD_RESUME ends a port's
yield after a run of at least 2100h.07 with the self-check passed; 2102h.02 shows it with the next window. (R153, R154,
R155, R156, R157) -/
def Obligations.DigestsAreComparedAndPortsYield : Prop :=
  (∀ (s : State) (p n : Nat), s.sound = true → s.shaped = true → p < 16 →
    (s.digestDue p n = true ↔ s.inPair = true ∧ s.portUp p = true ∧ s.stepped = true ∧ s.tilesOn p ≠ [] ∧
      s.hid.ingest.sliced = some n ∧ (s.port p).layerWaits = false ∧ s.atLeastP (s.at n - s.ns) 1 = true ∧
      (s.ownDigest p n).sent = false) ∧
    (s.digestDue p n = false → exec (.digestSend p n) s = .next s) ∧
    (s.digestDue p n = true → Completes (.digestSend p n) s fun t => ∃ c : Cell,
      t.port p = { s.port p with egress := (s.port p).egress ++ [s.waiting c] } ∧ c.kind = 6 ∧ c.len = 32 ∧
      c.bcast = false ∧ c.queue = (if s.address = 0 then 1 else 0) * 512 ∧ c.lt = s.lt n ∧ cellField c 0 1 = p % 256 ∧
      c.fromEnd = s.endOf p ∧ c.src = s.address ∧
      cellField c 1 1 = (if s.selfFailed then 1 else 0) + (if s.yielding p then 2 else 0) + (if s.timingMaster then 4 else 0) ∧
      cellField c 2 2 = s.selfCheck % 2 ^ 16 ∧ cellField c 4 8 = n % 2 ^ 64 ∧
      cellField c 12 4 = (s.ownDigest p n).xor % 2 ^ 32 ∧ cellField c 16 4 = (s.ownDigest p n).count % 2 ^ 32 ∧
      cellField c 20 4 = s.configDigest % 2 ^ 32 ∧
      t.ownDigest p n = { s.ownDigest p n with failed := s.selfFailed, sent := true } ∧ t.outputs = s.outputs ∧
      (∀ q, q ≠ p → t.port q = s.port q) ∧
      t.hid = { s.hid with ports := t.hid.ports, pair := { s.hid.pair with own := t.hid.pair.own } } ∧ Only [] s t)) ∧
  (∀ (s : State) (p : Nat) (lanes : List (List Level)) (c : Cell), s.sound = true → s.shaped = true → s.portLive p = true →
    s.portUp p = true → s.isSender = true → c.wf = true → (s.port p).lost = false →
    (s.port p).rx.scramble (s.slotIn p lanes) = cellBlocks c [] → c.kind = 6 → c.queue / 512 = s.address →
    let differs := cellField c 20 4 != s.configDigest
    let news := differs && !s.flag 0x2102 5 6
    Completes (.receiveSlot p lanes) s fun t => t.entry (keyOf 0x2102 7) = cellField c 20 4 ∧ t.flag 0x2102 5 6 = differs ∧
      field (t.entry (keyOf 0x2100 8)) 7 0 = (if news then satAdd 8 (field (s.entry (keyOf 0x2100 8)) 7 0) 1
        else field (s.entry (keyOf 0x2100 8)) 7 0) ∧
      t.outputs = s.outputs ++ (if news then [.event 157 0] else []) ∧
      t.hid.link = { s.hid.link with
        rx := s.hid.link.rx ++ if s.settled (cellField c 0 1) (cellField c 4 8) then [] else [(p, c)] } ∧
      Only [keyOf 0x2102 5, keyOf 0x2102 7, keyOf 0x2100 8] s t) ∧
  (∀ (s : State) (p q n : Nat) (c : Cell) (rest : List (Nat × Cell)), s.sound = true → s.shaped = true → s.inPair = true →
    p < 16 → (s.ownDigest p n).sent = true → s.settled p n = false →
    s.takeCell (fun x => x.2.kind == 6 && cellField x.2 0 1 == p && cellField x.2 4 8 == n) = some ((q, c), rest) →
    let own := s.ownDigest p n
    let done (t : State) : Prop := t.settled p n = true ∧ t.hid.link = { s.hid.link with rx := rest }
    let agree : Bool := cellField c 12 4 == own.xor && cellField c 16 4 == own.count
    let must : Bool := (own.failed && !bitAt (cellField c 1 1) 0) ||
      (own.failed == bitAt (cellField c 1 1) 0 && s.address == 1)
    (agree = true → Completes (.digestCompare p n) s fun t => done t ∧ Only [] s t ∧ t.outputs = s.outputs ∧
      t.hid.pair.agree.getD p 0 = s.hid.pair.agree.getD p 0 + 1 ∧ t.hid.pair.yields = s.hid.pair.yields) ∧
    (agree = false → Completes (.digestCompare p n) s fun t => done t ∧ Only [keyOf 0x2102 3, keyOf 0x1400 8] s t ∧
      t.entry (keyOf 0x2102 3) = satAdd 32 (s.entry (keyOf 0x2102 3)) 1 ∧ t.hid.pair.agree.getD p 0 = 0 ∧
      Output.event 155 p ∈ t.outputs ∧
      (lookupKey t.hid.pair.yields p = if must = true ∧ bitAt (cellField c 1 1) 1 = false then
        some (min (n + 2) ((lookupKey s.hid.pair.yields p).getD (n + 2))) else lookupKey s.hid.pair.yields p))) ∧
  (∀ (s : State) (p n : Nat), s.sound = true → s.shaped = true → s.inPair = true → s.stepped = true → p < 16 →
    s.tilesOn p ≠ [] → s.tick ≤ n → n ≤ s.tick + 1 → s.settled p n = false →
    (∀ q ∈ s.hid.link.rx, q.2.kind ≠ 6 ∨ cellField q.2 0 1 ≠ p ∨ cellField q.2 4 8 ≠ n) →
    Completes (.digestMissing p n) s fun t => t.entry (keyOf 0x2102 4) = satAdd 32 (s.entry (keyOf 0x2102 4)) 1 ∧
      RunsTo (s.at n) s t ∧ t.hid.pair.agree.getD p 0 = 0 ∧ t.settled p n = true ∧
      t.hid.pair.yields = s.hid.pair.yields ∧ t.outputs = s.outputs ∧ Only [keyOf 0x2102 4, keyOf 0x1400 8] s t) ∧
  (∀ (s : State) (p : Nat), s.sound = true → s.yielding p = true → s.selfFailed = false →
    s.entry (keyOf 0x2100 7) ≤ s.hid.pair.agree.getD p 0 → exec (.yieldResume p) s = .next { s with
      hid := { s.hid with pair := { s.hid.pair with yields := removeKey s.hid.pair.yields p } } })

/-- HARVEST_SEND on a device with a grid and an address queues its report of the tick before with LT(n): a sender on each UP
port, a tile on E0 and, on a loop, on E1. HARVEST_RECEIVE on a sender stores a report in its place of the table with the
tick and the port, and ends the silence; of the other sender it notes whether it is master and clean, its bad ticks, and
on the sender at address 1 its claim. DEVICE_SILENT marks a device not heard for more than three ticks, counts it and
raises an event. The tick boundary decides the clock-upstream port, and CLOCK_UPSTREAM_CHANGE takes the choice: a tile
leaves the port of the master after two ticks without beacons for a port with beacons, and goes back after 256 with them;
a standby keeps a port with beacons, else takes one that has them. Nothing else changes. (R158, R159, R160, R162) -/
def Obligations.HarvestReachesTheSender : Prop :=
  (∀ s : State, s.sound = true → s.shaped = true →
    let c (p : Nat) := plainCell 5 s.address 240 0 (s.lt s.tick) false (s.ownEnd p) false s.harvestBody
    let ports := if s.isSender then s.upPorts
      else (if s.portUp 0 then [0] else []) ++ if s.looped ∧ s.portUp 1 then [1] else []
    (s.up .link = false ∨ s.stepped = false ∨ 511 < s.address → exec .harvestSend s = .next s) ∧
    (s.up .link = true → s.stepped = true → s.address ≤ 511 → Completes .harvestSend s fun t =>
      (∀ p ∈ ports, t.port p = { s.port p with egress := (s.port p).egress ++ [s.waiting (c p)] }) ∧
      (∀ p, p ∉ ports → t.port p = s.port p) ∧ t.hid = { s.hid with ports := t.hid.ports } ∧ t.outputs = s.outputs ∧
      Only [] s t) ∧
    natLE (slice s.harvestBody 0 2) = s.address % 2 ^ 16 ∧
    natLE (slice s.harvestBody 2 1) = (if s.isSender then 2 else 1) ∧ natLE (slice s.harvestBody 3 1) = s.mode % 256 ∧
    natLE (slice s.harvestBody 4 8) = (s.tick - 1) % 2 ^ 64 ∧ natLE (slice s.harvestBody 12 2) = s.harvestFlags % 2 ^ 16 ∧
    natLE (slice s.harvestBody 14 2) = s.entry (keyOf 0x1644 1) % 2 ^ 16 ∧
    natLE (slice s.harvestBody 16 2) = s.entry (keyOf 0x1001 4) % 2 ^ 16) ∧
  (∀ (s : State) (p : Nat) (c : Cell) (rest : List (Nat × Cell)), s.sound = true → s.isSender = true →
    s.takeCell (fun x => x.2.kind == 5) = some ((p, c), rest) →
    let a := cellField c 0 2
    let flags := cellField c 12 2
    let silent := bitAt (s.entry (keyOf 0x2111 (a / 16 + 1))) (a % 16)
    let ofPeer : Prop := cellField c 2 1 = 2 ∧ a = s.peer
    let again := (lookupKey s.hid.pair.heard a).isSome && s.contentWord 0x2110 1 (256 * a + 20) 8 == cellField c 4 8
    (512 ≤ a → Completes .harvestReceive s fun t => t.hid = { s.hid with link := { s.hid.link with rx := rest } } ∧
      t.outputs = s.outputs ∧ Only [] s t) ∧
    (a < 512 → Completes .harvestReceive s fun t =>
      t.content 0x2110 1 (256 * a) 256 = bytesLE 8 s.tick ++ bytesLE 1 p ++ bytesLE 1 (if c.fromEnd then 1 else 0) ++
        zeroBytes 6 ++ padTo 240 c.body ∧
      SameMemoryBut (domainBase (keyOf 0x2110 1) + 256 * a) 256 s t ∧
      bitAt (t.entry (keyOf 0x2111 (a / 16 + 1))) (a % 16) = false ∧
      t.entry (keyOf 0x2110 2) = s.entry (keyOf 0x2110 2) - (if silent then 1 else 0) ∧
      t.hid = { s.hid with
        link := { s.hid.link with rx := rest }
        pair := t.hid.pair
        counts := { s.hid.counts with harvests := s.hid.counts.harvests + 1 } } ∧
      t.hid.pair.heard = insertKey s.hid.pair.heard a s.tick ∧
      (¬ofPeer → t.hid.pair = { s.hid.pair with heard := t.hid.pair.heard }) ∧
      (ofPeer → t.hid.pair.peerMaster = bitAt flags 8 ∧
        t.hid.pair.peerClean = (cellField c 3 1 == 4 && !([0, 1, 6, 11].any (bitAt flags))) ∧
        t.hid.pair.harvestBad = (if again then s.hid.pair.harvestBad
          else if bitAt flags 0 || bitAt flags 1 then s.hid.pair.harvestBad + 1 else 0) ∧
        (s.address = 1 → t.hid.pair.claim = if bitAt flags 9 then some (cellField c 40 8) else none) ∧
        (s.address ≠ 1 → t.hid.pair.claim = s.hid.pair.claim)) ∧ t.outputs = s.outputs ∧
      SameEntriesBut ((if silent then [keyOf 0x2111 (a / 16 + 1), keyOf 0x2110 2] else []) ++
        if s.stepped then [] else [keyOf 0x2100 1]) s t)) ∧
  (∀ (s : State) (a n : Nat), s.sound = true → s.isSender = true → a < 512 → lookupKey s.hid.pair.heard a = some n →
    n + 3 < s.tick → bitAt (s.entry (keyOf 0x2111 (a / 16 + 1))) (a % 16) = false → Completes (.deviceSilent a) s fun t =>
      bitAt (t.entry (keyOf 0x2111 (a / 16 + 1))) (a % 16) = true ∧
      t.entry (keyOf 0x2110 2) = satAdd 16 (s.entry (keyOf 0x2110 2)) 1 ∧ t.outputs = s.outputs ++ [.event 160 a] ∧
      SameBeside s t ∧ Only [keyOf 0x2111 (a / 16 + 1), keyOf 0x2110 2, keyOf 0x1400 8] s t) ∧
  (∀ s : State, s.sound = true → s.shaped = true →
    let now := s.entry (keyOf 0x2100 3)
    let want := if s.entry (keyOf 0x2100 2) = 1 then 1 else 0
    let tileChoice (u : State) : Nat := if now = want then
        (if 2 ≤ (u.port want).missRun ∧ (u.port (1 - want)).hitRun ≠ 0 then 1 - want else now)
      else if 256 ≤ (u.port want).hitRun then want else now
    (∀ q, q < 256 → s.up .link = true → s.stepped = true → s.hid.pair.upstream = some q →
      Completes .clockUpstreamChange s fun t => t.entry (keyOf 0x2100 3) = q ∧
        t.hid = { s.hid with pair := { s.hid.pair with upstream := none } } ∧ t.outputs = s.outputs ∧
        Only [keyOf 0x2100 3] s t) ∧
    (s.isTile = true → s.up .link = true → s.stepped = true → s.hid.heat.run = none → s.session = 0 →
      Completes .tickBoundary s fun t => t.hid.pair.upstream = some (tileChoice t) ∧
        ∀ p < 2, (t.port p).hitRun = (if (s.port p).beaconTick then (s.port p).hitRun + 1 else 0) ∧
          (t.port p).missRun = if (s.port p).beaconTick then 0 else (s.port p).missRun + 1) ∧
    (s.timingMaster = true → s.upstreamNow = 0xFF) ∧
    (s.isSender = true → s.timingMaster = false →
      ((s.port now).hitRun ≠ 0 ∨ (∀ p ∈ s.upPorts, (s.port p).hitRun = 0) → s.upstreamNow = now) ∧
      ((s.port now).hitRun = 0 → (∃ p ∈ s.upPorts, (s.port p).hitRun ≠ 0) →
        s.upstreamNow ∈ s.upPorts ∧ (s.port s.upstreamNow).hitRun ≠ 0)))

/-- At a tick boundary a standby counts the ticks without beacons and is to take over after 3, or after 3 bad reports while
its own time is good; a handover that was asked for makes the master standby there, and one that the peer shows makes the
standby master (log 19). MASTER_TAKEOVER: the standby at address 1 becomes master. MASTER_CLAIM: the standby at address 0
with 2100h.05 set and 256 clean ticks claims the tick after next. MASTER_RETURN at LT(m): it becomes master, and the
sender at address 1 standby. DUAL_MASTER raises an event and counts; the sender at address 0 stays master if its tick was
clean, the one at address 1 yields to a clean master. CLAIM_NOW and HAND_OVER do as R167 says, else RANGE. A new master
shows itself in 2100h.01 to .03, does not step its clock, and without a locked source is in HOLDOVER. (R161, R162, R163,
R164, R165, R167, R182) -/
def Obligations.MastershipMoves : Prop :=
  let places := [keyOf 0x2100 1, keyOf 0x2100 2, keyOf 0x2100 3, keyOf 0x2100 8, keyOf 0x1300 3, keyOf 0x1320 2,
    keyOf 0x1320 7, keyOf 0x1400 8]
  let role (s t : State) : Prop := t.hid = { s.hid with
      almanac := t.hid.almanac, counts := t.hid.counts
      time := { s.hid.time with
        now := t.hid.time.now, cycles := t.hid.time.cycles, trimDone := t.hid.time.trimDone
        rateHeld := t.hid.time.rateHeld, rateAt := t.hid.time.rateAt }
      pair := { s.hid.pair with
        claim := none, silent := 0, harvestBad := 0, takeover := false, handing := false, handed := false, upstream := none
        dual := t.hid.pair.dual, selfSeen := t.hid.pair.selfSeen } } ∧ Only places s t
  let counted (lo : Nat) (s t : State) : Prop := field (t.entry (keyOf 0x2100 8)) (lo + 7) lo =
    satAdd 8 (field (s.entry (keyOf 0x2100 8)) (lo + 7) lo) 1
  let steered (s : State) : Bool := s.sourceOrder.any fun c => c != 0 && s.sourceLocked c
  let falls (s : State) : List Output :=
    if steered s = false ∧ s.entry (keyOf 0x1300 3) ≠ 3 then [.event 182 3] else []
  let master (s t : State) : Prop := t.entry (keyOf 0x2100 1) = 1 ∧ t.entry (keyOf 0x2100 2) = s.address ∧
    t.entry (keyOf 0x2100 3) = 0xFF ∧ t.entry (keyOf 0x1300 3) = (if steered s then 2 else 3) ∧
    t.entry (keyOf 0x1320 7) = (if falls s = [] then s.entry (keyOf 0x1320 7) else satAdd 32 (s.entry (keyOf 0x1320 7)) 1) ∧
    role s t
  let standby (s t : State) : Prop := t.entry (keyOf 0x2100 1) = 2 ∧
    t.entry (keyOf 0x2100 2) = (if s.address = 0 then 1 else 0) ∧ t.entry (keyOf 0x1300 3) = s.entry (keyOf 0x1300 3) ∧ role s t
  (∀ s : State, s.sound = true → s.shaped = true → s.isSender = true → s.up .link = true → s.stepped = true →
    let silent := if s.hid.ports.any PortState.beaconTick then 0 else s.hid.pair.silent + 1
    (s.entry (keyOf 0x2100 1) = 2 → s.hid.pair.handed = false → Completes .tickBoundary s fun t =>
      t.entry (keyOf 0x2100 1) = 2 ∧ t.hid.pair.silent = silent ∧
      (t.hid.pair.takeover = true ↔ 3 ≤ silent ∨ (3 ≤ s.hid.pair.harvestBad ∧ s.timeBad = false))) ∧
    (s.entry (keyOf 0x2100 1) = 1 → s.hid.pair.handing = true → Completes .tickBoundary s fun t =>
      t.entry (keyOf 0x2100 1) = 2 ∧ t.hid.pair.handing = false) ∧
    (s.entry (keyOf 0x2100 1) = 2 → s.hid.pair.handed = true → Completes .tickBoundary s fun t =>
      t.entry (keyOf 0x2100 1) = 1 ∧ t.entry (keyOf 0x2100 3) = 0xFF ∧ t.hid.pair.handed = false)) ∧
  (∀ s : State, s.sound = true → s.isSender = true → s.address = 1 → s.entry (keyOf 0x2100 1) = 2 → s.stepped = true →
    s.hid.pair.takeover = true → Completes .masterTakeover s fun t => master s t ∧ counted 24 s t ∧
      t.hid.time.now = s.hid.time.now ∧ t.outputs = s.outputs ++ falls s ++ [.event 163 0]) ∧
  (∀ s : State, s.sound = true → s.isSender = true → s.address = 0 → s.entry (keyOf 0x2100 1) = 2 →
    (s.entry (keyOf 0x2100 5) = 1 → 256 ≤ s.entry (keyOf 0x2100 6) → s.hid.pair.claim = none →
      exec .masterClaim s = .next { s with hid := { s.hid with pair := { s.hid.pair with claim := some (s.tick + 2) } } }) ∧
    (∀ m, s.hid.pair.claim = some m → Completes .masterReturn s fun t => master s t ∧ counted 16 s t ∧
      RunsTo (s.at m) s t ∧ t.outputs = s.outputs ++ falls s)) ∧
  (∀ (s : State) (m : Nat), s.sound = true → s.isSender = true → s.address = 1 → s.entry (keyOf 0x2100 1) = 1 →
    s.hid.pair.claim = some m → Completes .masterReturn s fun t => standby s t ∧ counted 16 s t ∧
      RunsTo (s.at m) s t ∧ t.outputs = s.outputs) ∧
  (∀ s : State, s.sound = true → s.isSender = true → s.hid.pair.dual = true → s.entry (keyOf 0x2100 1) = 1 →
    let yields := if s.address = 0 then s.cleanTick = false else s.hid.pair.peerMaster = true ∧ s.hid.pair.peerClean = true
    (yields → Completes .dualMaster s fun t => standby s t ∧ counted 8 s t ∧ t.hid.pair.dual = false ∧
      t.outputs = s.outputs ++ [.event 165 0]) ∧
    (¬yields → Completes .dualMaster s fun t => counted 8 s t ∧ t.outputs = s.outputs ++ [.event 165 0] ∧
      t.hid = { s.hid with pair := { s.hid.pair with dual := false } } ∧ Only [keyOf 0x2100 8] s t)) ∧
  (∀ (s : State) (d : Door), s.sound = true → s.servesAt d = true → s.isSender = true →
    (s.address = 0 → s.cleanTick = true → Acts (.claimNow d) d Status.ok [] s fun t =>
      t.hid = { s.hid with almanac := t.hid.almanac, pair := { s.hid.pair with
        claim := if s.entry (keyOf 0x2100 1) = 2 then some (s.tick + 3) else s.hid.pair.claim } }) ∧
    (¬(s.address = 0 ∧ s.cleanTick = true) → Refused (.claimNow d) d Status.range s) ∧
    (s.entry (keyOf 0x2100 1) = 1 → s.hid.pair.peerClean = true → Acts (.handOver d) d Status.ok [] s fun t =>
      t.hid = { s.hid with almanac := t.hid.almanac, pair := { s.hid.pair with handing := true } }) ∧
    (¬(s.entry (keyOf 0x2100 1) = 1 ∧ s.hid.pair.peerClean = true) → Refused (.handOver d) d Status.range s))

/-- BEACON_SEND queues the SYNC beacon of R185 with its SEQ and counts it; a beacon, a probe and its answer carry the time at
which they leave. BEACON_RECEIVE stamps the oldest beacon. A single sender, and a part whose time core is held, takes
none. One that comes to the clock-upstream port with a valid path from the source to follow is accepted: the phase error
is ORIGIN + PATH less the stamp; a device that has not stepped steps by it and takes the beacon's grid and tick; one with
another EPOCHSEQ joins again; any other begins the trim; all are LOCKED. Any other beacon counts in 1302h.04.
TILE_HOLDOVER enters HOLDOVER at the last rate. DELAY_REQ_SEND and DELAY_REQ_RECEIVE queue the probe and its answer;
DELAY_RESP_RECEIVE counts an outlier, or shows fill, link delay and path delay, and ACQUIRE before the step. An entry
delay counts. Nothing else changes. (R183, R185, R187, R188, R189, R190, R191, R192, R194, R195, R198, R203) -/
def Obligations.BeaconsAndProbesMakeTime : Prop :=
  let entryKeys (e : Nat) : List Key := if e = 0 then [] else [keyOf 0x1301 1, keyOf 0x1301 2, keyOf 0x1400 8]
  let counted (e : Nat) (s t : State) : Prop := e ≠ 0 → t.entry (keyOf 0x1301 1) = satAdd 32 (s.entry (keyOf 0x1301 1)) 1 ∧
    t.entry (keyOf 0x1301 2) = max (s.entry (keyOf 0x1301 2)) (min 65535 e)
  (∀ (s : State) (p : Nat), s.sound = true → s.shaped = true → p < 16 →
    (s.isSender = false ∨ s.portUp p = false ∨ s.stepped = false → exec (.beaconSend p) s = .next s) ∧
    (s.isSender = true → s.portUp p = true → s.stepped = true → Completes (.beaconSend p) s fun t => ∃ c : Cell,
      t.port p = { s.port p with
        egress := (s.port p).egress ++ [s.waiting c], beaconSeq := ((s.port p).beaconSeq + 1) % 2 ^ 32 } ∧
      c.kind = 4 ∧ c.bcast = true ∧ c.timed = true ∧ c.lt = s.lt s.tick ∧ c.seq = (s.port p).beaconSeq ∧
      c.src = s.entry (keyOf 0x2100 2) ∧ c.len = 88 ∧ c.fromEnd = s.endOf p ∧ c.body = padTo 240 s.beaconBody ∧
      t.entry (keyOf 0x1302 2) = satAdd 32 (s.entry (keyOf 0x1302 2)) 1 ∧ t.outputs = s.outputs ∧
      (∀ q, q ≠ p → t.port q = s.port q) ∧ t.hid = { s.hid with ports := t.hid.ports } ∧ Only [keyOf 0x1302 2] s t) ∧
    (s.portUp p = false → exec (.delayReqSend p) s = .next s) ∧
    (s.portUp p = true → Completes (.delayReqSend p) s fun t => ∃ c : Cell,
      t.port p = { s.port p with
        egress := (s.port p).egress ++ [s.waiting c], probeSeq := ((s.port p).probeSeq + 1) % 2 ^ 32 } ∧
      c.kind = 4 ∧ c.bcast = false ∧ c.seq = (s.port p).probeSeq ∧ c.len = 48 ∧ cellField c 0 1 = 2 ∧ cellField c 1 1 = p ∧
      t.outputs = s.outputs ∧ (∀ q, q ≠ p → t.port q = s.port q) ∧ t.hid = { s.hid with ports := t.hid.ports } ∧
      Only [] s t)) ∧
  (∀ (s : State) (leaves : Int) (c : Cell), c.kind = 4 → c.body.length = 240 → 0 ≤ leaves →
    let d := s.stamped leaves c
    let at' := if natLE (c.body.take 1) = 1 ∨ natLE (c.body.take 1) = 2 then 4 else 28
    cellField d at' 12 = toTime96 leaves % 2 ^ 96 ∧ d.body.length = 240 ∧ d.kind = 4 ∧ d.seq = c.seq ∧
      (natLE (c.body.take 1) = 1 → d.lt = s.lt s.tick ∧ cellField d 16 8 = s.tick % 2 ^ 64) ∧
      (natLE (c.body.take 1) ≠ 1 → d.lt = c.lt ∧ ∀ i, i < at' ∨ at' + 12 ≤ i → d.body.getD i 0 = c.body.getD i 0)) ∧
  (∀ (s : State) (p e ph : Nat) (c : Cell) (rest : List (Nat × Cell)), s.sound = true → s.shaped = true → p < 16 →
    s.takeCell (fun x => x.2.kind == 4 && beaconType x.2 == 2) = some ((p, c), rest) → c.body.length = 240 →
    Completes (.delayReqReceive ⟨e, ph⟩) s fun t => ∃ a : Cell,
      t.port p = { s.port p with egress := (s.port p).egress ++ [s.waiting a] } ∧ a.kind = 4 ∧ a.seq = c.seq ∧
      a.bcast = false ∧ cellField a 0 1 = 3 ∧ cellField a 1 1 = p ∧ slice a.body 4 12 = slice c.body 4 12 ∧
      cellField a 16 12 = toTime96 (s.stamp 17 e ph) % 2 ^ 96 ∧
      cellField a 40 4 = (if (t.outPath p).2 then (t.outPath p).1 % 2 ^ 32 else 0) ∧
      cellField a 44 1 = (if (t.outPath p).2 then 1 else 0) + (if s.isSender then 2 else 0) ∧
      (s.isSender = true → (t.outPath p) = (0, true)) ∧ counted e s t ∧ t.outputs = s.outputs ∧
      (∀ q, q ≠ p → t.port q = s.port q) ∧
      t.hid = { s.hid with
        almanac := t.hid.almanac, ports := t.hid.ports, link := { s.hid.link with rx := rest } } ∧
      Only (entryKeys e ++ if s.isTile ∧ s.portUp 0 ∧ s.portUp 1 then [keyOf (0x1310 + p) 2] else []) s t) ∧
  (∀ (s : State) (p e ph : Nat) (c : Cell) (rest : List (Nat × Cell)), s.sound = true → s.shaped = true →
    p < (if s.isTile then 2 else 16) →
    s.takeCell (fun x => x.2.kind == 4 && beaconType x.2 == 3) = some ((p, c), rest) →
    let at' (o : Nat) : Int := ofTime96 (cellField c o 12)
    let link := ((s.stamp 17 e ph - at' 4) - (at' 28 - at' 16) + toSigned 32 (s.entry (keyOf (0x1310 + p) 4)) * 65536 / 1000) / 2
    let old := (s.port p).filter
    let fill := (old ++ [link]).drop (old.length + 1 - 64)
    let out : Prop := 16 ≤ old.length ∧ 131072 < (link - meanDelay old).natAbs
    let k (i : Nat) := keyOf (0x1310 + p) i
    let begun (t : State) : Prop := counted e s t ∧ t.hid.link = { s.hid.link with rx := rest } ∧ t.outputs = s.outputs ∧
      t.entry (keyOf 0x1300 3) =
        (if s.stepped = false ∧ s.entry (keyOf 0x1300 3) = 0 then 1 else s.entry (keyOf 0x1300 3)) ∧
      ∀ q, q ≠ p → t.port q = s.port q
    (out → Completes (.delayRespReceive ⟨e, ph⟩) s fun t => begun t ∧ t.entry (k 6) = satAdd 32 (s.entry (k 6)) 1 ∧
      t.port p = s.port p ∧ Only (entryKeys e ++ [keyOf 0x1300 3, k 6, keyOf 0x1400 8]) s t) ∧
    (¬out → Completes (.delayRespReceive ⟨e, ph⟩) s fun t => begun t ∧ t.entry (k 5) = satAdd 32 (s.entry (k 5)) 1 ∧
      (t.port p).filter = fill ∧ t.entry (k 7) = fill.length ∧
      t.entry (k 1) = ofSigned 32 (clampSigned 32 (meanDelay fill / 256)) ∧
      (bitAt (cellField c 44 1) 0 = true ∧ 16 ≤ fill.length →
        (t.port p).pathValid = true ∧ t.entry (k 3) = ((cellField c 40 4 : Int) + meanDelay fill / 256).toNat % 2 ^ 32) ∧
      (¬(bitAt (cellField c 44 1) 0 = true ∧ 16 ≤ fill.length) →
        (t.port p).pathValid = (s.port p).pathValid ∧ t.entry (k 3) = s.entry (k 3)) ∧
      Only (entryKeys e ++ [keyOf 0x1300 3, k 1, k 3, k 5, k 7]) s t)) ∧
  (∀ (s : State) (p ph d : Nat) (c : Cell) (rest : List (Nat × Cell)), s.sound = true → s.shaped = true → p < 16 →
    s.takeCell (fun x => x.2.kind == 4 && beaconType x.2 == 1) = some ((p, c), rest) →
    let e := ofTime96 (cellField c 4 12) + (s.entry (keyOf (0x1310 + p) 3) : Int) * 256 - s.stamp 17 d ph
    let follows : Bool := if s.isTile then c.src == 0 || !(s.hid.time.beaconSrcs ++ [c.src]).contains 0
      else c.src != s.address
    let deaf : Prop := (s.isSender = true ∧ s.entry (keyOf 0x2100 1) = 0) ∨ s.hid.time.held = true
    let accepts : Prop := s.timingMaster = false ∧ (s.stepped = false ∨ p = s.entry (keyOf 0x2100 3)) ∧ follows = true ∧
      (s.port p).pathValid = true
    let taken := entryKeys d ++ [keyOf 0x1302 3, keyOf 0x2100 2, keyOf 0x1300 4, keyOf 0x1300 3, keyOf 0x1302 9,
      keyOf 0x1400 8, keyOf 0x1330 4, keyOf 0x1330 5]
    let joined := taken ++ gridEntries ++ [keyOf 0x1300 9, keyOf 0x1300 0x0A, keyOf 0x1001 5]
    let heard (t : State) : Prop := counted d s t ∧ t.hid.time.beaconSrcs = s.hid.time.beaconSrcs ++ [c.src] ∧
      (t.port p).beaconTick = true
    let same (t : State) : Prop := heard t ∧ t.entry (keyOf 0x1302 3) = satAdd 32 (s.entry (keyOf 0x1302 3)) 1 ∧
      t.entry (keyOf 0x1300 3) = 2 ∧ t.entry (keyOf 0x2100 2) = c.src % 2 ^ 16 ∧ t.hid.time.reepoch = announced c ∧
      t.entry (keyOf 0x1300 4) = ofSigned 32 (clampSigned 32 (e / 256)) ∧ t.hid.time.accepted = s.hid.time.accepted + 1
    let steps (t : State) : Prop := t.hid.time.now = ((s.hid.time.now : Int) + 5 * e).toNat ∧ t.hid.time.trimTotal = 0 ∧
      t.hid.time.grid = some ⟨cellField c 44 8, wholeNs (ofTime96 (cellField c 32 12)), max 1 (cellField c 24 4),
        cellField c 28 4, cellField c 52 1⟩ ∧
      t.entry (keyOf 0x1300 9) = cellField c 3 1 ∧ t.entry (keyOf 0x1300 0x0A) = satAdd 16 (s.entry (keyOf 0x1300 0x0A)) 1
    (deaf → Completes (.beaconReceive d ph) s fun t => heard t ∧ t.outputs = s.outputs ∧
      t.hid.time = { s.hid.time with beaconSrcs := t.hid.time.beaconSrcs } ∧
      t.hid.link = { s.hid.link with rx := rest } ∧ Only (entryKeys d) s t) ∧
    (¬deaf → ¬accepts → Completes (.beaconReceive d ph) s fun t => heard t ∧ t.outputs = s.outputs ∧
      t.entry (keyOf 0x1302 4) = satAdd 32 (s.entry (keyOf 0x1302 4)) 1 ∧
      t.hid.time = { s.hid.time with beaconSrcs := t.hid.time.beaconSrcs } ∧
      t.hid.link = { s.hid.link with rx := rest } ∧ Only (entryKeys d ++ [keyOf 0x1302 4, keyOf 0x1400 8]) s t) ∧
    (¬deaf → accepts → s.stepped = true → s.entry (keyOf 0x1300 9) = cellField c 3 1 →
      Completes (.beaconReceive d ph) s fun t => same t ∧ t.hid.time.now = s.hid.time.now ∧
        t.hid.time.trimTotal = s.trim e ∧ t.hid.time.trimFrom = s.hid.time.cycles ∧ t.hid.time.trimDone = 0 ∧
        t.hid.time.grid = s.hid.time.grid ∧ t.hid.link = { s.hid.link with rx := rest } ∧ Only taken s t) ∧
    (¬deaf → accepts → s.stepped = true → s.entry (keyOf 0x1300 9) ≠ cellField c 3 1 →
      Completes (.beaconReceive d ph) s fun t => same t ∧ steps t ∧
        Only (joined ++ (List.range 8).map fun k => keyOf (0x4330 + k) 7) s t) ∧
    (¬deaf → accepts → s.stepped = false → Completes (.beaconReceive d ph) s fun t => same t ∧ steps t ∧
      t.tick = cellField c 16 8 ∧ t.entry (keyOf 0x2100 3) = p ∧ Only (keyOf 0x2100 3 :: joined) s t)) ∧
  (∀ s : State, s.sound = true → s.stepped = true → s.timingMaster = false → s.entry (keyOf 0x1300 3) ≠ 3 →
    1 ≤ s.hid.mode.missed ∨ s.portUp (s.entry (keyOf 0x2100 3)) = false → Completes .tileHoldover s fun t =>
      t.entry (keyOf 0x1300 3) = 3 ∧ t.outputs = s.outputs ∧
      t.hid = { s.hid with
        almanac := t.hid.almanac
        pair := { s.hid.pair with selfSeen := t.hid.pair.selfSeen }
        time := { s.hid.time with rateHeld := toSigned 32 (s.entry (keyOf 0x1300 5)) } } ∧
      Only [keyOf 0x1300 3, keyOf 0x1400 8] s t)

/-- REEPOCH_PLAIN on the timing master in DARK, and REEPOCH_FORCE in a mode that allows a commit with its tick far enough
ahead, announce the offset of the active source: 1330h.03 reads PENDING, else MODE, LATE or CONSISTENCY; one that was
pending is reported SUPERSEDED first (log 95). REEPOCH_CANCEL takes a pending one back: CANCELLED. REEPOCH_APPLY at its
boundary moves local time by the offset; a forced one moves the anchor with it and keeps the numbering; a plain one aligns
the grid to the epoch from half a tick after on, N_A, and the tick becomes N_A − 1; 1300h.09 and 1330h.03 show it, and the
timing master is LOCKED. A tile in HOLDOVER does not follow it. RELOCK starts the grid of the committed rate at LT(n) and
counts in 4010h.03. Nothing else changes but what waits for a launch time or a tick. (R174, R197, R198, R199, R322) -/
def Obligations.ReepochsAndRelocksMoveTheGrid : Prop :=
  (∀ (s : State) (d : Door), s.sound = true → s.servesAt d = true → s.isSender = true →
    let offset := (s.sourceState (s.entry (keyOf 0x1320 2))).offset
    let shown := [keyOf 0x1330 3, keyOf 0x1330 4, keyOf 0x1330 5]
    let announces (plain : Bool) (m : Nat) (o : Int) (t : State) : Prop :=
      t.hid = { s.hid with almanac := t.hid.almanac, time := { s.hid.time with reepoch := some ⟨plain, m, o⟩ } } ∧
      (s.hid.time.reepoch.isSome = true → Output.event 197 Status.superseded ∈ t.outputs) ∧
      t.entry (keyOf 0x1330 3) = Status.pending ∧ t.entry (keyOf 0x1330 4) = ofSigned 64 (clampSigned 64 (wholeNs o)) ∧
      t.entry (keyOf 0x1330 5) = ofSigned 16 o
    let answers (c : Instr) (v : Nat) : Prop := Acts c d Status.ok [keyOf 0x1330 3] s fun t =>
      t.entry (keyOf 0x1330 3) = v ∧ SameBeside s t
    (s.timingMaster = false → ∀ c ∈ [Instr.reepochPlain d, .reepochForce d, .reepochCancel d], answers c Status.mode) ∧
    (s.timingMaster = true →
      (s.mode ≠ Mode.dark → answers (.reepochPlain d) Status.mode) ∧
      (s.mode = Mode.dark → offset = none → answers (.reepochPlain d) Status.consistency) ∧
      (∀ o, s.mode = Mode.dark → offset = some o → Acts (.reepochPlain d) d Status.ok shown s
        (announces true (s.firstTickAfter 0 (s.ns + 999999)) o)) ∧
      (s.mode ∉ commitModes → answers (.reepochForce d) Status.mode) ∧
      (let m := s.entry (keyOf 0x1330 2)
        let ahead := s.atLeastP (lt32Diff (s.lt m) s.lt32) 4
        s.mode ∈ commitModes → (ahead = false → answers (.reepochForce d) Status.late) ∧
          (ahead = true → offset = none → answers (.reepochForce d) Status.consistency) ∧
          (∀ o, ahead = true → offset = some o → Acts (.reepochForce d) d Status.ok shown s (announces false m o))) ∧
      (s.hid.time.reepoch = none → Acts (.reepochCancel d) d Status.ok [] s fun t => SameBeside s t) ∧
      (s.hid.time.reepoch.isSome = true → Acts (.reepochCancel d) d Status.ok [keyOf 0x1330 3] s fun t =>
        t.entry (keyOf 0x1330 3) = Status.cancelled ∧
        t.hid = { s.hid with almanac := t.hid.almanac, time := { s.hid.time with reepoch := none } }))) ∧
  (∀ (s : State) (g : Grid) (r : Reepoch), s.sound = true → s.hid.time.grid = some g → s.hid.time.reepoch = some r →
    1 ≤ g.rn →
    let start := max s.hid.time.now ((g.at r.tick).toNat * unitsPerNs)
    let now := ((start : Int) + 5 * r.delta).toNat
    let follows : Bool := !(s.isTile && s.entry (keyOf 0x1300 3) == 3)
    let done (t : State) : Prop := t.hid.time.now = now ∧ t.hid.time.reepoch = none ∧
      t.entry (keyOf 0x1300 9) = (s.entry (keyOf 0x1300 9) + 1) % 256 ∧ t.entry (keyOf 0x1330 3) = Status.applied ∧
      t.entry (keyOf 0x1330 6) = r.tick % 2 ^ 64 ∧
      t.entry (keyOf 0x1300 3) = if s.timingMaster then 2 else s.entry (keyOf 0x1300 3)
    let shown := gridEntries ++ [keyOf 0x1300 9, keyOf 0x1330 3, keyOf 0x1330 4, keyOf 0x1330 5, keyOf 0x1330 6,
      keyOf 0x1300 3, keyOf 0x1400 8] ++ (List.range 8).map fun k => keyOf (0x4330 + k) 7
    (follows = false → Completes .reepochApply s fun t => t.hid.time.now = start ∧ t.hid.time.reepoch = none ∧
      t.hid.time.grid = some g ∧ t.outputs = s.outputs ∧ Only [] s t) ∧
    (follows = true → r.plain = false → Completes .reepochApply s fun t => done t ∧
      t.hid.time.grid = some { g with anchor := g.anchor + wholeNs r.delta } ∧ t.tick = s.tick ∧
      Only (shown ++ budgetEntries) s t) ∧
    (follows = true → r.plain = true → 1 ≤ g.rd → Completes .reepochApply s fun t => done t ∧
      (∃ n : Nat, t.hid.time.grid = some ⟨n, ((n * g.rd * 10 ^ 9 / g.rn : Nat) : Int), g.rn, g.rd, g.slots⟩ ∧
        (∀ k, n ≤ k ↔ 2 * now * g.rn + g.rd * 10 ^ 9 * unitsPerNs ≤ 2 * k * g.rd * 10 ^ 9 * unitsPerNs) ∧
        t.tick = (n - 1) % 2 ^ 64) ∧ Only (keyOf 0x1001 5 :: shown) s t)) ∧
  (∀ (s : State) (g : Grid) (n : Nat), s.sound = true → s.hid.time.grid = some g → s.hid.time.relockAt = some n →
    Completes .relock s fun t => RunsTo (g.at n) s t ∧
      t.hid.time.grid =
        some ⟨n, g.at n, max 1 (s.entry (keyOf 0x4300 1)), s.entry (keyOf 0x4300 2), s.entry (keyOf 0x4300 3)⟩ ∧
      t.entry (keyOf 0x4010 3) = satAdd 32 (s.entry (keyOf 0x4010 3)) 1 ∧ t.hid.time.relockAt = none ∧
      t.hid.scan.dark = some (n, n + 1) ∧ t.hid.compose.firstAfter = some (n + 2) ∧
      t.outputs = s.outputs ∧ Only (keyOf 0x4010 3 :: gridEntries ++ budgetEntries) s t)

/-- On a sender with PTP on, at a port that it may use: a message that is unsupported or of another domain counts in 6200h.0F,
every other one in 6200h.0E. An ANNOUNCE that ranks above the best master of its port takes its place, and the master of
the port then in use shows. From that master, a one-step Sync or the Follow_Up of a Sync has a Delay_Req leave, a
Delay_Resp gives the mean path delay, and with a path delay a Sync measures source 1. A 1PPS edge measures source 2 and a
VREF frame source 3, with the stamp of R183: the offset is kept, good measurements in a row and those beyond the jump
threshold are counted (what a good one is: logs 93, 94). SOURCE_LOCK locks a source after 16. FIRST_LOCK_WAIT passes a
source over. FIRST_LOCK_STEP steps local time once to the source's time, for FREE to the seconds of 1320h.09, and aligns
the grid to the epoch. Nothing else changes but the marks of the tick (R154, R159). (R174, R177, R178, R179, R180, R183,
R204, R528) -/
def Obligations.SourcesAreMeasured : Prop :=
  let threshold (s : State) : Nat := s.entry (keyOf 0x1320 4) * 65536
  let source (s : State) (code : Nat) (o : Option Int) (good : Bool) : SourceState := { s.sourceState code with
    offset := o
    good := if good then (s.sourceState code).good + 1 else 0
    bad := if o.any fun d => threshold s < d.natAbs then (s.sourceState code).bad + 1 else 0 }
  let edged (s : State) (code : Nat) (o : Option Int) (good : Bool) (edge : Int) : TimeState := { s.hid.time with
    sources := setAt s.hid.time.sources code { source s code o good with
      edges := edge :: (s.sourceState code).edges.take 1 } }
  let shows (code : Nat) (o : Option Int) (s t : State) : Prop := ∀ d ∈ o, s.entry (keyOf 0x1320 2) = code →
    t.entry (keyOf 0x1320 3) = ofSigned 64 (clampSigned 64 (d / 65536))
  let stamps := [keyOf 0x1301 1, keyOf 0x1301 2, keyOf 0x1400 8]
  let entered (e : Nat) (s t : State) : Prop :=
    t.entry (keyOf 0x1301 1) = (if e = 0 then s.entry (keyOf 0x1301 1) else satAdd 32 (s.entry (keyOf 0x1301 1)) 1) ∧
    t.entry (keyOf 0x1301 2) = max (s.entry (keyOf 0x1301 2)) (min 65535 e)
  let shown := [keyOf 0x1320 3, keyOf 0x1300 4]
  (∀ (s : State) (port e phase : Nat) (m : PtpMessage), s.sound = true → s.shaped = true → port < 2 →
    s.ptpPort port = true →
    let x := s.hid.time.ptp
    let runs (body : PtpBody) : Instr := .ptpMessage port { m with body := body } ⟨e, phase⟩
    let counted (ks : List Nat) (more : List Key) (t : State) : Prop :=
      t.entry (keyOf 0x6200 0x0E) = satAdd 32 (s.entry (keyOf 0x6200 0x0E)) 1 ∧
      bitAt (t.entry (keyOf 0x6000 7)) port = true ∧ Only (keyOf 0x6000 7 :: (0x0E :: ks).map (keyOf 0x6200) ++ more) s t
    ((m.body = .unsupported ∨ m.domain ≠ s.entry (keyOf 0x6200 3)) → Completes (.ptpMessage port m ⟨e, phase⟩) s fun t =>
      t.entry (keyOf 0x6200 0x0F) = satAdd 32 (s.entry (keyOf 0x6200 0x0F)) 1 ∧ t.hid = s.hid ∧
      bitAt (t.entry (keyOf 0x6000 7)) port = true ∧ Only [keyOf 0x6000 7, keyOf 0x6200 0x0F] s t) ∧
    (m.domain = s.entry (keyOf 0x6200 3) →
      (Completes (runs .ignored) s fun t => counted [] [] t ∧ t.hid = s.hid ∧ t.outputs = s.outputs) ∧
      (∀ b : PtpMaster,
        let best := setAt x.best port (some b)
        ((∀ old ∈ s.ptpBest port, masterRank old ≤ masterRank b ∧ (b.parent, b.parentPort) ≠ (old.parent, old.parentPort)) →
          (s.ptpBest port).isSome = true →
          Completes (runs (.announce b)) s fun t => counted [] [] t ∧ t.hid = s.hid) ∧
        ((∀ old ∈ s.ptpBest port, masterRank b < masterRank old ∨ (b.parent, b.parentPort) = (old.parent, old.parentPort)) →
          Completes (runs (.announce b)) s fun t => counted [5, 6, 7, 8, 0x0B, 0x0C] [] t ∧
            t.hid.time.ptp.best = best ∧ t.hid.time.ptp.port = t.ptpWanted ∧
            t.hid = { s.hid with time := { s.hid.time with ptp := t.hid.time.ptp } } ∧
            (∀ g ∈ t.ptpBest t.hid.time.ptp.port, t.entry (keyOf 0x6200 6) = g.parent % 2 ^ 64 ∧
              t.entry (keyOf 0x6200 7) = g.parentPort % 2 ^ 16 ∧ t.entry (keyOf 0x6200 8) = g.grandmaster % 2 ^ 64 ∧
              t.entry (keyOf 0x6200 0x0B) = g.steps % 2 ^ 16 ∧ t.entry (keyOf 0x6200 0x0C) = g.utcOffset % 2 ^ 16 ∧
              t.entry (keyOf 0x6200 5) ∈ [8, 9]))) ∧
      (s.fromParent port m = true →
        let arrival := s.stamp 22 e phase
        let asks (span : Int) (t : State) : Prop := .net x.port (.delayReq (s.entry (keyOf 0x6000 (1 + 2 * x.port))) m.domain
            x.sequence (if s.entry (keyOf 0x6200 4) = 1 then some (s.entry (keyOf 0x6200 6)) else none)) ∈ t.outputs ∧
          t.hid.time.ptp = { x with
            sync := none, span := span, asked := some (x.sequence, s.fine), sequence := (x.sequence + 1) % 65536
            moved := if x.path.isSome then false else x.moved }
        let syncs (c : Instr) (ks : List Key) (span : Int) (more : State → Prop) : Prop :=
          (x.path = none → Completes c s fun t => asks span t ∧ counted [] ks t ∧ more t ∧
            TimeMoves { s.hid.time with ptp := t.hid.time.ptp } s t) ∧
          (∀ d, x.path = some d →
            let o := d - span
            let jumps : Bool := x.moved && s.timingMaster && s.stepped && s.entry (keyOf 0x1320 2) == 1 &&
              [2, 3].contains (s.entry (keyOf 0x1300 3)) && threshold s < o.natAbs
            Completes c s fun t => asks span t ∧ shows 1 (some o) s t ∧ more t ∧
            t.entry (keyOf 0x6200 5) = 9 ∧ t.entry (keyOf 0x6200 9) = ofSigned 64 (clampSigned 64 (span - d)) ∧
            t.entry (keyOf 0x1300 3) = (if jumps then 4 else s.entry (keyOf 0x1300 3)) ∧
            t.entry (keyOf 0x1320 8) = (if jumps then satAdd 32 (s.entry (keyOf 0x1320 8)) 1 else s.entry (keyOf 0x1320 8)) ∧
            (t.sourceState 1).offset = some o ∧
            TimeMoves { s.hid.time with
              ptp := t.hid.time.ptp
              sources := setAt s.hid.time.sources 1 (source s 1 (some o) (s.ptpGood o))
              rateHeld := if jumps then s.meanRate else s.hid.time.rateHeld } s t ∧
            counted [5, 9] (shown ++ [keyOf 0x1300 3, keyOf 0x1320 8, keyOf 0x1400 8] ++ ks) t)
        (∀ origin correction : Int, syncs (runs (.sync origin correction false)) stamps (arrival - (origin + correction))
          (entered e s)) ∧
        (∀ origin correction : Int, Completes (runs (.sync origin correction true)) s fun t => counted [] stamps t ∧
          entered e s t ∧ TimeMoves { s.hid.time with
            ptp := { x with sync := some (m.sequence, arrival - correction) } } s t) ∧
        (∀ origin correction came : Int, x.sync = some (m.sequence, came) →
          syncs (runs (.followUp origin correction)) [] (came - (origin + correction)) fun _ => True) ∧
        (∀ receive correction left : Int, x.asked = some (m.sequence, left) →
          let d := (x.span + (receive - correction - left)) / 2
          Completes (runs (.delayResp receive correction)) s fun t => counted [0x0A] [] t ∧
            t.entry (keyOf 0x6200 0x0A) = ofSigned 64 (clampSigned 64 d) ∧
            t.hid = { s.hid with time := { s.hid.time with ptp := { x with asked := none, path := some d } } })))) ∧
  (∀ (s : State) (e phase : Nat), s.sound = true → s.shaped = true → s.isSender = true →
    (∀ ref : Bool,
      let t0 := s.stamp 4 e phase
      let o := nearestSecond (t0 + if s.sourceLocked 1 then (s.sourceState 1).offset.getD 0 else 0) - t0
      let edge := s.cycleStamp 4 e phase
      Completes (.ppsEdge ref e phase) s fun t => TimeMoves (edged s 2 (some o) (ref && s.predicted 2 edge) edge) s t ∧
        shows 2 (some o) s t ∧ entered e s t ∧ Only (shown ++ stamps) s t) ∧
    (∀ num den : Nat,
      let u : State := { s with hid := { s.hid with time := { s.hid.time with vrefRate := (num, den) } } }
      let t0 := s.stamp 6 e phase + toSigned 32 (s.entry (keyOf 0x1320 0x0C)) * 65536
      let o := if u.vrefPhase then some (s.grid.nearest t0 - t0) else s.afterVref.head?.bind fun c => (s.sourceState c).offset
      let edge := s.cycleStamp 6 e phase
      Completes (.vrefFrame (num, den) ⟨e, phase⟩) s fun t => TimeMoves (edged u 3 o (s.predicted 3 edge) edge) s t ∧
        shows 3 o s t ∧ entered e s t ∧ Only (shown ++ stamps) s t)) ∧
  (∀ (s : State) (src : Source), s.sound = true → s.shaped = true → s.isSender = true →
    let c := sourceCode src
    let comes (x : SourceState) : TimeState := { s.hid.time with sources := setAt s.hid.time.sources c x }
    (src = .free ∨ 16 ≤ (s.sourceState c).good → (s.timingMaster && s.stepped) = false →
      Completes (.sourceLock src) s fun t =>
        TimeMoves (comes { s.sourceState c with locked := true, hadLock := true }) s t ∧ Only [] s t) ∧
    (s.stepped = false → s.sourceLocked c = false → Completes (.firstLockWait src) s fun t =>
      t.hid = { s.hid with time := comes { s.sourceState c with passed := true } } ∧ Only [] s t)) ∧
  (∀ (s : State) (src : Source), s.sound = true → s.timingMaster = true → s.stepped = false → s.up .link = true →
    s.entry (keyOf 0x1300 3) = 1 →
    let c := sourceCode src
    let rn := s.entry (keyOf 0x4300 1)
    let rd := s.entry (keyOf 0x4300 2)
    let now := (s.sourceTime c).toNat
    let n := ceilDiv (now * rn) (rd * 10 ^ 9 * unitsPerNs)
    s.firstSource = some c → 1 ≤ rn → 1 ≤ rd → Completes (.firstLockStep src) s fun t =>
      (c = 0 → now = s.entry (keyOf 0x1320 9) * 10 ^ 9 * unitsPerNs) ∧ (c = 1 → now = s.ptpNow.toNat) ∧
      TimeMoves { s.hid.time with
        now := now
        rateAt := s.hid.time.cycles
        sources := s.hid.time.sources.map fun x => { x with offset := none }
        grid := some ⟨n, ((n * rd * 10 ^ 9 / rn : Nat) : Int), rn, rd, s.entry (keyOf 0x4300 3)⟩ } s t ∧
      t.tick = (n - 1) % 2 ^ 64 ∧ t.entry (keyOf 0x1320 2) = c % 256 ∧ t.entry (keyOf 0x1300 3) = (if c = 0 then 5 else 2) ∧
      t.entry (keyOf 0x1300 0x0A) = satAdd 16 (s.entry (keyOf 0x1300 0x0A)) 1 ∧ t.entry (keyOf 0x2100 2) = s.address ∧
      t.entry (keyOf 0x2100 3) = 0xFF ∧ t.outputs = s.outputs ∧ Only (gridEntries ++ [keyOf 0x1001 5, keyOf 0x1300 0x0A,
        keyOf 0x1320 2, keyOf 0x1300 3, keyOf 0x2100 2, keyOf 0x2100 3]) s t)

/-- On a timing master that has stepped: SOURCE_LOCK of a source ahead of the active one makes it active, LOCKED where it
agrees within 1320h.04, else JUMPED; one that stands behind it only counts as locked, and ends FREE as the state (log 71).
SOURCE_LOST falls back to the next locked source in the same way, or, with none but FREE, to HOLDOVER with an event and a
count in 1320h.07; a source that is not the active one is only lost. SOURCE_JUMP enters JUMPED with an event and a count
in 1320h.08. HOLDOVER and JUMPED keep the mean rate of the last 10 s. SOURCE_RETURN enters LOCKED. INTERCALATION_UPDATE
moves the rate by no more than 1320h.06 per second and holds it within 200 ppm, with an event where it cannot. None of
them moves local time or the grid. (R177, R179, R181, R182, R203) -/
def Obligations.SourcesAreLeftAndSteered : Prop :=
  let kept (c : Nat) (x : SourceState) (jumped : Bool) (s t : State) : Prop := TimeMoves { s.hid.time with
    sources := setAt s.hid.time.sources c x
    rateHeld := if jumped then s.meanRate else s.hid.time.rateHeld
    ptp := t.hid.time.ptp } s t
  let places := [keyOf 0x1320 2, keyOf 0x1300 3, keyOf 0x1320 8, keyOf 0x1400 8]
  let masters := [5, 6, 7, 8, 0x0B, 0x0C].map (keyOf 0x6200)
  let changes (c : Nat) (s t : State) : Prop :=
    let jumps : Bool := !s.agrees c && s.entry (keyOf 0x1300 3) != 4
    t.entry (keyOf 0x1320 2) = c ∧ t.entry (keyOf 0x1300 3) = (if s.agrees c then 2 else 4) ∧
    t.outputs = (if jumps then s.outputs ++ [.event 182 4] else s.outputs) ∧
    t.entry (keyOf 0x1320 8) = (if jumps then satAdd 32 (s.entry (keyOf 0x1320 8)) 1 else s.entry (keyOf 0x1320 8))
  let holds (c : Nat) (s t : State) : Prop := t.entry (keyOf 0x1320 2) = c ∧ t.entry (keyOf 0x1300 3) = 3 ∧
    t.entry (keyOf 0x1320 7) = satAdd 32 (s.entry (keyOf 0x1320 7)) 1 ∧ t.outputs = s.outputs ++ [.event 182 3]
  (∀ s : State, s.sound = true → s.shaped = true → s.timingMaster = true → s.stepped = true →
    let active := s.entry (keyOf 0x1320 2)
    let state := s.entry (keyOf 0x1300 3)
    (∀ src : Source, src = .free ∨ 16 ≤ (s.sourceState (sourceCode src)).good →
      let c := sourceCode src
      let x := { s.sourceState c with locked := true, hadLock := true }
      let ahead : Bool := (s.sourceOrder.find? fun k => s.sourceLocked k || k == c) == some c && active != c
      (ahead = true → Completes (.sourceLock src) s fun t => changes c s t ∧ Only places s t ∧ t.hid.time.ptp = s.hid.time.ptp ∧
        kept c x (!s.agrees c && state != 4) s t) ∧
      (ahead = false → Completes (.sourceLock src) s fun t => kept c x false s t ∧ t.hid.time.ptp = s.hid.time.ptp ∧
        t.entry (keyOf 0x1300 3) = (if c ≠ 0 ∧ state = 5 then 2 else state) ∧ t.outputs = s.outputs ∧
        Only [keyOf 0x1300 3] s t)) ∧
    (∀ src : Source, src ≠ .free →
      let p := s.hid.time.ptp
      let c := sourceCode src
      let x := { s.sourceState c with locked := false, good := 0, bad := 0, offset := none, edges := [] }
      (src = .ptp → s.entry (keyOf 0x6200 2) = 0 → s.ptpBest (1 - p.port) = none) →
      let next := s.sourceOrder.find? fun k => k != c && s.sourceLocked k
      let more := if src = .ptp then masters else []
      let silent (t : State) : Prop := if src = .ptp then t.ptpBest p.port = none ∧ t.entry (keyOf 0x6200 5) = 4
        else t.hid.time.ptp = p
      (active ≠ c → Completes (.sourceLost src) s fun t => silent t ∧ kept c x false s t ∧ Only more s t ∧
        t.outputs = s.outputs) ∧
      (active = c →
        (∀ k, k ≠ 0 → next = some k → Completes (.sourceLost src) s fun t => silent t ∧ changes k s t ∧
          kept c x (!s.agrees k && state != 4) s t ∧ Only (places ++ more) s t) ∧
        ((next = none ∨ next = some 0) → Completes (.sourceLost src) s fun t => silent t ∧
          holds (if next = some 0 then 0 else 0xFF) s t ∧ kept c x true s t ∧
          Only ([keyOf 0x1320 2, keyOf 0x1300 3, keyOf 0x1320 7, keyOf 0x1400 8] ++ more) s t))) ∧
    (state ∈ [2, 3] → 3 ≤ (s.sourceState active).bad → Completes .sourceJump s fun t => t.entry (keyOf 0x1300 3) = 4 ∧
      t.entry (keyOf 0x1320 8) = satAdd 32 (s.entry (keyOf 0x1320 8)) 1 ∧ t.outputs = s.outputs ++ [.event 182 4] ∧
      TimeMoves { s.hid.time with rateHeld := s.meanRate } s t ∧
      Only [keyOf 0x1300 3, keyOf 0x1320 8, keyOf 0x1400 8] s t) ∧
    (∀ c, state ∈ [3, 4] → c ≠ 0 → s.agrees c = true →
      (if state = 4 then some active else s.sourceOrder.find? fun k => k != 0 && s.sourceLocked k) = some c →
      Completes .sourceReturn s fun t => t.entry (keyOf 0x1300 3) = 2 ∧ t.entry (keyOf 0x1320 2) = c ∧
        TimeMoves s.hid.time s t ∧ t.outputs = s.outputs ∧ Only [keyOf 0x1300 3, keyOf 0x1320 2] s t) ∧
    (∀ d : Int, s.hid.time.held = false → state ∈ [2, 5] → (s.sourceState active).offset = some d →
      let rate := toSigned 32 (s.entry (keyOf 0x1300 5))
      let slew := s.entry (keyOf 0x1320 6) * ((s.hid.time.cycles - s.hid.time.rateAt) * 4 / 5) / 10 ^ 9
      Completes .intercalationUpdate s fun t =>
        let now := toSigned 32 (t.entry (keyOf 0x1300 5))
        now.natAbs ≤ 13107200 ∧ (rate.natAbs ≤ 13107200 → (now - rate).natAbs ≤ slew) ∧
        (t.outputs = s.outputs ∨ now.natAbs = 13107200 ∧ t.outputs = s.outputs ++ [.event 181 0]) ∧
        TimeMoves { s.hid.time with rateAt := s.hid.time.cycles, rates := t.hid.time.rates } s t ∧
        t.hid.time.rates.head? = some (s.hid.time.cycles, now) ∧ Only [keyOf 0x1300 5] s t))

/-- On a sender that ingests: a complete frame that an enabled receiver supports makes it active, counts, becomes the newest
of its source and goes to the compressor in place of one that waits there; a dropped one counts. DP_LOST, when the link
has lost training or no frame has come for long enough, and FLOW_LOST make a source LOST and count. The first packet of a
number within 2 ms is taken by the flow whose leg it is for, a second copy only shows its leg; one of no flow counts in
6000h.08. A frame whose packets are all there becomes the newest of its source, with state 2 on both legs and 3 on one;
one whose first packet is not known counts as incomplete. COMPRESSION_DONE runs the engines on to the end of a source's
frame, which becomes ready, or for a surface set is stored in its slot and moves its effective fence, and counts. Nothing
else changes but the self-check mark of a source that returns (R154). (R210, R211, R212, R213, R214, R219, R221, R226,
R227) -/
def Obligations.SourcesDeliverFrames : Prop :=
  let queued (src n : Nat) (f : Frame) (s t : State) : Prop :=
    (∃ j ∈ t.hid.ingest.jobs, j.source = src ∧ j.number = n ∧ j.frame = some f) ∧
    (∀ j ∈ t.hid.ingest.jobs, j.source = src → j.number ≠ n → j.started = true) ∧ t.outputs = s.outputs
  let counts (k : Key) (hi lo : Nat) (s t : State) : Prop :=
    field (t.entry k) hi lo = satAdd (hi - lo + 1) (field (s.entry k) hi lo) 1
  let ingests (x : IngestState) (s t : State) : Prop := t.hid = { s.hid with
    pair := { s.hid.pair with selfSeen := t.hid.pair.selfSeen }
    ingest := x }
  (∀ (s : State) (d format rate : Nat) (full : Bool) (data : List Byte), s.sound = true → s.shaped = true →
    s.dpTakes d = true →
    (s.dpSupports d format rate = true →
      let f := s.dpFormat d (format &&& 0xFFFFFFFF00FFFCF0)
      let src := 0x10 + d
      let n := (lookupKey s.hid.ingest.counts src).getD 0 + 1
      let frame : Frame := ⟨n, field f 63 48, field f 47 32, (dpCoding f full).frame data⟩
      Completes (.dpFrameComplete d ⟨format, full⟩ rate data) s fun t => t.entry (keyOf (0x6001 + d) 3) = 2 ∧
        t.entry (keyOf (0x6001 + d) 4) = f % 2 ^ 64 ∧ t.entry (keyOf (0x6001 + d) 5) = rate % 2 ^ 32 ∧
        counts (keyOf (0x6001 + d) 6) 63 32 s t ∧ queued src n frame s t ∧
        ingests { s.hid.ingest with
          counts := insertKey s.hid.ingest.counts src n
          newest := insertKey s.hid.ingest.newest src frame
          full := setAt s.hid.ingest.full d full
          dpAt := setAt s.hid.ingest.dpAt d s.uptime
          jobs := t.hid.ingest.jobs
          engines := t.hid.ingest.engines } s t ∧ Only ([3, 4, 5, 6].map (keyOf (0x6001 + d))) s t) ∧
    (Completes (.dpFrameDrop d) s fun t => counts (keyOf (0x6001 + d) 6) 31 16 s t ∧ t.hid = s.hid ∧ t.outputs = s.outputs ∧
      Only [keyOf (0x6001 + d) 6] s t)) ∧
  (∀ (s : State) (d : Nat), s.sound = true → s.isSender = true →
    let clears (src : Nat) (t : State) : Prop := t.outputs = s.outputs ∧
      t.hid = { s.hid with
        ports := t.hid.ports
        ingest := { s.hid.ingest with
          direct := t.hid.ingest.direct
          directTick := t.hid.ingest.directTick } } ∧
      ((∀ b ∈ s.directOf src, (s.binding b).clear = false) → t.hid = s.hid)
    (∀ training : Bool, d < 4 → s.entry (keyOf (0x6001 + d) 3) ∈ [1, 2] → (training || s.dpSilent d) = true →
      Completes (.dpLost ⟨d, training⟩) s fun t => t.entry (keyOf (0x6001 + d) 3) = 3 ∧
        counts (keyOf (0x6001 + d) 6) 15 0 s t ∧ clears (0x10 + d) t ∧
        Only [keyOf (0x6001 + d) 3, keyOf (0x6001 + d) 6] s t) ∧
    (d < 16 → s.entry (keyOf (0x6010 + d) 7) ∈ [1, 2, 3] → s.flowSilent d = true → Completes (.flowLost d) s fun t =>
      t.entry (keyOf (0x6010 + d) 7) = 4 ∧ counts (keyOf (0x6010 + d) 8) 15 0 s t ∧ clears (0x20 + d) t ∧
      Only [keyOf (0x6010 + d) 7, keyOf (0x6010 + d) 8] s t)) ∧
  (∀ (s : State) (leg source group udpPort seq : Nat) (marker : Bool) (bs : List Byte), s.sound = true → s.shaped = true →
    s.ingesting = true → s.up .link = true → leg < 2 →
    let c : Instr := .flowPacket leg ⟨source, group, udpPort⟩ seq marker bs
    (∀ f, s.flowFor leg source group udpPort = some f →
      let x := s.flow f
      let copy : Bool := x.taken.any fun q => q.1 == seq && decide (s.uptime < q.2 + 2000000)
      let seen : FlowState := { x with legs := withBit x.legs leg, seenAt := updateAt x.seenAt leg fun _ => s.uptime }
      let taken : FlowState := { seen with
        taken := (x.taken.filter fun q => decide (s.uptime < q.2 + 2000000)) ++ [(seq, s.uptime)]
        packets := x.packets ++ [(seq, bs)]
        first := if marker then (x.last.map fun l => (l + 1) % 2 ^ 32).orElse fun _ => x.first else x.first
        last := if marker then some seq else x.last }
      Completes c s fun t => bitAt (t.entry (keyOf 0x6000 7)) leg = true ∧ t.outputs = s.outputs ∧
        t.hid = { s.hid with ingest := { s.hid.ingest with
          flows := setAt s.hid.ingest.flows f (if copy then seen else taken) } } ∧
        (copy = false → marker = true → x.last.isSome = true → counts (keyOf (0x6010 + f) 8) 31 16 s t) ∧
        Only (if copy = false ∧ marker = true ∧ x.last.isSome = true then [keyOf 0x6000 7, keyOf (0x6010 + f) 8]
          else [keyOf 0x6000 7]) s t) ∧
    (s.flowFor leg source group udpPort = none → Completes c s fun t => t.hid = s.hid ∧
      bitAt (t.entry (keyOf 0x6000 7)) leg = true ∧
      t.entry (keyOf 0x6000 8) = satAdd 32 (s.entry (keyOf 0x6000 8)) 1 ∧ Only [keyOf 0x6000 7, keyOf 0x6000 8] s t)) ∧
  (∀ (s : State) (f : Nat), s.sound = true → s.shaped = true → s.ingesting = true → f < 16 →
    s.entry (keyOf (0x6010 + f) 1) ≠ 0 → (s.flow f).last.isSome = true →
    let x := s.flow f
    let m := s.entry (keyOf (0x6010 + f) 5)
    let src := 0x20 + f
    let n := (lookupKey s.hid.ingest.counts src).getD 0 + 1
    (∀ data, x.complete = some data →
      let frame : Frame := ⟨n, field m 63 48, field m 47 32,
        (flowCoding m (s.entry (keyOf (0x6010 + f) 6))).frame data⟩
      Completes (.flowFrameComplete f) s fun t =>
        t.entry (keyOf (0x6010 + f) 7) = (if x.legs = 3 then 2 else 3) ∧ counts (keyOf (0x6010 + f) 8) 63 32 s t ∧
        queued src n frame s t ∧ (x.after s.uptime).last = none ∧ (x.after s.uptime).completedAt = some s.uptime ∧
        ingests { s.hid.ingest with
          counts := insertKey s.hid.ingest.counts src n
          newest := insertKey s.hid.ingest.newest src frame
          flows := setAt s.hid.ingest.flows f (x.after s.uptime)
          jobs := t.hid.ingest.jobs
          engines := t.hid.ingest.engines } s t ∧ Only [keyOf (0x6010 + f) 7, keyOf (0x6010 + f) 8] s t) ∧
    (x.first = none → Completes (.flowFrameComplete f) s fun t => counts (keyOf (0x6010 + f) 8) 31 16 s t ∧
      t.hid = { s.hid with ingest := { s.hid.ingest with flows := setAt s.hid.ingest.flows f { x.after s.uptime with
        completedAt := x.completedAt, period := x.period } } } ∧ t.outputs = s.outputs ∧
      Only [keyOf (0x6010 + f) 8] s t)) ∧
  (∀ (s : State) (src finish : Nat) (j : CompressJob) (rest : List CompressJob), s.sound = true → s.ingesting = true →
    s.finishOf src = some finish →
    let cycles := max s.hid.time.cycles (ceilDiv finish 16)
    takeFirst (fun k => k.source == src && k.started)
      (s.hid.ingest.handBands (some (cycles * 16)) s.hid.ingest.bandsLeft).jobs = some (j, rest) →
    let done (ready : List (Nat × Frame)) (t : State) : Prop :=
      t.entry (keyOf 0x6104 2) = satAdd 32 (s.entry (keyOf 0x6104 2)) 1 ∧ SameEntriesBut [keyOf 0x6104 2] s t ∧
      t.outputs = s.outputs ∧
      (t.hid.ingest.jobs.map fun k => (k.source, k.number, k.frame)) = rest.map (fun k => (k.source, k.number, k.frame)) ∧
      t.hid = { s.hid with
        memory := { s.hid.memory with poison := t.hid.memory.poison }
        time := { s.hid.time with
          now := t.hid.time.now
          cycles := cycles
          trimDone := t.hid.time.trimDone }
        ingest := { s.hid.ingest with
          ready := ready
          jobs := t.hid.ingest.jobs
          engines := t.hid.ingest.engines } }
    (∀ f, j.frame = some f → Completes (.compressionDone src) s fun t => done (insertKey s.hid.ingest.ready src f) t ∧
      t.hid.memory = s.hid.memory ∧ SameMemory s t) ∧
    (j.frame = none →
      let u := s.surfaceSet (src - 0x40)
      let px := s.compressed u j.number
      let e := domainBase (keyOf 0x6031 1) + 16 * u.fence + 8
      let v := max (s.effective u.fence) j.number
      u.slot j.number + px.length ≤ 2 ^ 56 → v < 2 ^ 64 →
      Completes (.compressionDone src) s fun t => done s.hid.ingest.ready t ∧
        t.bytes (Space.payload.at (u.slot j.number)) px.length = px ∧ t.effective u.fence = v ∧
        SameMemoryOutside [(Space.payload.at (u.slot j.number), Space.payload.at (u.slot j.number) + px.length),
          (e, e + 8)] s t))

/-- FENCE_WRITE of eight aligned bytes: a larger value becomes the fence's, and the effective value of an enabled compressed
set follows at once, while that of an enabled raw one waits for the compressor, which takes the frame in place of one that
waits; a value not larger counts in 6020h.03, and any write while PCIe writes are frozen in 1644h.0A. A read of BAR4
answers the fence or the shown frame there, and 0 elsewhere. FENCE_RESET answers OK; the fence and its effective value
read 0, and its frames leave the compressor. BAR2: a write inside mapped memory stores its bytes; one beyond the host area
counts in 6020h.02, one to unmapped memory in 3000h.06, one while frozen in 1644h.0A, and none of these stores; a read of
mapped memory answers its bytes, with poison where a word of it is poisoned, of unmapped memory ones, and counts. The
first access shows the trained link in 6020h.01 (log 99). Nothing else changes. (R90, R216, R217, R218, R219, R220, R221,
R225, R376, R391) -/
def Obligations.FencesAndTheWindowOfMemory : Prop :=
  let fenceAt (f : Nat) : Nat := domainBase (keyOf 0x6031 1) + 16 * f
  let link := keyOf 0x6020 1
  let counts (c : Instr) (k : Key) (s : State) : Prop := Completes c s fun t => t.hid = s.hid ∧ t.outputs = s.outputs ∧
    t.entry k = satAdd 32 (s.entry k) 1 ∧ Only [k, link] s t
  let answers (c : Instr) (bs : List Byte) (poison : Bool) (s : State) : Prop := Completes c s fun t => t.hid = s.hid ∧
    t.outputs = s.outputs ++ [.completion bs poison] ∧ Only [link] s t
  (∀ (s : State) (f n : Nat) (bs : List Byte), s.sound = true → s.isSender = true → s.up .core = true → f < 256 →
    bs.length = 8 →
    let v := natLE bs
    let c : Instr := .fenceWrite ⟨true, 8 * f, n⟩ bs
    let moves (bytes : Nat) (ks : List Key) (more : State → Prop) : Prop := Completes c s fun t => t.fence f = v ∧
      SameEntriesBut (link :: ks) s t ∧ SameMemoryBut (fenceAt f) bytes s t ∧ t.outputs = s.outputs ∧ more t
    (s.frozen 3 = true → counts c (keyOf 0x1644 0x0A) s) ∧
    (s.frozen 3 = false → v ≤ s.fence f → counts c (keyOf 0x6020 3) s) ∧
    (s.frozen 3 = false → s.fence f < v →
      ((∀ i < 64, (s.surfaceSet i).fence ≠ f ∨ (s.surfaceSet i).on = false) ∨ v ≤ s.effective f →
        moves 8 [] fun t => t.effective f = s.effective f ∧ t.hid = s.hid) ∧
      (∀ i < 64, (s.surfaceSet i).fence = f → (s.surfaceSet i).on = true →
        (∀ j < 64, j ≠ i → (s.surfaceSet j).fence ≠ f ∨ (s.surfaceSet j).on = false) → s.effective f < v →
        ((s.surfaceSet i).raw = false → moves 16 [] fun t => t.effective f = v ∧ t.hid = s.hid) ∧
        ((s.surfaceSet i).raw = true → (∀ j ∈ s.hid.ingest.jobs, j.source = 0x40 + i → j.number < v) →
          moves 8 [keyOf 0x6104 4] fun t => t.effective f = s.effective f ∧
            (∃ j ∈ t.hid.ingest.jobs, j.source = 0x40 + i ∧ j.number = v ∧ j.frame = none) ∧
            (∀ j ∈ t.hid.ingest.jobs, j.source = 0x40 + i → j.number ≠ v → j.started = true) ∧
            t.entry (keyOf 0x6104 4) ∈ [s.entry (keyOf 0x6104 4), satAdd 32 (s.entry (keyOf 0x6104 4)) 1] ∧
            t.hid = { s.hid with ingest := { s.hid.ingest with
              jobs := t.hid.ingest.jobs
              engines := t.hid.ingest.engines } })))) ∧
  (∀ (s : State) (a n : Nat) (bs : List Byte), s.sound = true → s.isSender = true → s.up .core = true →
    let c : Instr := .fenceWrite ⟨false, a, n⟩ bs
    (∀ f < 256, a = 8 * f → n = 8 → answers c (bytesLE 8 (s.fence f)) false s) ∧
    (∀ g < 64, a = 0x800 + 8 * g → n = 8 → answers c (bytesLE 8 (s.shown g)) false s) ∧
    ((n ≠ 8 ∨ a % 8 ≠ 0 ∨ 0xA00 ≤ a) → answers c (zeroBytes n) false s)) ∧
  (∀ (s : State) (d : Door) (f : Nat), s.sound = true → s.isSender = true → s.servesAt d = true → f < 256 →
    Completes (.fenceReset d f) s fun t => Answered d Status.ok [] t ∧ t.fence f = 0 ∧ t.effective f = 0 ∧
      t.hid = { s.hid with
        almanac := t.hid.almanac
        ingest := { s.hid.ingest with jobs := s.hid.ingest.jobs.filter fun j =>
          !(0x40 ≤ j.source && (s.surfaceSet (j.source - 0x40)).fence == f) } } ∧
      SameEntriesBut doorMarks s t ∧ SameMemoryBut (fenceAt f) 16 s t) ∧
  (∀ (s : State) (a n : Nat) (bs : List Byte), s.sound = true → s.isSender = true → s.up .pipe = true → bs ≠ [] →
    let c : Instr := .bar2Access true a n bs
    (s.frozen 3 = true → counts c (keyOf 0x1644 0x0A) s) ∧
    (s.frozen 3 = false →
      (0x1A00000000 < a + bs.length → counts c (keyOf 0x6020 2) s) ∧
      (a + bs.length ≤ 0x1A00000000 → s.allMapped a bs.length = false → counts c (keyOf 0x3000 6) s) ∧
      (a + bs.length ≤ 0x1A00000000 → s.allMapped a bs.length = true → s.entry (keyOf 0x3000 3) = 2 →
        Completes c s fun t => t.bytes (Space.payload.at a) bs.length = bs ∧ SameMemoryBut (Space.payload.at a) bs.length s t ∧
          SameEntriesBut [link] s t ∧ t.outputs = s.outputs ∧
          t.hid = { s.hid with memory := { s.hid.memory with poison := t.hid.memory.poison } }))) ∧
  (∀ (s : State) (a n : Nat) (bs : List Byte), s.sound = true → s.isSender = true → 1 ≤ n →
    let c : Instr := .bar2Access false a n bs
    let reads : Prop := s.mode ≠ Mode.freeze ∧ s.entry (keyOf 0x3000 3) = 2 ∧ a + n ≤ 0x1A00000000
    (a + n ≤ 0x1A00000000 → s.allMapped a n = false → Completes c s fun t =>
      t.outputs = s.outputs ++ [.completion (List.replicate n 0xFF) false] ∧
      t.entry (keyOf 0x3000 6) = satAdd 32 (s.entry (keyOf 0x3000 6)) 1 ∧ t.hid = s.hid ∧ Only [keyOf 0x3000 6, link] s t) ∧
    (s.allMapped a n = true → reads → answers c (s.bytes (Space.payload.at a) n)
      ((List.range (n / 16 + 2)).any fun i => decide (a / 16 * 16 + 16 * i < a + n) && s.poisoned (a / 16 * 16 + 16 * i)) s) ∧
    (s.allMapped a n = true ∨ 0x1A00000000 < a + n → ¬reads → answers c (List.replicate n 0xFF) false s))

/-- FLIP_DEADLINE settles every flip group once: in a mode that advances, a group whose surface sets all have a newer frame,
or that has none, shows it and counts in 6102h.04 with its vector; one that has to wait stays, is stale and counts in
6102h.03; in another mode it stays and is not stale. Its clips and live sources move on with it; a clip newly bound starts
at frame 0. In a mode that sends layers, the windows are cut from the pictures of the tick, count in 6105h.01 and .02, and
their cells wait on every port that does not yield. Layer cells left over are dropped and count in 1644h.0C. Yields of the
window show in 2102h.02. LAUNCH_CUTOFF at LT(n) − P − G: slots that have come leave first; then no layer cell waits, and
those that had not left count. DIRECT_LINE_SLICE: a source line of a direct binding waits, on every UP port that reaches a
tile which shows it, as cells of one message with consecutive SEQ. Nothing else changes. (R26, R31, R94, R147, R156, R223,
R224, R229, R236, R237, R245, R266) -/
def Obligations.FlipsSliceAndLaunch : Prop :=
  (∀ s : State, s.sound = true → s.shaped = true → s.isSender = true → s.up .pipe = true → s.stepped = true →
    let n := s.tick + 2
    let c := s.configAt n
    let i := s.hid.ingest
    let sets (g : Nat) := ((c.members g).filter isSet).map fun code => c.surfaceSet (code - 0x40)
    let ready (g : Nat) := (sets g).map fun x => s.effective x.fence
    let k (g : Nat) := (ready g).foldl min ((ready g).headD 0)
    let settles (g : Nat) : Bool := !(c.members g).isEmpty && [Mode.run, Mode.derate, Mode.bringup].contains (s.modeAt n)
    let advances (g : Nat) : Bool := settles g && ((sets g).isEmpty || s.shown g < k g)
    let holds (g : Nat) : Bool := settles g && !(sets g).isEmpty && k g ≤ s.shown g
    let shown (g : Nat) : Nat := if advances g then (if (sets g).isEmpty then s.shown g + 1 else k g) % 2 ^ 64 else s.shown g
    let groups := List.range 64
    let clip (code : Nat) := (lookupKey i.clips code).getD (0, 0)
    let bound (code : Nat) : Prop := ∃ b ∈ c.framed, (c.binding b).source = code
    let slices : Bool := [Mode.hold, Mode.run, Mode.derate, Mode.bringup].contains (s.modeAt n) && !s.relocking n
    let counted (key : Key) (d : Nat) (t : State) : Prop := t.entry key = satAdd 32 (s.entry key) d
    i.sliced ≠ some n → Completes .flipDeadline s fun t =>
      let cells (p : Nat) := (s.farFirst p).flatMap fun a => (t.configAt n).framed.flatMap fun b =>
        t.windowCells (t.configAt n) n p a b
      RunsTo (s.at s.tick) s t ∧
      (∀ p < 16, bitAt (t.entry (keyOf 0x2102 2)) p = s.hid.pair.yields.any fun y => y.1 == p && decide (y.2 ≤ n)) ∧
      (∀ g < 64, t.shown g = shown g ∧
        bitAt t.hid.ingest.stale g = if (c.members g).isEmpty then bitAt i.stale g else holds g) ∧
      counted (keyOf 0x6102 4) (groups.filter advances).length t ∧ counted (keyOf 0x6102 3) (groups.filter holds).length t ∧
      counted (keyOf 0x6104 3) ((groups.filter settles).map fun g =>
        ((sets g).filter fun x => x.raw && s.effective x.fence < s.fence x.fence).length).sum t ∧
      t.outputs = s.outputs ++ (groups.filter fun g => advances g && s.flag 0x6102 1 g).map Output.vector ∧
      (∀ code, isClip code = true → (bound code →
          ((∀ g < 64, advances g = true → code ∉ c.members g) → lookupKey t.hid.ingest.clips code = some (clip code)) ∧
          (∀ g < 64, advances g = true → code ∈ c.members g → (∀ h < 64, h ≠ g → code ∉ c.members h) →
            lookupKey t.hid.ingest.clips code = some (match lookupKey i.clips code with
              | some q => (c.clip (code - 0x80)).advance q.1 q.2
              | none => (0, 0)))) ∧
        (¬bound code → lookupKey t.hid.ingest.clips code = none)) ∧
      (∀ code, isClip code = false → isSet code = false →
        ((∀ g < 64, advances g = true → code ∉ c.members g) → lookupKey t.hid.ingest.used code = lookupKey i.used code) ∧
        (∀ g < 64, ∀ f, advances g = true → code ∈ c.members g → lookupKey i.ready code = some f →
          lookupKey t.hid.ingest.used code = some f)) ∧
      t.hid.ports = (s.hid.ports.zipIdx.map fun q => { q.1 with
        egress := (q.1.egress.filter fun w => w.rank != 4) ++
          (if slices && !t.yielding q.2 then (cells q.2).map fun x => t.waiting x.1 x.2 else []) }) ∧
      counted (keyOf 0x6105 1) (if slices then (t.windows (t.configAt n)).length else 0) t ∧
      counted (keyOf 0x6105 2) (if slices then ((t.windows (t.configAt n)).filter fun q =>
        (t.picture ((t.configAt n).binding q.2)).flags % 4 != 0).length else 0) t ∧
      counted (keyOf 0x1644 0x0C) s.layersWaiting t ∧
      (∀ o < 2, (t.preview o).building =
        if s.entry (keyOf (0x6300 + o) 1) = 1 ∧ ((s.preview o).fresh || (s.preview o).building.isSome) = true ∧
          t.previewBuilds = true then some n else none) ∧
      t.hid = { s.hid with
        almanac := t.hid.almanac
        time := t.hid.time
        ports := t.hid.ports
        counts := { s.hid.counts with underruns := s.hid.counts.underruns + s.layersWaiting }
        pair := { s.hid.pair with own := t.hid.pair.own, lastFlips := t.hid.pair.lastFlips }
        ingest := { i with
          sliced := some n
          launchTick := if slices then n else i.launchTick
          previews := t.hid.ingest.previews
          stale := t.hid.ingest.stale
          clips := t.hid.ingest.clips
          used := t.hid.ingest.used
          jobs := t.hid.ingest.jobs
          engines := t.hid.ingest.engines } } ∧
      SameEntriesBut [keyOf 0x2102 2, keyOf 0x6102 3, keyOf 0x6102 4, keyOf 0x6104 3, keyOf 0x6105 1, keyOf 0x6105 2,
        keyOf 0x1644 0x0C, keyOf 0x1400 8, keyOf 0x6302 6, keyOf 0x6302 7] s t ∧
      SameMemoryBut (domainBase (keyOf 0x6102 2)) 512 s t) ∧
  (∀ (s : State) (n : Nat), s.sound = true → s.shaped = true → s.isSender = true → s.stepped = true →
    s.hid.ingest.launchTick = n → s.hid.ingest.sliced = some n →
    Completes .launchCutoff s fun t => RunsTo (s.at (n - 1) - (s.entry (keyOf 0x6101 1) : Nat)) s t ∧
      (∀ p < 16, (t.port p).layers = []) ∧ (∀ o ∈ t.outputs.drop s.outputs.length, ∃ p l, o = .slot p l) ∧
      (∃ left ≤ s.layersWaiting, t.entry (keyOf 0x1644 0x0C) = satAdd 32 (s.entry (keyOf 0x1644 0x0C)) left ∧
        t.hid.counts.underruns = s.hid.counts.underruns + left ∧
        ((∀ p < 16, s.sendsOwn p = false) → left = s.layersWaiting ∧ t.outputs = s.outputs)) ∧
      t.hid = { s.hid with
        almanac := t.hid.almanac
        time := t.hid.time
        ports := t.hid.ports
        counts := { s.hid.counts with underruns := t.hid.counts.underruns, cells := t.hid.counts.cells }
        ingest := { s.hid.ingest with queues := t.hid.ingest.queues, held := t.hid.ingest.held } } ∧
      Only [keyOf 0x1644 0x0C, keyOf 0x1400 8, keyOf 0x2201 2] s t) ∧
  (∀ (s : State) (src line : Nat) (data : List Byte), s.sound = true → s.shaped = true → s.ingesting = true →
    s.stepped = true → s.mode ∈ [Mode.run, Mode.hold, Mode.derate, Mode.bringup] → isDp src = true ∨ isFlow src = true →
    s.sourceOn src = true →
    let i := s.hid.ingest
    let bytes (b : Nat) (w : WindowBox) : List Byte :=
      let d := s.binding b
      let m := (w.ix1 - w.ix0).toNat
      segmentHeader b (if s.sourceLostNow src then 2 else 0) ((lookupKey i.counts src).getD 0)
          (d.geo.dy + (line : Int) - d.geo.sy).toNat w.ix0.toNat m ++
        (List.range m).flatMap fun x => (s.coding src).stored data (d.geo.sx + (w.ix0 - d.geo.dx).toNat + x) line
    let start (q : Nat) : Nat := (lookupKey (if i.directTick = s.tick then i.direct else []) q).getD 0
    let sent (p a b : Nat) : List Cell := match s.tileWindow b a with
      | some w =>
        let d := s.binding b
        let y := d.geo.dy + (line : Int) - d.geo.sy
        if d.geo.sy ≤ line ∧ line < d.geo.sy + d.geo.sh ∧ w.iy0 ≤ y ∧ y < w.iy1 ∧ (s.tilesOn p).contains a = true ∧
            s.portUp p = true ∧ s.yielding p = false then
          messageCells (fun k first last body => queueCell (a * 512 + b) s.address
            ((s.tick * 4096 + (start (a * 512 + b) + k)) % 2 ^ 32) (s.lt s.tick) false false (s.endOf p) first last body) (bytes b w)
        else []
      | none => []
    Completes (.directLineSlice src line data) s fun t => t.outputs = s.outputs ∧
      t.hid = { s.hid with
        ports := s.hid.ports.zipIdx.map fun q => { q.1 with
          egress := q.1.egress ++ ((s.directOf src).flatMap fun b =>
            ((s.hid.link.addresses.map (·.1)).eraseDups).flatMap fun a => sent q.2 a b).map fun x => s.waiting x }
        ingest := { i with direct := t.hid.ingest.direct, directTick := t.hid.ingest.directTick } } ∧ Only [] s t)

/-- DOORBELL with a tail that is taken moves it, and the engine serves the ring; a tail that is refused, or set reserved bits,
count in 6020h.04 and do nothing. Served: while PIPE is released and memory grants reads, and no message of the ring is on
its way, a bad descriptor puts the ring into its error state and counts; a timed message whose LT lies more than P ahead
is held; one that reaches no port waits; any other waits for slots as the cells of one message on each port that reaches
its target, with the queue's own SEQ, and its last cell moves the head. TIMED_MESSAGE_RELEASE serves a held ring when its
LT has come within P. QUEUE_RESET empties the ring named in 2200h.01, QUEUE_DISABLE disables it and QUEUE_ENABLE serves
it; of a stream below 256 they answer RANGE. TABLE_LOADER_GO sends the message its entries describe, or shows and answers
why not. HOST_STREAM_DELIVER puts a message into its buffer, or counts it in 2210h.04. Nothing else changes. (R144, R147,
R176, R218, R232, R233, R234, R235, R241, R290, R294) -/
def Obligations.QueuesAndTheLoaderSend : Prop :=
  let cells (s : State) (q : Nat) (timed bcast : Bool) (lt : Nat) (bytes : List Byte) (p : Nat) : List Cell :=
    messageCells (fun i first last body => queueCell q s.address (((s.queue q).seq.getD (s.tick * 4096 % 2 ^ 32) + i) % 2 ^ 32)
      (if timed then lt else 0) timed bcast (s.endOf p) first last body) bytes
  let waits (s : State) (ports : List Nat) (ring : Option Nat) (out : Nat → List Cell) : List PortState :=
    s.hid.ports.zipIdx.map fun r =>
      let last (x : Cell) : Option Nat := if x.last && ports.head? == some r.2 then ring else none
      { r.1 with egress := r.1.egress ++ if ports.contains r.2 then (out r.2).map fun x => s.waiting x [] (last x) else [] }
  let numbered (s : State) (q : Nat) (bytes : List Byte) : Option Nat :=
    some (((s.queue q).seq.getD (s.tick * 4096 % 2 ^ 32) + max 1 (ceilDiv bytes.length 240)) % 2 ^ 32)
  let queues (s t : State) (q : Nat) (n : QueueContext) : Prop := t.queue q = n ∧ ∀ x, x ≠ q → t.queue x = s.queue x
  let served (s : State) (q : Nat) (c : QueueContext) (due : Bool) (t : State) : Prop :=
    let d := s.headDescriptor q
    let timed := bitAt d.flags 0
    let lt := (lookupKey s.hid.ingest.held q).getD d.lt
    let ports := s.queuePorts q (bitAt d.flags 1)
    let bytes := s.bytes (Space.payload.at d.addr) d.length
    let stays : Prop := t.hid.ports = s.hid.ports ∧ t.hid.ingest.held = s.hid.ingest.held
    let same : Prop := t.entry (keyOf 0x2201 2) = s.entry (keyOf 0x2201 2)
    if s.up .pipe = false ∨ s.mode = Mode.freeze ∨ 2 ≤ c.state ∨ s.inFlight q = true then queues s t q c ∧ stays ∧ same
    else if c.head = c.tail then queues s t q { c with state := 0 } ∧ stays ∧ same
    else if d.good q = false then queues s t q { c with state := 3 } ∧ stays ∧
      t.entry (keyOf 0x2201 2) = satAdd 32 (s.entry (keyOf 0x2201 2)) 1
    else if timed = true ∧ due = false then queues s t q { c with state := 1 } ∧ t.hid.ports = s.hid.ports ∧
      t.hid.ingest.held = insertKey s.hid.ingest.held q lt ∧ same
    else if ports = [] then queues s t q { c with state := 1 } ∧ stays ∧ same
    else queues s t q { c with state := 1, seq := numbered s q bytes } ∧ same ∧
      t.hid.ports = waits s ports (some q) (cells s q timed (bitAt d.flags 1) lt bytes) ∧
      t.hid.ingest.held = s.hid.ingest.held
  let beside (s t : State) : Prop := t.hid = { s.hid with
    almanac := t.hid.almanac
    time := t.hid.time
    ports := t.hid.ports
    ingest := { s.hid.ingest with queues := t.hid.ingest.queues, held := t.hid.ingest.held } }
  let dueNow (s : State) (q : Nat) : Bool :=
    !s.moreThanP (lt32Diff ((lookupKey s.hid.ingest.held q).getD (s.headDescriptor q).lt) s.lt32) 1
  (∀ (s : State) (q tail : Nat) (bs : List Byte), s.sound = true → s.shaped = true → s.isSender = true → s.up .core = true →
    bs.length = 8 →
    let v := natLE bs
    let c : Instr := .doorbell 0x1000 bs
    (field v 31 18 ≠ 0 ∨ field v 63 48 ≠ 0 ∨ s.tailRefused (field v 17 0) (field v 47 32) = true → Completes c s fun t =>
      t.hid = s.hid ∧ t.outputs = s.outputs ∧ t.entry (keyOf 0x6020 4) = satAdd 32 (s.entry (keyOf 0x6020 4)) 1 ∧
      Only [keyOf 0x6020 1, keyOf 0x6020 4] s t) ∧
    (v = q + 2 ^ 32 * tail → q < 2 ^ 18 → tail < 2 ^ 16 → s.tailRefused q tail = false → Completes c s fun t =>
      served s q { s.queue q with tail := tail } (dueNow s q) t ∧ t.hid.time = s.hid.time ∧ beside s t ∧
      t.outputs = s.outputs ∧ Only [keyOf 0x6020 1, keyOf 0x2201 2] s t)) ∧
  (∀ (s : State) (q lt : Nat), s.sound = true → s.shaped = true → s.isSender = true →
    lookupKey s.hid.ingest.held q = some lt → 1 ≤ s.grid.rn → s.period.floor < 2 ^ 31 →
    Completes (.timedMessageRelease q) s fun t => served s q (s.queue q) true t ∧
      RunsTo ((s.ns : Int) + lt32Diff lt s.lt32 - s.period.floor) s t ∧ beside s t ∧ t.outputs = s.outputs ∧
      Only [keyOf 0x2201 2] s t) ∧
  (∀ (s : State) (d : Door), s.sound = true → s.shaped = true → s.isSender = true → s.servesAt d = true →
    let q := s.entry (keyOf 0x2200 1)
    (q % 512 < 256 → ∀ c ∈ [Instr.queueReset d, .queueDisable d, .queueEnable d], Refused c d Status.range s) ∧
    (256 ≤ q % 512 →
      let c := s.queue q
      (Acts (.queueReset d) d Status.ok [] s fun t =>
        queues s t q { c with head := 0, tail := 0, state := if c.state = 2 then 2 else 0 } ∧ beside s t ∧
        t.hid.time = s.hid.time ∧ t.hid.ingest.held = removeKey s.hid.ingest.held q ∧
        t.hid.ports = s.hid.ports.map fun r => { r with
          egress := r.egress.map fun w => if w.ring == some q then { w with ring := none } else w }) ∧
      (Acts (.queueDisable d) d Status.ok [] s fun t => queues s t q { c with state := 2 } ∧ beside s t ∧
        t.hid.time = s.hid.time ∧ t.hid.ports = s.hid.ports ∧ t.hid.ingest.held = s.hid.ingest.held) ∧
      (Acts (.queueEnable d) d Status.ok [keyOf 0x2201 2] s fun t =>
        served s q { c with state := if c.state = 2 then 0 else c.state } (dueNow s q) t ∧ t.hid.time = s.hid.time ∧
        beside s t))) ∧
  (∀ (s : State) (d : Door), s.sound = true → s.shaped = true → s.isSender = true → s.servesAt d = true →
    let st := s.loaderStatus
    let target := s.entry (keyOf 0x2202 1)
    let bcast : Bool := target == 0xFFFF
    let q := (if bcast then 0 else target * 512) + s.entry (keyOf 0x2202 2)
    let bytes := s.bytes (Space.payload.at (s.entry (keyOf 0x2202 3))) (s.entry (keyOf 0x2202 4))
    let shows (v : Nat) (more : State → Prop) : Prop := Acts (.tableLoaderGo d) d st [keyOf 0x2202 6] s fun t =>
      t.entry (keyOf 0x2202 6) = v ∧ more t
    (st ≠ Status.ok → shows (if st = Status.busy then 0xFF else st) (SameBeside s)) ∧
    (st = Status.ok → s.up .pipe = false ∨ s.mode = Mode.freeze → shows 0xFF (SameBeside s)) ∧
    (st = Status.ok → s.up .pipe = true → s.mode ≠ Mode.freeze → shows Status.ok fun t =>
      queues s t q { s.queue q with seq := numbered s q bytes } ∧ beside s t ∧ t.hid.time = s.hid.time ∧
      t.hid.ingest.held = s.hid.ingest.held ∧
      t.hid.ports = waits s (s.queuePorts q bcast) none (cells s q false bcast 0 bytes))) ∧
  (∀ (s : State) (stream : Nat) (m : Message) (rest : List Message), s.sound = true → s.isTile = true → 256 ≤ stream →
    stream < 512 → takeFirst (fun x => x.stream == stream) s.hid.compose.messages = some (m, rest) →
    let room : Prop := (s.hostStream stream).length + m.bytes.length ≤ 65536
    (room → Completes (.hostStreamDeliver stream) s fun t => t.hid = { s.hid with compose := { s.hid.compose with
        messages := rest
        streams := insertKey s.hid.compose.streams stream (s.hostStream stream ++ m.bytes) } } ∧
      t.outputs = s.outputs ∧ Only [] s t) ∧
    (¬room → Completes (.hostStreamDeliver stream) s fun t =>
      t.hid = { s.hid with compose := { s.hid.compose with messages := rest } } ∧ t.outputs = s.outputs ∧
      t.entry (keyOf 0x2210 4) = satAdd 32 (s.entry (keyOf 0x2210 4)) 1 ∧ Only [keyOf 0x2210 4] s t))

/-- WINDOW_COMPLETE: of a tick that has not begun to compose, a complete window whose descriptor matches the tile's own
computation is kept for its tick in a free bank and counts when its flags are 0; one that its layer does not take counts
as discarded, any other as a mismatch, with one event a tick; an incomplete one is dropped. DIRECT_SEGMENT_RECEIVE: a
segment in the tile's part of the direct layer puts its pixels into its line, one with CLEAR clears the line, any other
counts as discarded. TABLE_MESSAGE: a block goes into the load bank, or the upload buffer of the lamp map, at its offset;
START makes it LOADING, FINISH makes it VALID when size and CRC are right, else ERROR, and a map upload is then merged, or
replaces the map where that is allowed. With no load bank, an unknown table, a short, malformed or contradictory block, or
no START, the message is dropped with its error in 4204h.03. Nothing else changes. (R250, R251, R256, R266, R267, R289,
R290, R291, R361) -/
def Obligations.WindowsAndTablesArrive : Prop :=
  let counts (k : Key) (hi lo : Nat) (s t : State) : Prop :=
    field (t.entry k) hi lo = satAdd (hi - lo + 1) (field (s.entry k) hi lo) 1
  let mended (s t : State) (compose : ComposeState) : Prop := t.hid = { s.hid with
    almanac := t.hid.almanac
    memory := { s.hid.memory with poison := t.hid.memory.poison }
    compose := compose }
  (∀ (s : State) (stream : Nat) (m : Message) (rest : List Message), s.sound = true → s.isTile = true → s.up .pipe = true →
    stream < 64 → takeFirst (fun x => x.stream == stream) s.hid.compose.messages = some (m, rest) →
    (stream / 8 = 7 → s.layerDirect 7 = false) →
    let n := s.tickOf m.lt
    let x := stream / 8
    let k := keyOf (0x4110 + x) 0x10
    let c := s.configAt n
    let whole : Prop := (∀ d, s.hid.compose.tick = some d → d < n) ∧ 32 ≤ m.bytes.length ∧
      m.bytes.length = 32 + descField m.bytes 24 4
    let ends (ks : List Key) (compose : ComposeState) (more : State → Prop) : Prop := Completes (.windowComplete stream) s
      fun t => mended s t { compose with messages := rest } ∧ Only ks s t ∧ more t
    (¬whole → ends [] s.hid.compose fun t => t.outputs = s.outputs ∧ t.hid.memory = s.hid.memory) ∧
    (whole → c.takesWindows stream = false → ends [k] s.hid.compose fun t => counts k 15 0 s t ∧ t.outputs = s.outputs ∧
      t.hid.memory = s.hid.memory) ∧
    (whole → c.takesWindows stream = true → c.windowMatches x (stream % 8) m.bytes = true →
      ends [k] { s.hid.compose with fresh := s.hid.compose.fresh ++
          [(stream, ⟨n, s.freeBank stream, m.bytes.take 32, m.bytes.drop 32, false, []⟩)] } fun t =>
        (if descField m.bytes 3 1 = 0 then counts k 63 32 s t else t.entry k = s.entry k) ∧ t.outputs = s.outputs) ∧
    (whole → c.takesWindows stream = true → c.windowMatches x (stream % 8) m.bytes = false →
      ends [k, keyOf 0x1400 8] { s.hid.compose with mismatchTick := some s.tick } fun t => counts k 31 16 s t ∧
        t.outputs = s.outputs ++ (if s.hid.compose.mismatchTick = some s.tick then [] else [.event 251 x]) ∧
        t.hid.memory = s.hid.memory)) ∧
  (∀ (s : State) (v : Nat) (m : Message) (rest : List Message), s.sound = true → s.isTile = true → s.up .pipe = true →
    v < 8 → takeFirst (fun x => x.stream == 56 + v) s.hid.compose.messages = some (m, rest) → s.layerDirect 7 = true →
    let c : Instr := .directSegmentReceive (56 + v)
    let d := m.bytes
    let y := descField d 8 2
    let x := descField d 10 2
    let n := descField d 12 2
    let old := s.storedLine v y
    let o := x - s.regionX
    let head : Prop := 16 ≤ d.length ∧ descField d 0 1 = 0x30 ∧ descField d 1 1 = 7 ∧ descField d 2 1 = v ∧
      d.length = 16 + 6 * n ∧ (if descClear d then n = 0 else 1 ≤ n ∧ n ≤ s.regionW) ∧ s.segmentFits v y x n = true
    let stores (pixels : List (List Byte × Nat)) : Prop := Completes c s fun t => t.storedLine v y = pixels ∧
      (∀ a b, (a, b) ≠ (v, y) → t.storedLine a b = s.storedLine a b) ∧ t.outputs = s.outputs ∧ Only [] s t ∧
      t.hid = { s.hid with compose := { s.hid.compose with messages := rest, lines := t.hid.compose.lines } }
    (head → descClear d = false → stores (old.take o ++
      ((List.range n).map fun i => (slice d (16 + 6 * i) 6, 65535)) ++ old.drop (o + n))) ∧
    (head → descClear d = true → stores (List.replicate s.regionW (zeroBytes 6, 0))) ∧
    (¬head → Completes c s fun t => counts (keyOf 0x4117 0x10) 15 0 s t ∧ t.outputs = s.outputs ∧
      t.hid = { s.hid with compose := { s.hid.compose with messages := rest } } ∧ Only [keyOf 0x4117 0x10] s t)) ∧
  (∀ (s : State) (stream : Nat) (m : Message) (rest : List Message), s.sound = true → s.isTile = true → s.up .pipe = true →
    s.frozen 1 = false → 64 ≤ stream → stream < 128 →
    takeFirst (fun x => x.stream == stream) s.hid.compose.messages = some (m, rest) →
    let c : Instr := .tableMessage stream
    let off := m.head 4 4
    let total := m.head 12 4
    let block := m.bytes.drop 32
    let good : Prop := 32 ≤ m.bytes.length ∧ m.malformed = false
    let compose : ComposeState := { s.hid.compose with messages := rest }
    let dropped (e : Nat) : Prop := Completes c s fun t => t.entry (keyOf 0x4204 3) = e ∧ t.outputs = s.outputs ∧
      t.entry (keyOf 0x4204 2) = satAdd 32 (s.entry (keyOf 0x4204 2)) 1 ∧
      t.hid = { s.hid with compose := compose } ∧ Only [keyOf 0x4204 2, keyOf 0x4204 3] s t
    let taken (t : State) : Prop := t.entry (keyOf 0x4204 1) = satAdd 32 (s.entry (keyOf 0x4204 1)) 1 ∧ t.outputs = s.outputs ∧
      t.hid = { s.hid with
        memory := { s.hid.memory with poison := t.hid.memory.poison }
        colour := t.hid.colour
        compose := compose }
    (m.bytes.length < 32 → dropped 3) ∧
    (32 ≤ m.bytes.length → m.head 0 1 ∉ [0x01, 0x02, 0x10, 0x11] → dropped 1) ∧
    (∀ u < 2, m.head 0 1 = u + 1 →
      (32 ≤ m.bytes.length → s.loadBank u = none → dropped 2) ∧
      (∀ b, s.loadBank u = some b →
        let goes : Prop := m.starts = true ∨ s.bankCode u b = Bank.loading ∧ total = (s.bankLoad u b).total
        (32 ≤ m.bytes.length → m.malformed = true → dropped 3) ∧
        (good → m.starts = false → s.bankCode u b ≠ Bank.loading → dropped 4) ∧
        (good → m.starts = false → s.bankCode u b = Bank.loading → total ≠ (s.bankLoad u b).total → dropped 3) ∧
        (good → goes → Completes c s fun t => taken t ∧
          t.bytes (tableBank u b + off) (m.head 8 4) = block ∧
          t.bankCode u b = (if m.finishes = false then Bank.loading
            else if total = s.sizeWanted u ∧ m.head 16 4 = crc32 (t.bytes (tableBank u b) total) then Bank.valid
            else Bank.error) ∧
          (∀ u' b', u' < 2 → b' < 2 → (u', b') ≠ (u, b) → t.bankCode u' b' = s.bankCode u' b') ∧
          t.hid.colour = (if m.starts then { s.hid.colour with
              order := s.hid.colour.order + 1
              loads := setAt s.hid.colour.loads (2 * u + b) ⟨total, s.hid.colour.order + 1⟩ } else s.hid.colour) ∧
          SameEntriesBut [keyOf 0x4201 3, keyOf 0x4204 1] s t ∧
          SameMemoryBut (tableBank u b + off) (m.head 8 4) s t))) ∧
    (∀ replace : Bool, m.head 0 1 = (if replace then 0x11 else 0x10) →
      let shown := keyOf 0x5200 0x12
      let up := Space.upload.at 0
      let goes : Prop := m.starts = true ∨ s.entry shown = Bank.loading ∧ total = s.hid.colour.uploadTotal
      let loads (t : State) : Prop := t.bytes (Space.upload.at off) (m.head 8 4) = block ∧
        t.hid.colour = { s.hid.colour with uploadTotal := total }
      let fits (t : State) : Prop := total = 24576 ∧ m.head 16 4 = crc32 (t.bytes up 24576)
      (32 ≤ m.bytes.length → m.malformed = true → dropped 3) ∧
      (good → m.starts = false → s.entry shown ≠ Bank.loading → dropped 4) ∧
      (good → m.starts = false → s.entry shown = Bank.loading → total ≠ s.hid.colour.uploadTotal → dropped 3) ∧
      (good → goes → m.finishes = false → Completes c s fun t => taken t ∧ loads t ∧ t.entry shown = Bank.loading ∧
        SameEntriesBut [shown, keyOf 0x4204 1] s t ∧ SameMemoryBut (Space.upload.at off) (m.head 8 4) s t) ∧
      (good → goes → m.finishes = true → off + m.head 8 4 ≤ 24576 → Completes c s fun t => loads t ∧
        t.outputs = s.outputs ∧
        (¬fits t → t.entry shown = Bank.error ∧ taken t ∧ SameMemoryBut up 24576 s t ∧
          SameEntriesBut [shown, keyOf 0x4204 1] s t) ∧
        (fits t → t.entry shown = Bank.valid ∧
          SameMemoryOutside [(up, up + 24576), (Space.lampMap.at 0, Space.lampMap.at 90176)] s t ∧
          SameEntriesBut [shown, keyOf 0x4204 1, keyOf 0x4204 2, keyOf 0x4204 3, keyOf 0x5200 6, keyOf 0x5200 7,
            keyOf 0x5200 0x0B, keyOf 0x5200 0x0D] s t ∧
          (replace = false → taken t ∧ (∀ l < 196608, t.bypassed l = (s.bypassed l || bitAt (t.byte (up + l / 8)).toNat (l % 8))) ∧
            t.entry (keyOf 0x5200 6) = t.mapCount ∧ bitAt (t.entry (keyOf 0x5200 7)) 7 = true) ∧
          (replace = true → s.mapClearStatus = Status.ok → taken t ∧
            t.bytes (Space.lampMap.at 64) 24576 = t.bytes up 24576 ∧ t.mapWord 20 4 = 0 ∧
            t.entry (keyOf 0x5200 6) = t.mapCount ∧ bitAt (t.entry (keyOf 0x5200 7)) 7 = true) ∧
          (replace = true → s.mapClearStatus ≠ Status.ok → t.entry (keyOf 0x4204 3) = 6 ∧ SameMemoryBut up 24576 s t)))))

/-- COMPOSE_DEADLINE on a tile that composes: the tick after the one shown starts with every view of the slot map to do; each
layer and view shows the window of that tick, else the one before while its banks are held and its format fits, and is
then late in 4100h.06 and its count; 4100h.07 shows the late and the stale; 4100h.0A reads 1, or 2 with no view. In a mode
that does not compose it reads 0 and no tick starts. Banks that the next tick's configuration releases are empty, and
windows of a tick that has come are dropped. VIEW_COMPOSED stores the drive image of the next view, one value for each
lamp, in the bank of its older image, with the clip count and the peak of 4200h.04 and .05; the view that is captured goes
into the next slot of the ring when its tick is due, unless a host holds that slot, which counts in 4180h.09; after the
last view 4100h.0A reads 2. COMPOSE_UNDERRUN abandons a view and counts in 1644h.0B. CAPTURE_RING_EMPTY and
CAPTURE_SLOT_RELEASE empty the ring and release the slot held. Nothing else changes but the counts of blocks that were
substituted. (R94, R252, R255, R256, R257, R262, R263, R264, R265, R279, R282, R303) -/
def Obligations.TheCompositorRuns : Prop :=
  let layers (sub : Nat) : List Key := (List.range 8).map fun x => keyOf (0x4110 + x) sub
  (∀ s : State, s.sound = true → s.isTile = true → s.stepped = true → s.up .scan = true → s.up .pipe = true →
    let n := s.tick + 1
    let c := s.configAt n
    let starts : Bool := [4, 6, 11].contains (s.modeAt n) && s.hid.compose.firstAfter.all (· ≤ n)
    let taken (key : Nat) := s.hid.compose.fresh.find? fun f => f.1 == key && f.2.tick == n
    let late := c.composedKeys.filter fun key => (taken key).isNone
    let marked := c.composedKeys.filter fun key => (taken key).any fun f =>
      (descStale f.2.descriptor || descLost f.2.descriptor) && !descClear f.2.descriptor
    let before (key : Nat) := if s.banksReleased c key then none else lookupKey s.hid.compose.current key
    let ran (t : State) : Prop := RunsTo ((s.at n : Rat) - s.period).floor s t ∧ t.outputs = s.outputs ∧
      (∀ f, f ∈ t.hid.compose.fresh ↔ f ∈ s.hid.compose.fresh ∧ n < f.2.tick) ∧
      (∀ key, key ∉ c.composedKeys ∨ starts = false → lookupKey t.hid.compose.current key = before key) ∧
      t.hid = { s.hid with
        almanac := t.hid.almanac
        time := t.hid.time
        compose := t.hid.compose
        scan := { s.hid.scan with
          tds := (List.range 4).map t.panelTemp
          tdsBefore := s.hid.scan.tds
          tdTick := n
          targets := t.hid.scan.targets
          derateNow := t.hid.scan.derateNow
          derateBefore := s.hid.scan.derateNow } }
    (starts = true → Completes .composeDeadline s fun t => ran t ∧ t.hid.compose.tick = some n ∧
      t.hid.compose.todo = c.viewsIn c.profileB ∧ t.hid.compose.late = late ∧
      (∀ key ∈ c.composedKeys, lookupKey t.hid.compose.current key = (match taken key with
        | some f => some f.2
        | none => (before key).filter (c.repeats (key / 8)))) ∧
      (∀ x < 8, let isLate := late.any fun key => key / 8 == x; let isMarked := marked.any fun key => key / 8 == x
        bitAt (t.entry (keyOf 0x4100 6)) x = isLate ∧ bitAt (t.entry (keyOf 0x4100 7)) x = (isLate || isMarked) ∧
        field (t.entry (keyOf (0x4110 + x) 0x11)) 63 48 =
          satAdd 16 (field (s.entry (keyOf (0x4110 + x) 0x11)) 63 48) (if isLate then 1 else 0) ∧
        field (t.entry (keyOf (0x4110 + x) 0x11)) 47 32 =
          satAdd 16 (field (s.entry (keyOf (0x4110 + x) 0x11)) 47 32) (if isMarked then 1 else 0)) ∧
      t.entry (keyOf 0x4100 0x0A) = (if (c.viewsIn c.profileB).isEmpty then 2 else 1) ∧
      Only ([keyOf 0x4100 6, keyOf 0x4100 7, keyOf 0x4100 0x0A, keyOf 0x5000 0x0A, keyOf 0x1400 8] ++ layers 0x11) s t) ∧
    (starts = false → Completes .composeDeadline s fun t => ran t ∧ t.entry (keyOf 0x4100 0x0A) = 0 ∧
      t.hid.compose.tick = s.hid.compose.tick ∧ t.hid.compose.todo = s.hid.compose.todo ∧
      Only [keyOf 0x4100 0x0A, keyOf 0x5000 0x0A] s t)) ∧
  (∀ (s : State) (n v : Nat) (rest : List Nat), s.sound = true → s.up .pipe = true → s.isTile = true →
    s.hid.compose.tick = some n → s.hid.compose.todo = v :: rest →
    let c := s.configAt n
    let first : Bool := s.hid.compose.todo == c.viewsIn c.profileB
    let slots := max 1 (c.entry (keyOf 0x4180 4))
    let next := s.entry (keyOf 0x4180 7) % slots
    let captured : Bool := c.entry (keyOf 0x4180 1) == 1 && c.entry (keyOf 0x4180 2) == v &&
      (n - s.hid.compose.captureFrom.getD n) % max 1 (c.entry (keyOf 0x4180 3)) == 0 &&
      !(c.entry (keyOf 0x4180 5) == 1 && slots ≤ s.hid.compose.captureFull)
    let free : Bool := s.entry (keyOf 0x4180 0x0B) != next
    let number := satAdd 32 (s.entry (keyOf 0x4180 8)) 1
    Completes (.viewComposed v) s fun t =>
      let ys := c.viewLamps t.hid.compose.current (s.tdsFor n) v
      lookupKey t.hid.compose.images v = some ⟨n, s.hid.compose.olderBank v, ys.map driveOf⟩ ∧
      (∀ w, w ≠ v → lookupKey t.hid.compose.images w = lookupKey s.hid.compose.images w) ∧
      (∀ o ∈ lookupKey s.hid.compose.images v, lookupKey t.hid.compose.older v = some o) ∧
      t.hid.compose.todo = rest.filter (· != v) ∧
      t.entry (keyOf 0x4200 4) = ((ys.filter (1 < ·)).length + if first then 0 else s.entry (keyOf 0x4200 4)) % 2 ^ 32 ∧
      t.entry (keyOf 0x4200 5) = ofSigned 32 (clampSigned 32 (ys.foldl (fun m y => max m (roundRat (y * 65536)))
        (if first then -(2 ^ 31) else toSigned 32 (s.entry (keyOf 0x4200 5))))) ∧
      (rest.filter (· != v) = [] → t.entry (keyOf 0x4100 0x0A) = 2) ∧ t.outputs = s.outputs ∧
      (captured = false → t.entry (keyOf 0x4180 7) = s.entry (keyOf 0x4180 7) ∧ SameMemory s t ∧
        t.entry (keyOf 0x4180 8) = s.entry (keyOf 0x4180 8) ∧ t.entry (keyOf 0x4180 9) = s.entry (keyOf 0x4180 9)) ∧
      (captured = true → free = false → SameMemory s t ∧
        t.entry (keyOf 0x4180 9) = satAdd 32 (s.entry (keyOf 0x4180 9)) 1) ∧
      (captured = true → free = true →
        let image := t.captureImage n v (ys.map driveOf) number
        t.bytes (Space.capture.at (next * c.captureSlot)) image.length = image ∧
        t.entry (keyOf 0x4180 8) = number ∧ t.entry (keyOf 0x4180 7) = (next + 1) % slots ∧
        SameMemoryBut (Space.capture.at (next * c.captureSlot)) (max c.captureSlot image.length) s t) ∧
      t.hid = { s.hid with
        compose := t.hid.compose
        almanac := t.hid.almanac
        memory := { s.hid.memory with poison := t.hid.memory.poison } } ∧
      SameEntriesBut ([keyOf 0x4200 4, keyOf 0x4200 5, keyOf 0x4100 8, keyOf 0x4100 0x0A, keyOf 0x4100 0x0B, keyOf 0x4100 0x0C,
        keyOf 0x4180 7, keyOf 0x4180 8, keyOf 0x4180 9, keyOf 0x1400 8] ++ layers 0x11) s t) ∧
  (∀ (s : State) (v : Nat), s.sound = true → s.isTile = true → s.up .pipe = true → v ∈ s.hid.compose.todo →
    Completes (.composeUnderrun v) s fun t => t.hid = { s.hid with
        almanac := t.hid.almanac
        compose := { s.hid.compose with todo := s.hid.compose.todo.filter (· != v) }
        counts := { s.hid.counts with underruns := s.hid.counts.underruns + 1 } } ∧
      t.entry (keyOf 0x1644 0x0B) = satAdd 32 (s.entry (keyOf 0x1644 0x0B)) 1 ∧
      ((∀ w ∈ s.hid.compose.todo, w = v) → t.entry (keyOf 0x4100 0x0A) = 2) ∧ t.outputs = s.outputs ∧
      Only [keyOf 0x1644 0x0B, keyOf 0x4100 0x0A, keyOf 0x1400 8] s t) ∧
  (∀ (s : State) (d : Door), s.sound = true → s.isTile = true → s.servesAt d = true →
    (Acts (.captureRingEmpty d) d Status.ok [keyOf 0x4180 7] s fun t => t.entry (keyOf 0x4180 7) = 0 ∧
      t.hid = { s.hid with almanac := t.hid.almanac, compose := { s.hid.compose with captureFull := 0 } }) ∧
    (Acts (.captureSlotRelease d) d Status.ok [keyOf 0x4180 0x0B] s fun t => t.entry (keyOf 0x4180 0x0B) = 0xFF ∧
      SameBeside s t))

/-- PREVIEW_BUILD puts the image of an output into the bank that it does not read, shows its tick and counts;
PREVIEW_BUILD_ABANDON gives a build up and counts. PREVIEW_FRAME_START counts a frame of the timing generator; an output
that is enabled reads on from the bank newly built, takes the EDID of its sink, shows in 6300h+o.0B no sink, training or
active (log 103), and when active sends the frame and counts it. PREVIEW_LINE_UNDERRUN counts and marks the event.
SYNC_EDGE drives the ball active at the next edge instant for its width and counts; SYNC_START_TIME_WRITE leaves LATE or
PENDING and SYNC_START makes a pending output run at its first edge. PLAN writes the maps that the staged cameras ask for,
or CONSISTENCY where two views want one slot. Nothing else changes. (R94, R268, R269, R272, R280, R295, R299, R300, R303,
R317, R319) -/
def Obligations.PreviewsAndSyncOutputsRun : Prop :=
  (∀ (s : State) (o n : Nat), s.sound = true → s.shaped = true → s.isSender = true → s.up .pipe = true → o < 2 →
    (s.preview o).building = some n →
    let others : Prop := (∀ q, q ≠ o → q < 2 → (s.preview q).building = none)
    let only (t : State) : Prop := (others → t.entry (keyOf 0x6302 7) = 0) ∧ (∀ q, q ≠ o → t.preview q = s.preview q) ∧
      t.hid = { s.hid with ingest := { s.hid.ingest with previews := t.hid.ingest.previews } } ∧ t.outputs = s.outputs
    (s.mode ∈ [Mode.run, Mode.derate, Mode.hold, Mode.bringup] → Completes (.previewBuild o) s fun t =>
      t.preview o = { s.preview o with
        building := none
        built := true
        banks := setAt (s.preview o).banks (1 - (s.preview o).bank) (s.previewImage o true) } ∧
      t.entry (keyOf (0x6300 + o) 0x0F) = n % 2 ^ 64 ∧
      t.entry (keyOf 0x6302 5) = satAdd 32 (s.entry (keyOf 0x6302 5)) 1 ∧ only t ∧
      Only [keyOf (0x6300 + o) 0x0F, keyOf 0x6302 5, keyOf 0x6302 7] s t) ∧
    (Completes (.previewBuildAbandon o) s fun t => t.preview o = { s.preview o with building := none, fresh := true } ∧
      t.entry (keyOf 0x6302 6) = satAdd 32 (s.entry (keyOf 0x6302 6)) 1 ∧ only t ∧
      Only [keyOf 0x6302 6, keyOf 0x6302 7] s t)) ∧
  (∀ (s : State) (o : Nat) (sink : Option PreviewSink), s.sound = true → s.shaped = true → s.isSender = true → o < 2 →
    s.tgRuns o = true →
    let at' := { s.hid.scan with frameAt := setAt s.hid.scan.frameAt o s.hid.time.cycles }
    let frames (t : State) : Prop := t.entry (keyOf (0x4000 + o) 0x0A) = satAdd 32 (s.entry (keyOf (0x4000 + o) 0x0A)) 1
    let p := s.preview o
    let edid := (sink.map fun k => k.edid.take 512).getD []
    let carries (k : PreviewSink) : Bool := s.entry (keyOf (0x4000 + o) 5) * 3 * s.entry (keyOf (0x6300 + o) 8) ≤
      min k.lanes (s.entry (keyOf (0x6300 + o) 0x0A)) * 9697000
    let state := match sink with
      | none => 1
      | some k => if s.entry (keyOf (0x6300 + o) 0x0B) ≤ 1 ∨ carries k = false then 2 else 3
    (s.entry (keyOf (0x6300 + o) 1) = 1 →
      (Completes (.previewFrameStart ⟨o, sink⟩) s fun t => frames t ∧ t.entry (keyOf (0x6300 + o) 0x0B) = state ∧
        t.hid = { s.hid with
          scan := at'
          ingest := { s.hid.ingest with previews := setAt s.hid.ingest.previews o { p with
            fresh := true
            bank := if p.built then 1 - p.bank else p.bank
            built := false
            edid := edid.length } } } ∧
        t.outputs = (if state = 3 then s.outputs ++ [.pixels o (t.previewFrame o)] else s.outputs) ∧
        (s.mode ∉ [Mode.freeze, Mode.dark, Mode.faultdark] →
          t.previewFrame o = (t.preview o).banks.getD (t.preview o).bank []) ∧
        (s.mode = Mode.freeze → ∀ b ∈ t.previewFrame o, b = 0) ∧
        t.entry (keyOf (0x6300 + o) 0x0C) = satAdd 32 (s.entry (keyOf (0x6300 + o) 0x0C)) (if state = 3 then 1 else 0) ∧
        t.bytes (domainBase (keyOf (0x6300 + o) 0x0E)) edid.length = edid ∧
        SameMemoryBut (domainBase (keyOf (0x6300 + o) 0x0E)) edid.length s t ∧
        SameEntriesBut [keyOf (0x6300 + o) 0x0B, keyOf (0x6300 + o) 0x0C, keyOf (0x4000 + o) 0x0A] s t) ∧
      (Completes (.previewLineUnderrun o) s fun t =>
        t.entry (keyOf (0x6300 + o) 0x0D) = satAdd 32 (s.entry (keyOf (0x6300 + o) 0x0D)) 1 ∧
        bitAt (t.entry (keyOf (0x4000 + o) 9)) TgEvent.underrun = true ∧ SameBeside s t ∧ t.outputs = s.outputs ∧
        Only [keyOf (0x6300 + o) 0x0D, keyOf (0x4000 + o) 9, keyOf (0x4000 + o) 0x0F, keyOf 0x1400 8] s t)) ∧
    (s.entry (keyOf (0x6300 + o) 1) ≠ 1 → Completes (.previewFrameStart ⟨o, sink⟩) s fun t => frames t ∧
      t.hid = { s.hid with scan := at' } ∧ t.outputs = s.outputs ∧ Only [keyOf (0x4000 + o) 0x0A] s t)) ∧
  (∀ (s : State) (k : Nat) (e : Int), s.sound = true → k < 8 →
    let i := 0x4330 + k
    let runs (t : State) : Prop := t.hid.time.now = max s.hid.time.now (e.toNat * 4096)
    (s.syncRuns k = true → s.nextEdge k s.step64 = some e → Completes (.syncEdge k) s fun t => runs t ∧
      t.outputs = s.outputs ++ [.pulse k (s.entry (keyOf i 6) == 0) e (s.entry (keyOf i 5))] ∧
      t.entry (keyOf i 9) = satAdd 32 (s.entry (keyOf i 9)) 1 ∧
      t.hid = { s.hid with
        time := t.hid.time
        ingest := { s.hid.ingest with edges := insertKey s.hid.ingest.edges k e } } ∧ Only [keyOf i 9] s t) ∧
    (let due := (s.ns : Int) + lt32Diff (s.entry (keyOf i 7)) s.lt32;
      s.isSender = true → s.stepped = true → s.syncMode = true → s.entry (keyOf i 1) = 2 →
      s.entry (keyOf i 8) = Status.pending → s.nextEdge k (max (80 * due) s.step64) = some e → Completes (.syncStart k) s
        fun t => runs t ∧ t.entry (keyOf i 8) = Status.applied ∧ t.outputs = s.outputs ∧
        t.hid = { s.hid with time := t.hid.time } ∧ Only [keyOf i 8] s t) ∧
    (∀ (d : Door) (lt : Nat), s.isSender = true → s.servesAt d = true → lt < 2 ^ 32 →
      Acts (.syncStartTimeWrite d k lt) d Status.ok [keyOf i 7, keyOf i 8] s fun t => t.entry (keyOf i 7) = lt ∧
        t.entry (keyOf i 8) = (if lt32Diff lt s.lt32 ≤ 0 then Status.late else Status.pending) ∧ SameBeside s t)) ∧
  (∀ (s : State) (d : Door), s.sound = true → s.isSender = true → s.servesAt d = true →
    let c := s.planConfig
    let clash : Bool := [false, true].any fun b => (List.range (c.slotsIn b)).any fun k => decide (1 < (c.plannedView b k).length)
    (clash = true → Acts (.plan d) d Status.ok [keyOf 0x4320 2] s fun t => t.entry (keyOf 0x4320 2) = Status.consistency ∧
      SameBeside s t) ∧
    (clash = false → Acts (.plan d) d Status.ok ([2, 3, 4, 5, 6].map (keyOf 0x4320)) s fun t =>
      t.entry (keyOf 0x4320 2) = Status.ok ∧ SameBeside s t ∧
      ((∀ q < 8, c.entry (keyOf (0x4310 + q) 2) < 16) → c.entry (keyOf 0x4320 7) < 16 → ∀ b : Bool, ∀ k < 32,
        field (t.entry (keyOf 0x4320 ((if b then 5 else 3) + k / 16))) (4 * (k % 16) + 3) (4 * (k % 16)) =
          if k < c.slotsIn b then (c.plannedView b k).headD (c.entry (keyOf 0x4320 7)) else 0)))

/-- LANE_FRAME_START sends the START block of the next slot, with the next frame number, LANE_ROW_SEND the next row's 12-bit
codes, limited to TMAX and padded to whole blocks, LANE_FRAME_END the END block with the block count and CRC, counted and
with the shift margin shown; LATCH the block of KIND NEW, REPEAT or DARK that the slot asks for, its MARK a free value of
0 to 65; each as scrambled words (log 108). SLOT_LATCH moves to the next latch instant, counts the frame of each TG that
is on, sets LAMP_EN by R349 and the references of the slot's view, takes the bandgap value that waits for TG0, and the
diagnostic results held in FREEZE. BLANK, MATCH and DONE mark and count their events; UNDERRUN ends the frames of its
lanes whose shift is incomplete, counts each, and marks lanes and slot; L7_LINE_UNDERRUN marks the event. Nothing else
changes. (R94, R314, R319, R320, R335, R336, R337, R338, R345, R349, R350) -/
def Obligations.LanesShiftAndLatch : Prop :=
  let lanesOnly (lane : Nat) (s t : State) : Prop := ∀ l, l ≠ lane → t.laneState l = s.laneState l
  let endWord (x : LaneState) : Nat := x.frame * 2 ^ 59 + x.blocks % 2 ^ 16 * 2 ^ 40 + crc32 x.data * 2 ^ 8 + 0x55
  let sends (lane : Nat) (blocks : List LaneBlock) (s t : State) : Prop :=
    ∃ b, t.outputs = s.outputs ++ [.lane lane b (laneWords b blocks)]
  let scans (x : ScanState) (s t : State) : Prop := t.hid = { s.hid with
    almanac := t.hid.almanac
    scan := x }
  (∀ (s : State) (lane : Nat), s.sound = true → s.shaped = true → s.isTile = true → s.scanRuns = true → lane < 32 →
    let n := s.nextSlot.1
    let k := s.nextSlot.2
    let c := s.scanAt n
    let r := c.lane lane
    let x := s.laneState lane
    let v := c.slotView c.profileB k
    (s.hid.scan.slot ≠ 255 → x.started = false → s.latchKind lane n k = 0 → Completes (.laneFrameStart lane) s fun t =>
      let f := (x.frame + 1) % 32
      t.laneState lane = { x with
        frame := f, started := true, ended := false, rows := 0, blocks := 0, data := [], view := v, slot := k, dark := false } ∧
      sends lane [⟨true, f * 2 ^ 59 + c.arraysOn lane % 8 * 2 ^ 56 +
        r.w * c.lambda % 2 ^ 16 * 2 ^ 40 + r.w * r.h * c.lambda % 2 ^ 16 * 2 ^ 24 + v * 2 ^ 16 + k * 2 ^ 8 + 0x33⟩] s t ∧
      scans { s.hid.scan with lanes := t.hid.scan.lanes } s t ∧ lanesOnly lane s t ∧
      field (t.entry (keyOf (0x5110 + lane) 3)) 23 20 = c.arraysOn lane ∧ Only [keyOf (0x5110 + lane) 3] s t) ∧
    (∀ row, x.started = true → x.ended = false → x.rows = row → row < r.h → Completes (.laneRowSend lane row) s fun t =>
      let payload := rowPayload ((s.rowCodes c lane row n k).map (min (c.laneTmax lane)))
      sends lane ((List.range (payload.length / 8)).map fun i => ⟨false, natLE (slice payload (8 * i) 8)⟩) s t ∧
      scans { s.hid.scan with lanes := t.hid.scan.lanes, clipped := t.hid.scan.clipped } s t ∧ lanesOnly lane s t ∧
      t.laneState lane = { x with rows := row + 1, blocks := x.blocks + payload.length / 8, data := x.data ++ payload } ∧
      Only [] s t) ∧
    (x.started = true → x.ended = false → x.rows = r.h → Completes (.laneFrameEnd lane) s fun t =>
      sends lane [⟨true, endWord x⟩] s t ∧ t.laneState lane = { x with ended := true } ∧
      scans { s.hid.scan with lanes := t.hid.scan.lanes, margins := t.hid.scan.margins } s t ∧ lanesOnly lane s t ∧
      field (t.entry (keyOf (0x5110 + lane) 4)) 63 32 = satAdd 32 (field (s.entry (keyOf (0x5110 + lane) 4)) 63 32) 1 ∧
      (∀ g, s.tgOfLane s.profileB lane = some g → t.entry (keyOf (0x4000 + g) 0x0E) ≤ (s.toSync g).toNat) ∧
      Only (keyOf (0x5110 + lane) 4 :: (List.range 4).map (fun g => keyOf (0x4000 + g) 0x0E)) s t) ∧
    (s.hid.scan.slot ≠ 255 → s.laneOn lane = true ∨ c.laneOn lane = true → Completes (.latch lane) s fun t =>
      let want := s.latchKind lane n k
      let kind := if want = 0 ∧ !(x.ended && !x.dark && x.slot == k) then 2 else want
      (∃ mark < 66, sends lane [⟨true, k * 2 ^ 56 + c.latchStep % 2 ^ 32 * 2 ^ 24 + mark * 2 ^ 16 + kind * 2 ^ 8 + 0x78⟩] s t) ∧
      t.laneState lane = { x with started := false, ended := false, dark := false } ∧ lanesOnly lane s t ∧
      scans { s.hid.scan with lanes := t.hid.scan.lanes, kinds := setAt s.hid.scan.kinds lane kind } s t ∧
      (let a := t.entry (keyOf (0x5110 + lane) 3)
       field a 7 6 = kind ∧ bitAt a 0 = true ∧ (kind = 0 → x.view < 16 → field a 15 12 = x.view)) ∧
      Only [keyOf (0x5110 + lane) 3] s t)) ∧
  (∀ (s : State) (k : Nat), s.sound = true → s.shaped = true → s.isTile = true → s.stepped = true → s.scanRuns = true →
    s.latchedSlot = some k → Completes .slotLatch s fun t =>
      let n := s.tick
      let c := s.scanAt n
      let lanes := c.lanesOn c.profileB
      let dark : Bool := !lanes.isEmpty && lanes.all fun l => s.hid.scan.kinds.getD l 3 == 2
      let v := c.slotView c.profileB k
      let held : Bool := !s.hid.scan.results.isEmpty && s.mode != Mode.freeze
      let waits := s.hid.heat.bandgapNext.filter fun _ => s.tgOn s.profileB 0
      RunsTo (s.slotAt n k) s t ∧ t.hid.scan.tick = n ∧ t.hid.scan.slot = k ∧ t.entry (keyOf 0x4300 0x0A) = k % 2 ^ 8 ∧
      (∀ r < 4, t.entry (keyOf (0x4000 + r) 0x0A) = if s.tgOn s.profileB r then satAdd 32 (s.entry (keyOf (0x4000 + r) 0x0A)) 1
        else s.entry (keyOf (0x4000 + r) 0x0A)) ∧
      t.hid.scan.darkRun = (if dark then s.hid.scan.darkRun + 1 else 0) ∧
      t.hid.lampEn = (if s.mode = Mode.freeze ∨ s.mode = Mode.boot then s.hid.lampEn
        else if s.lampAllowed n = false then false else s.hid.lampEn || decide (2 ≤ t.hid.scan.darkRun)) ∧
      t.hid.clamped = (s.hid.clamped && !(s.hid.scan.kinds.contains 0)) ∧
      t.hid.scan.refs = (if t.hid.clamped = false ∧ v < 8 then (List.range 64).map (t.current v) ++ [t.spareCurrent v]
        else s.hid.scan.refs) ∧
      (∀ l < 32, l ∉ lanes → bitAt (t.entry (keyOf (0x5110 + l) 3)) 0 = false) ∧
      (∃ more, t.outputs = s.outputs ++ (if t.hid.lampEn = s.hid.lampEn then [] else [.pin 349 0 t.hid.lampEn]) ++ more ∧
        (held = false → more = [] ∧ SameMemory s t)) ∧
      field (t.entry (keyOf 0x1220 4)) 31 16 = (waits.map (· % 2 ^ 16)).getD (field (s.entry (keyOf 0x1220 4)) 31 16) ∧
      t.hid = { s.hid with
        almanac := t.hid.almanac
        time := t.hid.time
        lampEn := t.hid.lampEn
        clamped := t.hid.clamped
        heat := if waits.isSome then { s.hid.heat with bandgapNext := none, bandgapAt := t.hid.heat.bandgapAt } else s.hid.heat
        scan := { s.hid.scan with
          tick := n
          slot := k
          recent := t.hid.scan.recent
          clipped := if k = 0 then List.replicate 4 0 else s.hid.scan.clipped
          darkRun := t.hid.scan.darkRun
          refs := t.hid.scan.refs
          queue := t.hid.scan.queue
          testing := s.hid.scan.testing.filter fun q => lanes.contains q.lane
          results := if s.mode = Mode.freeze then s.hid.scan.results else []
          suspects := t.hid.scan.suspects } } ∧
      SameMemoryOutside [Space.lampMap.range] s t ∧
      SameEntriesBut ([keyOf 0x4300 0x0A, keyOf 0x5000 1, keyOf 0x5000 8, keyOf 0x5200 0x10, keyOf 0x1400 8, keyOf 0x1220 4] ++
        (if held then [6, 7, 0x0A, 0x0B, 0x0C, 0x0D, 0x11].map (keyOf 0x5200) else []) ++
        (List.range 4).flatMap (fun r => [keyOf (0x4000 + r) 0x0A, keyOf (0x4000 + r) 0x12]) ++
        (List.range 32).map (fun l => keyOf (0x5110 + l) 3)) s t) ∧
  (let marked (r e : Nat) (s t : State) : Prop := bitAt (t.entry (keyOf (0x4000 + r) 9)) e = true ∧
      (∀ b, b ≠ e → b < 4 → bitAt (t.entry (keyOf (0x4000 + r) 9)) b = bitAt (s.entry (keyOf (0x4000 + r) 9)) b) ∧
      field (t.entry (keyOf (0x4000 + r) 0x0F)) (16 * e + 15) (16 * e) =
        satAdd 16 (field (s.entry (keyOf (0x4000 + r) 0x0F)) (16 * e + 15) (16 * e)) 1;
    let marks (r : Nat) : List Key := [keyOf (0x4000 + r) 9, keyOf (0x4000 + r) 0x0F, keyOf 0x1400 8];
    ∀ (s : State) (r : Nat), s.sound = true → s.shaped = true → s.tgRuns r = true →
    (∀ q ∈ [(Instr.blank r, TgEvent.blank), (.matchLine r, TgEvent.matched), (.done r, TgEvent.done)],
      Completes q.1 s fun t => marked r q.2 s t ∧ t.outputs = s.outputs ∧ SameBeside s t ∧ Only (marks r) s t) ∧
    (∀ row, s.isTile = true → s.layerDirect 7 = true → row < s.ver s.profileB r 3 →
      Completes (.l7LineUnderrun r row) s fun t => marked r TgEvent.underrun s t ∧ t.outputs = s.outputs ∧ SameBeside s t ∧
        Only (marks r) s t) ∧
    (∀ lanes, let mine := ((lanesIn (lanes &&& s.laneMask s.profileB r)).filter s.unfinished).foldl withBit 0
      s.isTile = true → mine ≠ 0 → Completes (.underrun r lanes) s fun t => marked r TgEvent.underrun s t ∧
      (∀ l ∈ lanesIn mine, let x := s.laneState l; t.laneState l = { x with
        ended := x.ended || x.started, dark := true } ∧
        field (t.entry (keyOf (0x5110 + l) 4)) 31 16 = satAdd 16 (field (s.entry (keyOf (0x5110 + l) 4)) 31 16) 1) ∧
      (∀ l, l ∉ lanesIn mine → t.laneState l = s.laneState l) ∧
      (∃ b : Nat → Nat, t.outputs = s.outputs ++ ((lanesIn mine).filter fun l => (s.laneState l).started &&
        !(s.laneState l).ended).map fun l => .lane l (b l) (laneWords (b l) [⟨true, endWord (s.laneState l)⟩])) ∧
      t.hid = { s.hid with
        almanac := t.hid.almanac
        counts := { s.hid.counts with underruns := s.hid.counts.underruns + 1 }
        scan := { s.hid.scan with lanes := t.hid.scan.lanes } } ∧
      t.entry (keyOf (0x4000 + r) 0x10) = s.entry (keyOf (0x4000 + r) 0x10) ||| mine ∧
      t.entry (keyOf (0x4000 + r) 0x11) = (s.hid.scan.tick % 2 ^ 56 * 256 + s.hid.scan.slot) % 2 ^ 64 ∧
      t.entry (keyOf 0x1644 0x0B) = satAdd 32 (s.entry (keyOf 0x1644 0x0B)) 1 ∧
      Only (marks r ++ [keyOf (0x4000 + r) 0x10, keyOf (0x4000 + r) 0x11, keyOf 0x1644 0x0B] ++
        (lanesIn mine).map (fun l => keyOf (0x5110 + l) 4)) s t))

/-- DIAG_SEND sends a DIAG block for each array of the lane with a string to test, puts it under test and takes it from the
queue; DIAGNOSTIC_SLOT sets the diagnostic currents, pulses the lane's strings and counts them. RETURN_FRAME, for any
accepted blocks, shows the array count, temperatures and faults, counts the OPEN bits and ends what was pulsed; an OPEN
bit queues its string; a result without a lamp queues the string again with one more attempt, or makes it suspected; one
with lamps, within the bypass limit, bypasses exactly those, and past it the whole string; in FREEZE it is held. A frame
not accepted has no effect. RETURN_FRAME_MISSING counts and queues what was pulsed. The 16th slot in a row with fewer
records than arrays is an event, a slot without a frame among them (log 82). SWEEP_START begins at string 0 of every array
driven. DIODE_SAMPLE: 4 bad samples in a row break a diode, 16 good ones heal it. MAP_STORE and MAP_STORE_INTERVAL ask for
a store; MAP_CLEAR in DARK or BRINGUP empties the map, else RANGE; MAP_RELOAD takes the newer slot, or an empty map.
Nothing else changes. (R339, R347, R348, R351, R353, R354, R355, R356, R358, R359, R360, R366) -/
def Obligations.LampsAreDiagnosed : Prop :=
  let counts (n : Nat) (s t : State) (hi lo : Nat) : Prop := field (t.entry (keyOf 0x5200 0x0B)) hi lo =
    satAdd (hi - lo + 1) (field (s.entry (keyOf 0x5200 0x0B)) hi lo) n
  let scans (x : ScanState) (s t : State) : Prop := t.hid = { s.hid with
    almanac := t.hid.almanac
    scan := x }
  let events (s t : State) : Prop := ∃ es : List (Nat × Nat), t.outputs = s.outputs ++ es.map fun e => Output.event e.1 e.2
  let again (q : Locate) : Locate := { q with pulsed := false }
  let diagWord (s : State) (lane : Nat) (q : Locate) : Nat := q.mask * 2 ^ 32 +
    s.activeLength s.profileB ((s.tgOfLane s.profileB lane).getD 0) / 50 % 2 ^ 16 * 2 ^ 16 + q.array * 2 ^ 14 + q.string * 2 ^ 8 + 0x4B
  let queueShown : List Key := [keyOf 0x5200 0x10, keyOf 0x5200 0x11]
  (∀ (s : State) (lane : Nat), s.sound = true → s.shaped = true → s.isTile = true → s.scanRuns = true → lane < 32 →
    s.laneOn lane = true →
    let x := s.hid.scan
    (let qs := (List.range (s.arraysOn lane)).filterMap (s.nextString lane);
     let same (q p : Locate) : Bool := p.lane == lane && p.array == q.array && p.string == q.string;
      s.entry (keyOf 0x5200 1) = 1 → s.frozen 5 = false → s.diagGranted = true → qs ≠ [] →
      Completes (.diagSend lane) s fun t =>
        (∃ b : Nat → Nat, t.outputs = s.outputs ++ qs.map fun q =>
          .lane lane (b q.array) (laneWords (b q.array) [⟨true, diagWord s lane q⟩])) ∧
        (∀ i < 128, t.hid.scan.sweepAt.getD i 48 =
          match qs.find? fun q => 4 * lane + q.array == i && q.sweep && !(x.queue.any (same q)) with
          | some q => q.string + 1
          | none => x.sweepAt.getD i 48) ∧
        t.hid = { s.hid with
          almanac := t.hid.almanac
          heat := { s.hid.heat with waiting := t.hid.heat.waiting }
          scan := { x with
            testing := x.testing ++ qs
            queue := x.queue.filter (fun p => !(qs.any fun q => same q p))
            sweepAt := t.hid.scan.sweepAt } } ∧
        Only (s.activityEntries ++ queueShown) s t) ∧
    (let mine (q : Locate) : Bool := q.lane == lane && !q.pulsed
     let n := (x.testing.filter mine).length
     let testing := x.testing.map fun q => if mine q then { q with pulsed := true } else q;
      n ≠ 0 → Completes (.diagnosticSlot lane) s fun t => scans { x with testing := testing } s t ∧
        t.outputs = s.outputs ++ [.diagnose lane (s.diagCurrents lane)] ∧ counts n s t 47 32 ∧
        (testing.all (·.pulsed) = true → t.running Activity.diagnosis = false) ∧
        Only [keyOf 0x5200 0x0B, keyOf 0x1620 1, keyOf 0x1620 2, keyOf 0x1400 8] s t) ∧
    (∀ (elapsed before : Nat) (words : List Nat),
      s.returned elapsed (laneBlocks before words) = none → exec (.returnFrame lane ⟨elapsed, before, words⟩) s = .next s) ∧
    (∀ (elapsed before : Nat) (words : List Nat) (records : List ReturnRecord),
      s.returned elapsed (laneBlocks before words) = some records →
      let short := if records.length < s.arraysOn lane then (s.laneState lane).shortRun + 1 else 0
      let opens := ((records.filter (·.array < 4)).map fun r => popCount 48 r.openFlags).sum
      Completes (.returnFrame lane ⟨elapsed, before, words⟩) s fun t =>
        field (t.entry (keyOf (0x5110 + lane) 3)) 19 16 = records.length % 16 ∧
        t.laneState lane = { s.laneState lane with shortRun := short } ∧ (∀ l, l ≠ lane → t.laneState l = s.laneState l) ∧
        (short = 16 → Output.event 348 lane ∈ t.outputs) ∧
        ((records.map (·.array)).Nodup → ∀ r ∈ records, r.array < 4 →
          field (t.entry (keyOf (0x5110 + lane) 5)) (16 * r.array + 15) (16 * r.array) = r.temp % 256 * 256 + r.fault % 16) ∧
        counts opens s t 63 48 ∧ x.queue <+: t.hid.scan.queue ∧ events s t ∧
        scans { x with
          lanes := t.hid.scan.lanes
          testing := x.testing.filter (fun q => !(q.lane == lane && q.pulsed))
          queue := t.hid.scan.queue
          recent := t.hid.scan.recent
          suspects := t.hid.scan.suspects
          results := t.hid.scan.results } s t ∧
        SameMemoryOutside [Space.lampMap.range] s t ∧
        SameEntriesBut ([keyOf (0x5110 + lane) 3, keyOf (0x5110 + lane) 5, keyOf 0x1400 8] ++ queueShown ++
          [6, 7, 0x0A, 0x0B, 0x0C, 0x0D].map (keyOf 0x5200)) s t) ∧
    (∀ (elapsed before : Nat) (words : List Nat) (records : List ReturnRecord) (r : ReturnRecord) (g : Nat),
      s.returned elapsed (laneBlocks before words) = some records → (records.map (·.array)).Nodup →
      r ∈ records → r.array < 4 → g < 48 → bitAt r.openFlags g = true → s.entry (keyOf 0x5200 1) = 1 →
      (∀ q ∈ x.queue ++ x.testing, stringKey q.lane q.array q.string ≠ stringKey lane r.array g) →
      lookupKey x.recent (stringKey lane r.array g) = none → x.queue.length + 49 * records.length ≤ 256 →
      Completes (.returnFrame lane ⟨elapsed, before, words⟩) s fun t => ⟨lane, r.array, g, 0, false, 0, false⟩ ∈ t.hid.scan.queue ∧
        Output.event 355 (stringKey lane r.array g) ∈ t.outputs) ∧
    (∀ (elapsed before : Nat) (words : List Nat) (r : ReturnRecord) (q : Locate),
      s.returned elapsed (laneBlocks before words) = some [r] → r.array < 4 → r.dvalid = true →
      s.tested lane r.array r.dstring = some q →
      let o := r.dresult - (r.dresult &&& q.mask)
      let whole := s.entry (keyOf 0x5200 4) < popCount 32 q.mask + popCount 32 o
      (s.mode = Mode.freeze → x.results.length < 64 → Completes (.returnFrame lane ⟨elapsed, before, words⟩) s fun t =>
        t.hid.scan.results = x.results ++ [(q, r.dresult)] ∧ SameMemory s t) ∧
      (s.mode ≠ Mode.freeze → o = 0 → q.sweep = false → q.attempts + 1 < s.entry (keyOf 0x5200 5) →
        x.queue.length + 49 ≤ 256 → Completes (.returnFrame lane ⟨elapsed, before, words⟩) s fun t =>
          { again q with attempts := q.attempts + 1 } ∈ t.hid.scan.queue ∧ t.hid.scan.suspects = x.suspects ∧ SameMemory s t) ∧
      (s.mode ≠ Mode.freeze → o = 0 → q.sweep = false → s.entry (keyOf 0x5200 5) ≤ q.attempts + 1 →
        Completes (.returnFrame lane ⟨elapsed, before, words⟩) s fun t =>
          t.hid.scan.suspects = (x.suspect (stringKey lane r.array r.dstring)).suspects ∧
          t.entry (keyOf 0x5200 0x0C) = t.hid.scan.suspects.length % 2 ^ 16 ∧ Output.event 355 2 ∈ t.outputs ∧ SameMemory s t) ∧
      (s.mode ≠ Mode.freeze → o ≠ 0 → Completes (.returnFrame lane ⟨elapsed, before, words⟩) s fun t =>
        (∀ l < 196608, t.bypassed l = true ↔ s.bypassed l = true ∨ ∃ m < 32,
          s.stringLamp lane r.array r.dstring m = some l ∧ (¬whole → bitAt o m = true)) ∧
        bitAt (t.entry (keyOf 0x5200 7)) 7 = true ∧ t.entry (keyOf 0x5200 6) = t.mapCount % 2 ^ 32 ∧
        Output.event 355 (if whole then 3 else 1) ∈ t.outputs)) ∧
    (let mine := x.testing.filter fun q => q.lane == lane && q.pulsed
     let all := x.queue ++ mine.map again
     let short := if 0 < s.arraysOn lane then (s.laneState lane).shortRun + 1 else 0;
      Completes (.returnFrameMissing lane) s fun t =>
        scans { x with
          lanes := t.hid.scan.lanes
          testing := x.testing.filter (fun q => !(q.lane == lane && q.pulsed))
          queue := all.take (max 256 x.queue.length) } s t ∧
        field (t.entry (keyOf (0x5110 + lane) 4)) 15 0 = satAdd 16 (field (s.entry (keyOf (0x5110 + lane) 4)) 15 0) 1 ∧
        counts (all.length - max 256 x.queue.length) s t 15 0 ∧
        t.laneState lane = { s.laneState lane with shortRun := short } ∧ (∀ l, l ≠ lane → t.laneState l = s.laneState l) ∧
        t.outputs = s.outputs ++ (if short = 16 then [Output.event 348 lane] else []) ∧
        Only ([keyOf (0x5110 + lane) 4, keyOf 0x5200 0x0B, keyOf 0x1400 8] ++ queueShown) s t)) ∧
  (∀ s : State, s.sound = true → s.shaped = true → s.isTile = true → s.scanRuns = true → s.entry (keyOf 0x5200 3) ≠ 0 →
    s.hid.scan.sweepAt.all (48 ≤ ·) = true → Completes .sweepStart s fun t =>
      let starts := (List.range 128).map fun i => if s.laneOn (i / 4) && i % 4 < s.arraysOn (i / 4) then 0 else 48
      scans { s.hid.scan with sweeping := true, sweepAt := starts } s t ∧
      t.entry (keyOf 0x5200 0x11) = (if 0 ∈ starts then 0 else 47) ∧ t.outputs = s.outputs ∧ Only queueShown s t) ∧
  (∀ (s : State) (d : Nat) (reading : Option Int), s.sound = true → s.shaped = true → s.isTile = true → s.up .scan = true →
    d < 4 → Completes (.diodeSample d reading) s fun t =>
      let x := s.hid.scan.diodes.getD d DiodeState.initial
      let y := t.hid.scan.diodes.getD d DiodeState.initial
      let valid : Bool := reading.any fun v => -640 ≤ v && v ≤ 2400
      let told : Prop := t.diodeBroken d ≠ s.diodeBroken d ∧ (s.diodeBroken d = true → x.known = true)
      y = { x with
        samples := if valid then (x.samples ++ reading.toList).drop (x.samples.length - 15) else x.samples
        bad := if valid then 0 else x.bad + 1
        good := if valid then x.good + 1 else 0
        known := x.known || 16 ≤ y.good } ∧
      (∀ i, i ≠ d → t.hid.scan.diodes.getD i DiodeState.initial = s.hid.scan.diodes.getD i DiodeState.initial) ∧
      (t.diodeBroken d = true ↔ if s.diodeBroken d = true then y.good < 16 else 4 ≤ y.bad) ∧
      (∀ i, i ≠ d → i < 4 → t.diodeBroken i = s.diodeBroken i) ∧
      (told → t.outputs = s.outputs ++ [.event 351 d] ∧
        t.entry (keyOf 0x5000 0x0C) = satAdd 32 (s.entry (keyOf 0x5000 0x0C)) 1) ∧
      (¬told → t.outputs = s.outputs ∧ t.entry (keyOf 0x5000 0x0C) = s.entry (keyOf 0x5000 0x0C)) ∧
      (∀ i < 4, field (t.entry (keyOf 0x5000 9)) (16 * i + 15) (16 * i) = ofSigned 16 (t.panelTemp i)) ∧
      scans { s.hid.scan with diodes := t.hid.scan.diodes } s t ∧
      Only [keyOf 0x5000 9, keyOf 0x5000 0x0A, keyOf 0x5000 0x0C, keyOf 0x1400 8] s t) ∧
  (∀ (s : State) (d : Door), s.sound = true → s.shaped = true → s.isTile = true →
    let stored (s t : State) : Prop := (2 ∈ t.hid.update.storeQueue ∨ t.hid.update.store.map (·.1) = some 2) ∧
      t.hid = { s.hid with
        almanac := t.hid.almanac
        heat := { s.hid.heat with waiting := t.hid.heat.waiting }
        update := { s.hid.update with store := t.hid.update.store, storeQueue := t.hid.update.storeQueue } }
    let mends (x : ScanState) (s t : State) : Prop := t.hid = { s.hid with
      almanac := t.hid.almanac
      memory := { s.hid.memory with poison := t.hid.memory.poison }
      scan := x }
    let mapEntries : List Key := [keyOf 0x5200 6, keyOf 0x5200 7, keyOf 0x5200 0x0D] ++ doorMarks
    (s.servesAt d = true →
      (Acts (.mapStore d) d s.storeStatus s.activityEntries s (stored s)) ∧
      (s.mode ∈ [Mode.dark, Mode.bringup] → Completes (.mapClear d) s fun t => Answered d Status.ok [] t ∧
        (∀ l < 196608, t.bypassed l = false) ∧ t.mapWord 12 4 = 0 ∧ t.mapWord 20 4 = 0 ∧ t.entry (keyOf 0x5200 6) = 0 ∧
        bitAt (t.entry (keyOf 0x5200 7)) 7 = true ∧ SameMemoryOutside [(Space.lampMap.at 12, Space.lampMap.at 90176)] s t ∧
        mends s.hid.scan s t ∧ SameEntriesBut mapEntries s t) ∧
      (s.mode ∉ [Mode.dark, Mode.bringup] → Refused (.mapClear d) d Status.range s) ∧
      (Completes (.mapReload d) s fun t => Answered d Status.ok [] t ∧
        (match newerSlot (s.lampMapSeq 0) (s.lampMapSeq 1) with
          | some i => (∀ a < 90176, t.byte (Space.lampMap.at a) = s.byte (Space.flash.at (Flash.lampMap i + a))) ∧
              t.entry (keyOf 0x5200 7) = 1 + i
          | none => (∀ l < 196608, t.bypassed l = false) ∧ t.entry (keyOf 0x5200 7) = 3 ∧ Output.event 360 0 ∈ t.outputs) ∧
        t.entry (keyOf 0x5200 6) = t.mapWord 12 4 ∧ t.entry (keyOf 0x5200 0x0D) = t.mapWord 24 4 % 2 ^ 16 ∧
        SameMemoryOutside [(Space.lampMap.at 0, Space.lampMap.at 90176)] s t ∧
        mends { s.hid.scan with mapLoaded := true } s t ∧ SameEntriesBut mapEntries s t)) ∧
    (s.up .core = true → s.entry (keyOf 0x5200 0x0E) ≠ 0 → bitAt (s.entry (keyOf 0x5200 7)) 7 = true →
      Completes .mapStoreInterval s fun t => stored s t ∧ t.outputs = s.outputs ∧ Only s.activityEntries s t))

/-- MEMORY_TRAINING: a channel that passes takes its density, is READY and notes tick and temperature, and the last one makes
the controller ready with region 0 over what was found; a failure counts, and the third, or on a sender an unknown
density, is final: FAILED and FAULTDARK. RETRAIN_DUE marks a populated channel and asks for the training, at once for its
temperature or its retries, else when the interval is over; RETRAIN_STEP records a step, and the last one completed ends
it; RETRAIN_ALL marks all. REFRESH writes back changed code and closes the row of its bank; REFRESH_WINDOW restarts
counts, ends throttles and applies the halving that DEVICE_TEMP_READOUT has found. FREEZE_RELEASE poisons the failing word
and ends the freeze, or begins the training of the failing channel, which ends it when it passes and is FAILED when not;
outside a freeze UNAVAILABLE. SCRUB_NOW and FREEZE_RECORD_CLEAR do as R393 says. Nothing else changes but what a mode
entry brings. (R370, R375, R378, R379, R381, R382, R385, R386, R389, R390, R393) -/
def Obligations.MemoryTrainsAndRefreshes : Prop :=
  let ready (c : Nat) (s t : State) : Prop := field (t.entry (keyOf (0x3030 + c) 1)) 2 0 = 2 ∧
    bitAt (t.entry (keyOf (0x3030 + c) 1)) 4 = false ∧ bitAt (t.entry (keyOf (0x3030 + c) 1)) 5 = false ∧
    t.entry (keyOf (0x3030 + c) 5) = s.tick ∧ t.entry (keyOf (0x3030 + c) 6) = s.entry (keyOf 0x1200 1)
  let trained (c : Nat) : List Key := [1, 5, 6].map (keyOf (0x3030 + c))
  let remembers (m : MemoryState) (s t : State) : Prop := t.hid = { s.hid with
    almanac := t.hid.almanac
    memory := m }
  let counted (c hi lo : Nat) (s t : State) : Prop := field (t.entry (keyOf (0x3030 + c) 3)) hi lo =
    satAdd (hi - lo + 1) (field (s.entry (keyOf (0x3030 + c) 3)) hi lo) 1
  let asked (t : State) : Prop := t.running Activity.retraining = true ∨ Activity.retraining ∈ t.hid.heat.waiting
  let failed (c : Nat) (s t : State) : Prop := t.mode = Mode.faultdark ∧ t.entry (keyOf 0x3000 3) = 5 ∧
    bitAt (t.entry (keyOf (0x3030 + c) 1)) 3 = true ∧ t.entry (keyOf 0x1001 4) = FaultCode.training ∧
    t.hid.memory.releasing = false ∧ Only (keyOf (0x3030 + c) 3 :: s.modeEntries) s t
  let released (s t : State) : Prop := t.entry (keyOf 0x3000 3) = 2 ∧ t.hid.memory.failing = none ∧
    t.hid.memory.releasing = false ∧ t.hid.memory.freezeKind = 0 ∧ t.mode = if s.mode = Mode.freeze then Mode.dark else s.mode
  (∀ (s : State) (c : Nat), s.sound = true → s.shaped = true → s.up .mem = true → c ∈ s.channels →
    let m := s.hid.memory
    let training : Prop := s.entry (keyOf 0x3000 3) = 1 ∧ bitAt m.trained c = false ∧
      ¬(m.releasing = true ∧ field (s.entry (keyOf (0x3030 + c) 1)) 2 0 = 1)
    let found (density : Nat) : Prop := if s.isSender = true then density = 3 else density ≤ 3 ∧ (density ≠ 0 ∨ 2 ≤ c)
    (∀ density, training → found density →
      Completes (.memoryTraining c density true) s fun t =>
        field (t.entry (keyOf (0x3030 + c) 1)) 23 16 = density ∧ (density ≠ 0 → ready c s t) ∧
        remembers { m with
          trained := withBit m.trained c
          trainedAt := if density ≠ 0 then setAt m.trainedAt c s.uptime else m.trainedAt } s t ∧ t.outputs = s.outputs ∧
        (if s.channels.all (bitAt t.hid.memory.trained) then
          let n := t.populated.length;
          let payload := channelPayload s.isSender (t.density 0);
          t.entry (keyOf 0x3000 3) = 2 ∧ t.entry (keyOf 0x3000 4) = n * payload % 2 ^ 64 ∧
          t.entry (keyOf 0x3010 3) = n * (payload / 4096 * 4096) % 2 ^ 64 ∧
          (∀ x ∈ s.channels, bitAt (t.entry (keyOf 0x3010 4)) x = (t.density x != 0)) ∧
          Only (trained c ++ [keyOf 0x3000 1, keyOf 0x3000 3, keyOf 0x3000 4, keyOf 0x3010 3, keyOf 0x3010 4]) s t
        else Only (trained c) s t)) ∧
    (∀ density passed, training → ¬(passed = true ∧ found density) →
      Completes (.memoryTraining c density passed) s fun t => counted c 15 0 s t ∧
        t.hid.memory.attempts = updateAt m.attempts c (· + 1) ∧
        (if 2 ≤ m.attempts.getD c 0 ∨ (s.isSender = true ∧ passed = true) then failed c s t
        else remembers { m with attempts := t.hid.memory.attempts } s t ∧ t.outputs = s.outputs ∧
          Only [keyOf (0x3030 + c) 3] s t)) ∧
    (∀ density, s.entry (keyOf 0x3000 3) = 3 → m.releasing = true → field (s.entry (keyOf (0x3030 + c) 1)) 2 0 = 1 →
      (Completes (.memoryTraining c density true) s fun t => ready c s t ∧ released s t ∧
        t.hid.memory = { m with
          releasing := false
          failing := none
          freezeKind := 0
          trainedAt := setAt m.trainedAt c s.uptime } ∧ Only (trained c ++ s.modeEntries) s t) ∧
      (Completes (.memoryTraining c density false) s fun t => counted c 15 0 s t ∧ failed c s t)) ∧
    (let moved := (s.int 16 0x1200 1 - s.int 16 (0x3030 + c) 6).natAbs;
      let atOnce : Prop := s.entry (keyOf 0x3080 4) ≤ moved ∨ s.entry (keyOf 0x3080 5) ≤ s.recentRetries c;
      let due := m.trainedAt.getD c 0 + s.entry (keyOf 0x3080 3) * 10 ^ 9;
      s.density c ≠ 0 → bitAt (s.entry (keyOf (0x3030 + c) 1)) 4 = false → atOnce ∨ s.entry (keyOf 0x3080 3) ≠ 0 →
      Completes (.retrainDue c) s fun t => bitAt (t.entry (keyOf (0x3030 + c) 1)) 4 = true ∧ asked t ∧
        (atOnce → t.hid.time = s.hid.time) ∧ (¬atOnce → t.uptime = max s.uptime due) ∧ t.outputs = s.outputs ∧
        t.hid = { s.hid with
          time := { s.hid.time with now := t.hid.time.now, cycles := t.hid.time.cycles, trimDone := t.hid.time.trimDone }
          heat := { s.hid.heat with waiting := t.hid.heat.waiting }
          memory := { m with retraining := t.hid.memory.retraining } } ∧ Only s.activityEntries s t) ∧
    (∀ completed last, m.retraining = some c → s.running Activity.retraining = true → s.frozen 7 = false →
      s.entry (keyOf 0x3000 3) = 2 → Completes (.retrainStep c completed last) s fun t => SameMemoryOutside [historyRange] s t ∧
        t.outputs = s.outputs ∧ ((completed && last) = false → t.hid = s.hid ∧ SameEntriesBut [] s t) ∧
        ((completed && last) = true → ready c s t ∧ counted c 31 16 s t ∧
          t.hid = { s.hid with
            almanac := t.hid.almanac
            heat := { s.hid.heat with waiting := t.hid.heat.waiting }
            memory := { m with retraining := t.hid.memory.retraining, trainedAt := setAt m.trainedAt c s.uptime } } ∧
          (if s.channels.any (fun x => x != c && bitAt (s.entry (keyOf (0x3030 + x) 1)) 4) then asked t
            else t.hid.memory.retraining = none ∧ t.running Activity.retraining = false) ∧
          SameEntriesBut (s.activityEntries ++ trained c ++ [keyOf (0x3030 + c) 3, keyOf 0x1400 8]) s t)) ∧
    (Completes (.refreshWindow c) s fun t =>
      let half := m.halving.getD c false
      remembers { m with
        trackers := m.trackers.filter (·.channel != c)
        throttles := m.throttles.filter (·.1 != c) } s t ∧
      bitAt (t.entry (keyOf (0x3030 + c) 1)) 6 = false ∧ bitAt (t.entry (keyOf (0x3030 + c) 1)) 7 = half ∧
      bitAt (t.entry (keyOf 0x3000 5)) c = half ∧ t.outputs = s.outputs ∧ Only [keyOf (0x3030 + c) 1, keyOf 0x3000 5] s t) ∧
    (s.density c ≠ 0 →
      (∀ temps : List Int, temps ≠ [] → Completes (.deviceTempReadout c temps) s fun t =>
        (∃ h ∈ temps, (∀ x ∈ temps, x ≤ h) ∧ field (t.entry (keyOf (0x3030 + c) 1)) 31 24 = ofSigned 8 (h / 16)) ∧
        remembers { m with halving := setAt m.halving c (temps.any fun x => s.int 16 0x3070 4 < x) } s t ∧
        t.outputs = s.outputs ∧ Only [keyOf (0x3030 + c) 1] s t) ∧
      (∀ bank < 16, s.entry (keyOf 0x3000 3) = 2 ∨ s.entry (keyOf 0x3000 3) = 3 → Completes (.refresh c bank) s fun t =>
        let others : List Nat := if s.entry (keyOf 0x3000 3) = 2 then [bank, bank ^^^ 8] else [bank]
        t.openRow c bank = none ∧ t.outputs = s.outputs ∧ SameEntriesBut [] s t ∧ SameMemoryOutside [historyRange] s t ∧
        remembers { m with rows := t.hid.memory.rows, trackers := t.hid.memory.trackers } s t ∧
        (∀ x b, (∀ o ∈ others, bankKey x b ≠ bankKey c o) → t.openRow x b = s.openRow x b) ∧
        (∀ o ∈ others, ∀ r ∈ t.openRow c o, r.dirty = 0) ∧
        ((∀ o ∈ others, ∀ r ∈ s.openRow c o, r.dirty = 0) → ∀ b, b ≠ bank → t.openRow c b = s.openRow c b)))) ∧
  (∀ (s : State) (d : Door), s.sound = true → s.shaped = true → s.servesAt d = true →
    let m := s.hid.memory
    (Acts (.retrainAll d) d Status.queued s.activityEntries s fun t =>
      (∀ c ∈ s.populated, bitAt (t.entry (keyOf (0x3030 + c) 1)) 4 = true) ∧
      t.hid = { s.hid with
        almanac := t.hid.almanac
        heat := { s.hid.heat with waiting := t.hid.heat.waiting }
        memory := { m with retraining := t.hid.memory.retraining } }) ∧
    (Acts (.scrubNow d) d Status.ok [keyOf 0x3080 2] s fun t => t.entry (keyOf 0x3080 2) = 0 ∧
      remembers { m with scrubNow := true } s t) ∧
    Clears (.freezeRecordClear d) d [keyOf 0x3002 1, keyOf 0x3002 2, keyOf 0x3002 3] s ∧
    (s.entry (keyOf 0x3000 3) ≠ 3 → Refused (.freezeRelease d) d Status.unavailable s) ∧
    (s.entry (keyOf 0x3000 3) = 3 →
      (m.failing = none → Acts (.freezeRelease d) d Status.ok s.modeEntries s fun t => released s t ∧
        t.hid.memory = { m with releasing := false, failing := none, freezeKind := 0 }) ∧
      (∀ p, m.failing = some p → m.freezeKind = 1 → Completes (.freezeRelease d) s fun t => Answered d Status.ok [] t ∧
        released s t ∧ (∀ w, w ∈ t.hid.memory.poison ↔ w ∈ m.poison ∨ w = wordKey p) ∧
        t.hid.memory = { m with
          releasing := false
          failing := none
          freezeKind := 0
          poison := t.hid.memory.poison
          rows := t.hid.memory.rows
          trackers := t.hid.memory.trackers } ∧
        SameEntriesBut (s.modeEntries ++ doorMarks) s t ∧ SameMemoryOutside [historyRange] s t) ∧
      (∀ p, m.failing = some p → m.freezeKind ≠ 1 → p.channel ∈ s.channels →
        Acts (.freezeRelease d) d Status.ok [keyOf (0x3030 + p.channel) 1] s fun t =>
          field (t.entry (keyOf (0x3030 + p.channel) 1)) 2 0 = 1 ∧ remembers { m with releasing := true } s t)))

/-- EDC_RETRY counts and, at the retry level within a second, marks the channel due for retraining. CORRECTED_READ counts and
queues a write-back, or counts the one for which there is no room. POISONED_READ counts. HAMMER_THRESHOLD counts an action
on its channel and throttles the requester for the rest of the window, and a C0 or C1 requester whose floor is below the
limit has neighbours refreshed; the controller's own requests are not throttled. SCRUB notes its place, writes what waits
on the channel, charges its master, and does what it found. MEMORY_FREEZE and a MODE_REGISTER_CHECK that does not match
freeze the controller: the first trigger is recorded, the fault code shown, retraining ended, and FREEZE entered where the
mode allows; a second one only counts in the Almanac (log 109). Nothing else changes but the command history (R389) and
what the entry to FREEZE brings. (R380, R383, R384, R385, R386, R387, R388, R389, R391, R394) -/
def Obligations.MemoryErrorsAreCountedAndFreeze : Prop :=
  let codes (c : Nat) (hi lo : Nat) (s t : State) (n : Nat) : Prop := field (t.entry (keyOf (0x3030 + c) 2)) hi lo =
    satAdd (hi - lo + 1) (field (s.entry (keyOf (0x3030 + c) 2)) hi lo) n
  let remembers (m : MemoryState) (more : Nat) (s t : State) : Prop := t.hid = { s.hid with
    almanac := t.hid.almanac
    memory := m
    counts := { s.hid.counts with memErrors := s.hid.counts.memErrors + more } }
  let quiet (ks : List Key) (s t : State) : Prop := t.outputs = s.outputs ∧ SameEntriesBut (keyOf 0x1400 8 :: ks) s t ∧
    SameMemoryOutside [historyRange] s t
  let frozen (kind syndrome : Nat) (p : MemPlace) (s t : State) : Prop := t.entry (keyOf 0x3000 3) = 3 ∧
    (∀ c ∈ s.channels, field (s.entry (keyOf (0x3030 + c) 1)) 2 0 = 2 → field (t.entry (keyOf (0x3030 + c) 1)) 2 0 = 3) ∧
    (field (s.entry (keyOf 0x3002 1)) 63 60 = 0 → t.entry (keyOf 0x3002 1) = freezeRecord kind p % 2 ^ 64 ∧
      t.entry (keyOf 0x3002 2) = syndrome % 2 ^ 16 ∧ t.entry (keyOf 0x3002 3) = s.tick) ∧
    (field (s.entry (keyOf 0x3002 1)) 63 60 ≠ 0 → ∀ k ∈ [1, 2, 3].map (keyOf 0x3002), t.entry k = s.entry k) ∧
    t.entry (keyOf 0x1001 4) = (if kind = 1 then FaultCode.memoryData else FaultCode.memoryCommand) ∧
    t.mode = (if s.mode ∈ [2, 3, 4, 5, 6, 11] then Mode.freeze else s.mode) ∧ t.running Activity.retraining = false ∧
    SameMemoryOutside [historyRange] s t
  let freezeEntries (s : State) : List Key :=
    s.modeEntries ++ [keyOf 0x1620 1, keyOf 0x1620 2, keyOf 0x3002 1, keyOf 0x3002 2, keyOf 0x3002 3, keyOf 0x1400 8] ++
      s.hid.memory.retraining.toList.map fun c => keyOf (0x3030 + c) 1
  let takes (m : MemoryState) (kind : Nat) (p : MemPlace) : MemoryState :=
    { m with failing := some p, freezeKind := kind, retraining := none }
  ∀ (s : State), s.sound = true → s.shaped = true → s.up .mem = true →
    let m := s.hid.memory
    (∀ c, c ∈ s.populated → Completes (.edcRetry c) s fun t =>
      let due := decide (s.entry (keyOf 0x3080 5) ≤ s.recentRetries c + 1)
      field (t.entry (keyOf (0x3030 + c) 3)) 63 32 = satAdd 32 (field (s.entry (keyOf (0x3030 + c) 3)) 63 32) 1 ∧
      t.hid = { s.hid with
        almanac := t.hid.almanac
        heat := { s.hid.heat with waiting := t.hid.heat.waiting }
        memory := { m with
          retries := (m.retries.filter fun q => decide (s.uptime < q.2 + 10 ^ 9)) ++ [(c, s.uptime)]
          retraining := t.hid.memory.retraining } } ∧
      (due = true → bitAt (t.entry (keyOf (0x3030 + c) 1)) 4 = true ∧ (bitAt (s.entry (keyOf (0x3030 + c) 1)) 4 = false →
        t.running Activity.retraining = true ∨ Activity.retraining ∈ t.hid.heat.waiting)) ∧
      (due = false → t.hid.heat = s.hid.heat ∧ t.hid.memory.retraining = m.retraining) ∧
      quiet (keyOf (0x3030 + c) 3 :: if due = true then s.activityEntries else []) s t) ∧
    (∀ p : MemPlace, p.channel ∈ s.populated →
      let old := m.writeBacks.getD p.channel 0
      (Completes (.correctedRead p) s fun t => codes p.channel 63 32 s t 1 ∧
        codes p.channel 15 0 s t (if old < 64 then 0 else 1) ∧
        remembers { m with writeBacks := setAt m.writeBacks p.channel (if old < 64 then old + 1 else old) } 1 s t ∧
        quiet [keyOf (0x3030 + p.channel) 2] s t) ∧
      (Completes (.hammerThreshold p) s fun t =>
        let tr := max 1 (s.entry (keyOf 0x3070 1))
        let c := requesterClass p.requester
        let low := decide (c ≤ 1) && (s.floorSpacing p).any (· < s.entry (keyOf 0x3070 2))
        let h (hi lo n : Nat) : Prop := field (t.entry (keyOf (0x3030 + p.channel) 4)) hi lo =
          satAdd 16 (field (s.entry (keyOf (0x3030 + p.channel) 4)) hi lo) n
        (∃ x ∈ t.hid.memory.trackers, x.channel = p.channel ∧ x.bank = p.bank ∧ x.row = p.row ∧ x.count % tr = 0 ∧
          0 < x.count) ∧
        (c ≤ 4 → (∀ q, q ∈ t.hid.memory.throttles ↔ q ∈ m.throttles ∨ q = (p.channel, p.requester)) ∧
          bitAt (t.entry (keyOf (0x3030 + p.channel) 1)) 6 = true ∧ h 31 16 1 ∧ h 15 0 (if low then (s.neighbours p).length else 0)) ∧
        (4 < c → t.hid.memory.throttles = m.throttles ∧ SameEntriesBut [] s t) ∧ t.outputs = s.outputs ∧
        remembers { m with trackers := t.hid.memory.trackers, throttles := t.hid.memory.throttles } 0 s t ∧
        (low = false → SameMemory s t) ∧ SameMemoryOutside [historyRange] s t ∧
        SameEntriesBut [keyOf (0x3030 + p.channel) 1, keyOf (0x3030 + p.channel) 4, keyOf 0x1400 8] s t)) ∧
    (∀ (p : MemPlace) (a : Nat), p.channel ∈ s.channels →
      (s.poisoned a = true → Completes (.poisonedRead p a) s fun t => codes p.channel 31 16 s t 1 ∧ SameBeside s t ∧
        quiet [keyOf (0x3030 + p.channel) 2] s t) ∧
      (s.poisoned a = false → exec (.poisonedRead p a) s = .next s)) ∧
    (∀ (p : MemPlace) (found : Nat), s.maintenance = true → s.granting = true → s.frozen 6 = false →
      p.channel ∈ s.populated → s.entry (keyOf 0x7030 3) ≠ 1 → m.retraining ≠ some p.channel →
      s.entry (keyOf 0x3080 1) ≠ 0 ∨ m.scrubNow = true → found < 4 →
      let rows := dataRows s.isSender (s.density p.channel)
      let last : Bool := p.channel == s.populated.foldl max 0 && p.atom == 63 && p.bank == 15 &&
        p.row + 1 == rows + ceilDiv rows 8
      Completes (.scrub p found) s fun t =>
        let m' : MemoryState := { m with
          rows := t.hid.memory.rows
          trackers := t.hid.memory.trackers
          throttles := t.hid.memory.throttles
          scrubNow := m.scrubNow && !last
          writeBacks := setAt m.writeBacks p.channel (if found = 1 then 1 else 0) }
        let scrubEntries : List Key := [keyOf 0x3080 2, keyOf 0x1643 7, keyOf 0x1644 1, keyOf 0x1400 8] ++
          [1, 2, 4].map (keyOf (0x3030 + p.channel))
        t.entry (keyOf 0x3080 2) = (p.channel * 2 ^ 26 + p.row * 2 ^ 9 + p.bank * 2 ^ 5) % 2 ^ 32 ∧
        t.hid.budget.bytes.getD 6 0 = s.charged 6 (32 + 32 * m.writeBacks.getD p.channel 0) ∧
        codes p.channel 63 32 s t (if found = 1 then 1 else 0) ∧ codes p.channel 15 0 s t 0 ∧
        codes p.channel 31 16 s t (if found = 3 then 1 else 0) ∧
        (found ≠ 2 → t.outputs = s.outputs ∧ SameMemoryOutside [historyRange] s t ∧ SameEntriesBut scrubEntries s t ∧
          t.hid = { s.hid with
            almanac := t.hid.almanac
            budget := { s.hid.budget with
              bytes := t.hid.budget.bytes
              cycles := t.hid.budget.cycles
              overran := t.hid.budget.overran
              flight := t.hid.budget.flight }
            counts := { s.hid.counts with memErrors := s.hid.counts.memErrors + if found = 1 then 1 else 0 }
            memory := m' }) ∧
        (found = 2 → frozen 1 (s.freeValue 16) { p with requester := 6 } s t ∧
          t.hid.memory = takes m' 1 { p with requester := 6 } ∧
          SameEntriesBut (scrubEntries ++ freezeEntries s) s t)) ∧
    (∀ (x : FreezeTrigger) (p : MemPlace), p.channel < 36 →
      let kind := match x with | .dataError _ => 1 | .writeEdc => 2 | .readEdc => 3 | .modeRegister => 4
      (s.entry (keyOf 0x3000 3) = 2 → Completes (.memoryFreeze x p) s fun t =>
        frozen kind (match x with | .dataError y => y | _ => 0) p s t ∧ t.hid.memory = takes m kind p ∧
        SameEntriesBut (freezeEntries s) s t) ∧
      (s.entry (keyOf 0x3000 3) = 3 → Completes (.memoryFreeze x p) s fun t => t.outputs = s.outputs ∧ SameBeside s t ∧
        Only [keyOf 0x1400 8] s t) ∧
      (s.entry (keyOf 0x3000 3) ∉ [2, 3] → exec (.memoryFreeze x p) s = .next s)) ∧
    (∀ c ∈ s.populated, exec (.modeRegisterCheck c true) s = .next s ∧
      (s.entry (keyOf 0x3000 3) = 2 → Completes (.modeRegisterCheck c false) s fun t =>
        let p : MemPlace := ⟨c, 0, 0, 0, 0, false, 0x3E, 0⟩
        frozen 4 0 p s t ∧ t.hid.memory = takes m 4 p ∧ SameEntriesBut (freezeEntries s) s t))

/-- SENSOR_SAMPLE: each sensor's runs; two open or out-of-range samples or 16 that differ from its ring break it, 16 that pass
heal it after a cold reset; a broken one reads its substitute; Tj is the greatest valid sensor, or ring, Tthr takes the
substitute in, Tsd the rings of the broken ones; the warning and shutdown levels fall as R401 says. THROTTLE at 105 °C
marks its level, and RUN, HOLD and BRINGUP become DERATE; below 100 °C it ends. SHUTDOWN at 115 °C marks its level and
enters SHUTDOWN with every activity ended, or waits while CORE is held. COMPENSATION_UPDATE shows the three table values
at Tj (while TG0 of a tile runs, the bandgap value waits for its next latch), and in holdover moves the rate.
PORT_TEST_MODE, LAMP_PATTERN and MEMORY_TEST_START run in BRINGUP, else UNAVAILABLE; a memory test clears its region,
stops, passes, or shows its first failure. Nothing else changes. (R399, R400, R401, R402, R404, R408, R409, R410, R518,
R519, R520, R521) -/
def Obligations.TemperaturesAndTests : Prop :=
  let events (s t : State) : Prop := ∃ es : List (Nat × Nat), t.outputs = s.outputs ++ es.map fun e => Output.event e.1 e.2
  (∀ (s : State) (sensors : List SensorReading) (rings : List Int), s.sound = true → s.shaped = true →
    Completes (.sensorSample sensors rings) s fun t =>
      let ring (i : Nat) : Int := t.int 16 0x1202 (i + 1)
      let temp (k : Nat) : Int := t.int 16 0x1201 (k + 1)
      let near (k : Nat) : Nat := [0, 0, 1, 1, 2, 3, 0, 2, 1, 3, 2, 3].getD k 0
      let tj := t.int 16 0x1200 1
      let tthr := t.int 16 0x1200 2
      let tsd := t.int 16 0x1200 3
      let level (u : State) (b : Nat) : Bool := bitAt (u.entry (keyOf 0x1200 4)) b
      (∀ i < 4, ring i = match rings[i]? with | some v => clampSigned 16 v | none => s.int 16 0x1202 (i + 1)) ∧
      (∀ k < 12, match sensors[k]? with
        | none => t.broken k = s.broken k ∧ (s.broken k = false → temp k = s.int 16 0x1201 (k + 1))
        | some r =>
          let x := s.hid.heat.sensors.getD k SensorState.initial
          let y := t.hid.heat.sensors.getD k SensorState.initial
          let value : Option Int := match r with | .value v => some v | .openOrShort => none;
          y.opened = (if value.isNone then x.opened + 1 else 0) ∧
          y.range = (if value.any fun v => v < -880 || 2400 < v then x.range + 1 else 0) ∧
          y.differ = (if value.any fun v => 192 < (v - ring (near k)).natAbs then x.differ + 1 else 0) ∧
          y.passed = (if value.any fun v => -880 ≤ v && v ≤ 2400 && (v - ring (near k)).natAbs ≤ 192 then x.passed + 1 else 0) ∧
          (t.broken k = true ↔ if s.broken k = true then ¬ (x.eligible = true ∧ 16 ≤ y.passed)
            else 2 ≤ y.opened ∨ 2 ≤ y.range ∨ 16 ≤ y.differ) ∧
          (s.broken k = false → t.broken k = true → Output.event 400 k ∈ t.outputs) ∧
          temp k = (if t.broken k = true then 1696 else match value with
            | some v => clampSigned 16 v | none => s.int 16 0x1201 (k + 1))) ∧
      ((∃ k < 12, t.broken k = false) → (∃ k < 12, t.broken k = false ∧ tj = temp k) ∧
        ∀ k < 12, t.broken k = false → temp k ≤ tj) ∧
      ((∀ k < 12, t.broken k = true) → (∃ i < 4, tj = ring i) ∧ ∀ i < 4, ring i ≤ tj) ∧
      tthr = (if (List.range 12).any t.broken then max tj 1696 else tj) ∧
      tj ≤ tsd ∧ (∀ k < 12, t.broken k = true → ring (near k) ≤ tsd) ∧
      (tsd = tj ∨ ∃ k < 12, t.broken k = true ∧ tsd = ring (near k)) ∧
      level t 0 = (if level s 0 then decide (1440 ≤ tthr) else decide (1520 ≤ tthr)) ∧ level t 1 = level s 1 ∧
      level t 2 = (level s 2 && decide (1760 ≤ tsd)) ∧ level t 3 = level s 3 ∧ level t 4 = (List.range 12).any t.broken ∧
      level t 5 = (List.range 12).all t.broken ∧ events s t ∧
      t.hid = { s.hid with
        almanac := t.hid.almanac
        heat := { s.hid.heat with sensors := t.hid.heat.sensors }
        reset := { s.hid.reset with tripped := s.hid.reset.tripped &&
          !((List.range 12).all (fun k => t.broken k || temp k < 1920) && (List.range 4).all fun i => ring i < 1920) } } ∧
      Only ((List.range 4).flatMap (fun i => [keyOf 0x1200 (i + 1), keyOf 0x1202 (i + 1)]) ++
        (List.range 12).map (fun k => keyOf 0x1201 (k + 1)) ++
        [keyOf 0x1203 1, keyOf 0x1203 2, keyOf 0x1204 1, keyOf 0x1400 8]) s t) ∧
  (∀ (s : State), s.sound = true → s.shaped = true →
    let tthr := s.int 16 0x1200 2
    let on := bitAt (s.entry (keyOf 0x1200 4)) 1
    let marks : List Key := [keyOf 0x1200 4, keyOf 0x1204 1, keyOf 0x1400 8]
    let follows (enter : Bool) (t : State) : Prop :=
      let moves : Bool := if enter then [Mode.run, Mode.hold, Mode.bringup].contains s.mode && s.hid.mode.automatic.isNone
        else s.mode == Mode.derate
      if moves = true ∧ s.stepped = false then t.mode = (if enter then Mode.derate else s.entry (keyOf 0x1210 2)) ∧
        (enter = true → t.entry (keyOf 0x1210 2) = s.mode) ∧ Only (marks ++ s.modeEntries) s t
      else t.hid = { s.hid with
          almanac := t.hid.almanac
          mode := { s.hid.mode with
            throttleTick := if moves then some (enter, s.firstTickAfter 1 s.ns) else none } } ∧ Only marks s t
    (on = false → tthr < 1680 → exec .throttle s = .next s) ∧ (on = true → 1600 ≤ tthr → exec .throttle s = .next s) ∧
    (on = false → 1680 ≤ tthr → Completes .throttle s fun t => bitAt (t.entry (keyOf 0x1200 4)) 1 = true ∧
      Output.event 401 1 ∈ t.outputs ∧
      field (t.entry (keyOf 0x1204 1)) 47 32 = satAdd 16 (field (s.entry (keyOf 0x1204 1)) 47 32) 1 ∧ follows true t) ∧
    (on = true → tthr < 1600 → Completes .throttle s fun t => bitAt (t.entry (keyOf 0x1200 4)) 1 = false ∧
      t.entry (keyOf 0x1204 1) = s.entry (keyOf 0x1204 1) ∧ follows (s.entry (keyOf 0x1210 1) == 1) t)) ∧
  (∀ (s : State), s.sound = true → s.shaped = true →
    (1840 ≤ s.int 16 0x1200 3 → bitAt (s.entry (keyOf 0x1200 4)) 2 = false →
      let marked (t : State) : Prop := bitAt (t.entry (keyOf 0x1200 4)) 2 = true ∧ Output.event 401 2 ∈ t.outputs ∧
        field (t.entry (keyOf 0x1204 1)) 31 16 = satAdd 16 (field (s.entry (keyOf 0x1204 1)) 31 16) 1
      let marks : List Key := [keyOf 0x1200 4, keyOf 0x1204 1, keyOf 0x1400 8];
      (s.hid.reset.coreHeld = true → Completes .shutdown s fun t => marked t ∧ Only marks s t ∧ t.hid = { s.hid with
        almanac := t.hid.almanac
        heat := { s.hid.heat with shutdownWaits := true } }) ∧
      (s.hid.reset.coreHeld = false → s.up .core = false ∨ s.mode ∈ [Mode.off, Mode.vigil, Mode.shutdown] →
        Completes .shutdown s fun t => marked t ∧ Only marks s t ∧ SameBeside s t) ∧
      (s.hid.reset.coreHeld = false → s.up .core = true → s.mode ∉ [Mode.off, Mode.vigil, Mode.shutdown] →
        Completes .shutdown s fun t => marked t ∧ t.mode = Mode.shutdown ∧ t.entry (keyOf 0x1001 4) = FaultCode.shutdown ∧
          t.hid.heat.run = none ∧ t.hid.update.store = none ∧ t.hid.update.storeQueue = [] ∧ t.hid.memory.retraining = none ∧
          t.entry (keyOf 0x1620 1) = 0 ∧ t.entry (keyOf 0x1620 2) = 2 ^ 64 - 1 ∧ t.entry (keyOf 0x1620 3) = 0 ∧ t.session = 0 ∧
          SameMemoryOutside [bootSectors] s t ∧ SameEntriesBut (marks ++ s.modeEntries ++ [keyOf 0x1620 1, keyOf 0x1620 2,
            keyOf 0x1620 3, keyOf 0x1600 6, keyOf 0x1600 7, keyOf 0x1600 0x0B, keyOf 0x1500 2, keyOf 0x1500 3, keyOf 0x1500 5,
            keyOf 0x1500 0x0E, keyOf 0x1500 0x11, keyOf 0x1101 4]) s t)) ∧
    (s.up .core = true → Completes .compensationUpdate s fun t =>
      let tj := s.int 16 0x1200 1
      let x (table : Nat) : Nat := ofSigned 16 (s.compensation table tj)
      let held : Bool := [3, 4].contains (s.entry (keyOf 0x1300 3));
      let waits : Bool := s.isTile && s.tgRuns 0;
      let shown := field (s.entry (keyOf 0x1220 4)) 31 16;
      let log := s.hid.time.tjLog.take (if s.timingMaster then 10000 else 1000);
      let mean := if log.isEmpty then tj else roundDiv (log.foldl (· + ·) 0) log.length;
      t.entry (keyOf 0x1220 4) = x 1 * 2 ^ 32 + (if waits then shown else x 2) * 2 ^ 16 + x 3 ∧ t.outputs = s.outputs ∧
      (held = true → t.int 32 0x1300 5 =
        clampSigned 32 (s.hid.time.rateHeld + (s.compensation 3 tj - s.compensation 3 mean) * 65536 / 1000)) ∧
      Only (keyOf 0x1220 4 :: if held then [keyOf 0x1300 5] else []) s t ∧
      t.hid = { s.hid with
        heat := { s.hid.heat with
          bandgapNext := if waits && shown != x 2 then some (x 2) else none
          bandgapAt := if waits || shown == x 2 then s.hid.heat.bandgapAt else s.uptime }
        time := if held then { s.hid.time with rates := t.hid.time.rates }
          else { s.hid.time with tjLog := (tj :: s.hid.time.tjLog).take 10000 } })) ∧
  (∀ (s : State) (d : Door), s.sound = true → s.shaped = true → s.servesAt d = true →
    (∀ p m, p ∈ s.ports → m ≤ 4 →
      (m ≠ 0 → s.mode ≠ Mode.bringup → Refused (.portTestMode d p m) d Status.unavailable s) ∧
      (m ≠ 0 → s.mode = Mode.bringup → Acts (.portTestMode d p m) d Status.ok [keyOf (0x7010 + p) 1, keyOf (0x2000 + p) 2,
        keyOf (0x2000 + p) 3, keyOf (0x1310 + p) 3, keyOf (0x1310 + p) 7, keyOf 0x1300 3] s fun t =>
          let holds : Bool := s.isTile && p == s.entry (keyOf 0x2100 3) && s.stepped && s.entry (keyOf 0x1300 3) == 2
          t.entry (keyOf (0x7010 + p) 1) = m ∧ (t.link p = if s.link p = 7 then 7 else 0) ∧
          t.entry (keyOf 0x1300 3) = (if holds then 3 else s.entry (keyOf 0x1300 3)) ∧
          (∀ q, q ≠ p → q ≠ opposite p → t.port q = s.port q) ∧
          TimeMoves (if holds then { s.hid.time with rateHeld := s.int 32 0x1300 5 } else s.hid.time)
            { s with hid := { s.hid with ports := t.hid.ports } } t) ∧
      (m = 0 → Acts (.portTestMode d p m) d Status.ok [keyOf (0x7010 + p) 1] s fun t =>
        t.entry (keyOf (0x7010 + p) 1) = 0 ∧ SameBeside s t)) ∧
    (∀ n ≤ 5, s.isTile = true →
      (n ≠ 0 → s.mode ≠ Mode.bringup → Refused (.lampPattern d n) d Status.unavailable s) ∧
      (n = 0 ∨ s.mode = Mode.bringup → Acts (.lampPattern d n) d Status.ok [keyOf 0x7020 1] s fun t =>
        t.entry (keyOf 0x7020 1) = n ∧ SameBeside s t)) ∧
    (s.mode ≠ Mode.bringup → Refused (.memoryTestStart d) d Status.unavailable s) ∧
    (s.mode = Mode.bringup → s.testRegionFree = false → Refused (.memoryTestStart d) d Status.range s) ∧
    (s.mode = Mode.bringup → s.testRegionFree = true → s.entry (keyOf 0x7030 2) < 8 →
      let i := 0x3010 + s.entry (keyOf 0x7030 2)
      let a := Space.payload.at (s.entry (keyOf i 2))
      let b := Space.payload.at (s.entry (keyOf i 2) + s.entry (keyOf i 3));
      Completes (.memoryTestStart d) s fun t => Answered d Status.ok [] t ∧ t.entry (keyOf 0x7030 3) = 1 ∧
        t.entry (keyOf 0x7030 4) = 0 ∧ (∀ x, a ≤ x → x < b → t.byte x = State.reset.byte x) ∧ SameMemoryOutside [(a, b)] s t ∧
        SameBeside s t ∧ SameEntriesBut ([keyOf 0x7030 3, keyOf 0x7030 4] ++ doorMarks) s t) ∧
    (Acts (.memoryTestStop d) d Status.ok [keyOf 0x7030 3] s fun t => SameBeside s t ∧
      t.entry (keyOf 0x7030 3) = if s.entry (keyOf 0x7030 3) = 1 then 4 else s.entry (keyOf 0x7030 3))) ∧
  (∀ (s : State) (a : Nat), s.sound = true → s.entry (keyOf 0x7030 3) = 1 →
    (Completes (.memoryTestDone none) s fun t => t.hid = s.hid ∧ t.outputs = s.outputs ∧ t.entry (keyOf 0x7030 3) = 2 ∧
      t.entry (keyOf 0x7030 5) = satAdd 32 (s.entry (keyOf 0x7030 5)) 1 ∧ Only [keyOf 0x7030 3, keyOf 0x7030 5] s t) ∧
    (Completes (.memoryTestDone (some a)) s fun t => t.hid = s.hid ∧ t.outputs = s.outputs ∧
      t.entry (keyOf 0x7030 3) = 3 ∧ t.entry (keyOf 0x7030 4) = a % 2 ^ 64 ∧ Only [keyOf 0x7030 3, keyOf 0x7030 4] s t))

/-- EQUINOX_EVALUATE sets up the item that is due next and asks for its tokens. EQUINOX_SWAP_IN begins to measure, or aborts
for a precondition that fails. EQUINOX_MEASUREMENT: a precondition that fails aborts; the first of a pair is kept; a
second that agrees ends the RC oscillator, with its table trimmed, and CRS with their result, and a channel waits to be
swapped out; one that does not is counted, up to 4 pairs. EQUINOX_SWAP_OUT ends the run as calibrated, suspect, aborted or
ended by a freeze. EQUINOX_ABORT ends one for its cause; the third in a row raises an event. The end of a run frees its
tokens and records its result if none stands. The calibrate commands name items; CALIBRATION_STORE asks for a store;
CALIBRATION_RELOAD takes the newer slot or the factory set; SUSPECT_CLEAR clears the marks. Nothing else changes. (R413,
R414, R415, R417, R418, R419, R420, R421, R423, R426, R427) -/
def Obligations.EquinoxCalibrates : Prop :=
  let counted (hi lo n : Nat) (s t : State) : Prop := field (t.entry (keyOf 0x1600 0x0A)) hi lo =
    satAdd 16 (field (s.entry (keyOf 0x1600 0x0A)) hi lo) n
  let heats (h : HeatState) (s t : State) : Prop := t.hid = { s.hid with
    almanac := t.hid.almanac
    heat := h }
  let ended (code pairs cause diff : Nat) (r : EquinoxRun) (s t : State) : Prop := t.hid.heat.run = none ∧
    t.entry (keyOf 0x1600 6) = 0 ∧ t.entry (keyOf 0x1600 7) = 0xFF ∧ t.running Activity.equinox = false ∧
    t.hid.heat.waiting = s.hid.heat.waiting.filter (· != Activity.equinox) ∧
    t.entry (keyOf 0x1600 0x0B) = if bitAt (s.entry (keyOf 0x1600 0x0B)) 63 = true then s.entry (keyOf 0x1600 0x0B)
      else (2 ^ 63 + code * 2 ^ 60 + r.item * 2 ^ 53 + pairs * 2 ^ 50 + cause * 2 ^ 48 + min 65535 diff * 2 ^ 32 +
        s.tick % 2 ^ 32) % 2 ^ 64
  let record (c : Nat) : Nat × Nat := (domainBase (keyOf 0x1610 1) + 32 + 16 * c, domainBase (keyOf 0x1610 1) + 48 + 16 * c)
  let changes (item : Nat) (s t : State) : Prop :=
    SameMemoryOutside [if item < 65 then record item else contentRange 0x1220 1 36] s t ∧
    SameEntriesBut ([6, 7, 8, 9, 0x0A, 0x0B].map (keyOf 0x1600) ++ [1, 2, 3].map (keyOf 0x1620) ++ [keyOf 0x1400 8]) s t
  let aborted (r : EquinoxRun) (cause : Nat) (s t : State) : Prop := ended 3 r.pair cause 0 r s t ∧ counted 31 16 1 s t ∧
    changes r.item s t ∧ heats { s.hid.heat with run := none, waiting := t.hid.heat.waiting } s t ∧
    (65 ≤ r.item → SameMemory s t) ∧
    (r.item < 65 → t.dac r.item = { s.dac r.item with aborts := min 255 ((s.dac r.item).aborts + 1) }) ∧
    t.outputs = s.outputs ++ if r.item < 65 ∧ (s.dac r.item).aborts = 2 then [.event 417 r.item] else []
  let finished (r : EquinoxRun) (s t : State) : Prop := changes r.item s t ∧ heats { s.hid.heat with
      run := none
      waiting := t.hid.heat.waiting
      commanded := s.hid.heat.commanded.filter (· != r.item)
      rcTcal := t.hid.heat.rcTcal } s t
  let calibrated (r : EquinoxRun) (diff : Nat) (c : List Int) (s t : State) : Prop :=
    ended 1 (min 4 r.pair) 0 diff r s t ∧ counted 63 48 1 s t ∧ finished r s t ∧ bitAt (t.entry (keyOf 0x1600 9)) 7 = true ∧
    t.outputs = s.outputs ∧ t.hid.heat.rcTcal = (if r.item = 65 then s.int 16 0x1200 1 else s.hid.heat.rcTcal) ∧
    (r.item < 64 → bitAt (t.entry (keyOf 0x1600 8)) r.item = false) ∧
    (r.item < 65 → t.dac r.item = ⟨(c.getD 0 0).toNat % 2 ^ 32, toSigned 32 (ofSigned 32 (c.getD 1 0)),
      toSigned 16 (ofSigned 16 (c.getD 2 0)), s.int 16 0x1200 1, 1, 0, min 65535 ((s.dac r.item).count + 1)⟩)
  let suspected (r : EquinoxRun) (diff : Nat) (s t : State) : Prop := ended 2 (min 4 r.pair) 0 diff r s t ∧
    counted 15 0 1 s t ∧ finished r s t ∧ t.hid.heat.rcTcal = s.hid.heat.rcTcal ∧
    (r.item < 65 → t.dac r.item = { s.dac r.item with state := 2 }) ∧ (65 ≤ r.item → SameMemory s t) ∧
    t.outputs = s.outputs ++ [.event 415 r.item] ∧ (r.item < 64 → bitAt (t.entry (keyOf 0x1600 8)) r.item = true)
  let goesOn (r : EquinoxRun) (ks : List Key) (s t : State) : Prop := heats { s.hid.heat with run := some r } s t ∧
    t.outputs = s.outputs ∧ Only ks s t
  (∀ s : State, s.sound = true → s.shaped = true →
    (s.hid.heat.run ≠ none ∨ s.maintenance = false ∨ s.nextItem = none → exec .equinoxEvaluate s = .next s) ∧
    (∀ i, s.hid.heat.run = none → s.maintenance = true → s.nextItem = some i → Completes .equinoxEvaluate s fun t =>
      t.hid.heat.run = some ⟨i, 1, none, none, s.int 16 0x1200 1, none, 0⟩ ∧ t.entry (keyOf 0x1600 7) = i ∧
      (s.running Activity.equinox = false → s.canStart Activity.equinox = true →
        t.entry (keyOf 0x1600 6) = (if i < 64 then 2 else 3) ∧ t.running Activity.equinox = true) ∧
      (s.running Activity.equinox = false → s.canStart Activity.equinox = false →
        t.entry (keyOf 0x1600 6) = 1 ∧ Activity.equinox ∈ t.hid.heat.waiting) ∧ t.outputs = s.outputs ∧
      heats { s.hid.heat with run := t.hid.heat.run, waiting := t.hid.heat.waiting } s t ∧
      Only (s.activityEntries ++ [keyOf 0x1600 7]) s t)) ∧
  (∀ (s : State) (r : EquinoxRun), s.sound = true → s.shaped = true → s.hid.heat.run = some r → r.item ∈ s.items →
    (let fresh := { r with startTj := s.int 16 0x1200 1 };
      s.entry (keyOf 0x1600 6) = 2 → s.running Activity.equinox = true → s.tokenFree Token.diagSlot = true → r.aborted = none →
      (s.abortCause fresh = 0 → Completes .equinoxSwapIn s fun t => t.entry (keyOf 0x1600 6) = 3 ∧
        goesOn fresh [keyOf 0x1600 6] s t) ∧
      (s.abortCause fresh ≠ 0 → Completes .equinoxSwapIn s (aborted r (s.abortCause fresh) s))) ∧
    (∀ points : List Int, s.entry (keyOf 0x1600 6) = 3 → s.running Activity.equinox = true → r.aborted = none →
      s.maintenance = true → s.frozen 4 = false →
      let cause := s.abortCause r
      (cause ≠ 0 → r.item < 64 → Completes (.equinoxMeasurement points) s fun t => t.entry (keyOf 0x1600 6) = 4 ∧
        goesOn { r with aborted := some cause } [keyOf 0x1600 6] s t) ∧
      (cause ≠ 0 → 64 ≤ r.item → Completes (.equinoxMeasurement points) s (aborted r cause s)) ∧
      (cause = 0 → r.first = none → Completes (.equinoxMeasurement points) s (goesOn { r with first := some points } [] s)) ∧
      (∀ m, cause = 0 → r.first = some m → r.item = 65 →
        let agrees : Prop := (m.getD 0 0 - points.getD 0 0).natAbs * 2000 ≤ Config.rcNominal;
        (agrees → Completes (.equinoxMeasurement points) s fun t => calibrated r r.diff [] s t ∧
          ∀ i < 18, t.contentInt 0x1220 1 (2 * i) =
            (let k := min 16 ((s.int 16 0x1200 1 + 640) / 160).toNat;
            if i = k ∨ i = k + 1 then
              clampSigned 16 (s.contentInt 0x1220 1 (2 * i) + Config.rcTrimError (m.getD 0 0) (points.getD 0 0))
            else s.contentInt 0x1220 1 (2 * i))) ∧
        (¬ agrees → r.agreed = none → Completes (.equinoxMeasurement points) s (suspected r r.diff s))) ∧
      (∀ m, cause = 0 → r.first = some m → r.item < 65 →
        let a := coefficients m (s.diagCode r.item)
        let b := coefficients points (s.diagCode r.item)
        let d := disagreement a b
        let diff := d * 1000 / 65536;
        (d ≤ 8388 → r.item = 64 → Completes (.equinoxMeasurement points) s (calibrated r diff (meanOf a b) s)) ∧
        (d ≤ 8388 → r.item < 64 → Completes (.equinoxMeasurement points) s fun t => t.entry (keyOf 0x1600 6) = 4 ∧
          goesOn { r with diff := diff, agreed := some (meanOf a b) } [keyOf 0x1600 6] s t) ∧
        (8388 < d → r.pair < 4 → Completes (.equinoxMeasurement points) s fun t => counted 47 32 1 s t ∧
          goesOn { r with diff := diff, first := none, pair := r.pair + 1, startTj := s.int 16 0x1200 1 }
            [keyOf 0x1600 0x0A, keyOf 0x1400 8] s t) ∧
        (8388 < d → 4 ≤ r.pair → r.item = 64 → r.agreed = none →
          Completes (.equinoxMeasurement points) s (suspected r diff s)) ∧
        (8388 < d → 4 ≤ r.pair → r.item < 64 → Completes (.equinoxMeasurement points) s fun t =>
          t.entry (keyOf 0x1600 6) = 4 ∧ goesOn { r with diff := diff } [keyOf 0x1600 6] s t))) ∧
    (s.tokenFree Token.diagSlot = true →
      (r.aborted = some 4 → Completes .equinoxSwapOut s fun t => ended 4 r.pair 0 0 r s t ∧ changes r.item s t ∧
        SameMemory s t ∧ t.outputs = s.outputs ∧
        heats { s.hid.heat with run := none, waiting := t.hid.heat.waiting } s t) ∧
      (∀ cause, r.aborted = some cause → cause ≠ 4 → Completes .equinoxSwapOut s (aborted r cause s)) ∧
      (∀ c, r.aborted = none → s.entry (keyOf 0x1600 6) = 4 → r.agreed = some c →
        Completes .equinoxSwapOut s (calibrated r r.diff c s)) ∧
      (r.aborted = none → s.entry (keyOf 0x1600 6) = 4 → r.agreed = none →
        Completes .equinoxSwapOut s (suspected r r.diff s))) ∧
    (∀ cause, s.entry (keyOf 0x1600 6) = 3 → r.aborted = none → cause ≠ 0 → s.abortCause r = cause →
      (r.item < 64 → Completes (.equinoxAbort cause) s fun t => t.entry (keyOf 0x1600 6) = 4 ∧
        goesOn { r with aborted := some cause } [keyOf 0x1600 6] s t) ∧
      (64 ≤ r.item → Completes (.equinoxAbort cause) s (aborted r cause s)))) ∧
  (∀ (s : State) (d : Door), s.sound = true → s.shaped = true →
    let stored (t : State) : Prop := (1 ∈ t.hid.update.storeQueue ∨ t.hid.update.store.map (·.1) = some 1) ∧
      t.hid = { s.hid with
        almanac := t.hid.almanac
        heat := { s.hid.heat with waiting := t.hid.heat.waiting }
        update := { s.hid.update with store := t.hid.update.store, storeQueue := t.hid.update.storeQueue } }
    let set' : Nat × Nat := contentRange 0x1610 1 1120
    let names (items : List Nat) (t : State) : Prop := heats { s.hid.heat with
      commanded := items.foldl (fun l i => if l.contains i then l else l ++ [i]) s.hid.heat.commanded
      run := t.hid.heat.run
      waiting := t.hid.heat.waiting } s t ∧ (s.hid.heat.run ≠ none → t.hid.heat.run = s.hid.heat.run)
    (s.servesAt d = true →
      (Acts (.equinoxCalibrateItem d) d s.calibrateStatus (keyOf 0x1600 7 :: s.activityEntries) s
        (names [s.entry (keyOf 0x1600 4)])) ∧
      (Acts (.equinoxCalibrateAll d) d s.calibrateStatus (keyOf 0x1600 7 :: s.activityEntries) s (names s.items)) ∧
      (Acts (.calibrationStore (some d)) d s.storeStatus s.activityEntries s stored) ∧
      (Completes (.calibrationReload d) s fun t => Answered d Status.ok [] t ∧ SameBeside s t ∧
        (match newerSlot (s.calibrationSeq 0) (s.calibrationSeq 1) with
          | some i => t.entry (keyOf 0x1600 9) = 1 + i ∧
              (∀ a < 1120, t.byte (domainBase (keyOf 0x1610 1) + a) = s.byte (Space.flash.at (Flash.calibration i + a))) ∧
              (∀ a < 36, t.byte (domainBase (keyOf 0x1220 1) + a) = s.byte (Space.flash.at (Flash.calibration i + 1072 + a)))
          | none => t.entry (keyOf 0x1600 9) = 3 ∧ Output.event 419 0 ∈ t.outputs ∧ (∀ c < 65, (t.dac c).state = 0)) ∧
        (s.isTile = true → ∀ c < 64, bitAt (t.entry (keyOf 0x1600 8)) c = ((t.dac c).state == 2)) ∧
        SameMemoryOutside [set', contentRange 0x1220 1 36] s t ∧
        SameEntriesBut ([keyOf 0x1600 8, keyOf 0x1600 9] ++ doorMarks) s t) ∧
      (Completes (.suspectClear d) s fun t => Answered d Status.ok [] t ∧ SameBeside s t ∧ t.entry (keyOf 0x1600 8) = 0 ∧
        (∀ c < 65, t.dac c = { s.dac c with state := if (s.dac c).state = 2 then (if (s.dac c).count = 0 then 0 else 1)
          else (s.dac c).state }) ∧
        SameMemoryOutside [set'] s t ∧ SameEntriesBut (keyOf 0x1600 8 :: doorMarks) s t)) ∧
    (s.up .core = true → s.entry (keyOf 0x1600 5) ≠ 0 → bitAt (s.entry (keyOf 0x1600 9)) 7 = true →
      Completes (.calibrationStore none) s fun t => stored t ∧ t.outputs = s.outputs ∧ Only s.activityEntries s t))

/-- SESSION_OPEN by R461: refused with its status, or ERASING for its holder, with the delta state cleared and the declared
length in the pointer word. SESSION_ERASE_DONE leaves erased flash over the length and OPEN. SESSION_CHUNK: chunks are
buffered, and pages that are complete are programmed at their place while the session may use the flash; refused with its
status otherwise. SESSION_CLOSE: OK with the delta waiting when every chunk was written, else CONSISTENCY, once the
session may use the flash; SESSION_ABORT: CANCELLED; SESSION_IDLE_TIMEOUT: TIMEOUT at 30 s; each ends the session.
FIRMWARE_BLOCK takes the oldest block of its stream into the session or counts it, and leaves it waiting while master 10
is frozen. UPDATE_BROADCAST: BUSY in progress, RANGE or UNREACHABLE in its status, or the targets' sessions are asked for.
Nothing else changes. (R90, R454, R459, R461, R462, R463, R464, R466, R467, R480, R481) -/
def Obligations.UpdateSessionsRun : Prop :=
  let wrote (f : Pointer → Pointer) (s t : State) : Prop := ∃ copy < 2, (∀ i, s.pointerSlot = some i → copy = 1 - i) ∧
    t.flash (Flash.pointer copy) 32 =
      { f s.pointer with seq := if s.pointerSlot.isSome then (s.pointer.seq + 1) % 2 ^ 32 else 1 }.bytes
  let updates (u : UpdateState) (s t : State) : Prop := t.hid = { s.hid with
    almanac := t.hid.almanac
    update := u }
  let finished (result dstate : Nat) (s t : State) : Prop := t.session = 0 ∧ t.entry (keyOf 0x1500 3) = 0xF000 ∧
    t.entry (keyOf 0x1500 5) = result ∧ (s.pointer.dstate ≠ dstate → wrote (fun p => { p with dstate := dstate }) s t) ∧
    t.hid.update = { s.hid.update with buffer := [], written := [], programmed := [] }
  let sessionEntries : List Key := [keyOf 0x1500 2, keyOf 0x1500 3, keyOf 0x1500 5]
  let chunkEntries : List Key := [keyOf 0x1643 0x0B, keyOf 0x1644 1, keyOf 0x1400 8]
  let inOrder (s : State) : Prop := (s.hid.update.buffer.map (·.1)).Pairwise (· < ·) ∧ ∀ c ∈ s.hid.update.buffer, c.2.length = 64
  let takes (offset : Nat) (data : List Byte) (s t : State) : Prop :=
    let u := s.hid.update
    let cs := (chunksOf offset data).filter fun c => !u.programmed.contains c.1
    let held := cs.foldl (fun b c => insertKey b c.1 c.2) u.buffer
    let whole := ((held.filter (·.1 % 4 == 0)).map (·.1 / 4)).filter fun p =>
      (List.range 4).all fun i => (lookupKey held (4 * p + i)).isSome
    let pages := if t.sessionFlash then whole else []
    (∀ p ∈ pages, ∀ i < 4, ∀ bs ∈ lookupKey held (4 * p + i), t.flash (Flash.delta + 64 * (4 * p + i)) 64 = bs) ∧
    SameMemoryOutside (pages.map fun p => flashRange (Flash.delta + 256 * p) 256) s t ∧
    t.hid.update = { u with
      buffer := held.filter (fun c => !pages.contains (c.1 / 4))
      written := cs.foldl (fun w c => if w.contains c.1 then w else w ++ [c.1]) u.written
      programmed := u.programmed ++ pages.flatMap (fun p => (List.range 4).map (4 * p + ·))
      touched := s.uptime } ∧
    t.hid.budget = { s.hid.budget with
      bytes := if s.charging && hasMaster s.pers 10 then setAt s.hid.budget.bytes 10 (s.charged 10 data.length)
        else s.hid.budget.bytes
      cycles := t.hid.budget.cycles
      overran := t.hid.budget.overran
      flight := t.hid.budget.flight }
  (∀ (s : State) (d : Door), s.sound = true → s.shaped = true → s.servesAt d = true →
    let len := s.entry (keyOf 0x1500 4)
    (s.openStatus d ≠ Status.ok → Refused (.sessionOpen d) d (s.openStatus d) s) ∧
    (s.openStatus d = Status.ok → 128 ≤ len ∧ len ≤ 0x1800000 ∧ s.mode ∉ [Mode.shutdown, Mode.off] ∧
      Completes (.sessionOpen d) s fun t => Answered d Status.ok [] t ∧ t.session = 1 ∧ t.entry (keyOf 0x1500 3) = holderOf d ∧
        field (t.entry (keyOf 0x1500 0x13)) 31 16 = satAdd 16 (field (s.entry (keyOf 0x1500 0x13)) 31 16) 1 ∧
        wrote (fun p => { p with dstate := 0, tries := 0, reason := 0, dlen := len }) s t ∧
        updates { s.hid.update with dlen := len, buffer := [], written := [], programmed := [], touched := s.uptime } s t ∧
        SameMemoryOutside [bootSectors] s t ∧
        SameEntriesBut ([keyOf 0x1500 2, keyOf 0x1500 3, keyOf 0x1500 0x13] ++ doorMarks) s t) ∧
    (∀ (offset : Nat) (data : List Byte),
      let c := Instr.sessionChunk d offset data
      let st := s.chunkStatus (!s.notHolder d) offset data
      (data = [] ∨ chunkLimit d < data.length → Refused c d Status.length s) ∧
      (data ≠ [] → data.length ≤ chunkLimit d →
        (st ≠ Status.range → s.frozen 0 = true → Refused c d Status.frozen s) ∧
        (st ≠ Status.ok → st = Status.range ∨ s.frozen 0 = false → Refused c d st s) ∧
        (st = Status.ok → s.frozen 0 = false → inOrder s → Completes c s fun t => Answered d Status.ok [] t ∧
          takes offset data s t ∧ SameEntriesBut (chunkEntries ++ doorMarks) s t ∧
          t.hid = { s.hid with
            almanac := t.hid.almanac
            budget := t.hid.budget
            update := t.hid.update }))) ∧
    (s.holderStatus d ≠ Status.ok → Refused (.sessionClose d) d Status.busy s ∧ Refused (.sessionAbort d) d Status.busy s) ∧
    (s.holderStatus d = Status.ok →
      (Completes (.sessionAbort d) s fun t => Answered d Status.ok [] t ∧ finished Status.cancelled 0 s t ∧
        updates t.hid.update s t ∧ SameMemoryOutside [bootSectors] s t ∧ SameEntriesBut (sessionEntries ++ doorMarks) s t) ∧
      (s.sessionFlash = false → Acts (.sessionClose d) d Status.ok [keyOf 0x1500 2] s fun t => t.session = 3 ∧ SameBeside s t) ∧
      (s.sessionFlash = true → inOrder s →
        let u := s.hid.update
        let complete := (List.range (ceilDiv u.dlen 64)).all u.written.contains
        Completes (.sessionClose d) s fun t => Answered d Status.ok [] t ∧
          (if complete then finished Status.ok 1 s t else finished Status.consistency 0 s t) ∧ updates t.hid.update s t ∧
          (∀ c ∈ u.buffer, ∀ i < 4, t.flash (Flash.delta + 64 * (c.1 / 4 * 4 + i)) 64 =
            (lookupKey u.buffer (c.1 / 4 * 4 + i)).getD (List.replicate 64 0xFF)) ∧
          SameMemoryOutside (bootSectors :: u.buffer.map fun c => flashRange (Flash.delta + 256 * (c.1 / 4)) 256) s t ∧
          SameEntriesBut (sessionEntries ++ doorMarks) s t)) ∧
    (s.isSender = true →
      let a := s.entry (keyOf 0x1520 2)
      let n := s.entry (keyOf 0x1520 3)
      let range : Prop := 0x1A00000000 < a + n ∨ a % 256 ≠ 0 ∨ n < 128 ∨ 0x1800000 < n ∨ s.entry (keyOf 0x1520 4) < 192 ∨
        255 < s.entry (keyOf 0x1520 4);
      (s.entry (keyOf 0x1520 6) = 0xFF → Refused (.updateBroadcast d) d Status.busy s) ∧
      (s.entry (keyOf 0x1520 6) ≠ 0xFF → range → Acts (.updateBroadcast d) d Status.ok [keyOf 0x1520 6] s fun t =>
        t.entry (keyOf 0x1520 6) = Status.range ∧ SameBeside s t) ∧
      (s.entry (keyOf 0x1520 6) ≠ 0xFF → ¬ range → s.updateTargets = [] →
        Acts (.updateBroadcast d) d Status.ok [keyOf 0x1520 6] s fun t => t.entry (keyOf 0x1520 6) = Status.unreachable ∧
          SameBeside s t) ∧
      (s.entry (keyOf 0x1520 6) ≠ 0xFF → ¬ range → s.updateTargets ≠ [] →
        Acts (.updateBroadcast d) d Status.ok [keyOf 0x1520 6] s fun t => t.entry (keyOf 0x1520 6) = 0xFF ∧
          t.hid = { s.hid with
            almanac := t.hid.almanac
            ports := t.hid.ports
            doors := { s.hid.doors with
              requests := t.hid.doors.requests
              nextTag := t.hid.doors.nextTag
              cells := t.hid.doors.cells }
            update := { s.hid.update with
              targets := t.hid.update.targets
              refused := t.hid.update.refused
              ready := []
              stage := 1
              since := s.uptime
              sentTo := 0 } } ∧
          (s.hid.doors.requests.length + 2 * s.updateTargets.length ≤ 512 →
            t.hid.update.targets = s.updateTargets ∧ t.hid.update.refused = [] ∧
            ∀ x ∈ s.updateTargets, ∀ k ∈ [keyOf 0x1500 4, keyOf 0x1500 1], ∃ r ∈ t.hid.doors.requests,
              r.asker = .update ∧ r.target = x ∧ r.op = 2 ∧ r.key = k)))) ∧
  (∀ s : State, s.sound = true → s.shaped = true →
    (let n := ceilDiv s.hid.update.dlen 65536 * 65536;
      s.session = 1 → s.sessionFlash = true → Completes .sessionEraseDone s fun t => t.session = 2 ∧
        (∀ i < n, t.byte (Space.flash.at (Flash.delta + i)) = 0xFF) ∧ t.outputs = s.outputs ∧
        updates { s.hid.update with touched := s.uptime } s t ∧
        SameMemoryOutside [flashRange Flash.delta n] s t ∧ SameEntriesBut [keyOf 0x1500 2] s t) ∧
    (2 ≤ s.session → Completes .sessionIdleTimeout s fun t =>
      t.uptime = max s.uptime (s.hid.update.touched + 30 * 10 ^ 9) ∧ finished Status.timeout 0 s t ∧ t.outputs = s.outputs ∧
      t.hid = { s.hid with
        update := t.hid.update
        time := { s.hid.time with now := t.hid.time.now, cycles := t.hid.time.cycles, trimDone := t.hid.time.trimDone } } ∧
      SameMemoryOutside [bootSectors] s t ∧ SameEntriesBut sessionEntries s t) ∧
    (∀ stream, s.frozen 10 = true → exec (.firmwareBlock stream) s = .next s) ∧
    (∀ (stream : Nat) (m : Message) (rest : List Message), s.isTile = true → 192 ≤ stream → stream < 256 → s.frozen 10 = false →
      takeFirst (fun m => m.stream == stream) s.hid.compose.messages = some (m, rest) →
      let offset := natLE (slice m.bytes 4 4)
      let data := m.bytes.drop 16
      let good : Prop := natLE (m.bytes.take 4) = 0x4B4C4246 ∧ natLE (slice m.bytes 8 4) = data.length ∧ 64 ≤ data.length ∧
        data.length ≤ 16384 ∧ data.length % 64 = 0 ∧ natLE (slice m.bytes 12 4) = crc32 data ∧ s.session = 2 ∧
        s.chunkStatus (s.entry (keyOf 0x1500 3) == m.src) offset data = Status.ok;
      (¬ good → Completes (.firmwareBlock stream) s fun t =>
        t.hid = { s.hid with compose := { s.hid.compose with messages := rest } } ∧ t.outputs = s.outputs ∧
        field (t.entry (keyOf 0x1500 0x13)) 63 48 = satAdd 16 (field (s.entry (keyOf 0x1500 0x13)) 63 48) 1 ∧
        Only [keyOf 0x1500 0x13] s t) ∧
      (good → inOrder s → Completes (.firmwareBlock stream) s fun t => takes offset data s t ∧ t.outputs = s.outputs ∧
        t.hid = { s.hid with
          almanac := t.hid.almanac
          budget := t.hid.budget
          compose := { s.hid.compose with messages := rest }
          update := t.hid.update } ∧
        SameEntriesBut chunkEntries s t)))

/-- SETTINGS_SAVE asks for a store, with its answer by R421; SETTINGS_ERASE erases both slots in DARK or BRINGUP, else
UNAVAILABLE. STORE_COMPLETE: read back in agreement, the slot holds the image and nothing else, and the settings, the
calibration set or the lamp map show it; else the slot is erased, once to repeat it, and then an event, the failed count
and CONSISTENCY for the settings. CONSOLIDATION: in agreement, the other base slot holds the verified image and the
pointer word names it with no delta waiting; else the slot is erased, once to repeat it, and then FAILED with an event.
The FLASH token is freed at the end, and the next store that waits begins or waits for it. Nothing else changes. (R358,
R418, R419, R454, R459, R472, R474, R476, R478, R480) -/
def Obligations.StoresAndConsolidationRun : Prop :=
  let wrote (f : Pointer → Pointer) (s t : State) : Prop := ∃ copy < 2, (∀ i, s.pointerSlot = some i → copy = 1 - i) ∧
    t.flash (Flash.pointer copy) 32 =
      { f s.pointer with seq := if s.pointerSlot.isSome then (s.pointer.seq + 1) % 2 ^ 32 else 1 }.bytes
  let next (u : UpdateState) (allowed : Bool) (s t : State) : Prop :=
    t.hid = { s.hid with
      almanac := t.hid.almanac
      heat := { s.hid.heat with waiting := t.hid.heat.waiting }
      update := { u with store := t.hid.update.store, storeQueue := t.hid.update.storeQueue } } ∧
    match (if allowed then u.storeQueue else []) with
    | [] => t.hid.update = u ∧ t.hid.heat = s.hid.heat ∧ t.running Activity.store = false
    | k :: rest => t.hid.update = { u with store := some (k, 0), storeQueue := rest } ∧ t.running Activity.store = true ∨
        t.hid.update = u ∧ Activity.store ∈ t.hid.heat.waiting
  let slotRange (a kind : Nat) : Nat × Nat := flashRange a (storeRoom kind)
  (∀ (s : State) (d : Door), s.sound = true → s.shaped = true → s.servesAt d = true →
    (Acts (.settingsSave d) d s.storeStatus s.activityEntries s fun t =>
      (0 ∈ t.hid.update.storeQueue ∨ t.hid.update.store.map (·.1) = some 0) ∧
      t.hid = { s.hid with
        almanac := t.hid.almanac
        heat := { s.hid.heat with waiting := t.hid.heat.waiting }
        update := { s.hid.update with store := t.hid.update.store, storeQueue := t.hid.update.storeQueue } } ∧
      (0 ∉ s.hid.update.storeQueue → s.hid.update.store = none →
        t.entry (keyOf 0x1500 0x11) = if t.hid.update.store = some (0, 0) then Status.inProgress else Status.queued)) ∧
    (s.mode ∉ [Mode.dark, Mode.bringup] → Refused (.settingsErase d) d Status.unavailable s) ∧
    (s.mode ∈ [Mode.dark, Mode.bringup] → Completes (.settingsErase d) s fun t => Answered d Status.ok [] t ∧ SameBeside s t ∧
      (∀ i < 0x800000, t.byte (Space.flash.at (Flash.settings 0 + i)) = 0xFF) ∧
      SameMemoryOutside [flashRange (Flash.settings 0) 0x800000] s t ∧ SameEntriesBut doorMarks s t)) ∧
  (∀ (s : State) (kind tries : Nat), s.sound = true → s.shaped = true → s.frozen 9 = false → s.maintenance = true →
    s.hid.update.store = some (kind, tries) →
    let a := (s.storeImage kind).1
    let image := (s.storeImage kind).2
    let slot := (match kind with
      | 0 => storeTarget (s.settingsSeq 0) (s.settingsSeq 1)
      | 1 => storeTarget (s.calibrationSeq 0) (s.calibrationSeq 1)
      | _ => storeTarget (s.lampMapSeq 0) (s.lampMapSeq 1)).1
    let ends (t : State) : Prop := next { s.hid.update with store := none } s.storesAllowed s t
    let erased (t : State) : Prop := ∀ i < storeRoom kind, t.byte (Space.flash.at (a + i)) = 0xFF
    (image.length ≤ storeRoom kind → Completes (.storeComplete true) s fun t => ends t ∧ t.outputs = s.outputs ∧
      t.flash a image.length = image ∧
      (∀ i, image.length ≤ i → i < storeRoom kind → t.byte (Space.flash.at (a + i)) = 0xFF) ∧
      (kind = 0 → (0 ∉ s.hid.update.storeQueue → t.entry (keyOf 0x1500 0x11) = Status.ok) ∧
        bitAt (t.entry (keyOf 0x1500 0x0F)) 7 = false ∧ SameMemoryOutside [slotRange a kind] s t ∧
        SameEntriesBut (s.activityEntries ++ [keyOf 0x1500 0x0F]) s t) ∧
      (kind = 1 → t.entry (keyOf 0x1600 9) = 1 + slot ∧ t.content 0x1610 1 0 32 = image.take 32 ∧
        SameMemoryOutside [slotRange a kind, contentRange 0x1610 1 32] s t ∧
        SameEntriesBut (s.activityEntries ++ [keyOf 0x1600 9]) s t) ∧
      (2 ≤ kind → (s.isTile = true → t.entry (keyOf 0x5200 7) = 1 + slot) ∧ t.bytes (Space.lampMap.at 0) 64 = image.take 64 ∧
        SameMemoryOutside [slotRange a kind, (Space.lampMap.at 0, Space.lampMap.at 64)] s t ∧
        SameEntriesBut (s.activityEntries ++ [keyOf 0x5200 7]) s t)) ∧
    (tries = 0 → Completes (.storeComplete false) s fun t => erased t ∧ t.outputs = s.outputs ∧
      t.hid = { s.hid with update := { s.hid.update with store := some (kind, 1) } } ∧
      SameMemoryOutside [slotRange a kind] s t ∧ SameEntriesBut [] s t) ∧
    (tries ≠ 0 → Completes (.storeComplete false) s fun t => ends t ∧ erased t ∧ t.outputs = s.outputs ++ [.event 476 kind] ∧
      field (t.entry (keyOf 0x1500 0x13)) 15 0 = satAdd 16 (field (s.entry (keyOf 0x1500 0x13)) 15 0) 1 ∧
      (kind = 0 → 0 ∉ s.hid.update.storeQueue → t.entry (keyOf 0x1500 0x11) = Status.consistency) ∧
      SameMemoryOutside [slotRange a kind] s t ∧ SameEntriesBut (s.activityEntries ++ [keyOf 0x1500 0x13]) s t)) ∧
  (∀ s : State, s.sound = true → s.shaped = true → s.running Activity.consolidation = true → s.pointer.dstate = 2 →
    s.frozen 10 = false → s.maintenance = true →
    let slot := 1 - s.pointer.base
    let len := s.imageLength scratchImage
    let room : Nat × Nat := flashRange (Flash.base slot) 0x1800000
    let tokens : List Key := [keyOf 0x1500 0x0E, keyOf 0x1620 1, keyOf 0x1620 2]
    let erased (t : State) : Prop := (∀ i < len, t.byte (Space.flash.at (Flash.base slot + i)) = 0xFF) ∧
      SameMemoryOutside [room] s t
    len ≤ 0x1800000 →
    (Completes (.consolidation true) s fun t => t.flash (Flash.base slot) len = s.bytes scratchImage.address len ∧
      wrote (fun p => { p with base := slot, dstate := 0, tries := 0, reason := 0 }) s t ∧ t.entry (keyOf 0x1500 0x0E) = 0 ∧
      next { s.hid.update with consolidate := 0 } (s.hid.update.store.isNone && s.entry (keyOf 0x1101 4) == 1) s t ∧
      t.running Activity.consolidation = false ∧ t.outputs = s.outputs ∧
      SameMemoryOutside [bootSectors, room] s t ∧ SameEntriesBut s.activityEntries s t) ∧
    (s.hid.update.consolidate = 0 → Completes (.consolidation false) s fun t => t.entry (keyOf 0x1500 0x0E) = 2 ∧ erased t ∧
      t.hid = { s.hid with update := { s.hid.update with consolidate := 1 } } ∧ t.outputs = s.outputs ∧
      SameEntriesBut [keyOf 0x1500 0x0E] s t) ∧
    (s.hid.update.consolidate ≠ 0 → Completes (.consolidation false) s fun t => t.entry (keyOf 0x1500 0x0E) = 5 ∧ erased t ∧
      t.outputs = s.outputs ++ [.event 478 0] ∧ t.running Activity.consolidation = false ∧
      t.hid = { s.hid with update := { s.hid.update with consolidate := 0 } } ∧ SameEntriesBut tokens s t))

/-- ALMANAC_EVENT counts in its bin of the open page, and the bin's last count begins a close; during a close it counts in the
shadow; in a freeze or a full log it is lost and counted; disabled or not recording it does nothing. PAGE_CLOSE puts the
page with its reason into its slot and opens the next with the shadow folded in, or ends the log when the 2,048th is
closed. ALMANAC_FREEZE stops and starts, with LOSS shown on the page. ALMANAC_CLEAR empties the log and opens a page;
ALMANAC_CLOSE_PAGE begins a close. PERSIST_NOW, or PERSISTENCE_RUN at its interval, asks for a run; PERSISTENCE_RUN with
its token copies what waits into the recorder's sector and ends. Nothing else changes. (R483, R485, R487, R488, R489,
R490, R491, R493, R494, R495, R496, R497) -/
def Obligations.TheAlmanacRecords : Prop :=
  (∀ (s : State) (h b : Nat), s.sound = true → s.shaped = true → h < 8 → b < 8 →
    let a := s.hid.almanac
    let on : Prop := s.recording = true ∧ s.entry (keyOf 0x1400 1) ≠ 0 ∧ bitAt (s.entry (keyOf 0x1400 4)) h = true
    let full : Prop := s.entry (keyOf 0x1400 7) = 2048
    let frozen : Prop := s.entry (keyOf 0x1400 3) = 1 ∧ a.closing = none
    let lost (t : State) : Prop := t.entry (keyOf 0x1400 8) = satAdd 32 (s.entry (keyOf 0x1400 8)) 1 ∧ t.outputs = s.outputs ∧
      Only [keyOf 0x1400 8] s t
    let only (n : AlmanacState) (t : State) : Prop := t = { s with hid := { s.hid with almanac := n } };
    (¬ on → exec (.almanacEvent h b) s = .next s) ∧
    (on → full → Completes (.almanacEvent h b) s fun t => lost t ∧ t.hid = s.hid) ∧
    (on → ¬ full → frozen → Completes (.almanacEvent h b) s fun t => lost t ∧
      t.hid = { s.hid with almanac := { a with frozenLoss := true } }) ∧
    (∀ p, on → ¬ full → ¬ frozen → a.closing = none → a.page = some p → p.bins.length = 64 → p.bins.getD (8 * h + b) 0 < 0xFFFF →
      let n := p.bins.getD (8 * h + b) 0 + 1;
      Completes (.almanacEvent h b) s (only { a with
        page := some { p with bins := setAt p.bins (8 * h + b) n }, closing := if n = 0xFFFF then some 2 else none })) ∧
    (on → ¬ full → ¬ frozen → a.closing ≠ none ∨ a.page = none → a.shadow.getD (8 * h + b) 0 < 255 →
      Completes (.almanacEvent h b) s (only { a with
        shadow := setAt a.shadow (8 * h + b) (a.shadow.getD (8 * h + b) 0 + 1) })) ∧
    (on → ¬ full → ¬ frozen → a.closing ≠ none ∨ a.page = none → a.shadow.getD (8 * h + b) 0 = 255 →
      Completes (.almanacEvent h b) s fun t => lost t ∧ SameBeside s t ∧ t.hid.almanac.shadowLoss = true ∧
        t.hid.almanac.page = a.page ∧ t.hid.almanac.closing = a.closing)) ∧
  (∀ (s : State), s.sound = true → s.shaped = true →
    (s.hid.almanac.closing = none ∨ s.hid.almanac.page = none → exec .pageClose s = .next s) ∧
    (∀ r p n, s.hid.almanac.closing = some r → s.hid.almanac.page = some p → s.entry (keyOf 0x1400 7) = n → n < 2048 →
      (p.image r).length = 256 → Completes .pageClose s fun t =>
        t.bytes (Space.almanac.at (256 * n)) 256 = p.image r ∧ t.entry (keyOf 0x1400 7) = n + 1 ∧
        t.outputs = s.outputs ∧ SameBeside s t ∧ t.hid.almanac = { s.hid.almanac with
          page := t.hid.almanac.page
          closing := none
          shadow := List.replicate 64 0
          shadowExt := []
          shadowLoss := false } ∧
        (n + 1 < 2048 → (∃ q, t.hid.almanac.page = some q ∧ q.bins = s.hid.almanac.shadow ∧ q.ticks = 0 ∧
            q.interval = s.entry (keyOf 0x1400 2) ∧ q.loss = s.hid.almanac.shadowLoss ∧ q.gridless = !s.stepped ∧
            q.tick = (if s.stepped then s.tick % 2 ^ 48 else 2 ^ 48 - 1) ∧ t.entry (keyOf 0x1400 9) = q.tick) ∧
          SameEntriesBut [keyOf 0x1400 7, keyOf 0x1400 9] s t) ∧
        (n + 1 = 2048 → t.hid.almanac.page = none ∧ t.entry (keyOf 0x1400 8) = satAdd 32 (s.entry (keyOf 0x1400 8))
            (s.hid.almanac.shadow.foldl (· + ·) 0 + s.hid.almanac.shadowExt.length) ∧
          SameEntriesBut [keyOf 0x1400 7, keyOf 0x1400 8] s t) ∧
        SameMemoryOutside [(Space.almanac.at (256 * n), Space.almanac.at (256 * n + 256))] s t)) ∧
  (∀ (s : State) (d : Door), s.sound = true → s.shaped = true → s.servesAt d = true →
    let a := s.hid.almanac;
    (Acts (.almanacFreeze d true) d Status.ok [keyOf 0x1400 3] s fun t => t.entry (keyOf 0x1400 3) = 1 ∧ SameBeside s t) ∧
    (Acts (.almanacFreeze d false) d Status.ok [keyOf 0x1400 3] s fun t => t.entry (keyOf 0x1400 3) = 0 ∧ SameBeside s t ∧
      t.hid.almanac.frozenLoss = false ∧
      (∀ p, a.page = some p → ∃ q, t.hid.almanac.page = some q ∧ q.loss = (p.loss || a.frozenLoss))) ∧
    (s.mode ≠ 0 → Completes (.almanacClear d) s fun t => Answered d Status.ok [] t ∧ t.entry (keyOf 0x1400 7) = 0 ∧
      t.hid.almanac.persisted = 0 ∧ (∃ q, t.hid.almanac.page = some q ∧ q.ticks = 0) ∧
      (∀ i < 524288, t.byte (Space.almanac.at i) = State.reset.byte (Space.almanac.at i)) ∧ SameBeside s t ∧
      SameMemoryOutside [(Space.almanac.at 0, Space.almanac.at 524288)] s t ∧
      SameEntriesBut ([keyOf 0x1400 7, keyOf 0x1400 9] ++ doorMarks) s t) ∧
    (Acts (.almanacClosePage d) d Status.ok [] s fun t => SameBeside s t ∧
      (s.recording = true → s.entry (keyOf 0x1400 1) = 1 → s.entry (keyOf 0x1400 3) = 0 → a.page.isSome = true →
        a.closing = none → t.hid.almanac.closing = some 3)) ∧
    (Acts (.persistNow d) d (s.activityStatus Activity.persistence) (keyOf 0x1400 0x0C :: s.activityEntries) s fun t =>
      t.hid.almanac.queued = true ∧ t.entry (keyOf 0x1400 0x0C) = 1 ∧ t.hid = { s.hid with
        almanac := t.hid.almanac
        heat := { s.hid.heat with waiting := t.hid.heat.waiting } } ∧
      (t.running Activity.persistence = true ∨ Activity.persistence ∈ t.hid.heat.waiting))) ∧
  (∀ (s : State), s.sound = true → s.shaped = true → s.up .core = true → s.frozen 8 = false →
    let a := s.hid.almanac
    let k := s.pagesWaiting
    let held := s.running Activity.persistence
    let asks : Bool := !a.queued && s.entry (keyOf 0x1400 0x0A) != 0 && k != 0
    let runs : Bool := (a.queued || asks) && (held || (asks && s.canStart Activity.persistence))
    let heats (h : HeatState) (n : AlmanacState) (t : State) : Prop := t.hid = { s.hid with
      almanac := n
      heat := h }
    (asks = false → runs = false → exec .persistenceRun s = .next s) ∧
    (asks = true → runs = false → Completes .persistenceRun s fun t => t.entry (keyOf 0x1400 0x0C) = 1 ∧
      heats { s.hid.heat with waiting := t.hid.heat.waiting } { a with queued := true } t ∧
      Activity.persistence ∈ t.hid.heat.waiting ∧ t.outputs = s.outputs ∧ Only (keyOf 0x1400 0x0C :: s.activityEntries) s t) ∧
    (runs = true → Completes .persistenceRun s fun t =>
      heats { s.hid.heat with
          waiting := if held then s.hid.heat.waiting else s.hid.heat.waiting.filter (· != Activity.persistence) }
        { a with persisted := s.entry (keyOf 0x1400 7), queued := false } t ∧
      t.entry (keyOf 0x1400 0x0B) = satAdd 32 (s.entry (keyOf 0x1400 0x0B)) k ∧ t.entry (keyOf 0x1400 0x0C) = 0 ∧
      t.running Activity.persistence = false ∧ t.outputs = s.outputs ∧
      (∀ sector seq, let fill := s.recorderFill sector 255
        s.recorderBest true 128 = some (sector, seq) → fill + k ≤ 255 →
        (∀ j < k, s.word (Space.almanac.at (256 * (a.persisted + j)) + 6) 2 ≠ 0xFFFF) →
        ∀ j < k, t.flash (Flash.recorder sector + 256 * (1 + fill + j)) 256 =
          s.bytes (Space.almanac.at (256 * (a.persisted + j))) 256) ∧
      SameMemoryOutside [flashRange (Flash.recorder 0) 0x800000] s t ∧
      SameEntriesBut ([keyOf 0x1400 0x0B, keyOf 0x1400 0x0C] ++ s.activityEntries) s t))
end

