-- ==== Sys2Proof/Laws/State.lean ====
section
/-! SUPPORT. What each act does to each field of the state, what an effect does when it runs, and what the named changes of
the state beside the dictionary change: true by rfl, one lemma for each field and each update. -/

namespace Sys2Proof.Machine

/-! Acts. -/

section Acts
variable (s : State)

@[simp] theorem Act.reg_pending (k v : Nat) : ((Act.reg k v).apply s).pending = s.pending := rfl
@[simp] theorem Act.reg_outputs (k v : Nat) : ((Act.reg k v).apply s).outputs = s.outputs := rfl
@[simp] theorem Act.reg_strap (k v : Nat) : ((Act.reg k v).apply s).strap = s.strap := rfl
@[simp] theorem Act.reg_pers (k v : Nat) : ((Act.reg k v).apply s).pers = s.pers := rfl
@[simp] theorem Act.reg_regs (k v : Nat) : ((Act.reg k v).apply s).regs = setValue s.pers s.regs k v := rfl
@[simp] theorem Act.reg_mem (k v : Nat) : ((Act.reg k v).apply s).mem = s.mem := rfl
@[simp] theorem Act.reg_hid (k v : Nat) : ((Act.reg k v).apply s).hid = s.hid := rfl
@[simp] theorem Act.reg_free (k v : Nat) : ((Act.reg k v).apply s).free = s.free := rfl

@[simp] theorem Act.reset_pending (p : Personality) (ks : List Key) : ((Act.resetRegs p ks).apply s).pending = s.pending := rfl
@[simp] theorem Act.reset_outputs (p : Personality) (ks : List Key) : ((Act.resetRegs p ks).apply s).outputs = s.outputs := rfl
@[simp] theorem Act.reset_strap (p : Personality) (ks : List Key) : ((Act.resetRegs p ks).apply s).strap = s.strap := rfl
@[simp] theorem Act.reset_pers (p : Personality) (ks : List Key) : ((Act.resetRegs p ks).apply s).pers = p := rfl
@[simp] theorem Act.reset_regs (p : Personality) (ks : List Key) :
    ((Act.resetRegs p ks).apply s).regs = resetValues s.pers p ks s.regs := rfl
@[simp] theorem Act.reset_mem (p : Personality) (ks : List Key) : ((Act.resetRegs p ks).apply s).mem = s.mem := rfl
@[simp] theorem Act.reset_hid (p : Personality) (ks : List Key) : ((Act.resetRegs p ks).apply s).hid = s.hid := rfl
@[simp] theorem Act.reset_free (p : Personality) (ks : List Key) : ((Act.resetRegs p ks).apply s).free = s.free := rfl

@[simp] theorem Act.store_pending (a : Nat) (bs : List Byte) : ((Act.store a bs).apply s).pending = s.pending := rfl
@[simp] theorem Act.store_outputs (a : Nat) (bs : List Byte) : ((Act.store a bs).apply s).outputs = s.outputs := rfl
@[simp] theorem Act.store_strap (a : Nat) (bs : List Byte) : ((Act.store a bs).apply s).strap = s.strap := rfl
@[simp] theorem Act.store_pers (a : Nat) (bs : List Byte) : ((Act.store a bs).apply s).pers = s.pers := rfl
@[simp] theorem Act.store_regs (a : Nat) (bs : List Byte) : ((Act.store a bs).apply s).regs = s.regs := rfl
@[simp] theorem Act.store_mem (a : Nat) (bs : List Byte) : ((Act.store a bs).apply s).mem = memWrite s.mem a bs := rfl
@[simp] theorem Act.store_hid (a : Nat) (bs : List Byte) : ((Act.store a bs).apply s).hid = s.hid := rfl
@[simp] theorem Act.store_free (a : Nat) (bs : List Byte) : ((Act.store a bs).apply s).free = s.free := rfl

@[simp] theorem Act.erase_pending (lo hi : Nat) : ((Act.erase lo hi).apply s).pending = s.pending := rfl
@[simp] theorem Act.erase_outputs (lo hi : Nat) : ((Act.erase lo hi).apply s).outputs = s.outputs := rfl
@[simp] theorem Act.erase_strap (lo hi : Nat) : ((Act.erase lo hi).apply s).strap = s.strap := rfl
@[simp] theorem Act.erase_pers (lo hi : Nat) : ((Act.erase lo hi).apply s).pers = s.pers := rfl
@[simp] theorem Act.erase_regs (lo hi : Nat) : ((Act.erase lo hi).apply s).regs = s.regs := rfl
@[simp] theorem Act.erase_mem (lo hi : Nat) : ((Act.erase lo hi).apply s).mem = Sparse.clearRange lo hi s.mem := rfl
@[simp] theorem Act.erase_hid (lo hi : Nat) : ((Act.erase lo hi).apply s).hid = s.hid := rfl
@[simp] theorem Act.erase_free (lo hi : Nat) : ((Act.erase lo hi).apply s).free = s.free := rfl

@[simp] theorem Act.hid_pending (f : Hidden → Hidden) : ((Act.hid f).apply s).pending = s.pending := rfl
@[simp] theorem Act.hid_outputs (f : Hidden → Hidden) : ((Act.hid f).apply s).outputs = s.outputs := rfl
@[simp] theorem Act.hid_strap (f : Hidden → Hidden) : ((Act.hid f).apply s).strap = s.strap := rfl
@[simp] theorem Act.hid_pers (f : Hidden → Hidden) : ((Act.hid f).apply s).pers = s.pers := rfl
@[simp] theorem Act.hid_regs (f : Hidden → Hidden) : ((Act.hid f).apply s).regs = s.regs := rfl
@[simp] theorem Act.hid_mem (f : Hidden → Hidden) : ((Act.hid f).apply s).mem = s.mem := rfl
@[simp] theorem Act.hid_hid (f : Hidden → Hidden) : ((Act.hid f).apply s).hid = f s.hid := rfl
@[simp] theorem Act.hid_free (f : Hidden → Hidden) : ((Act.hid f).apply s).free = s.free := rfl

@[simp] theorem Act.out_pending (o : Output) : ((Act.out o).apply s).pending = s.pending := rfl
@[simp] theorem Act.out_outputs (o : Output) : ((Act.out o).apply s).outputs = s.outputs ++ [o] := rfl
@[simp] theorem Act.out_strap (o : Output) : ((Act.out o).apply s).strap = s.strap := rfl
@[simp] theorem Act.out_pers (o : Output) : ((Act.out o).apply s).pers = s.pers := rfl
@[simp] theorem Act.out_regs (o : Output) : ((Act.out o).apply s).regs = s.regs := rfl
@[simp] theorem Act.out_mem (o : Output) : ((Act.out o).apply s).mem = s.mem := rfl
@[simp] theorem Act.out_hid (o : Output) : ((Act.out o).apply s).hid = s.hid := rfl
@[simp] theorem Act.out_free (o : Output) : ((Act.out o).apply s).free = s.free := rfl

@[simp] theorem Act.fresh_pending : (Act.fresh.apply s).pending = s.pending := rfl
@[simp] theorem Act.fresh_outputs : (Act.fresh.apply s).outputs = s.outputs := rfl
@[simp] theorem Act.fresh_strap : (Act.fresh.apply s).strap = s.strap := rfl
@[simp] theorem Act.fresh_pers : (Act.fresh.apply s).pers = s.pers := rfl
@[simp] theorem Act.fresh_regs : (Act.fresh.apply s).regs = s.regs := rfl
@[simp] theorem Act.fresh_mem : (Act.fresh.apply s).mem = s.mem := rfl
@[simp] theorem Act.fresh_hid : (Act.fresh.apply s).hid = s.hid := rfl
@[simp] theorem Act.fresh_free : (Act.fresh.apply s).free = s.free + 1 := rfl

end Acts

/-! Effects. -/

section Effects
variable (s : State)

@[simp] theorem Effect.run_nothing : Effect.nothing.run s = s := rfl
@[simp] theorem Effect.run_act (a : Act) : (Effect.act a).run s = a.apply s := rfl
@[simp] theorem Effect.run_seq (a b : Effect) : (Effect.seq a b).run s = b.run (a.run s) := rfl
@[simp] theorem Effect.run_look (f : State → Effect) : (Effect.look f).run s = (f s).run s := rfl
@[simp] theorem Effect.run_all_nil : (Effect.all []).run s = s := rfl
@[simp] theorem Effect.run_all_cons (e : Effect) (es : List Effect) :
    (Effect.all (e :: es)).run s = (Effect.all es).run (e.run s) := by cases es <;> rfl
@[simp] theorem Effect.run_when_true (e : Effect) : (Effect.when true e).run s = e.run s := rfl
@[simp] theorem Effect.run_when_false (e : Effect) : (Effect.when false e).run s = s := rfl
theorem Effect.run_when (c : Bool) (e : Effect) : (Effect.when c e).run s = if c then e.run s else s := by cases c <;> rfl
theorem Effect.run_if (c : State → Bool) (a b : Effect) : (Effect.if' c a b).run s = if c s then a.run s else b.run s := by
  cases h : c s <;> simp [Effect.if', h]
@[simp] theorem Effect.run_each_nil {α : Type} (f : α → Effect) : (Effect.each f []).run s = s := rfl
@[simp] theorem Effect.run_each_cons {α : Type} (f : α → Effect) (x : α) (xs : List α) :
    (Effect.each f (x :: xs)).run s = (Effect.each f xs).run ((f x).run s) := rfl
@[simp] theorem Effect.run_ofOption_some {α : Type} (x : α) (f : α → Effect) (e : Effect) :
    (Effect.ofOption (some x) f e).run s = (f x).run s := rfl
@[simp] theorem Effect.run_ofOption_none {α : Type} (f : α → Effect) (e : Effect) :
    (Effect.ofOption none f e).run s = e.run s := rfl

/-- A command whose meaning is an effect always answers a next state. -/
@[simp] theorem perform_eq (e : Effect) : perform e s = .next (e.run s) := rfl

end Effects

/-! The named changes. -/

section Named
variable (s : State)

@[simp] theorem set_run (i sub v : Nat) : (set i sub v).run s = (Act.reg (keyOf i sub) v).apply s := rfl
@[simp] theorem setBy_run (i sub : Nat) (f : State → Nat) : (setBy i sub f).run s = (Act.reg (keyOf i sub) (f s)).apply s := rfl
@[simp] theorem emit_run (o : Output) : (emit o).run s = (Act.out o).apply s := rfl
@[simp] theorem raise_run (r x : Nat) : (raise r x).run s = (Act.out (.event r x)).apply s := rfl
@[simp] theorem storeAt_run (a : Nat) (bs : List Byte) : (storeAt a bs).run s = (Act.store a bs).apply s := rfl
@[simp] theorem eraseAt_run (a n : Nat) : (eraseAt a n).run s = (Act.erase a (a + n)).apply s := rfl
@[simp] theorem hidden_run (f : Hidden → Hidden) : (hidden f).run s = (Act.hid f).apply s := rfl

@[simp] theorem onCommit_run (f : CommitState → CommitState) :
    (onCommit f).run s = (Act.hid fun h => { h with commit := f h.commit }).apply s := rfl
@[simp] theorem onReset_run (f : ResetState → ResetState) :
    (onReset f).run s = (Act.hid fun h => { h with reset := f h.reset }).apply s := rfl
@[simp] theorem onMode_run (f : ModeState → ModeState) :
    (onMode f).run s = (Act.hid fun h => { h with mode := f h.mode }).apply s := rfl
@[simp] theorem onTime_run (f : TimeState → TimeState) :
    (onTime f).run s = (Act.hid fun h => { h with time := f h.time }).apply s := rfl
@[simp] theorem onLink_run (f : LinkState → LinkState) :
    (onLink f).run s = (Act.hid fun h => { h with link := f h.link }).apply s := rfl
@[simp] theorem onDoors_run (f : DoorState → DoorState) :
    (onDoors f).run s = (Act.hid fun h => { h with doors := f h.doors }).apply s := rfl
@[simp] theorem onBudget_run (f : BudgetState → BudgetState) :
    (onBudget f).run s = (Act.hid fun h => { h with budget := f h.budget }).apply s := rfl
@[simp] theorem onPair_run (f : PairState → PairState) :
    (onPair f).run s = (Act.hid fun h => { h with pair := f h.pair }).apply s := rfl
@[simp] theorem onCounts_run (f : TickCounts → TickCounts) :
    (onCounts f).run s = (Act.hid fun h => { h with counts := f h.counts }).apply s := rfl
@[simp] theorem onAlmanac_run (f : AlmanacState → AlmanacState) :
    (onAlmanac f).run s = (Act.hid fun h => { h with almanac := f h.almanac }).apply s := rfl
@[simp] theorem onIngest_run (f : IngestState → IngestState) :
    (onIngest f).run s = (Act.hid fun h => { h with ingest := f h.ingest }).apply s := rfl
@[simp] theorem onCompose_run (f : ComposeState → ComposeState) :
    (onCompose f).run s = (Act.hid fun h => { h with compose := f h.compose }).apply s := rfl
@[simp] theorem onColour_run (f : ColourState → ColourState) :
    (onColour f).run s = (Act.hid fun h => { h with colour := f h.colour }).apply s := rfl
@[simp] theorem onScan_run (f : ScanState → ScanState) :
    (onScan f).run s = (Act.hid fun h => { h with scan := f h.scan }).apply s := rfl
@[simp] theorem onMemory_run (f : MemoryState → MemoryState) :
    (onMemory f).run s = (Act.hid fun h => { h with memory := f h.memory }).apply s := rfl
@[simp] theorem onHeat_run (f : HeatState → HeatState) :
    (onHeat f).run s = (Act.hid fun h => { h with heat := f h.heat }).apply s := rfl
@[simp] theorem onUpdate_run (f : UpdateState → UpdateState) :
    (onUpdate f).run s = (Act.hid fun h => { h with update := f h.update }).apply s := rfl
@[simp] theorem onPort_run (p : Nat) (f : PortState → PortState) :
    (onPort p f).run s = (Act.hid fun h => { h with ports := updateAt h.ports p f }).apply s := rfl

end Named

end Sys2Proof.Machine
end

