-- ==== Sys2Proof/Laws/Sparse.lean ====
section
/-! SUPPORT. What the operations of a sparse store do: they keep its canonical form, a read after a write to the same key
gives the value written, and every other key reads as before. -/

namespace Sys2Proof.Machine.Sparse

variable {β : Type} [DecidableEq β] {d : Nat → β}

theorem wfFrom_mono {lo lo' : Nat} (h : lo' ≤ lo) : ∀ {m : List (Nat × β)}, wfFrom d lo m = true → wfFrom d lo' m = true
  | [], _ => rfl
  | (k, v) :: r, hw => by
    simp only [wfFrom, Bool.and_eq_true, decide_eq_true_eq] at hw ⊢
    exact ⟨⟨by omega, hw.1.2⟩, hw.2⟩

/-- A key below every key of the list is unlisted. -/
theorem get_below {lo q : Nat} (h : q < lo) : ∀ {m : List (Nat × β)}, wfFrom d lo m = true → get d m q = d q
  | [], _ => rfl
  | (k, v) :: r, hw => by
    simp only [wfFrom, Bool.and_eq_true, decide_eq_true_eq] at hw
    simp [get, show q ≠ k by omega, show q < k by omega]

theorem put_wfFrom {lo q : Nat} {v : β} (h : lo ≤ q) :
    ∀ {m : List (Nat × β)}, wfFrom d lo m = true → wfFrom d lo (put d m q v) = true
  | [], _ => by
    by_cases hv : v = d q <;> simp [put, hv, wfFrom, h]
  | (k, w) :: r, hw => by
    simp only [wfFrom, Bool.and_eq_true, decide_eq_true_eq] at hw
    rcases Nat.lt_trichotomy q k with h1 | h1 | h1
    · by_cases hv : v = d q <;> simp [put, h1, hv, wfFrom, h, hw.1.1, hw.1.2, hw.2, show q + 1 ≤ k by omega]
    · subst h1
      by_cases hv : v = d q
      · simpa [put, hv] using wfFrom_mono (by omega) hw.2
      · simp [put, hv, wfFrom, h, hw.2]
    · have := put_wfFrom (q := q) (v := v) (lo := k + 1) (by omega) hw.2
      simp [put, show ¬ q < k by omega, show ¬ q = k by omega, wfFrom, hw.1.1, hw.1.2, this]

/-- A write keeps the canonical form. -/
theorem put_wf {m : List (Nat × β)} (q : Nat) (v : β) (h : wf d m = true) : wf d (put d m q v) = true :=
  put_wfFrom (Nat.zero_le q) h

theorem get_putFrom {lo q x : Nat} {v : β} :
    ∀ {m : List (Nat × β)}, wfFrom d lo m = true → get d (put d m q v) x = if x = q then v else get d m x
  | [], _ => by
    by_cases hv : v = d q <;> by_cases hx : x = q <;> simp_all [put, get]
  | (k, w) :: r, hw => by
    simp only [wfFrom, Bool.and_eq_true, decide_eq_true_eq] at hw
    have below : ∀ y, y ≤ k → get d r y = d y := fun y hy => get_below (by omega) hw.2
    rcases Nat.lt_trichotomy q k with h1 | h1 | h1
    · by_cases hv : v = d q
      · by_cases hx : x = q
        · subst hx; simp [put, h1, hv, get, show ¬ x = k by omega]
        · simp [put, h1, hv, hx]
      · by_cases hx : x = q
        · subst hx; simp [put, h1, hv, get]
        · by_cases hlt : x < q
          · simp [put, h1, hv, get, hx, hlt, show ¬ x = k by omega, show x < k by omega]
          · simp [put, h1, hv, get, hx, hlt]
    · subst h1
      by_cases hv : v = d q
      · by_cases hx : x = q
        · subst hx; simp [put, hv, below x (le_refl x)]
        · by_cases hlt : x < q
          · simp [put, hv, hx, get, hlt, below x (by omega)]
          · simp [put, hv, hx, get, hlt]
      · by_cases hx : x = q <;> simp [put, hv, hx, get]
    · have ih := get_putFrom (q := q) (x := x) (v := v) hw.2
      by_cases hxk : x = k
      · subst hxk; simp [put, show ¬ q < x by omega, show ¬ q = x by omega, get, show ¬ x = q by omega]
      · by_cases hlt : x < k
        · simp [put, show ¬ q < k by omega, show ¬ q = k by omega, get, hxk, hlt, show ¬ x = q by omega]
        · simp [put, show ¬ q < k by omega, show ¬ q = k by omega, get, hxk, hlt, ih]

/-- A read after a write: the value written at its key, and what was there before at every other key. -/
theorem get_put {m : List (Nat × β)} {q x : Nat} {v : β} (h : wf d m = true) :
    get d (put d m q v) x = if x = q then v else get d m x := get_putFrom h

theorem clearRange_wfFrom {lo hi a : Nat} :
    ∀ {m : List (Nat × β)}, wfFrom d a m = true → wfFrom d a (clearRange lo hi m) = true
  | [], _ => rfl
  | (k, v) :: r, hw => by
    simp only [wfFrom, Bool.and_eq_true, decide_eq_true_eq] at hw
    have ih := clearRange_wfFrom (lo := lo) (hi := hi) hw.2
    by_cases hk : k < lo ∨ hi ≤ k
    · have : clearRange lo hi ((k, v) :: r) = (k, v) :: clearRange lo hi r := by simp [clearRange, hk]
      simp [this, wfFrom, hw.1.1, hw.1.2, ih]
    · have : clearRange lo hi ((k, v) :: r) = clearRange lo hi r := by simp [clearRange, hk]
      rw [this]; exact wfFrom_mono (by omega) ih

/-- Erasing a range keeps the canonical form. -/
theorem clearRange_wf {m : List (Nat × β)} (lo hi : Nat) (h : wf d m = true) : wf d (clearRange lo hi m) = true :=
  clearRange_wfFrom h

theorem get_clearRangeFrom {lo hi a x : Nat} :
    ∀ {m : List (Nat × β)}, wfFrom d a m = true →
      get d (clearRange lo hi m) x = if lo ≤ x ∧ x < hi then d x else get d m x
  | [], _ => by simp [clearRange, get]
  | (k, v) :: r, hw => by
    simp only [wfFrom, Bool.and_eq_true, decide_eq_true_eq] at hw
    have ih := get_clearRangeFrom (lo := lo) (hi := hi) (x := x) hw.2
    by_cases hk : k < lo ∨ hi ≤ k
    · have e : clearRange lo hi ((k, v) :: r) = (k, v) :: clearRange lo hi r := by simp [clearRange, hk]
      rw [e]
      by_cases hx : x = k
      · subst hx; simp [get, show ¬ (lo ≤ x ∧ x < hi) by omega]
      · by_cases hlt : x < k
        · simp [get, hx, hlt]
        · simp [get, hx, hlt, ih]
    · have e : clearRange lo hi ((k, v) :: r) = clearRange lo hi r := by simp [clearRange, hk]
      rw [e, ih]
      by_cases hx : x = k
      · subst hx; simp [show lo ≤ x ∧ x < hi by omega]
      · by_cases hlt : x < k
        · simp [get, hx, hlt, get_below (show x < k + 1 by omega) hw.2]
        · simp [get, hx, hlt]

/-- A read after erasing a range: what an unlisted key reads as inside it, and what was there before outside it. -/
theorem get_clearRange {m : List (Nat × β)} {lo hi x : Nat} (h : wf d m = true) :
    get d (clearRange lo hi m) x = if lo ≤ x ∧ x < hi then d x else get d m x := get_clearRangeFrom h

/-- Writing consecutive keys keeps the canonical form. -/
theorem putAll_wf : ∀ (vs : List β) {m : List (Nat × β)} (q : Nat), wf d m = true → wf d (putAll d m q vs) = true
  | [], _, _, h => h
  | v :: vs, _, q, h => putAll_wf vs (q + 1) (put_wf q v h)

/-- A read after writing consecutive keys. -/
theorem get_putAll {x : Nat} : ∀ (vs : List β) {m : List (Nat × β)} (q : Nat), wf d m = true →
    get d (putAll d m q vs) x = if h : q ≤ x ∧ x < q + vs.length then vs[x - q]'(by omega) else get d m x
  | [], m, q, _ => by simp [putAll, show ¬ (q ≤ x ∧ x < q) by omega]
  | v :: vs, m, q, h => by
    rw [putAll, get_putAll vs (q + 1) (put_wf q v h), get_put h]
    by_cases h1 : x = q
    · subst h1; simp
    · by_cases h2 : q + 1 ≤ x ∧ x < q + 1 + vs.length
      · have h3 : q ≤ x ∧ x < q + (v :: vs).length := by simp only [List.length_cons]; omega
        obtain ⟨j, rfl⟩ : ∃ j, x = q + 1 + j := ⟨x - (q + 1), by omega⟩
        rw [dif_pos h2, dif_pos h3]
        simp [show q + 1 + j - q = j + 1 by omega]
      · have h3 : ¬ (q ≤ x ∧ x < q + (v :: vs).length) := by simp only [List.length_cons]; omega
        rw [dif_neg h2, dif_neg h3, if_neg h1]

omit [DecidableEq β] in
@[simp] theorem getAll_length (m : List (Nat × β)) (q n : Nat) : (getAll d m q n).length = n := by simp [getAll]

end Sys2Proof.Machine.Sparse
end

