-- ==== Sys2Proof/Laws/Values.lean ====
section
/-! SUPPORT. What setting an entry does to the dictionary values, what writing does to memory, and that both keep their
canonical forms. -/

namespace Sys2Proof.Machine

/-! Entries. -/

theorem defaultOf_lt {p : Personality} {k : Key} {row : Row} (h : rowAt p k = some row) :
    defaultOf p k < 2 ^ row.ty.width := by
  unfold rowAt rowsOf at h
  unfold defaultOf
  cases hb : blockOf p (k / 256) with
  | none => simp [hb] at h
  | some b =>
    simp only [hb] at h ⊢
    split at h
    · rename_i rows he
      split at he
      · cases he
        rw [h]
        exact Nat.mod_lt _ (by positivity)
      · cases he
    · cases h

theorem Values.wf_nil (p : Personality) : Values.wf p [] = true := rfl

theorem Values.wf_sparse {p : Personality} {r : Values} (h : Values.wf p r = true) : Sparse.wf (defaultOf p) r = true := by
  simp only [Values.wf, Bool.and_eq_true] at h; exact h.1

/-- Which pairs a put can list: the one put, and those that were there. -/
theorem Sparse.mem_put {d : Nat → Nat} {c : Nat × Nat} : ∀ {m : List (Nat × Nat)} {q v : Nat},
    c ∈ Sparse.put d m q v → c = (q, v) ∨ c ∈ m
  | [], q, v, h => by
    by_cases hv : v = d q <;> simp_all [Sparse.put]
  | (k, w) :: r, q, v, h => by
    rw [Sparse.put] at h
    split at h
    · split at h
      · exact .inr h
      · rcases List.mem_cons.mp h with h | h
        · exact .inl h
        · exact .inr h
    · split at h
      · split at h
        · exact .inr (List.mem_cons_of_mem _ h)
        · rcases List.mem_cons.mp h with h | h
          · exact .inl h
          · exact .inr (List.mem_cons_of_mem _ h)
      · rcases List.mem_cons.mp h with h | h
        · exact .inr (h ▸ List.mem_cons_self)
        · rcases Sparse.mem_put h with h | h
          · exact .inl h
          · exact .inr (List.mem_cons_of_mem _ h)

/-- Setting an entry keeps the values canonical. -/
theorem setValue_wf {p : Personality} {r : Values} (k v : Nat) (h : Values.wf p r = true) :
    Values.wf p (setValue p r k v) = true := by
  unfold setValue
  split
  · rename_i row hrow
    split
    · exact h
    · rename_i hk
      have h' := h
      simp only [Values.wf, Bool.and_eq_true, List.all_eq_true] at h' ⊢
      refine ⟨Sparse.put_wf k _ h'.1, fun c hc => ?_⟩
      rcases Sparse.mem_put hc with rfl | hc
      · simp only [hrow]
        have : v % 2 ^ row.ty.width < 2 ^ row.ty.width := Nat.mod_lt _ (by positivity)
        simp [hk, this]
      · exact h'.2 c hc
  · exact h

/-- An entry set reads as the value, cut to its width. -/
theorem valueOf_setValue_self {p : Personality} {r : Values} {k v : Nat} {row : Row} (h : Values.wf p r = true)
    (hr : rowAt p k = some row) (hc : row.acc ≠ .konst) : valueOf p (setValue p r k v) k = v % 2 ^ row.ty.width := by
  simp [setValue, hr, hc, valueOf, Sparse.get_put (Values.wf_sparse h)]

/-- Every other entry reads as before. -/
theorem valueOf_setValue_of_ne {p : Personality} {r : Values} {k q v : Nat} (h : Values.wf p r = true) (hq : q ≠ k) :
    valueOf p (setValue p r k v) q = valueOf p r q := by
  unfold setValue
  split
  · split
    · rfl
    · simp [valueOf, Sparse.get_put (Values.wf_sparse h), hq]
  · rfl

theorem Sparse.get_mem {d : Nat → Nat} {k : Nat} : ∀ {m : List (Nat × Nat)},
    Sparse.get d m k = d k ∨ (k, Sparse.get d m k) ∈ m
  | [] => .inl rfl
  | (q, v) :: r => by
    rw [Sparse.get]
    split
    · rename_i h; subst h; exact .inr List.mem_cons_self
    · split
      · exact .inl rfl
      · rcases Sparse.get_mem (m := r) (k := k) (d := d) with h | h
        · exact .inl h
        · exact .inr (List.mem_cons_of_mem _ h)

/-- Every entry holds a value of its width. -/
theorem valueOf_lt {p : Personality} {r : Values} {k : Key} {row : Row} (h : Values.wf p r = true)
    (hr : rowAt p k = some row) : valueOf p r k < 2 ^ row.ty.width := by
  unfold valueOf
  rcases Sparse.get_mem (d := defaultOf p) (m := r) (k := k) with e | e
  · rw [e]; exact defaultOf_lt hr
  · simp only [Values.wf, Bool.and_eq_true, List.all_eq_true] at h
    have := h.2 _ e
    rw [hr] at this
    simp at this
    exact this.2

/-- A CONST entry, and an entry that does not exist, read as their defaults. -/
theorem valueOf_fixed {p : Personality} {r : Values} {k : Key} (h : Values.wf p r = true)
    (hr : ∀ row, rowAt p k = some row → row.acc = .konst) : valueOf p r k = defaultOf p k := by
  unfold valueOf
  rcases Sparse.get_mem (d := defaultOf p) (m := r) (k := k) with e | e
  · exact e
  · simp only [Values.wf, Bool.and_eq_true, List.all_eq_true] at h
    have := h.2 _ e
    cases hrow : rowAt p k with
    | none => simp [hrow] at this
    | some row => simp [hrow, hr row hrow] at this

/-- A reset leaves canonical values. -/
theorem resetValues_wf (p q : Personality) (ks : List Key) (r : Values) : Values.wf q (resetValues p q ks r) = true := by
  unfold resetValues
  suffices ∀ acc, Values.wf q acc = true → Values.wf q (ks.foldl (fun acc k => setValue q acc k (valueOf p r k)) acc) = true from
    this [] (Values.wf_nil q)
  induction ks with
  | nil => exact fun _ h => h
  | cons k ks ih => exact fun acc h => ih _ (setValue_wf k _ h)

/-! Memory. -/

/-- A write keeps the canonical form of memory. -/
theorem memWrite_wf {m : List Host.Cell} (a : Nat) (bs : List Byte) (h : Memory.wf m = true) :
    Memory.wf (memWrite m a bs) = true := Sparse.putAll_wf bs a h

/-- An erase keeps the canonical form of memory. -/
theorem memErase_wf {m : List Host.Cell} (lo hi : Nat) (h : Memory.wf m = true) :
    Memory.wf (Sparse.clearRange lo hi m) = true := Sparse.clearRange_wf lo hi h

/-- A byte read after a write: the byte written, or what was there. -/
theorem memGet_memWrite {m : List Host.Cell} {a x : Nat} {bs : List Byte} (h : Memory.wf m = true) :
    memGet (memWrite m a bs) x = if h' : a ≤ x ∧ x < a + bs.length then bs[x - a]'(by omega) else memGet m x :=
  Sparse.get_putAll bs a h

/-- A byte read after an erase. -/
theorem memGet_memErase {m : List Host.Cell} {lo hi x : Nat} (h : Memory.wf m = true) :
    memGet (Sparse.clearRange lo hi m) x = if lo ≤ x ∧ x < hi then memDefault x else memGet m x :=
  Sparse.get_clearRange h

/-- Bytes read where bytes were written are those bytes. -/
theorem memRead_memWrite {m : List Host.Cell} {a : Nat} {bs : List Byte} (h : Memory.wf m = true) :
    memRead (memWrite m a bs) a bs.length = bs := by
  apply List.ext_getElem
  · simp [memRead]
  · intro i h1 h2
    have := memGet_memWrite (m := m) (a := a) (x := a + i) (bs := bs) h
    simp only [memRead, Sparse.getAll, List.getElem_map, List.getElem_range]
    rw [show Sparse.get memDefault (memWrite m a bs) (a + i) = memGet (memWrite m a bs) (a + i) from rfl, this]
    simp [h2]

/-! The invariant, act by act. -/

theorem State.sound_iff (s : State) : s.sound = true ↔ Memory.wf s.mem = true ∧ Values.wf s.pers s.regs = true := by
  simp [State.sound]

/-- One act keeps a state sound. -/
theorem Act.keeps_sound (a : Act) (s : State) (h : s.sound = true) : (a.apply s).sound = true := by
  rw [State.sound_iff] at h ⊢
  cases a with
  | reg k v => exact ⟨h.1, setValue_wf k v h.2⟩
  | resetRegs p ks => exact ⟨h.1, resetValues_wf _ _ _ _⟩
  | store a bs => exact ⟨memWrite_wf a bs h.1, h.2⟩
  | erase lo hi => exact ⟨memErase_wf lo hi h.1, h.2⟩
  | hid f => exact h
  | out o => exact h
  | fresh => exact h

/-- What every act keeps, every effect keeps. -/
theorem Effect.run_keeps {P : State → Prop} (hP : ∀ a s, P s → P (Act.apply a s)) : ∀ (e : Effect) (s : State),
    P s → P (e.run s)
  | .nothing, _, h => h
  | .act a, s, h => hP a s h
  | .seq a b, s, h => Effect.run_keeps hP b _ (Effect.run_keeps hP a s h)
  | .look f, s, h => Effect.run_keeps hP (f s) s h

/-- An effect keeps a state sound. -/
theorem Effect.run_sound (e : Effect) {s : State} (h : s.sound = true) : (e.run s).sound = true :=
  Effect.run_keeps (P := fun s => s.sound = true) Act.keeps_sound e s h

/-- An effect leaves the queue of waiting commands and the strap alone. -/
theorem Effect.run_pending (e : Effect) (s : State) : (e.run s).pending = s.pending :=
  Effect.run_keeps (P := fun t => t.pending = s.pending) (fun a t h => by cases a <;> exact h) e s rfl

theorem Effect.run_strap (e : Effect) (s : State) : (e.run s).strap = s.strap :=
  Effect.run_keeps (P := fun t => t.strap = s.strap) (fun a t h => by cases a <;> exact h) e s rfl

/-- What has gone out stays on record. -/
theorem Effect.run_outputs (e : Effect) (s : State) : s.outputs <+: (e.run s).outputs :=
  Effect.run_keeps (P := fun t => s.outputs <+: t.outputs)
    (fun a t h => by cases a <;> first | exact h | exact h.trans (List.prefix_append _ _)) e s (List.prefix_refl _)

end Sys2Proof.Machine
end

