-- ==== Sys2Proof/Laws/Frame.lean ====
section
/-! SUPPORT. Footprints: which entries an effect may write, and whether it touches memory, said of the effect once, with what
follows for the state after it. -/

namespace Sys2Proof.Machine

/-- Every entry that an effect writes satisfies K, and it resets none. -/
def Effect.Writes (K : Key → Prop) : Effect → Prop
  | .nothing => True
  | .act (.reg k _) => K k
  | .act (.resetRegs _ _) => False
  | .act _ => True
  | .seq a b => a.Writes K ∧ b.Writes K
  | .look f => ∀ s, (f s).Writes K

/-- An effect neither stores nor erases. -/
def Effect.NoStore : Effect → Prop
  | .nothing => True
  | .act (.store _ _) => False
  | .act (.erase _ _) => False
  | .act _ => True
  | .seq a b => a.NoStore ∧ b.NoStore
  | .look f => ∀ s, (f s).NoStore

/-- Every change that an effect makes beside the dictionary, memory and the record of what has gone out is one of a
relation. -/
def Effect.Beside (R : Hidden → Hidden → Prop) : Effect → Prop
  | .nothing => True
  | .act (.hid f) => ∀ h, R h (f h)
  | .act _ => True
  | .seq a b => a.Beside R ∧ b.Beside R
  | .look f => ∀ s, (f s).Beside R

section
variable {K : Key → Prop}

/-- An effect keeps the personality and every entry that it does not write. -/
theorem Effect.Writes.keeps {q : Key} (hq : ¬ K q) : ∀ {e : Effect} {s : State}, e.Writes K → s.sound = true →
    (e.run s).pers = s.pers ∧ (e.run s).entry q = s.entry q
  | .nothing, _, _, _ => ⟨rfl, rfl⟩
  | .act (.reg k v), s, h, hs => by
    refine ⟨rfl, valueOf_setValue_of_ne (((State.sound_iff s).mp hs).2) ?_⟩
    rintro rfl; exact hq h
  | .act (.resetRegs _ _), _, h, _ => h.elim
  | .act (.store _ _), _, _, _ => ⟨rfl, rfl⟩
  | .act (.erase _ _), _, _, _ => ⟨rfl, rfl⟩
  | .act (.hid _), _, _, _ => ⟨rfl, rfl⟩
  | .act (.out _), _, _, _ => ⟨rfl, rfl⟩
  | .act .fresh, _, _, _ => ⟨rfl, rfl⟩
  | .seq a b, s, h, hs => by
    have ha := Effect.Writes.keeps hq h.1 hs
    have hb := Effect.Writes.keeps hq h.2 (a.run_sound hs)
    exact ⟨hb.1.trans ha.1, hb.2.trans ha.2⟩
  | .look f, s, h, hs => Effect.Writes.keeps (e := f s) hq (h s) hs

/-- An effect that writes no entry at all, or only those of K, keeps the personality. -/
theorem Effect.Writes.pers : ∀ {e : Effect} {s : State}, e.Writes K → (e.run s).pers = s.pers
  | .nothing, _, _ => rfl
  | .act (.reg _ _), _, _ => rfl
  | .act (.resetRegs _ _), _, h => h.elim
  | .act (.store _ _), _, _ => rfl
  | .act (.erase _ _), _, _ => rfl
  | .act (.hid _), _, _ => rfl
  | .act (.out _), _, _ => rfl
  | .act .fresh, _, _ => rfl
  | .seq _ _, _, h => (Effect.Writes.pers h.2).trans (Effect.Writes.pers h.1)
  | .look f, s, h => Effect.Writes.pers (e := f s) (h s)

/-- The footprint as a frame. -/
theorem Effect.Writes.frame {ks : List Key} {e : Effect} {s : State} (h : e.Writes (· ∈ ks)) (hs : s.sound = true) :
    SameEntriesBut ks s (e.run s) := ⟨h.pers, fun _ hk => (h.keeps hk hs).2⟩

/-- An effect that does not store leaves memory as it is. -/
theorem Effect.NoStore.mem : ∀ {e : Effect} {s : State}, e.NoStore → (e.run s).mem = s.mem
  | .nothing, _, _ => rfl
  | .act (.reg _ _), _, _ => rfl
  | .act (.resetRegs _ _), _, _ => rfl
  | .act (.store _ _), _, h => h.elim
  | .act (.erase _ _), _, h => h.elim
  | .act (.hid _), _, _ => rfl
  | .act (.out _), _, _ => rfl
  | .act .fresh, _, _ => rfl
  | .seq _ _, _, h => (Effect.NoStore.mem h.2).trans (Effect.NoStore.mem h.1)
  | .look f, s, h => Effect.NoStore.mem (e := f s) (h s)

theorem Effect.NoStore.frame {e : Effect} {s : State} (h : e.NoStore) : SameMemory s (e.run s) := fun a => by
  simp [State.byte, h.mem]

/-- What stands beside the dictionary after an effect is related to what stood there before. -/
theorem Effect.Beside.hid {R : Hidden → Hidden → Prop} (hr : ∀ h, R h h) (ht : ∀ {a b c}, R a b → R b c → R a c) :
    ∀ {e : Effect} {s : State}, e.Beside R → R s.hid (e.run s).hid
  | .nothing, _, _ => hr _
  | .act (.reg _ _), _, _ => hr _
  | .act (.resetRegs _ _), _, _ => hr _
  | .act (.store _ _), _, _ => hr _
  | .act (.erase _ _), _, _ => hr _
  | .act (.hid _), _, h => h _
  | .act (.out _), _, _ => hr _
  | .act .fresh, _, _ => hr _
  | .seq _ _, _, h => ht (Effect.Beside.hid hr ht h.1) (Effect.Beside.hid hr ht h.2)
  | .look f, s, h => Effect.Beside.hid hr ht (e := f s) (h s)

/-- An effect that changes nothing beside the dictionary. -/
theorem Effect.Beside.eq {e : Effect} {s : State} (h : e.Beside fun a b => b = a) : (e.run s).hid = s.hid :=
  Effect.Beside.hid (R := fun a b => b = a) (fun _ => rfl) (fun h h' => h'.trans h) h

theorem Effect.Writes.mono {K' : Key → Prop} (hK : ∀ k, K k → K' k) : ∀ {e : Effect}, e.Writes K → e.Writes K'
  | .nothing, _ => trivial
  | .act (.reg k _), h => hK k h
  | .act (.resetRegs _ _), h => h.elim
  | .act (.store _ _), _ => trivial
  | .act (.erase _ _), _ => trivial
  | .act (.hid _), _ => trivial
  | .act (.out _), _ => trivial
  | .act .fresh, _ => trivial
  | .seq _ _, h => ⟨h.1.mono hK, h.2.mono hK⟩
  | .look _, h => fun s => (h s).mono hK

/-! Footprints of the combinators and the named changes. -/

@[simp] theorem Effect.writes_nothing : Effect.nothing.Writes K := trivial
@[simp] theorem Effect.writes_seq (a b : Effect) : (Effect.seq a b).Writes K ↔ a.Writes K ∧ b.Writes K := Iff.rfl
@[simp] theorem Effect.writes_look (f : State → Effect) : (Effect.look f).Writes K ↔ ∀ s, (f s).Writes K := Iff.rfl
@[simp] theorem Effect.writes_all_nil : (Effect.all []).Writes K := trivial
@[simp] theorem Effect.writes_all_cons (e : Effect) (es : List Effect) :
    (Effect.all (e :: es)).Writes K ↔ e.Writes K ∧ (Effect.all es).Writes K := by
  cases es <;> simp [Effect.all]
@[simp] theorem Effect.writes_each {α : Type} (f : α → Effect) (l : List α) :
    (Effect.each f l).Writes K ↔ ∀ x ∈ l, (f x).Writes K := by
  induction l <;> simp_all [Effect.each]
@[simp] theorem Effect.writes_when (c : Bool) (e : Effect) : (Effect.when c e).Writes K ↔ (c = true → e.Writes K) := by
  cases c <;> simp [Effect.when]
@[simp] theorem Effect.writes_ofOption {α : Type} (o : Option α) (f : α → Effect) (e : Effect) :
    (Effect.ofOption o f e).Writes K ↔ (∀ x, o = some x → (f x).Writes K) ∧ (o = none → e.Writes K) := by
  cases o <;> simp [Effect.ofOption]
@[simp] theorem Effect.writes_ite (c : Prop) [Decidable c] (a b : Effect) :
    (if c then a else b).Writes K ↔ (c → a.Writes K) ∧ (¬ c → b.Writes K) := by
  by_cases h : c <;> simp [h]
@[simp] theorem set_writes (i sub v : Nat) : (set i sub v).Writes K ↔ K (keyOf i sub) := Iff.rfl
@[simp] theorem setBy_writes (i sub : Nat) (f : State → Nat) : (setBy i sub f).Writes K ↔ K (keyOf i sub) :=
  ⟨fun h => h State.reset, fun h _ => h⟩
@[simp] theorem setInt_writes (w i sub : Nat) (v : Int) : (setInt w i sub v).Writes K ↔ K (keyOf i sub) := Iff.rfl
@[simp] theorem addTo_writes (w i sub n : Nat) : (addTo w i sub n).Writes K ↔ K (keyOf i sub) := by simp [addTo]
@[simp] theorem count_writes (w i sub : Nat) : (count w i sub).Writes K ↔ K (keyOf i sub) := by simp [count]
@[simp] theorem setField_writes (i sub hi lo v : Nat) : (setField i sub hi lo v).Writes K ↔ K (keyOf i sub) := by
  simp [setField]
@[simp] theorem addField_writes (i sub hi lo n : Nat) : (addField i sub hi lo n).Writes K ↔ K (keyOf i sub) := by
  simp [addField]
@[simp] theorem countField_writes (i sub hi lo : Nat) : (countField i sub hi lo).Writes K ↔ K (keyOf i sub) := by
  simp [countField]
@[simp] theorem setBit_writes (i sub b : Nat) (on : Bool) : (setBit i sub b on).Writes K ↔ K (keyOf i sub) := by
  simp [setBit]
@[simp] theorem hidden_writes (f : Hidden → Hidden) : (hidden f).Writes K := trivial
@[simp] theorem emit_writes (o : Output) : (emit o).Writes K := trivial
@[simp] theorem raise_writes (r d : Nat) : (raise r d).Writes K := trivial
@[simp] theorem storeAt_writes (a : Nat) (bs : List Byte) : (storeAt a bs).Writes K := trivial
@[simp] theorem eraseAt_writes (a n : Nat) : (eraseAt a n).Writes K := trivial
@[simp] theorem onCommit_writes (f : CommitState → CommitState) : (onCommit f).Writes K := trivial
@[simp] theorem onReset_writes (f : ResetState → ResetState) : (onReset f).Writes K := trivial
@[simp] theorem onMode_writes (f : ModeState → ModeState) : (onMode f).Writes K := trivial
@[simp] theorem onTime_writes (f : TimeState → TimeState) : (onTime f).Writes K := trivial
@[simp] theorem onLink_writes (f : LinkState → LinkState) : (onLink f).Writes K := trivial
@[simp] theorem onDoors_writes (f : DoorState → DoorState) : (onDoors f).Writes K := trivial
@[simp] theorem onBudget_writes (f : BudgetState → BudgetState) : (onBudget f).Writes K := trivial
@[simp] theorem onPair_writes (f : PairState → PairState) : (onPair f).Writes K := trivial
@[simp] theorem onCounts_writes (f : TickCounts → TickCounts) : (onCounts f).Writes K := trivial
@[simp] theorem onAlmanac_writes (f : AlmanacState → AlmanacState) : (onAlmanac f).Writes K := trivial
@[simp] theorem onIngest_writes (f : IngestState → IngestState) : (onIngest f).Writes K := trivial
@[simp] theorem onCompose_writes (f : ComposeState → ComposeState) : (onCompose f).Writes K := trivial
@[simp] theorem onColour_writes (f : ColourState → ColourState) : (onColour f).Writes K := trivial
@[simp] theorem onScan_writes (f : ScanState → ScanState) : (onScan f).Writes K := trivial
@[simp] theorem onMemory_writes (f : MemoryState → MemoryState) : (onMemory f).Writes K := trivial
@[simp] theorem onHeat_writes (f : HeatState → HeatState) : (onHeat f).Writes K := trivial
@[simp] theorem onUpdate_writes (f : UpdateState → UpdateState) : (onUpdate f).Writes K := trivial
@[simp] theorem onPort_writes (p : Nat) (f : PortState → PortState) : (onPort p f).Writes K := trivial
@[simp] theorem useFree_writes : useFree.Writes K := trivial

@[simp] theorem Effect.noStore_nothing : Effect.nothing.NoStore := trivial
@[simp] theorem Effect.noStore_seq (a b : Effect) : (Effect.seq a b).NoStore ↔ a.NoStore ∧ b.NoStore := Iff.rfl
@[simp] theorem Effect.noStore_look (f : State → Effect) : (Effect.look f).NoStore ↔ ∀ s, (f s).NoStore := Iff.rfl
@[simp] theorem Effect.noStore_all_nil : (Effect.all []).NoStore := trivial
@[simp] theorem Effect.noStore_all_cons (e : Effect) (es : List Effect) :
    (Effect.all (e :: es)).NoStore ↔ e.NoStore ∧ (Effect.all es).NoStore := by
  cases es <;> simp [Effect.all]
@[simp] theorem Effect.noStore_each {α : Type} (f : α → Effect) (l : List α) :
    (Effect.each f l).NoStore ↔ ∀ x ∈ l, (f x).NoStore := by
  induction l <;> simp_all [Effect.each]
@[simp] theorem Effect.noStore_when (c : Bool) (e : Effect) : (Effect.when c e).NoStore ↔ (c = true → e.NoStore) := by
  cases c <;> simp [Effect.when]
@[simp] theorem Effect.noStore_ofOption {α : Type} (o : Option α) (f : α → Effect) (e : Effect) :
    (Effect.ofOption o f e).NoStore ↔ (∀ x, o = some x → (f x).NoStore) ∧ (o = none → e.NoStore) := by
  cases o <;> simp [Effect.ofOption]
@[simp] theorem Effect.noStore_ite (c : Prop) [Decidable c] (a b : Effect) :
    (if c then a else b).NoStore ↔ (c → a.NoStore) ∧ (¬ c → b.NoStore) := by
  by_cases h : c <;> simp [h]
@[simp] theorem set_noStore (i sub v : Nat) : (set i sub v).NoStore := trivial
@[simp] theorem setBy_noStore (i sub : Nat) (f : State → Nat) : (setBy i sub f).NoStore := fun _ => trivial
@[simp] theorem setInt_noStore (w i sub : Nat) (v : Int) : (setInt w i sub v).NoStore := trivial
@[simp] theorem addTo_noStore (w i sub n : Nat) : (addTo w i sub n).NoStore := fun _ => trivial
@[simp] theorem count_noStore (w i sub : Nat) : (count w i sub).NoStore := fun _ => trivial
@[simp] theorem setField_noStore (i sub hi lo v : Nat) : (setField i sub hi lo v).NoStore := fun _ => trivial
@[simp] theorem addField_noStore (i sub hi lo n : Nat) : (addField i sub hi lo n).NoStore := fun _ => trivial
@[simp] theorem countField_noStore (i sub hi lo : Nat) : (countField i sub hi lo).NoStore := fun _ => trivial
@[simp] theorem setBit_noStore (i sub b : Nat) (on : Bool) : (setBit i sub b on).NoStore := fun _ => trivial
@[simp] theorem hidden_noStore (f : Hidden → Hidden) : (hidden f).NoStore := trivial
@[simp] theorem emit_noStore (o : Output) : (emit o).NoStore := trivial
@[simp] theorem raise_noStore (r d : Nat) : (raise r d).NoStore := trivial
@[simp] theorem onCommit_noStore (f : CommitState → CommitState) : (onCommit f).NoStore := trivial
@[simp] theorem onReset_noStore (f : ResetState → ResetState) : (onReset f).NoStore := trivial
@[simp] theorem onMode_noStore (f : ModeState → ModeState) : (onMode f).NoStore := trivial
@[simp] theorem onTime_noStore (f : TimeState → TimeState) : (onTime f).NoStore := trivial
@[simp] theorem onLink_noStore (f : LinkState → LinkState) : (onLink f).NoStore := trivial
@[simp] theorem onDoors_noStore (f : DoorState → DoorState) : (onDoors f).NoStore := trivial
@[simp] theorem onBudget_noStore (f : BudgetState → BudgetState) : (onBudget f).NoStore := trivial
@[simp] theorem onPair_noStore (f : PairState → PairState) : (onPair f).NoStore := trivial
@[simp] theorem onCounts_noStore (f : TickCounts → TickCounts) : (onCounts f).NoStore := trivial
@[simp] theorem onAlmanac_noStore (f : AlmanacState → AlmanacState) : (onAlmanac f).NoStore := trivial
@[simp] theorem onIngest_noStore (f : IngestState → IngestState) : (onIngest f).NoStore := trivial
@[simp] theorem onCompose_noStore (f : ComposeState → ComposeState) : (onCompose f).NoStore := trivial
@[simp] theorem onColour_noStore (f : ColourState → ColourState) : (onColour f).NoStore := trivial
@[simp] theorem onScan_noStore (f : ScanState → ScanState) : (onScan f).NoStore := trivial
@[simp] theorem onMemory_noStore (f : MemoryState → MemoryState) : (onMemory f).NoStore := trivial
@[simp] theorem onHeat_noStore (f : HeatState → HeatState) : (onHeat f).NoStore := trivial
@[simp] theorem onUpdate_noStore (f : UpdateState → UpdateState) : (onUpdate f).NoStore := trivial
@[simp] theorem onPort_noStore (p : Nat) (f : PortState → PortState) : (onPort p f).NoStore := trivial
@[simp] theorem useFree_noStore : useFree.NoStore := trivial

section
variable {R : Hidden → Hidden → Prop}

@[simp] theorem Effect.beside_nothing : Effect.nothing.Beside R := trivial
@[simp] theorem Effect.beside_seq (a b : Effect) : (Effect.seq a b).Beside R ↔ a.Beside R ∧ b.Beside R := Iff.rfl
@[simp] theorem Effect.beside_look (f : State → Effect) : (Effect.look f).Beside R ↔ ∀ s, (f s).Beside R := Iff.rfl
@[simp] theorem Effect.beside_all_nil : (Effect.all []).Beside R := trivial
@[simp] theorem Effect.beside_all_cons (e : Effect) (es : List Effect) :
    (Effect.all (e :: es)).Beside R ↔ e.Beside R ∧ (Effect.all es).Beside R := by
  cases es <;> simp [Effect.all]
@[simp] theorem Effect.beside_each {α : Type} (f : α → Effect) (l : List α) :
    (Effect.each f l).Beside R ↔ ∀ x ∈ l, (f x).Beside R := by
  induction l <;> simp_all [Effect.each]
@[simp] theorem Effect.beside_when (c : Bool) (e : Effect) : (Effect.when c e).Beside R ↔ (c = true → e.Beside R) := by
  cases c <;> simp [Effect.when]
@[simp] theorem Effect.beside_ofOption {α : Type} (o : Option α) (f : α → Effect) (e : Effect) :
    (Effect.ofOption o f e).Beside R ↔ (∀ x, o = some x → (f x).Beside R) ∧ (o = none → e.Beside R) := by
  cases o <;> simp [Effect.ofOption]
@[simp] theorem Effect.beside_ite (c : Prop) [Decidable c] (a b : Effect) :
    (if c then a else b).Beside R ↔ (c → a.Beside R) ∧ (¬ c → b.Beside R) := by
  by_cases h : c <;> simp [h]
@[simp] theorem set_beside (i sub v : Nat) : (set i sub v).Beside R := trivial
@[simp] theorem setBy_beside (i sub : Nat) (f : State → Nat) : (setBy i sub f).Beside R := fun _ => trivial
@[simp] theorem setInt_beside (w i sub : Nat) (v : Int) : (setInt w i sub v).Beside R := trivial
@[simp] theorem addTo_beside (w i sub n : Nat) : (addTo w i sub n).Beside R := fun _ => trivial
@[simp] theorem count_beside (w i sub : Nat) : (count w i sub).Beside R := fun _ => trivial
@[simp] theorem setField_beside (i sub hi lo v : Nat) : (setField i sub hi lo v).Beside R := fun _ => trivial
@[simp] theorem addField_beside (i sub hi lo n : Nat) : (addField i sub hi lo n).Beside R := fun _ => trivial
@[simp] theorem countField_beside (i sub hi lo : Nat) : (countField i sub hi lo).Beside R := fun _ => trivial
@[simp] theorem setBit_beside (i sub b : Nat) (on : Bool) : (setBit i sub b on).Beside R := fun _ => trivial
@[simp] theorem emit_beside (o : Output) : (emit o).Beside R := trivial
@[simp] theorem raise_beside (r d : Nat) : (raise r d).Beside R := trivial
@[simp] theorem storeAt_beside (a : Nat) (bs : List Byte) : (storeAt a bs).Beside R := trivial
@[simp] theorem eraseAt_beside (a n : Nat) : (eraseAt a n).Beside R := trivial
@[simp] theorem useFree_beside : useFree.Beside R := trivial
@[simp] theorem hidden_beside (f : Hidden → Hidden) : (hidden f).Beside R ↔ ∀ h, R h (f h) := Iff.rfl
@[simp] theorem onCommit_beside (f : CommitState → CommitState) :
    (onCommit f).Beside R ↔ ∀ h, R h { h with commit := f h.commit } := Iff.rfl
@[simp] theorem onReset_beside (f : ResetState → ResetState) :
    (onReset f).Beside R ↔ ∀ h, R h { h with reset := f h.reset } := Iff.rfl
@[simp] theorem onMode_beside (f : ModeState → ModeState) :
    (onMode f).Beside R ↔ ∀ h, R h { h with mode := f h.mode } := Iff.rfl
@[simp] theorem onTime_beside (f : TimeState → TimeState) :
    (onTime f).Beside R ↔ ∀ h, R h { h with time := f h.time } := Iff.rfl
@[simp] theorem onLink_beside (f : LinkState → LinkState) :
    (onLink f).Beside R ↔ ∀ h, R h { h with link := f h.link } := Iff.rfl
@[simp] theorem onDoors_beside (f : DoorState → DoorState) :
    (onDoors f).Beside R ↔ ∀ h, R h { h with doors := f h.doors } := Iff.rfl
@[simp] theorem onBudget_beside (f : BudgetState → BudgetState) :
    (onBudget f).Beside R ↔ ∀ h, R h { h with budget := f h.budget } := Iff.rfl
@[simp] theorem onPair_beside (f : PairState → PairState) :
    (onPair f).Beside R ↔ ∀ h, R h { h with pair := f h.pair } := Iff.rfl
@[simp] theorem onCounts_beside (f : TickCounts → TickCounts) :
    (onCounts f).Beside R ↔ ∀ h, R h { h with counts := f h.counts } := Iff.rfl
@[simp] theorem onAlmanac_beside (f : AlmanacState → AlmanacState) :
    (onAlmanac f).Beside R ↔ ∀ h, R h { h with almanac := f h.almanac } := Iff.rfl
@[simp] theorem onIngest_beside (f : IngestState → IngestState) :
    (onIngest f).Beside R ↔ ∀ h, R h { h with ingest := f h.ingest } := Iff.rfl
@[simp] theorem onCompose_beside (f : ComposeState → ComposeState) :
    (onCompose f).Beside R ↔ ∀ h, R h { h with compose := f h.compose } := Iff.rfl
@[simp] theorem onColour_beside (f : ColourState → ColourState) :
    (onColour f).Beside R ↔ ∀ h, R h { h with colour := f h.colour } := Iff.rfl
@[simp] theorem onScan_beside (f : ScanState → ScanState) :
    (onScan f).Beside R ↔ ∀ h, R h { h with scan := f h.scan } := Iff.rfl
@[simp] theorem onMemory_beside (f : MemoryState → MemoryState) :
    (onMemory f).Beside R ↔ ∀ h, R h { h with memory := f h.memory } := Iff.rfl
@[simp] theorem onHeat_beside (f : HeatState → HeatState) :
    (onHeat f).Beside R ↔ ∀ h, R h { h with heat := f h.heat } := Iff.rfl
@[simp] theorem onUpdate_beside (f : UpdateState → UpdateState) :
    (onUpdate f).Beside R ↔ ∀ h, R h { h with update := f h.update } := Iff.rfl
@[simp] theorem onPort_beside (p : Nat) (f : PortState → PortState) :
    (onPort p f).Beside R ↔ ∀ h, R h { h with ports := updateAt h.ports p f } := Iff.rfl

end

/-! The state after a set, read back. -/

/-- An entry that can be set reads as what it was set to, cut to its width. -/
theorem State.entry_set {s : State} {k v : Nat} {row : Row} (h : s.sound = true) (hr : rowAt s.pers k = some row)
    (hc : row.acc ≠ .konst) : ((Act.reg k v).apply s).entry k = v % 2 ^ row.ty.width :=
  valueOf_setValue_self ((State.sound_iff s).mp h).2 hr hc

/-- Every other entry reads as before. -/
theorem State.entry_set_of_ne {s : State} {k q v : Nat} (h : s.sound = true) (hq : q ≠ k) :
    ((Act.reg k v).apply s).entry q = s.entry q :=
  valueOf_setValue_of_ne ((State.sound_iff s).mp h).2 hq

@[simp] theorem State.reg_eq_entry (s : State) (i sub : Nat) : s.reg i sub = s.entry (keyOf i sub) := rfl

end

end Sys2Proof.Machine
end

