-- ==== Sys2Proof/Laws/Doors.lean ====
section
/-! SUPPORT. What an access at a door comes to, said once: the effect of the entry, the marks of the Almanac and of the
settings, and the answer. -/

namespace Sys2Proof.Machine

/-- An access from a door while CORE runs: what the access does, then its counts, then its answer. -/
theorem atDoor_run {s : State} {d : Door} {a : Ask} (h : s.hears d = true) :
    (atDoor d a).run s =
      let r := s.access (mailboxGo 8) d a
      let t := r.effect.run s
      let u := (Effect.when ((a.op == 2 || a.op == 5) && (r.status == Status.ok || r.status == Status.queued))
        (almanac 7 (writeBin (a.key / 256)))).run t
      ((Act.out (.answer d r.status r.value)).apply ((Effect.when (r.status != Status.ok) (almanac 7 7)).run u)) := by
  obtain ⟨hd, hc⟩ : s.hasDoor d = true ∧ s.up .core = true := by simpa [State.hears] using h
  simp only [atDoor, Effect.run_look, hd, hc, if_true, Bool.not_true, Bool.false_eq_true, if_false, serveDoor, serve,
    Effect.run_all_cons, Effect.run_all_nil, emit_run]

/-- An access at a door that the personality lacks does nothing and is not answered (R4). -/
theorem atDoor_absent {s : State} {d : Door} {a : Ask} (h : s.hasDoor d = false) : (atDoor d a).run s = s := by
  simp [atDoor, h]

/-- An event of the Almanac writes at most its lost count. -/
theorem loseEvents_writes {K : Key → Prop} (hK : K (keyOf 0x1400 8)) (n : Nat) : (loseEvents n).Writes K := by
  simp [loseEvents, hK]

theorem almanacCount_writes {K : Key → Prop} (hK : K (keyOf 0x1400 8)) (h b n : Nat) : (almanacCount h b n).Writes K := by
  rw [almanacCount, Effect.writes_look]
  intro s
  dsimp only
  split_ifs <;> try simp [loseEvents_writes hK]
  split <;> simp [loseEvents_writes hK]

theorem almanac_writes {K : Key → Prop} (hK : K (keyOf 0x1400 8)) (h b : Nat) : (almanac h b).Writes K :=
  almanacCount_writes hK h b 1

theorem loseEvents_noStore (n : Nat) : (loseEvents n).NoStore := by simp [loseEvents]

theorem almanacCount_noStore (h b n : Nat) : (almanacCount h b n).NoStore := by
  rw [almanacCount, Effect.noStore_look]
  intro s
  dsimp only
  split_ifs <;> try simp [loseEvents_noStore]
  split <;> simp [loseEvents_noStore]

theorem almanac_noStore (h b : Nat) : (almanac h b).NoStore := almanacCount_noStore h b 1

theorem almanacCount_beside {R : Hidden → Hidden → Prop} (hR : ∀ h f, R h { h with almanac := f }) (h b n : Nat) :
    (almanacCount h b n).Beside R := by
  rw [almanacCount, Effect.beside_look]
  intro s
  dsimp only
  split_ifs <;> try simp [loseEvents, hR]
  split <;> simp [hR]

theorem almanac_beside {R : Hidden → Hidden → Prop} (hR : ∀ h f, R h { h with almanac := f }) (h b : Nat) :
    (almanac h b).Beside R := almanacCount_beside hR h b 1

theorem markChanged_beside {R : Hidden → Hidden → Prop} (r : Row) (k : Key) : (markChanged r k).Beside R := by
  simp [markChanged]

/-- An effect whose changes beside the dictionary are those of the Almanac's engine. -/
theorem SameBeside.of {e : Effect} {s : State} (h : e.Beside fun a b => b = { a with almanac := b.almanac }) :
    SameBeside s (e.run s) :=
  Effect.Beside.hid (R := fun a b => b = { a with almanac := b.almanac }) (fun _ => rfl)
    (fun h h' => by rw [h', h]) h

theorem SameBeside.trans {s t u : State} (h : SameBeside s t) (h' : SameBeside t u) : SameBeside s u := by
  rw [SameBeside] at *; rw [h', h]

theorem markChanged_writes {K : Key → Prop} (hK : K (keyOf 0x1500 0x0F)) (r : Row) (k : Key) : (markChanged r k).Writes K := by
  simp [markChanged, hK]

theorem markChanged_noStore (r : Row) (k : Key) : (markChanged r k).NoStore := by simp [markChanged]

/-- A WRITE that the checks pass, of an entry with behaviour of its own: that behaviour, then marks that concern no entry
but those of doorMarks, then the answer. -/
theorem writeAt_run {s : State} {d : Door} {k : Key} {bs : List Byte} {r : Row} {st : Nat} {e : Effect}
    (hup : s.hears d = true) (habs : s.absent k = none) (hrow : s.row k = some r) (hro : r.acc ≠ .ro)
    (hk : r.acc ≠ .konst) (hty : r.ty ≠ .domain) (hlen : lengthOk r.ty bs = true)
    (htake : r.takes s.pers (entryValue r.ty bs) = true) (hfull : s.stageFull r k = false)
    (hcmd : s.command (mailboxGo 8) d k (entryValue r.ty bs) = some (st, e)) :
    ∃ m : Effect, m.Writes (· ∈ doorMarks) ∧ m.NoStore ∧ (∀ t, SameBeside t (m.run t)) ∧
      (writeAt d k bs).run s = (Act.out (.answer d st [])).apply (m.run (e.run s)) := by
  refine ⟨.all [Effect.when (st == Status.ok) (markChanged r k),
    Effect.when (st == Status.ok || st == Status.queued) (almanac 7 (writeBin (k / 256))),
    Effect.when (st != Status.ok) (almanac 7 7)], ?_, ?_, fun t => ?_, ?_⟩
  · simp [almanac_writes, markChanged_writes, doorMarks]
  · simp [almanac_noStore, markChanged_noStore]
  · exact SameBeside.of (by simp [almanac_beside, markChanged_beside])
  · rw [writeAt, atDoor_run hup]
    simp [State.access, State.writeAccess, habs, hrow, hro, hk, hty, hlen, htake, hfull, hcmd]

/-- An entry that exists has an index that exists. -/
theorem rowsOf_of_rowAt {p : Personality} {k : Key} {r : Row} (h : rowAt p k = some r) : (rowsOf p (k/256)).isSome := by
  unfold rowAt at h; split at h <;> simp_all

/-- An entry that exists passes the first checks where the mode serves it. -/
theorem State.absent_none {s : State} {k : Key} {r : Row} (hs : s.served k = true) (h : s.row k = some r) : s.absent k = none := by
  have h1 := rowsOf_of_rowAt h
  simp only [State.absent, h, hs, Option.isNone_iff_eq_none]
  simp
  intro h2; rw [h2] at h1; simp at h1

/-- A command whose behaviour sets entries to 0 and does nothing else clears them. -/
theorem clears_of {c : Instr} {d : Door} {ks : List Key} {s : State} {k : Key} {bs : List Byte} {r : Row} {e : Effect}
   (hs : s.sound = true) (hup : s.hears d = true) (hv : s.served k = true)
    (hc : exec c s = perform (writeAt d k bs) s)
   (hrow : s.row k = some r) (hro : r.acc = .wo) (hty : r.ty ≠ .domain) (hlen : lengthOk r.ty bs = true)
    (htake : r.takes s.pers (entryValue r.ty bs) = true) 
    (hcmd : s.command (mailboxGo 8) d k (entryValue r.ty bs) = some (Status.ok, e))
   (hz : ∀ q ∈ ks, (e.run s).entry q = 0) (hd : ∀ q ∈ ks, q ∉ doorMarks) (hw : e.Writes (· ∈ ks)) (hn : e.NoStore) (hb : e.Beside fun a b => b = { a with almanac := b.almanac }) : Clears c d ks s := by
  obtain ⟨m, mw, mn, mb, hm⟩ := writeAt_run (st := Status.ok) hup (State.absent_none hv hrow) hrow (by simp [hro]) (by simp [hro]) hty hlen htake (by simp [State.stageFull, hro]) hcmd
  refine ⟨_, hc, ?_⟩
  rw [hm]
  have hs1 := e.run_sound hs
  refine ⟨by simp [Answered], ?_, ⟨?_, ?_⟩, fun a => ?_, ?_⟩
  · intro q hq
    exact (mw.keeps (hd q hq) hs1).2.trans (hz q hq)
  · exact mw.pers.trans hw.pers
  · intro q hq
    simp at hq
    exact (mw.keeps hq.2 hs1).2.trans (hw.keeps hq.1 hs).2
  · exact (mn.frame a).trans (hn.frame a)
  · exact (SameBeside.of hb).trans (mb _)


/-- A door that is served reaches the dictionary engine. -/
theorem State.hears_of_servesAt {s : State} {d : Door} (h : s.servesAt d = true) : s.hears d = true := by
  simp only [State.servesAt, State.serves, State.hears, Bool.and_eq_true] at h ⊢
  exact ⟨h.1, h.2.1⟩

/-- Where the dictionary engine serves, it serves every entry. -/
theorem State.served_of_serves {s : State} (h : s.serves = true) (k : Key) : s.served k = true := by
  simp [State.serves] at h
  simp [State.served, h.2]

end Sys2Proof.Machine
end

