-- ==== Sys2Proof/Tests/Slice0.lean ====
section
/-! SUPPORT. Tests: an ill-formed term for each check of WellFormed, the spec's own worked examples, single steps on small
states, and for each statement states and operands that meet its hypotheses. -/

namespace Sys2Proof.Tests

open Sys2Proof Sys2Proof.Machine

set_option maxRecDepth 100000
set_option Elab.async false

/-- A state of a personality with some entries set, beside the dictionary as given. -/
def part (p : Personality) (rs : List (Nat × Nat × Nat)) (h : Hidden := Hidden.initial) : State :=
  { State.reset with pers := p, regs := rs.foldl (fun r e => setValue p r (keyOf e.1 e.2.1) e.2.2) [], hid := h }

/-- All domains released, in DARK. -/
def awake : List (Nat × Nat × Nat) := [(0x1100, 6, 0x3F), (0x1001, 1, 3)]

def tile (rs : List (Nat × Nat × Nat) := []) (h : Hidden := Hidden.initial) : State := part .tile (awake ++ rs) h

def sender (rs : List (Nat × Nat × Nat) := []) (h : Hidden := Hidden.initial) : State := part .sender (awake ++ rs) h

/-- A grid of 60 ticks per second from tick 100 on, at 10 s. -/
def gridded : Hidden := { Hidden.initial with time := { TimeState.initial with
  now := 10 * 10 ^ 9 * unitsPerNs, grid := some ⟨100, 10 * 10 ^ 9, 60, 1, 6⟩ } }

/-- A sender's chain on port 0: tiles 2 and 3. -/
def chained : Hidden := { gridded with link := { LinkState.initial with addresses := [(2, 0, 1), (3, 0, 2)] } }


/-! O1 StepRunsFrontCommand. -/

/-- Two commands wait. -/
theorem witness_front : ({ tile with pending := [.phaseSlip 0, .nwarm] } : State).pending = .phaseSlip 0 :: [.nwarm] := rfl

/-! O2 IdleStepPassesOneCycle. -/

theorem witness_idle : State.reset.pending = [] ∧ ∀ p ∈ State.reset.ports, State.reset.sendsOwn p = false := by decide

/-! O4 StepKeepsSound. -/

theorem witness_sound : State.reset.sound = true := by decide

/-! O5 StepKeepsShape. -/

theorem witness_shaped : (tile [] gridded).shaped = true ∧ (sender).shaped = true := by decide

/-! O7 ConstEntriesNeverChange. -/

theorem witness_const : (tile).sound = true ∧ (rowAt .tile (keyOf 0x1000 1)).map Row.acc = some .konst := by decide

/-! O8 LinkCodeCorrectsEverySingleBit. -/

theorem witness_code : ([1, 2, 3, 4, 5, 6, 7, 8, 9, 10, 11, 12, 13, 14, 15, 16] : List Byte).length = 16 := rfl

/-! O9 WireFormatsReadBack. -/

theorem witness_cell : (plainCell 4 511 88 (2 ^ 32 - 1) (2 ^ 32 - 1) true true true [1]).wf = true := by decide

theorem witness_entry : let e : ServiceEntry := ⟨65535, keyOf 0x1001 1, 1, 255, 255, zeroBytes 8⟩
    e.target < 2 ^ 16 ∧ e.key < 2 ^ 24 ∧ e.op < 2 ^ 8 ∧ e.status < 2 ^ 8 ∧ e.label < 2 ^ 8 ∧ e.value.length = 8 := by decide

theorem witness_line : (List.replicate 16 (⟨1, 77⟩ : Block)).length = 16 := rfl

theorem witness_lane_blocks : ∀ b ∈ ([⟨true, 2 ^ 64 - 1⟩, ⟨false, 5⟩] : List LaneBlock), b.payload < 2 ^ 64 := by decide

/-! O10 BoundaryCellsHoldTheLamps. -/

theorem witness_extest : ({ Hidden.initial with extest := true }).extest = true ∧ Hidden.initial.extest = false := by decide

/-! O11 ReadsAnswer. -/

theorem witness_read : let s := tile; let k := keyOf 0x1001 5
    s.hears .spi = true ∧ s.served k = true ∧ (s.row k).map (fun r => (r.acc, r.ty)) = some (.ro, .u64) ∧ k ≠ keyOf 0x1401 9 ∧
    ¬(s.isSender = true ∧ k / 256 = 0x1050 ∧ 0x10 ≤ k % 256 ∧ k % 256 ≤ 0x17) := by decide

theorem witness_read_sub0 : let s := tile
    s.hears .spi = true ∧ s.served (0x1001 * 256) = true ∧ (rowsOf s.pers 0x1001).isSome = true := by decide

theorem witness_read_domain : let s := tile; let k := keyOf 0x1402 1
    s.hears .spi = true ∧ s.served k = true ∧ (s.row k).map (fun r => (r.acc, r.ty)) = some (.ro, .domain) := by decide

theorem witness_served : (tile).sound = true ∧ (tile).servesAt .spi = true ∧ (sender).sound = true ∧ (sender).servesAt .pcie = true := by
  decide

theorem witness_staged : let s := tile [] { Hidden.initial with commit := { CommitState.initial with
      staged := [(keyOf 0x3070 1, 2048)] } }; let k := keyOf 0x3070 1
    s.sound = true ∧ s.hears .spi = true ∧ s.served k = true ∧ (s.row k).map (fun r => (r.acc, r.ty)) = some (.rws, .u16) ∧
    lookupKey s.hid.commit.staged k = some 2048 ∧ lookupKey s.hid.commit.staged (keyOf 0x3070 2) = none ∧
    (s.row (keyOf 0x3070 2)).map (fun r => (r.acc, r.ty)) = some (.rws, .u32) ∧
    (s.row (keyOf 0x1001 5)).map Row.acc ≠ some .rws := by decide

/-! O12 WriteSetsOrStagesValue. -/

theorem witness_write_rw : let s := tile; let k := keyOf 0x1010 2; let bs := bytesLE 4 77
    s.sound = true ∧ s.hears .spi = true ∧ s.served k = true ∧ (s.row k).map (fun r => (r.acc, r.ty, lengthOk r.ty bs,
      r.takes s.pers (entryValue r.ty bs))) = some (.rw, .lt32, true, true) ∧
    (s.command (mailboxGo 8) .spi k 77).isNone = true := by decide

theorem witness_write_rws : let s := tile; let k := keyOf 0x3070 1; let bs := bytesLE 2 2048
    s.sound = true ∧ s.hears .spi = true ∧ s.served k = true ∧ (s.row k).map (fun r => (r.acc, r.ty, lengthOk r.ty bs,
      r.takes s.pers (entryValue r.ty bs))) = some (.rws, .u16, true, true) ∧
    (s.command (mailboxGo 8) .spi k 2048).isNone = true ∧ s.hid.commit.staged.length < 1024 := by decide

theorem witness_write_rw1c : let s := tile [(0x4001, 9, 5)]; let k := keyOf 0x4001 9
    s.sound = true ∧ s.servesAt .spi = true ∧ (s.row k).map (fun r => r.ty.width) = some 8 ∧
    (∃ g < 4, k = keyOf (0x4000 + g) 9 ∨ k = keyOf (0x4000 + g) 0x10) ∧ 4 < 2 ^ 8 :=
  ⟨by decide, by decide, by decide, ⟨1, by decide, Or.inl rfl⟩, by decide⟩

/-! O13 FailedAccessChangesNothing. -/

theorem witness_refused : let s := tile [(0x1001, 1, 1)]
    s.sound = true ∧ s.hears .spi = true ∧ (rowsOf s.pers 0x6000).isNone = true ∧ (rowsOf s.pers 0x1001).isSome = true ∧
    s.row (keyOf 0x1001 7) = none ∧ (s.row (keyOf 0x1300 3)).isSome = true ∧ s.served (keyOf 0x1300 3) = false := by decide

theorem witness_checks : let s := tile
    s.sound = true ∧ s.hears .spi = true ∧ s.served (keyOf 0x1001 1) = true ∧
    (s.row (keyOf 0x1001 1)).map Row.acc = some .ro ∧ (s.row (keyOf 0x1100 3)).map Row.acc = some .wo ∧
    (s.row (keyOf 0x1220 1)).map (fun r => (r.acc, r.ty)) = some (.rw, .domain) ∧
    (s.row (keyOf 0x1010 2)).map (fun r => lengthOk r.ty [1]) = some false ∧
    (s.row (keyOf 0x3070 1)).map (fun r => (r.acc, lengthOk r.ty [1, 0], r.takes s.pers (entryValue r.ty [1, 0]))) =
      some (.rws, true, false) := by decide

theorem witness_stage_full : let s := tile [] { Hidden.initial with commit := { CommitState.initial with
      staged := (List.range 1024).map fun i => (i, 0) } }
    s.sound = true ∧ s.hears .spi = true ∧ 1024 ≤ s.hid.commit.staged.length ∧
    lookupKey s.hid.commit.staged (keyOf 0x3070 1) = none ∧
    (s.row (keyOf 0x3070 1)).map (fun r => (r.acc, lengthOk r.ty [0, 8], r.takes s.pers (entryValue r.ty [0, 8]))) =
      some (.rws, true, true) := by decide

theorem witness_unreadable : let s := tile [(0x1001, 1, 10)]
    s.sound = true ∧ s.hears .spi = true ∧ s.served (keyOf 0x1220 1) = true ∧ (s.row (keyOf 0x1220 1)).isSome = true ∧
    s.unreadable (keyOf 0x1220 1) = true ∧ s.hasDoor .pcie = false := by decide

theorem witness_domain_refused : let s := tile
    s.unreadable (keyOf 0x1220 1) = false ∧ s.domainSize (keyOf 0x1220 1) < 37 ∧ (36 : Nat) ≤ chunkLimit .spi ∧
    (s.row (keyOf 0x1010 2)).map Row.ty ≠ some .domain := by decide

/-! O14 DomainOpsMoveContent. -/

theorem witness_domain : let s := tile
    s.sound = true ∧ s.hears .spi = true ∧ s.served (keyOf 0x1220 1) = true ∧ s.unreadable (keyOf 0x1220 1) = false ∧ s.unreadable (keyOf 0x4210 2) = false ∧
    (s.row (keyOf 0x1220 1)).map (fun r => (r.ty, r.acc)) = some (.domain, .rw) ∧
    4 + ([1, 2] : List Byte).length ≤ s.domainSize (keyOf 0x1220 1) ∧ s.frozen 0 = false ∧
    (s.row (keyOf 0x4210 2)).map (fun r => (r.ty, r.acc)) = some (.domain, .rws) ∧
    4 + ([1, 2] : List Byte).length ≤ s.domainSize (keyOf 0x4210 2) ∧ s.hid.commit.staged.length < 1024 := by decide

theorem witness_stream : let s := tile [(0x2210, 1, 300)] { Hidden.initial with compose := { ComposeState.initial with
      streams := [(300, [1, 2, 3])] } }
    s.sound = true ∧ s.servesAt .spi = true ∧ s.isTile = true ∧ s.unreadable (keyOf 0x2210 5) = false ∧
    (1 : Nat) ≤ (s.hostStream (s.reg 0x2210 1)).length ∧ s.frozen 0 = false := by decide

/-! O15 CommonCountersClear. -/

theorem witness_clears : let s := tile [(0x1100, 9, 3), (0x2001, 8, 7)]
    s.sound = true ∧ s.servesAt .spi = true ∧ 1 ∈ s.ports ∧ 3 < (if s.isSender then 2 else 4) := by decide

/-! O16 SenderCountersClear. -/

theorem witness_sender_clears : let s := sender [(0x6105, 1, 3), (0x6020, 2, 7)]
    s.sound = true ∧ s.servesAt .pcie = true ∧ s.isSender = true := by decide

/-! O17 TileCountersAndRecordsClear. -/

theorem witness_tile_clears : let s := tile [(0x4204, 1, 3), (0x3033, 2, 7)]
    s.sound = true ∧ s.servesAt .spi = true ∧ s.isTile = true ∧ 3 ∈ s.channels := by decide

/-! O18 CommitCommandsActAndChecksEndDecides. -/

def staging : CommitState := { CommitState.initial with staged := [(keyOf 0x3070 1, 2048)] }
def underCheck : CommitState := { staging with checking := some ⟨[(keyOf 0x3070 1, 2048)], [], none, false, 0, none⟩, waiting := some true }
def pendingCommit : CommitState := { staging with pend := some ⟨[(keyOf 0x3070 1, 2048)], [], none, false, 100, none⟩ }

theorem witness_commit_commands : let s := tile [] { Hidden.initial with commit := staging }
    let u := tile [] { Hidden.initial with commit := underCheck }
    let v := tile [] { Hidden.initial with commit := pendingCommit }
    s.sound = true ∧ s.servesAt .spi = true ∧ s.hid.commit.checking = none ∧
    u.sound = true ∧ u.servesAt .spi = true ∧ u.hid.commit.checking.map Commit.boot = some false ∧
    v.sound = true ∧ v.servesAt .spi = true ∧ v.hid.commit.checking = none ∧ v.hid.commit.pend.map Commit.boot = some false ∧
    v.entry (keyOf 0x1010 0x0B) ≠ Status.pending := by decide

/-- In BOOT no commit is allowed: the checks fail. In DARK with time UNSET they fail as well. -/
theorem witness_checks_fail : let s := tile [(0x1001, 1, 7)] { Hidden.initial with commit := { underCheck with waiting := none } }
    s.sound = true ∧ s.up .core = true ∧ s.hid.commit.checking.map Commit.boot = some false ∧ s.hid.commit.waiting = none ∧
    commitModes.contains s.mode = false := by decide

theorem witness_boot_checks : let s := tile [(0x1300, 3, 2)] { gridded with commit := { underCheck with waiting := none, checking := some ⟨[], [], none, true, 0, none⟩ } }
    s.sound = true ∧ s.up .core = true ∧ s.hid.commit.checking.map Commit.boot = some true ∧ s.hid.commit.waiting = none := by
  decide

theorem witness_late : let s := tile [(0x1300, 3, 2)] gridded
    s.reg 0x1300 3 ≠ 0 ∧ s.atLeastP (lt32Diff s.lt32 s.lt32) 2 = false := by decide

theorem witness_checks_late : let s := tile [] { Hidden.initial with commit := underCheck }
    s.sound = true ∧ s.up .core = true ∧ s.hid.commit.checking.map Commit.boot = some false ∧
    s.hid.commit.waiting = some true ∧ commitModes.contains s.mode = true ∧ s.reg 0x1300 3 = 0 := by decide

theorem witness_boot_commit : let s := tile [(0x1300, 3, 2)] { gridded with reset := { ResetState.initial with settingsRead := true } }
    s.sound = true ∧ s.mode = Mode.dark ∧ s.hid.reset.settingsRead = true ∧ s.hid.reset.bootRan = false ∧
    s.hid.commit.checking = none ∧ s.reg 0x1300 3 ∈ [2, 3, 4, 5] := by decide

/-! O19 CommitAppliesWhole. -/

theorem witness_apply_fails : let s := tile [(0x1001, 1, 7), (0x1001, 5, 120)] { gridded with commit := pendingCommit }
    s.sound = true ∧ s.up .core = true ∧ s.stepped = true ∧ s.hid.commit.pend.map (fun c => (c.boot, c.due)) = some (false, 100) ∧
    100 ≤ s.tick ∧ s.hid.time.reepoch = none ∧ commitModes.contains s.mode = false := by decide

/-- The entries of a tile whose eight channels of 16 Gb are trained, with region 0 over all of them. -/
def trained : List (Nat × Nat × Nat) :=
  [(0x3000, 1, 67633920), (0x3000, 3, 2), (0x3000, 4, 15270936576), (0x3010, 3, 15270936576), (0x3010, 4, 255)] ++
    (List.range 8).map fun i => (0x3030 + i, 1, 196608)

theorem witness_apply_passes : let s := tile ((0x1001, 5, 120) :: trained) { gridded with commit := pendingCommit }
    let c : Commit := ⟨[(keyOf 0x3070 1, 2048)], [], none, false, 100, none⟩
    s.sound = true ∧ s.up .core = true ∧ s.stepped = true ∧ s.hid.commit.pend = some c ∧ c.boot = false ∧ c.due ≤ s.tick ∧
    (s.checkCommit c true).failure.isNone = true ∧ (c.entries.map (·.1)).Nodup ∧
    (s.row (keyOf 0x3070 1)).map Row.acc = some .rws ∧ (s.row (keyOf 0x3070 2)).map Row.acc = some .rws ∧
    keyOf 0x3070 2 ∉ (s.checkCommit c true).results.map (·.1) ∧ keyOf 0x1010 0x0B ∉ (s.checkCommit c true).results.map (·.1) := by
  decide +kernel

theorem witness_checks_pass : let s := tile ((0x1300, 3, 2) :: trained) { gridded with commit := { underCheck with waiting := none } }
    s.sound = true ∧ s.up .core = true ∧ s.hid.commit.waiting = none ∧
    s.hid.commit.checking.all (fun c => !c.boot && (s.checkCommit c false).failure.isNone) = true := by
  decide +kernel

/-! O20 ModesChange. -/

theorem witness_mode_requests :
    (let s := tile [(0x1001, 1, 7)]; s.sound = true ∧ s.up .core = true ∧ s.requestStatus 4 ≠ Status.ok) ∧
    (let s := tile [(0x1001, 1, 2)]; s.sound = true ∧ s.up .core = true ∧ s.requestStatus 4 = Status.ok ∧ s.mode = Mode.boot) ∧
    (let s := tile [(0x1001, 1, 6)]; s.sound = true ∧ s.up .core = true ∧ s.requestStatus 5 = Status.ok ∧ s.mode = Mode.derate) ∧
    (let s := tile [] gridded; s.sound = true ∧ s.up .core = true ∧ s.requestStatus 11 = Status.ok ∧ s.mode ≠ Mode.boot ∧
      s.mode ≠ Mode.derate ∧ s.stepped = true) ∧
    (let s := tile; s.sound = true ∧ s.up .core = true ∧ s.requestStatus 10 = Status.ok ∧ s.mode ≠ Mode.boot ∧
      s.mode ≠ Mode.derate ∧ s.stepped = false ∧ s.throttled = false) ∧
    (let s := tile [(0x1210, 1, 1)]; s.sound = true ∧ s.up .core = true ∧ s.requestStatus 4 = Status.ok ∧
      s.mode ≠ Mode.boot ∧ s.mode ≠ Mode.derate ∧ s.stepped = false ∧ s.throttled = true) ∧
    (sender).requestStatus 10 = Status.range := by decide

def holding : Hidden := { gridded with mode := { ModeState.initial with automatic := some 4, seen := 16 } }

theorem witness_mode_changes :
    (let s := tile [] { gridded with mode := { ModeState.initial with request := some (4, 105) } };
      s.sound = true ∧ s.hid.mode.request = some (4, 105) ∧ s.throttleChange = none ∧ s.mode ≠ 4 ∧ s.throttled = false) ∧
    (let s := tile [(0x1210, 1, 1)] { gridded with mode := { ModeState.initial with request := some (4, 105) } };
      s.sound = true ∧ s.throttleChange = none ∧ s.mode ≠ Mode.derate ∧ s.throttled = true) ∧
    (let s := tile [(0x1001, 1, 4)] { gridded with mode := { ModeState.initial with throttleTick := some (true, 105) } };
      s.sound = true ∧ s.throttleChange = some (true, 105)) ∧
    (let s := tile [(0x1001, 1, 6), (0x1210, 2, 4)] { gridded with mode := { ModeState.initial with throttleTick := some (false, 105) } };
      s.sound = true ∧ s.throttleChange = some (false, 105)) ∧
    (let s := tile [(0x1001, 1, 4), (0x1110, 1, 1)] { gridded with mode := { ModeState.initial with missed := 3 } };
      s.sound = true ∧ s.isTile = true ∧ s.reg 0x1110 1 = 1 ∧ 3 ≤ s.hid.mode.missed ∧ s.mode = Mode.run) ∧
    (let s := tile [(0x1001, 1, 5), (0x1110, 2, 60)] holding;
      s.sound = true ∧ s.mode = Mode.hold ∧ 16 ≤ s.hid.mode.seen ∧ s.hid.mode.automatic = some 4 ∧ s.throttled = false ∧ s.stepped = true ∧
      s.reg 0x1110 2 ≠ 0) ∧
    (let s := tile [] { gridded with reset := { ResetState.initial with settingsRead := true } };
      s.sound = true ∧ s.up .core = true ∧ s.reg 0x1101 4 = 0 ∧ s.hid.reset.settingsRead = true ∧ s.reg 0x1001 4 = 0 ∧
      commitModes.contains s.mode = true) := by decide

/-! O21 ResetSourcesAreAsserted. -/

theorem witness_reset_sources :
    (let s := tile; s.sound = true ∧ s.up .core = true ∧ s.mode ≠ Mode.vigil ∧ s.reg 0x1100 5 < 3 ∧ s.reg 0x1101 4 = 0 ∧
      s.hid.reset.request = none ∧ s.served (keyOf 0x1100 3) = true ∧
      field (s.reg 0x1203 2) (2 * 11 + 1) (2 * 11) ≠ 1) ∧
    (let s := tile; s.railLow ⟨700, 850, 1300, 1800, 1619⟩ = true ∧ s.railLow ⟨700, 850, 1300, 1800, 1620⟩ = false) ∧
    (let s := tile [(0x1100, 5, 3)]; s.sound = true ∧ s.up .core = true ∧ 3 ≤ s.reg 0x1100 5 ∧ s.mode ≠ Mode.vigil) ∧
    (let s := tile [] { Hidden.initial with reset := { ResetState.initial with request := some 3, scope := 2 } };
      s.sound = true ∧ s.hid.reset.request ≠ none ∧ ¬ s.hid.reset.scope ≤ 1) ∧
    (∀ kind ∈ [1, 2], let s := tile [] { Hidden.initial with ports := [{ PortState.initial with rstReady := some kind }] };
      s.sound = true ∧ (s.port 0).rstReady = some kind ∧ s.hid.reset.request = none) := by decide

/-! O22 ResetsStartOverOrKeepTheShow. -/

theorem witness_cold_resets :
    (let s := tile [] { Hidden.initial with reset := { ResetState.initial with request := some 3, scope := 2 } };
      s.sound = true ∧ s.strap = 0b01 ∧ s.hid.reset.request = some 3 ∧ 2 ≤ s.hid.reset.scope ∧ s.hid.reset.held = false) ∧
    (let s := tile [] { Hidden.initial with reset := { ResetState.initial with request := some 3, scope := 2, held := true } };
      s.sound = true ∧ s.strap = 0b01 ∧ s.hid.reset.request = some 3 ∧ s.hid.reset.held = true) ∧
    (let s := { sender with strap := 0b10 }; s.sound = true ∧ s.strap = 0b10) ∧
    (let s := { tile [] { Hidden.initial with reset := { ResetState.initial with request := some 3, scope := 2 } } with strap := 0b11 };
      s.sound = true ∧ s.strap = 0b11 ∧ 2 ≤ s.hid.reset.scope ∧ s.hid.reset.held = false) := by decide

theorem witness_warm_reset :
    (let s := tile [(0x1001, 1, 4)] { Hidden.initial with reset := { ResetState.initial with request := some 4, scope := 1 } };
      s.sound = true ∧ s.hid.reset.request = some 4 ∧ s.hid.reset.scope = 1 ∧ s.hid.reset.held = false ∧
      s.hid.reset.coreHeld = false ∧ s.mode ≠ Mode.boot) ∧
    (let s := tile [] { Hidden.initial with reset := { ResetState.initial with request := some 4, scope := 1, held := true } };
      s.sound = true ∧ s.hid.reset.request = some 4 ∧ s.hid.reset.scope = 1 ∧ s.hid.reset.held = true) := by decide

/-! O23 DomainsAreReleasedInOrder. -/

theorem witness_domain_release :
    (let s := part .tile [(0x1100, 6, 1), (0x1001, 1, 2)]; s.sound = true ∧ s.hid.reset.request = none ∧
      s.hid.reset.tripped = false ∧ s.mode ≠ Mode.vigil ∧ s.up .mem = false ∧ s.pllFailed 1 = false ∧ s.up .link = false ∧
      s.pllFailed 0 = false ∧ s.pllFailed 2 = false ∧ s.up .core = false ∧ s.hid.reset.coreHeld = false ∧
      s.hid.flashReset = true) ∧
    (let s := part .tile [(0x1100, 6, 1), (0x1001, 1, 1)]; s.sound = true ∧ s.mode = Mode.vigil) ∧
    (∀ p ∈ [Personality.tile, .sender], let s := part p [(0x1100, 6, 0x17), (0x1001, 1, 2)] { Hidden.initial with time := { TimeState.initial with held := true } };
      s.sound = true ∧ s.up .core = true ∧ s.hid.time.held = true ∧ s.hid.reset.imagePending = false) ∧
    (let s := part .tile [(0x1100, 6, 0x17), (0x1001, 1, 2), (0x3000, 3, 2)] { Hidden.initial with
          reset := { ResetState.initial with imagePending := true } };
      s.sound = true ∧ s.up .core = true ∧ s.hid.time.held = true ∧ s.hid.reset.imagePending = true ∧ s.reg 0x3000 3 = 2) ∧
    (let s := part .tile [(0x1100, 6, 0x17), (0x1001, 1, 2)] { Hidden.initial with time := { TimeState.initial with held := false } };
      s.sound = true ∧ s.up .core = true ∧ s.up .scan = false ∧ s.hid.time.held = false ∧ s.hid.reset.warmStart = false) ∧
    (let s := part .tile [(0x1100, 6, 0x1F), (0x1001, 1, 2)] { gridded with time := { gridded.time with held := false } };
      s.sound = true ∧ s.up .core = true ∧ s.up .pipe = false ∧ s.hid.time.held = false ∧ s.up .scan = true ∧ s.stepped = true) ∧
    (let s := part .tile [(0x1100, 6, 0x1F), (0x1001, 1, 2)] { Hidden.initial with
      time := { TimeState.initial with held := false },
      reset := { ResetState.initial with warmStart := true, interrupted := 4 } };
      s.sound = true ∧ s.up .core = true ∧ s.up .pipe = false ∧ s.hid.time.held = false ∧ s.stepped = false ∧
      s.hid.reset.warmStart = true ∧ s.mode = Mode.boot ∧ s.hid.reset.interrupted = 4 ∧ s.throttled = false) ∧
    (let s := tile [] { Hidden.initial with reset := { ResetState.initial with failed := [0] } };
      s.sound = true ∧ s.pllFailed 0 = true) := by decide

/-! O24 EveryStartIsCounted. -/

theorem witness_starts :
    (let s := part .tile [(0x1100, 6, 7), (0x1001, 1, 1)]; s.sound = true ∧ s.hid.reset.request = none ∧
      s.hid.reset.tripped = false ∧ s.up .core = false ∧ s.pllFailed 0 = false ∧ s.mode = Mode.vigil) ∧
    (let s := part .tile [(0x1100, 6, 7), (0x1001, 1, 2), (0x1101, 1, 4)]; s.sound = true ∧ s.up .core = false ∧
      s.mode ≠ Mode.vigil ∧ 4 ≤ s.reg 0x1101 1) ∧
    (let s := part .tile [(0x1100, 6, 7), (0x1001, 1, 2), (0x1101, 1, 3)] { Hidden.initial with
      reset := { ResetState.initial with coreHeld := true } };
      s.sound = true ∧ s.up .core = false ∧ s.mode ≠ Mode.vigil ∧ s.reg 0x1101 1 < 4 ∧ s.hid.reset.coreHeld = true) ∧
    (let s := tile; s.sound = true ∧ s.hears .spi = true ∧ s.served (keyOf 0x1101 2) = true) := by decide

/-! O25 StartReadsTheSettings. -/

def ready : List (Nat × Nat × Nat) := [(0x1100, 6, 0x3F), (0x1001, 1, 2), (0x3000, 3, 2)]

/-- A sender whose settings slot 0 holds one record. -/
def settled (r : SettingsRecord) : State :=
  { part .sender ready with mem := memWrite [] (Space.flash.at (Flash.settings 0)) (settingsImage 1 0 [r]) }

theorem witness_mem_ready :
    (let s := part .sender ready; s.sound = true ∧ s.mode = Mode.boot ∧ s.up .pipe = true ∧
      s.hid.reset.warmStart = false ∧ s.hid.reset.settingsRead = false ∧ s.reg 0x3000 3 = 2 ∧ s.settingsSlot = none) ∧
    (let s := settled ⟨0x1020, 1, [1, 2]⟩; s.sound = true ∧ s.mode = Mode.boot) := by decide +kernel

theorem witness_settings_records :
    (let r : SettingsRecord := ⟨0x1001, 2, [4]⟩
     let s := settled r
     s.sound = true ∧ s.settingsSlot = some 0 ∧ s.settingsIn 0 = [r] ∧ (s.loads r).isSome = true ∧
       (s.loads r).all (fun row => row.ty != .domain && row.acc == .rw) = true) ∧
    (let r : SettingsRecord := ⟨0x1320, 1, [1, 0]⟩
     let s := settled r
     s.sound = true ∧ s.settingsSlot = some 0 ∧ s.settingsIn 0 = [r] ∧
       (s.loads r).all (fun row => row.ty != .domain && row.acc == .rws)) := by decide +kernel

/-! O26 FrozenMastersAreReleased. -/

theorem witness_release :
    (let s := tile [(0x1644, 1, 3)] gridded; s.sound = true ∧ s.hears .spi = true ∧ s.up .core = true ∧ s.served (keyOf 0x1644 2) = true ∧
      s.up .link = true ∧ s.stepped = true ∧ 0 ∈ s.masters ∧ s.shaped = true ∧ s.frozen 0 = true ∧
      s.frozen 2 = false ∧ s.flag 0x1644 5 0 = false ∧ bitAt s.hid.budget.release 0 = false) ∧
    (let s := sender [(0x1644, 1, 3), (0x1644, 5, 1)] { gridded with budget := { BudgetState.initial with release := 2 } };
      s.sound = true ∧ s.frozen 0 = true ∧ s.flag 0x1644 5 0 = true ∧ bitAt s.hid.budget.release 0 = false ∧
      bitAt s.hid.budget.release 1 = true) := by decide

/-! O27 TicksGrantsAndTokens. -/

/-- One request of a master at a shared point. -/
def wants (m : Master) : BusRequest := ⟨m, 32, 32, false, 0, false⟩

theorem witness_grants :
    (let s := tile [] gridded; s.sound = true ∧ s.up .link = true ∧ s.stepped = true ∧ s.isTile = true ∧ s.session = 0 ∧
      s.hid.heat.run = none ∧ s.chooseGrant .crossbar [wants .service] = some (wants .service) ∧
      s.chooseGrant .crossbar [wants (.budgeted 2)] = some (wants (.budgeted 2)) ∧ 2 ∈ s.masters ∧
      s.shaped = true ∧ s.hid.budget.compute = true ∧ s.chooseGrant .crossbar [] = none) ∧
    (let s := tile [] { gridded with budget := { BudgetState.initial with compute := false } }; s.hid.budget.compute = false ∧
      s.chooseGrant .crossbar [wants (.budgeted 2)] = some (wants (.budgeted 2)) ∧ s.shaped = true ∧
      field (s.reg 0x1642 3) 63 32 < s.hid.budget.cycles.getD 2 0 + min 32 (wants (.budgeted 2)).cycles) ∧
    (let s := tile [(0x1642, 3, 2 ^ 40)] { gridded with budget := { BudgetState.initial with limits := List.replicate 11 64 } };
      s.hid.budget.cycles.getD 2 0 + min 32 (wants (.budgeted 2)).cycles ≤ field (s.reg 0x1642 3) 63 32 ∧
      s.charged 2 32 ≤ s.hid.budget.limits.getD 2 0 ∧
      s.chooseGrant (.egress 0) [wants (.budgeted 2)] = some (wants (.budgeted 2))) ∧
    (let s := tile [(0x3000, 3, 2), (0x3010, 1, 1), (0x3010, 3, 4096), (0x3010, 4, 1)] gridded;
      s.sound = true ∧ s.granting = true ∧ (s.placeOf 0 (masterRequester .service)).isSome = true ∧
      s.chooseGrant (.channel 0) [wants .service] = some (wants .service)) ∧
    (let s := tile [(0x1001, 1, 3)] { gridded with heat := { HeatState.initial with waiting := [4] } };
      s.sound = true ∧ s.tokenFree 3 = true ∧ (s.wanting 3).find? s.canStart = some 4 ∧
      (s.wanting 2).find? s.canStart = none) := by decide

/-! O28 BlocksAreResetAlone. -/

def oneLaunch : State := sender [(0x1103, 4, 1)] { Hidden.initial with
  reset := { ResetState.initial with block := 0x21 }
  ports := { PortState.initial with egress := [⟨4, .cell (plainCell 1 0 0 0 0 false false false []) [], 0, none⟩] } ::
    List.replicate 15 PortState.initial }

def forced (p : Personality) (code : Nat) (rs : List (Nat × Nat × Nat)) (h : Hidden := Hidden.initial) : State :=
  part p (awake ++ (0x1103, 4, 1) :: rs) { h with reset := { ResetState.initial with block := code } }

theorem witness_block_reset :
    (let s := tile [(0x1103, 1, 0x7F)]; s.sound = true ∧ s.hears .spi = true ∧ s.served (keyOf 0x1103 2) = true ∧
      s.blockStatus ≠ Status.ok) ∧
    (let s := tile [(0x1103, 1, 2), (0x4201, 3, 1)]; s.sound = true ∧ s.blockStatus = Status.ok ∧
      s.blockBusy (s.reg 0x1103 1) = true) ∧
    (let s := tile [(0x1103, 1, 2)]; s.sound = true ∧ s.blockStatus = Status.ok ∧ s.blockBusy (s.reg 0x1103 1) = false) ∧
    (let s := sender [(0x1102, 1, 3)]; s.sound = true ∧ s.hears .pcie = true ∧ s.served (keyOf 0x1102 3) = true ∧
      s.portTo (s.reg 0x1102 1) = none) ∧
    (let s := sender [(0x1102, 1, 2), (0x2000, 2, 6)] chained; s.sound = true ∧ s.portTo (s.reg 0x1102 1) = some 0) := by
  decide

theorem witness_blocks_forced :
    (∀ s ∈ [forced .tile 2 [(0x4201, 3, 1)], forced .tile 3 [(0x4180, 0x0B, 1)],
        forced .tile 0x28 [] { Hidden.initial with compose := { ComposeState.initial with todo := [3] } },
        forced .sender 0x20 [] { Hidden.initial with ingest := { IngestState.initial with
          jobs := [⟨0x10, 0, none, [], false, none, 0⟩] } }, oneLaunch,
        forced .sender 0x11 [(0x6002, 3, 2)], forced .sender 0x18 [(0x6010, 7, 2), (0x6010, 1, 1)]],
      s.sound = true ∧ s.shaped = true ∧ s.reg 0x1103 4 = 1 ∧ s.hid.reset.block ∈ blockCodes s.pers ∧
        s.blockBusy s.hid.reset.block = true) ∧
    (let s := forced .sender 0x22 []; s.sound = true ∧ s.shaped = true ∧ s.hid.reset.block ∈ blockCodes s.pers ∧
      s.blockBusy s.hid.reset.block = false) := by decide

/-! O29 CheckBitsAreTheXorOfTheirColumns. -/

theorem witness_check_bits : (List.replicate 16 (0x80 : Byte)).length = 16 := by decide

/-! O30 PortsTrainAndLeaveUp. -/

/-- A tile whose port 0 is in a link state. -/
def linked (state : Nat) (q : PortState := PortState.initial) : State :=
  tile [(0x2000, 2, state)] { gridded with ports := q :: List.replicate 15 PortState.initial }

theorem witness_port_training :
    (∀ n < 7, (linked n).sound = true ∧ (linked n).shaped = true ∧ (linked n).portLive 0 = true ∧ (linked n).link 0 = n) ∧
    ((linked 0).reg 0x2000 1 = 1 ∧ ((linked 0).port 0).heldDown = false ∧ (linked 0).reg 0x7010 1 = 0 ∧
      ((linked 0).port 0).failures < 3) ∧
    (let s := linked 0 { PortState.initial with failures := 3, fromUp := true }; 3 ≤ (s.port 0).failures ∧ s.shaped = true) ∧
    (linked 5).cablingFault 0 = false ∧
    (let s := tile [(0x2000, 2, 5), (0x2000, 3, 2 ^ 28)] gridded; s.portLive 0 = true ∧ s.cablingFault 0 = true) := by decide

theorem witness_port_up :
    (let s := linked 6; s.sound = true ∧ s.shaped = true ∧ s.portLive 0 = true ∧ s.portUp 0 = true ∧ s.hears .spi = true ∧
      s.served (keyOf 0x2000 4) = true ∧ (s.port 0).lowRun.length = 4 ∧ s.isTile = true) ∧
    (tile [(0x2000, 2, 6), (0x2001, 2, 6)] gridded).portUp (1 - 0) = true := by decide

/-! O31 SweepsPassATile. -/

/-- A sweep cell with one entry. -/
def sweep (e : ServiceEntry) : Cell := { plainCell 2 0 16 0 0 true false false (serviceBytes e) with queue := 5 }

/-- The lanes that bring a port some blocks in a slot, its lane map being 0. -/
def lanesOf (s : State) (p : Nat) (blocks : List Block) : List (List Level) := (s.port p).rx.lanes blocks

/-- Seeds as an ALIGN slot has left them. -/
def inStep : List PortState := List.replicate 16 { PortState.initial with tx := ⟨[1, 2, 3, 4], 1⟩, rx := ⟨[5, 6, 7, 8], 0⟩ }

/-- A tile at address 2 with port 0 UP, and port 1 in a link state. -/
def between (l : LinkState := LinkState.initial) (far : Nat := 6) : State :=
  tile [(0x1000, 6, 2), (0x2000, 2, 6), (0x2001, 2, far)] { gridded with link := l, ports := inStep }

theorem witness_sweeps :
    (∀ far ∈ [0, 6], let s := between LinkState.initial far; s.sound = true ∧ s.shaped = true ∧ s.isTile = true ∧
      s.up .link = true ∧ s.portUp 0 = true ∧ s.portUp (1 - 0) = (far == 6) ∧ s.address = 2 ∧
      s.isFast (keyOf 0x1001 1) = true ∧ s.served (keyOf 0x1001 1) = true ∧ s.isFast (keyOf 0x1001 2) = false ∧
      (s.hid.reset.coreHeld || !s.up .core) = false ∧ s.hid.link.deferred.length < 64 ∧ (s.port 0).lost = false) ∧
    (∀ target ∈ [2, 3, 0xFFFF], let e : ServiceEntry := ⟨target, keyOf 0x1001 1, 1, 0xFF, 1, zeroBytes 8⟩; let c := sweep e
      c.wf = true ∧ c.kind = 2 ∧ c.turned = false ∧ c.len = 16 ∧ c.body = padTo 240 (serviceBytes e)) ∧
    (let d : Deferred := ⟨0, 0, 0, false, 1, keyOf 0x1001 2, 0, [], false, 1⟩
      let s := between { LinkState.initial with deferred := List.replicate 64 d };
      s.sound = true ∧ 64 ≤ s.hid.link.deferred.length) ∧
    (let s := part .tile [(0x1100, 6, 0x0F), (0x1000, 6, 2), (0x2000, 2, 6), (0x2001, 2, 6)] gridded;
      s.sound = true ∧ (s.hid.reset.coreHeld || !s.up .core) = true ∧ s.portUp 0 = true ∧ s.up .link = true) := by decide

theorem witness_sweep_lanes :
    let s := between
    let c := sweep ⟨2, keyOf 0x1001 1, 1, 0xFF, 1, zeroBytes 8⟩
    (s.port 0).rx.scramble (s.slotIn 0 (lanesOf s 0 (cellBlocks c []))) = cellBlocks c [] := by decide +kernel

/-! O32 CellsGoWhereTheyAreTaken. -/

theorem witness_cells :
    (let s := between; s.sound = true ∧ s.shaped = true ∧ s.portLive 1 = true ∧ s.portUp 1 = true ∧ s.portUp (1 - 1) = true ∧
      s.address = 2 ∧ s.fifoFull 1 = false ∧ (s.port 1).lost = false ∧ (s.port 1).rx.slot ≠ 65535 ∧
      (s.port 0).nextWaiting s.mayLeave = none) ∧
    (let s := between LinkState.initial 0; s.portUp 0 = true ∧ s.portUp (1 - 0) = false ∧ (s.port 1).wasUp = false) ∧
    (let s := between { LinkState.initial with rx := List.replicate 64 (1, plainCell 1 0 0 0 0 false false false []) };
      s.sound = true ∧ s.fifoFull 1 = true) ∧
    (∀ k ∈ [0, 1, 2, 3, 4, 5, 6, 7, 15], ∀ b ∈ [true, false], (plainCell k 0 240 0 0 b false false []).wf = true) ∧
    (∀ a ∈ [2, 3], let c := { plainCell 1 0 240 0 0 false false false [] with queue := a * 512 }; c.wf = true ∧
      c.queue / 512 = a) ∧
    (let s := sender [(0x2003, 2, 6)] gridded; s.sound = true ∧ s.shaped = true ∧ s.portLive 3 = true ∧ s.portUp 3 = true ∧
      s.isSender = true ∧ s.originates 3 = true) ∧
    (∀ n ∈ [0, 2, 4, 5], let s := tile [(0x2000, 2, n)] gridded; s.sound = true ∧ s.shaped = true ∧ s.portLive 0 = true ∧
      s.link 0 = n) ∧
    slotType (List.replicate 16 ⟨0b00, 0⟩) = .lost := by decide

/-- A port that has just taken an ALIGN slot: the idle slot, as it comes on the lanes. -/
def idleIn : List Block := between.slotIn 1 (lanesOf between 1 (between.port 1).rx.idle)

theorem witness_slots :
    let c := { plainCell 1 0 240 0 0 false false false [] with queue := 1024 }
    (between.port 1).rx.scramble (between.slotIn 1 (lanesOf between 1 (cellBlocks c []))) = cellBlocks c [] := by
  decide +kernel

theorem witness_idle_slot :
    slotType idleIn = .control ∧ alignBlocks idleIn = none ∧ ((decodeSlot 0b10 ((between.port 1).rx.scramble idleIn)).all
      fun x => x.2 == .clean) = true := by decide +kernel

theorem witness_align_slot :
    (alignBlocks (between.slotIn 1 (slotLanes (alignSlotBlocks fun l => between.alignLane 0 0 l)))).isSome = true := by
  decide +kernel

theorem witness_reset_slot :
    let s := between
    (s.port 1).rx.scramble (s.slotIn 1 (lanesOf s 1 ((s.port 1).rx.filled (resetBlock 2 1)))) =
      (s.port 1).rx.filled (resetBlock 2 1) := by decide +kernel

theorem witness_train_slot :
    let s := tile [(0x2000, 2, 2), (0x2000, 6, 2 ^ 31 + 64)] gridded
    s.sound = true ∧ s.flag 0x2000 6 31 = true ∧ (((decodeSlot 0b10 (s.slotIn 0 (slotLanes
      ((s.port 0).tx.filled fun _ => [0x71])))).take 4).find? fun x => decoded x && x.1.head? == some 0x71).isSome = true := by
  decide +kernel

/-! O33 TilesAreEnumerated. -/

/-- An ENUM cell that gives hop 1 an address. -/
def enumCell (a : Nat) : Cell := plainCell 7 0 68 0 0 true false false ([0, 0, 0, 0] ++ bytesLE 2 a)

/-- A tile some hops from the sender with a cell received. -/
def enumTile (mode a : Nat) (byEnum : Bool) (hops : Nat := 0) : State := tile [(0x1001, 1, mode)] { gridded with
    link := { LinkState.initial with rx := [(0, enumCell a)] }
    mode := { ModeState.initial with byEnum := byEnum }
    ports := List.replicate 16 { PortState.initial with hops := hops } }

theorem witness_enumeration :
    (∀ a ∈ [0, 1], let s := sender [(0x2000, 2, 6), (0x1000, 6, a)] { chained with
        link := { chained.link with enumerated := true, chains := [(0, 2)] } };
      s.sound = true ∧ s.shaped = true ∧ s.isSender = true ∧ s.up .core = true ∧ s.hid.link.enumerated = true ∧
      s.enumPort 0 = some 0 ∧ s.address = a) ∧
    (sender [(0x2000, 2, 6)] gridded).counts 0 = true ∧
    (∀ q ∈ [(33, 34), (0x3F, 0x3F)], let s := enumTile 3 9 false q.1
      s.sound = true ∧ s.hopsFrom (cellField (enumCell 9) 1 1 == 1) = q.2) ∧
    (∀ q ∈ [(3, 9, false), (10, 9, true), (4, 0xFFFF, false), (7, 0xFFFF, false)], let s := enumTile q.1 q.2.1 q.2.2
      s.sound = true ∧ s.isTile = true ∧ s.takeCell (fun x => x.2.kind == 7) = some ((0, enumCell q.2.1), []) ∧
      s.hopsFrom (cellField (enumCell q.2.1) 1 1 == 1) = 1 ∧
      cellField (enumCell q.2.1) (4 + 2 * (1 - 1)) 2 = q.2.1 ∧ s.mode = q.1) := by decide

/-! O34 GatewayRequestsAndDeferredEntriesEnd. -/

/-- A request for an entry of tile 2, and an answer cell with its tag. -/
def asked (asker : Asker) (op : Nat) : Request := ⟨4, 0, asker, 2, op, keyOf 0x1001 1, none, 7⟩
def answerOf (tag status : Nat) : Cell := { plainCell 3 2 16 0 0 false false false
  (serviceBytes ⟨2, keyOf 0x1001 1, 1, status, 0, bytesLE 8 4⟩) with queue := tag }

/-- A sender with a request and an answer. -/
def answeredTo (r : Request) (c : Cell) : State := sender [] { gridded with
  doors := { DoorState.initial with requests := [r], datagrams := [⟨3, 1, 2, 5, [⟨[], none, []⟩]⟩] }
  link := { LinkState.initial with rx := [(0, c)] } }

theorem witness_answers :
    ∀ asker ∈ [Asker.mailbox 0, .record 3 0], ∀ op ∈ [1, 2], let s := answeredTo (asked asker op) (answerOf 4 0)
      s.sound = true ∧ s.isSender = true ∧ s.up .core = true ∧ s.hid.update.stage = 0 ∧
      s.takeCell s.answerReady = some ((0, answerOf 4 0), []) ∧
      s.requestOf (0, answerOf 4 0) = some (asked asker op) ∧
      ((Cell.entry (answerOf 4 0)).map fun e => (e.final, e.status, e.value.length)) = some (true, 0, 8) ∧
      (s.hid.doors.requests.find? fun q => q.port == 0 && q.tag == 4) = some (asked asker op) := by decide

theorem witness_other_answers :
    (rowAt .tile (keyOf 0x1001 1)).map (fun w => w.ty.size) = some 1 ∧
    (∀ q ∈ [(4, 10), (5, 0)], let s := answeredTo (asked (.mailbox 0) 1) (answerOf q.1 q.2)
      s.sound = true ∧ (s.requestOf (0, answerOf q.1 q.2)).isSome = (q.1 == 4) ∧
      (Cell.entry (answerOf q.1 q.2)).map (·.final) = some (q.2 == 0) ∧
      s.takeCell s.answerReady = some ((0, answerOf q.1 q.2), [])) := by decide

theorem witness_transfer_idle :
    (let f : Transfer := ⟨128, 2, keyOf 0x1402 1, 9⟩
      let s := sender [] { gridded with doors := { DoorState.initial with transfers := [f] } };
      s.sound = true ∧ (s.hid.doors.transfers.find? fun x => x.stream == 128) = some f) ∧
    (let f : Transfer := ⟨130, 0, keyOf 0x4180 6, 9⟩
      let s := tile [] { gridded with doors := { DoorState.initial with transfers := [f] } };
      s.sound = true ∧ s.isTile = true ∧ (s.hid.doors.transfers.find? fun x => x.stream == 130) = some f) := by decide

theorem witness_broadcast :
    (let s := sender [(0x2000, 2, 6)] chained; s.sound = true ∧ s.shaped = true ∧ s.up .core = true ∧ s.castPorts = [0] ∧
      s.freeTag 0 = some 0 ∧
      remoteLengthOk 2 (keyOf 0x1010 2) (bytesLE 4 1) = true ∧ remoteLengthOk 2 (keyOf 0x1010 2) [1] = false) ∧
    (sender).castPorts = [] := by decide

/-- A deferred entry, and the sweep that owes its answer. -/
def waiting (op : Nat) (k : Key) (silent : Bool) : Deferred := ⟨0, 5, 0, false, op, k, 1, bytesLE 8 77, silent, 1⟩
def owing (left : Nat) : SweepAnswer := ⟨0, 5, 0, false, left, [], 9⟩

theorem witness_deferred :
    (∀ q ∈ [(1, keyOf 0x1001 2, false), (2, keyOf 0x1010 2, false), (2, keyOf 0x1010 2, true), (3, keyOf 0x1010 2, false),
        (1, keyOf 0x1FFF 1, false), (9, keyOf 0x1010 2, false), (1, keyOf 0x1001 2, true)],
      let d := waiting q.1 q.2.1 q.2.2
      let s := tile [(0x1000, 6, 2)] { gridded with link := { LinkState.initial with deferred := [d], owed := [owing 1] } };
      s.sound = true ∧ s.isTile = true ∧ s.servesAt (.service d.src) = true ∧ s.hid.reset.coreHeld = false ∧
      s.deferredReady d = true ∧ takeFirst (fun a => a.port == d.port && a.tag == d.tag && a.src == d.src && a.left != 0)
        s.hid.link.owed = some (owing 1, [])) ∧
    (let d := { waiting 5 (keyOf 0x1500 8) false with value := [0, 0, 0, 0, 4, 0, 128, 0] }; (tile).deferredReady d = false) ∧
    (let s := tile; let r := s.row (keyOf 0x1010 2)
      (r.map fun r => (r.acc, r.ty)) = some (.rw, .lt32) ∧
      (r.map fun r => lengthOk r.ty ((bytesLE 8 77).take 4) && r.takes s.pers (entryValue r.ty ((bytesLE 8 77).take 4))) =
        some true ∧
      (s.command (mailboxGo 8) (.service 0) (keyOf 0x1010 2) 77).isNone = true ∧ s.absent (keyOf 0x1FFF 1) = some Status.noObject ∧
      ((s.row (keyOf 0x1001 5)).map fun r => (r.acc, r.ty)) = some (.ro, .u64)) ∧
    (let a : SweepAnswer := { owing 0 with done := [serviceBytes ⟨2, keyOf 0x1001 1, 1, 0, 1, []⟩] };
      packAnswers a.done = [serviceBytes ⟨2, keyOf 0x1001 1, 1, 0, 1, []⟩] ∧
      ∀ n ∈ [0, 6], let s := tile [(0x2000, 2, n), (0x2001, 2, 6)] { gridded with
          link := { LinkState.initial with owed := [a] } };
        s.sound = true ∧ s.shaped = true ∧ s.portUp 0 = (n == 6) ∧ s.portUp 1 = true ∧
        takeFirst (fun x => x.left == 0) s.hid.link.owed = some (a, [])) := by decide

/-! O35 DatagramsAreAnswered. -/

/-- A READ record, and a datagram with it (R57, R58). -/
def readRecord (target k : Nat) : List Byte :=
  bytesLE 1 1 ++ bytesLE 1 0 ++ bytesLE 2 target ++ bytesLE 2 (k / 256) ++ bytesLE 1 k ++ zeroBytes 9
def datagramOf (r : List Byte) : List Byte :=
  bytesLE 2 0x4C54 ++ bytesLE 1 1 ++ bytesLE 1 0 ++ bytesLE 4 99 ++ bytesLE 2 1 ++ bytesLE 2 32 ++ zeroBytes 4 ++ r

theorem witness_datagrams :
    (∀ a ∈ [0, 2, 9], let r := readRecord a (keyOf 0x1001 5);
      parseDatagram (datagramOf r) = some (99, [r]) ∧ natLE (slice r 0 1) = 1 ∧ natLE (slice r 2 2) = a ∧
      keyOf (natLE (slice r 4 2)) (natLE (slice r 6 1)) = keyOf 0x1001 5) ∧
    parseDatagram [0x54] = none ∧
    (let s := sender [(0x2000, 2, 6), (0x1000, 6, 0)] chained; s.sound = true ∧ s.shaped = true ∧ s.isSender = true ∧
      s.servesAt .tlaroek = true ∧ s.address = 0 ∧ s.portTo 2 = some 0 ∧ s.portTo 9 = none ∧ s.freeTag 0 = some 0 ∧
      s.entry (keyOf 0x1031 1) ≠ 1 ∧ s.hid.doors.datagrams = [] ∧
      ((s.row (keyOf 0x1001 5)).map fun r => (r.acc, r.ty)) = some (.ro, .u64)) ∧
    (let d : Datagram := ⟨0, 1, 2, 99, [⟨readRecord 0 (keyOf 0x1001 5), some 0, bytesLE 8 5⟩]⟩;
      takeFirst (fun x : Datagram => x.records.all fun r => r.status.isSome) [d] = some (d, []) ∧
      d.answer.length = 40) := by decide

/-! O36 HostDoorsServeAnAccess. -/

theorem witness_host_doors :
    (let s := sender [(0x1000, 6, 0), (0x1020, 3, 1), (0x1020, 2, keyOf 0x1001 5)]; let k := keyOf 0x1001 5;
      s.sound = true ∧ s.servesAt .pcie = true ∧ s.isSender = true ∧ ((s.row k).map fun r => (r.acc, r.ty)) = some (.ro, .u64) ∧
      s.entry (keyOf 0x1020 0x0F) ≠ 0xFF ∧ s.entry (keyOf 0x1020 1) = s.address ∧ s.address ≠ 0xFFFF ∧
      s.entry (keyOf 0x1020 3) = 1 ∧ s.entry (keyOf 0x1020 2) = k ∧ (rowsOf s.pers 0x1207).isNone = true ∧
      ((s.row (keyOf 0x1010 2)).map fun r => (r.acc, r.ty.size, r.takes s.pers 77)) = some (.rw, 4, true) ∧
      (s.command (mailboxGo 8) .pcie (keyOf 0x1010 2) 77).isNone = true) ∧
    (let f := bytesLE 1 3 ++ bytesLE 2 0x1001 ++ bytesLE 1 5;
      natLE (slice f 0 1) = 3 ∧ keyOf (natLE (slice f 1 2)) (natLE (slice f 3 1)) = keyOf 0x1001 5) ∧
    (let f := bytesLE 1 2 ++ bytesLE 2 0x1010 ++ bytesLE 1 2 ++ bytesLE 1 4 ++ bytesLE 4 77;
      natLE (slice f 4 1) = f.length - 5 ∧ keyOf (natLE (slice f 1 2)) (natLE (slice f 3 1)) = keyOf 0x1010 2 ∧
      lengthOk .lt32 (f.drop 5) = true ∧ ((tile).command (mailboxGo 8) .spi (keyOf 0x1010 2) 77).isNone = true) ∧
    (tile).up .core = true ∧ (part .tile []).up .core = false ∧ frameLength [0x77] = none ∧ frameLength [3] = some 4 ∧
    (tile [] { gridded with doors := { DoorState.initial with spiWrite := some (3, [0]) } }).sound = true := by decide

theorem witness_mailboxes :
    (let s := sender [(0x2000, 2, 6), (0x1000, 6, 0), (0x1020, 3, 1), (0x1020, 2, keyOf 0x1001 5), (0x1020, 1, 2)] chained;
      s.sound = true ∧ s.shaped = true ∧ s.servesAt .pcie = true ∧ s.entry (keyOf 0x1020 0x0F) ≠ 0xFF ∧
      s.entry (keyOf 0x1020 1) ≠ s.address ∧ s.portTo 2 = some 0 ∧ s.freeTag 0 = some 0) ∧
    (let s := sender [(0x1020, 0x0F, 0xFF)]; s.sound = true ∧ s.entry (keyOf 0x1020 0x0F) = 0xFF) := by decide

theorem witness_window :
    (let s := sender [(0x1050, 1, keyOf 0x1402 1)]; s.servesAt .pcie = true ∧ s.sound = true ∧
      (s.domainBytes s.windowKey s.windowOffset 64).1 = Status.ok ∧ s.windowKey ≠ keyOf 0x1500 8) ∧
    (let s := sender [(0x1050, 1, keyOf 0x1402 1), (0x1050, 2, 2 ^ 31)];
      s.sound = true ∧ (s.domainBytes s.windowKey s.windowOffset 64).1 ≠ Status.ok) ∧
    (let s := sender [(0x1050, 1, keyOf 0x6100 1)]; s.sound = true ∧ (s.row (keyOf 0x6100 1)).map Row.acc = some .rws ∧
      (s.domainWriteAccess .pcie s.windowKey s.windowOffset (zeroBytes 64) 64).status = Status.ok) := by decide

/-! O37 QueueCellsPassTheirWindow. -/

/-- A one-cell message of queue 70 for tile 2, and a tile that has received it. -/
def single (seq : Nat) (first : Bool) : Cell :=
  ⟨1, false, false, false, false, 2 * 512 + 70, 0, 4, first, true, seq, 0, padTo 240 [1, 2, 3, 4], 0⟩
def having (c : Cell) (w : List (Nat × Window)) (ds : List (Nat × Nat × Nat)) : State := tile [(0x1000, 6, 2)] { gridded with
    link := { LinkState.initial with rx := [(0, c)] }
    pair := { PairState.initial with windows := w, digests := ds } }

theorem witness_windows :
    (∀ w ∈ [[], [(70, ⟨100, 0b101⟩)], [(70, ⟨90, 1⟩)], [(70, ⟨5000, 1⟩)]], let c := single 99 true; let s := having c w [];
      s.sound = true ∧ s.isTile = true ∧ s.up .pipe = true ∧ s.mode ≠ Mode.freeze ∧ s.queueFull 70 c = false ∧
      s.takeCell (fun x => x.2.kind == 1) = some ((0, c), []) ∧ 64 ≤ c.queue % 512 ∧ s.hid.compose.gathering = [] ∧
      c.first = true ∧ c.last = true) ∧
    (lt32Diff 99 90, lt32Diff 99 100, lt32Diff 99 5000) = (9, -1, -4901) ∧ bitAt 0b101 1 = false ∧ bitAt 0b101 2 = true ∧
    (single 99 false).first = false ∧ (sender).isTile = false := by decide +kernel

theorem witness_duplicates :
    (∀ x ∈ [(2 * 512 + 70, 98, cellDigest (single 98 true)), (2 * 512 + 70, 98, 0)],
      let s := having (single 98 true) [(70, ⟨100, 0b101⟩)] [x];
      s.sound = true ∧ lookupKey s.hid.pair.windows 70 = some ⟨100, 0b101⟩ ∧
      (s.hid.pair.digests.find? fun y => y.1 == 2 * 512 + 70 && y.2.1 == 98) = some x ∧ s.flag 0x2101 8 59 = false) ∧
    cellDigest (single 98 true) % 2 ^ 32 ≠ 0 := by decide +kernel

/-! O38 DigestsAreComparedAndPortsYield. -/

/-- A sender of a pair in RUN, with its digest of tick 7 on port 0 sent, and a DIGEST cell of its peer. -/
def paired (a : Nat) (rx : List (Nat × Cell)) (agree : Nat) : State := sender [(0x1000, 6, a), (0x1001, 1, 4),
    (0x1001, 5, 7), (0x1300, 3, 2), (0x2100, 1, 1), (0x2000, 2, 6), (0x2102, 2, 1)] { gridded with
  link := { chained.link with rx := rx }
  pair := { PairState.initial with own := [⟨0, 7, 5, 1, false, true⟩], agree := List.replicate 16 agree } }
def digestCell (xor flags : Nat) : Cell := { plainCell 6 1 32 0 0 false false false
  (bytesLE 1 0 ++ bytesLE 1 flags ++ bytesLE 2 0 ++ bytesLE 8 7 ++ bytesLE 4 xor ++ bytesLE 4 1 ++ zeroBytes 12) with
  queue := 512 }

theorem witness_digests :
    (∀ x ∈ [5, 6], ∀ f ∈ [0, 1, 2], ∀ a ∈ [0, 1], let c := digestCell x f; let s := paired a [(0, c)] 0;
      s.sound = true ∧ s.shaped = true ∧ s.inPair = true ∧ (s.ownDigest 0 7).sent = true ∧ s.settled 0 7 = false ∧
      c.kind = 6 ∧ cellField c 0 1 = 0 ∧ cellField c 4 8 = 7 ∧
      (cellField c 12 4 == (s.ownDigest 0 7).xor && cellField c 16 4 == (s.ownDigest 0 7).count) = (x == 5)) := by
  decide +kernel

theorem witness_missing :
    (let s := paired 0 [] 1000; s.sound = true ∧ s.shaped = true ∧ s.stepped = true ∧ s.portUp 0 = true ∧
      s.yielding 0 = true ∧ s.selfFailed = false ∧ s.entry (keyOf 0x2100 7) ≤ s.hid.pair.agree.getD 0 0 ∧
      s.tick = 7 ∧ s.tilesOn 0 ≠ [] ∧ s.settled 0 7 = false) ∧
    (let s := { paired 0 [] 0 with hid := { (paired 0 [] 0).hid with
        ingest := { IngestState.initial with sliced := some 200 } } };
      s.sound = true ∧ s.digestDue 0 200 = true) := by decide +kernel

theorem witness_digest_arrives :
    let s := paired 1 [] 0
    let c := digestCell 5 0
    s.portLive 0 = true ∧ c.wf = true ∧ c.queue / 512 = s.address ∧
    (s.port 0).rx.scramble (s.slotIn 0 (lanesOf s 0 (cellBlocks c []))) = cellBlocks c [] := by decide +kernel

/-! O39 HarvestReachesTheSender. -/

/-- A report of tile 2, and of the sender at address 0 or 1. -/
def report : Cell := plainCell 5 2 240 0 0 false false false (bytesLE 2 2 ++ bytesLE 1 1)
def peerReportCell (a : Nat) : Cell := plainCell 5 a 240 0 0 false false false (bytesLE 2 a ++ bytesLE 1 2 ++ bytesLE 1 4)

theorem witness_harvest :
    (let s := sender [(0x1000, 6, 0), (0x2000, 2, 6)] gridded; s.sound = true ∧ s.shaped = true ∧ s.up .link = true ∧
      s.stepped = true ∧ s.address ≤ 511 ∧ s.isSender = true ∧ s.upPorts = [0]) ∧
    (let s := tile [(0x1000, 6, 2), (0x2000, 2, 6), (0x2001, 2, 6)] gridded;
      s.sound = true ∧ s.isTile = true ∧ s.portUp 0 = true ∧ s.shaped = true) ∧
    (∀ v ∈ [0, 4], ∀ c ∈ [report, peerReportCell 1], let s := sender [(0x2111, 1, v), (0x2110, 2, 3), (0x1000, 6, 0)] { gridded with
        link := { LinkState.initial with rx := [(0, c)] } };
      s.sound = true ∧ s.isSender = true ∧ s.takeCell (fun x => x.2.kind == 5) = some ((0, c), []) ∧ s.peer = 1) ∧
    (let s := sender [(0x1001, 5, 20)] { gridded with pair := { PairState.initial with heard := [(2, 9)] } };
      s.sound = true ∧ lookupKey s.hid.pair.heard 2 = some 9 ∧ 9 + 3 < s.tick ∧ bitAt (s.entry (keyOf 0x2111 1)) 2 = false) ∧
    (let s := tile [] { gridded with pair := { PairState.initial with upstream := some 1 } };
      s.sound = true ∧ s.shaped = true ∧ s.stepped = true ∧ s.hid.heat.run = none ∧ s.session = 0) := by
  decide

/-! O40 MastershipMoves. -/

/-- A sender of a pair in RUN with its time locked. -/
def ruling (a r : Nat) (p : PairState := PairState.initial) : State := sender [(0x1000, 6, a), (0x1001, 1, 4), (0x1300, 3, 2),
  (0x2100, 1, r), (0x2100, 5, 1), (0x2100, 6, 256), (0x1320, 1, 0x0201)] { gridded with
    pair := p
    time := { gridded.time with sources := List.replicate 4 { SourceState.initial with locked := true } } }

theorem witness_mastership :
    (∀ b ∈ [false, true], let s := ruling 1 2 { PairState.initial with takeover := b, handed := !b };
      s.sound = true ∧ s.shaped = true ∧ s.isSender = true ∧ s.address = 1 ∧ s.entry (keyOf 0x2100 1) = 2 ∧
      s.stepped = true ∧ s.up .link = true ∧ s.timeBad = false ∧ s.hid.pair.takeover = b ∧ s.hid.pair.handed = !b) ∧
    (let s := ruling 0 2; s.sound = true ∧ s.address = 0 ∧ s.entry (keyOf 0x2100 5) = 1 ∧ 256 ≤ s.entry (keyOf 0x2100 6) ∧
      s.hid.pair.claim = none ∧ s.cleanTick = true ∧ s.servesAt .pcie = true ∧ s.entry (keyOf 0x2100 1) = 2) ∧
    (∀ q ∈ [(0, 2), (1, 1)], let s := ruling q.1 q.2 { PairState.initial with claim := some 12, handing := true };
      s.sound = true ∧ s.hid.pair.claim = some 12 ∧ s.address = q.1 ∧ s.entry (keyOf 0x2100 1) = q.2 ∧
      s.hid.pair.handing = true) ∧
    (∀ a ∈ [0, 1], ∀ b ∈ [false, true], let s := ruling a 1 { PairState.initial with
        dual := true, peerMaster := b, peerClean := b };
      s.sound = true ∧ s.hid.pair.dual = true ∧ s.entry (keyOf 0x2100 1) = 1 ∧ s.cleanTick = true ∧ s.servesAt .pcie = true) ∧
    (let s := sender [(0x1000, 6, 0), (0x2100, 1, 1)] { gridded with pair := { PairState.initial with dual := true } };
      s.sound = true ∧ s.cleanTick = false ∧ s.hid.pair.peerClean = false ∧ s.servesAt .pcie = true) := by
  decide

/-! O41 BeaconsAndProbesMakeTime. -/

/-- A beacon of the master, a probe and an answer to one. -/
def beacon : Cell := plainCell 4 0 88 0 0 true false true ([1, 0, 1, 0] ++ bytesLE 12 (toTime96 0) ++ bytesLE 8 9 ++
  bytesLE 4 60 ++ bytesLE 4 1)
def probe : Cell := plainCell 4 0 48 3 0 false false false (2 :: zeroBytes 15)
def probeAnswer : Cell := plainCell 4 0 48 3 0 false false false (3 :: zeroBytes 43 ++ [1])
def hearing (c : Cell) (q : PortState) (h : Hidden) : Hidden := { h with
  link := { LinkState.initial with rx := [(0, c)] }
  ports := List.replicate 16 q }

theorem witness_probes :
    (let s := sender [(0x1000, 6, 0), (0x2000, 2, 6)] gridded; s.sound = true ∧ s.shaped = true ∧ s.isSender = true ∧
      s.portUp 0 = true ∧ s.stepped = true) ∧
    (let s := sender [(0x1000, 6, 0), (0x2000, 2, 6)] (hearing probe PortState.initial gridded); s.sound = true ∧
      s.shaped = true ∧ s.takeCell (fun x => x.2.kind == 4 && beaconType x.2 == 2) = some ((0, probe), []) ∧
      probe.body.length = 240) ∧
    (∀ f ∈ [List.replicate 16 (0 : Int), List.replicate 16 (10 ^ 9 : Int)],
      let s := tile [] (hearing probeAnswer { PortState.initial with filter := f } gridded);
      s.sound = true ∧ s.shaped = true ∧ 0 < (if s.isTile then 2 else 16) ∧
      s.takeCell (fun x => x.2.kind == 4 && beaconType x.2 == 3) = some ((0, probeAnswer), []) ∧
      bitAt (cellField probeAnswer 44 1) 0 = true) ∧
    (let s := tile [(0x1300, 3, 2)] gridded; s.sound = true ∧ s.timingMaster = false ∧ s.entry (keyOf 0x1300 3) ≠ 3 ∧
      s.portUp (s.entry (keyOf 0x2100 3)) = false) := by decide

/-- A tile that has received the beacon, with EPOCHSEQ e. -/
def follower (valid held : Bool) (h : Hidden) (e : Nat := 0) : State := tile [(0x1300, 9, e)] { hearing beacon
  { PortState.initial with pathValid := valid } h with time := { h.time with held := held } }

theorem witness_beacons :
    ∀ q ∈ [(true, true, 0), (true, false, 0), (false, true, 1)], let s := follower q.1 q.2.1 gridded q.2.2
      s.sound = true ∧ s.shaped = true ∧ s.timingMaster = false ∧ s.hid.time.held = q.2.1 ∧ (s.port 0).pathValid = q.1 ∧
      (beacon.src == 0 || !(s.hid.time.beaconSrcs ++ [beacon.src]).contains 0) = true := by
  decide

theorem witness_beacons_entries :
    ∀ q ∈ [(true, false, 0), (false, true, 1)], let s := follower q.1 q.2.1 Hidden.initial q.2.2
      s.sound = true ∧ s.entry (keyOf 0x1300 9) = q.2.2 ∧ cellField beacon 3 1 = 0 ∧ s.entry (keyOf 0x2100 3) = 0 := by
  decide

theorem witness_beacons_cell :
    (follower true false gridded).takeCell (fun x => x.2.kind == 4 && beaconType x.2 == 1) = some ((0, beacon), []) := by
  decide

theorem witness_beacons_sender :
    let s := sender [] (hearing beacon PortState.initial gridded)
    s.isSender = true ∧ s.entry (keyOf 0x2100 1) = 0 := by
  decide

/-! O42 ReepochsAndRelocksMoveTheGrid. -/

/-- A timing master with a source's offset known or not, and a re-epoch or a relock pending. -/
def master (mode : Nat) (o : Option Int) (r : Option Reepoch) : State := sender [(0x1000, 6, 0), (0x1001, 1, mode),
  (0x1320, 2, 1), (0x1330, 2, 106), (0x1001, 5, 100)] { gridded with time := { gridded.time with
    sources := List.replicate 4 { SourceState.initial with offset := o }
    reepoch := r
    relockAt := some 103 } }

theorem witness_reepochs :
    (∀ m ∈ [2, 3], ∀ o ∈ [none, some 65536], let s := master m o (some ⟨false, 107, 65536⟩);
      s.sound = true ∧ s.servesAt .pcie = true ∧ s.isSender = true ∧ s.timingMaster = true ∧ s.mode = m ∧
      (s.sourceState (s.entry (keyOf 0x1320 2))).offset = o ∧ s.hid.time.reepoch.isSome = true ∧
      s.hid.time.grid.isSome = true ∧ s.hid.time.relockAt = some 103 ∧ 1 ≤ s.entry (keyOf 0x4300 1)) ∧
    2 ∉ commitModes ∧ 3 ∈ commitModes ∧
    (let s := master 3 none none; s.atLeastP (lt32Diff (s.lt 106) s.lt32) 4 = true ∧
      s.atLeastP (lt32Diff (s.lt 101) s.lt32) 4 = false) ∧
    (sender [(0x2100, 1, 2)]).timingMaster = false := by decide

/-! O43 SourcesAreMeasured. -/

/-- A sender with four sources alike. -/
def sourced (rs : List (Nat × Nat × Nat)) (h : Hidden) (x : SourceState) : State :=
  sender ([(0x1000, 6, 0), (0x6200, 1, 1), (0x1320, 1, 0xF321)] ++ rs) { h with
    time := { h.time with sources := List.replicate 4 x } }

/-- A PTP master, and a message of its. -/
def masterOf (rank : Nat) : PtpMaster := ⟨rank, 6, 0x21, 0x4E5D, 128, 7, 1, 9, 1, 37⟩
def ptpOf (b : PtpBody) : PtpMessage := ⟨127, 9, 1, 5, b⟩

/-- A sender that hears a master on port 0, with a Sync and a Delay_Req that wait. -/
def ptpSlave (path : Option Int) : State := sourced [(0x6200, 3, 127)] { gridded with time := { gridded.time with
  ptp := { PtpState.initial with best := [some (masterOf 5), none], domain := 127, sync := some (5, 3), asked := some (5, 4),
                                 path := path } } } SourceState.initial

theorem witness_ptp : ∀ q ∈ [none, some (1000 : Int)],
    let s := ptpSlave q
    s.sound = true ∧ s.shaped = true ∧ s.ptpPort 0 = true ∧ (ptpOf .ignored).domain = s.entry (keyOf 0x6200 3) ∧
    s.fromParent 0 (ptpOf .ignored) = true ∧ s.hid.time.ptp.sync = some (5, 3) ∧ s.hid.time.ptp.asked = some (5, 4) ∧
    s.hid.time.ptp.path = q := by
  decide

theorem witness_ptp_masters : let s := ptpSlave none
    s.ptpBest 0 = some (masterOf 5) ∧ masterRank (masterOf 4) < masterRank (masterOf 5) ∧
    masterRank (masterOf 5) ≤ masterRank { masterOf 6 with parent := 3 } := by
  decide

theorem witness_sources :
    (let s := sourced [] gridded { SourceState.initial with good := 16 }; s.sound = true ∧ s.shaped = true ∧
      s.isSender = true) ∧
    (let s := sourced [(0x2100, 1, 2)] gridded { SourceState.initial with good := 16 }; s.timingMaster = false ∧
      16 ≤ (s.sourceState (sourceCode .ptp)).good) ∧
    (let s := sourced [(0x1300, 3, 1)] Hidden.initial SourceState.initial; s.sound = true ∧ s.shaped = true ∧
      s.stepped = false ∧ s.sourceLocked (sourceCode .pps10m) = false) := by
  decide

theorem witness_first_lock : ∀ o ∈ [0xF321, 0xFFF0],
    let s := sourced [(0x1300, 3, 1), (0x1320, 1, o)] Hidden.initial { SourceState.initial with locked := true }
    s.sound = true ∧ s.timingMaster = true ∧ s.stepped = false ∧ s.up .link = true ∧ s.entry (keyOf 0x1300 3) = 1 ∧
    s.firstSource = some (if o = 0xFFF0 then 0 else 1) ∧ 1 ≤ s.entry (keyOf 0x4300 1) ∧ 1 ≤ s.entry (keyOf 0x4300 2) := by
  decide

/-! O44 SourcesAreLeftAndSteered. -/

/-- A timing master with its sources' states, the active one, and a state of its time. -/
def timed (active state : Nat) (x p : SourceState) : State := sender [(0x1000, 6, 0), (0x1320, 1, 0xF021), (0x1320, 2, active),
  (0x1300, 3, state)] { gridded with time := { gridded.time with
    held := false
    sources := [SourceState.initial, x, p, SourceState.initial] } }

theorem witness_steering : ∀ o ∈ [some (0 : Int), some (10 ^ 12)],
    let x : SourceState := ⟨false, false, false, 16, 3, o, []⟩
    let s := timed 2 2 x { x with locked := true }
    s.sound = true ∧ s.shaped = true ∧ s.timingMaster = true ∧ s.stepped = true ∧
    16 ≤ (s.sourceState (sourceCode .ptp)).good ∧ s.entry (keyOf 0x1320 2) ≠ sourceCode .ptp ∧
    (s.sourceOrder.find? fun c => s.sourceLocked c || c == sourceCode .ptp) = some (sourceCode .ptp) ∧
    s.entry (keyOf 0x1300 3) ∈ [2, 3] ∧ 3 ≤ (s.sourceState (s.entry (keyOf 0x1320 2))).bad ∧
    (s.sourceState (s.entry (keyOf 0x1320 2))).offset = o ∧ s.hid.time.held = false := by
  decide

theorem witness_sources_lost : ∀ l ∈ [true, false],
    let x : SourceState := ⟨true, true, false, 16, 0, some 0, []⟩
    let s := timed 1 4 x { x with locked := l }
    s.entry (keyOf 0x1320 2) = sourceCode .ptp ∧ s.ptpBest (1 - s.hid.time.ptp.port) = none ∧
    (s.sourceOrder.find? fun c => c != sourceCode .ptp && s.sourceLocked c) = some (if l then 2 else 0) ∧
    s.entry (keyOf 0x1300 3) ∈ [3, 4] ∧ s.agrees 1 = true ∧ s.entry (keyOf 0x1320 2) = 1 ∧
    let h := timed 1 3 x { x with locked := l }
    h.entry (keyOf 0x1300 3) = 3 ∧ (h.sourceOrder.find? fun c => c != 0 && h.sourceLocked c) = some 1 := by decide

/-! O45 SourcesDeliverFrames. -/

/-- A sender with receiver 0 and flow 1 on, the flow in a state, and frames under way. -/
def ingester (rs : List (Nat × Nat × Nat)) (x : FlowState) (jobs : List CompressJob) : State :=
  sender ([(0x6001, 1, 1), (0x6011, 1, 3), (0x6011, 2, 0xEF000001), (0x6011, 4, 5000)] ++ rs) { gridded with
    ingest := { IngestState.initial with
      flows := List.replicate 16 x
      hpd := [true, false, false, false]
      jobs := jobs } }

theorem witness_frames :
    (let s := ingester [] FlowState.initial []; s.sound = true ∧ s.shaped = true ∧ s.ingesting = true ∧
      s.dpTakes 0 = true ∧ s.dpSupports 0 0x0780043800010400 (60 * 65536) = true ∧ s.up .link = true ∧
      s.flowFor 0 0 0xEF000001 5000 = some 1 ∧ s.flowFor 1 0 0xEF000001 5000 = none ∧ (s.flow 1).taken = []) ∧
    (let s := ingester [] { FlowState.initial with taken := [(7, 0)] } [];
      ((s.flow 1).taken.any fun q => q.1 == 7 && decide (s.uptime < q.2 + 2000000)) = true) := by decide +kernel

theorem witness_frames_lost : let s : State := { ingester [(0x6001, 3, 2), (0x6011, 7, 2)] FlowState.initial [] with
      hid := { gridded with time := { gridded.time with cycles := 10 ^ 9 } } };
    s.sound = true ∧ s.isSender = true ∧ s.entry (keyOf 0x6001 3) ∈ [1, 2] ∧ s.dpSilent 0 = true ∧
    s.entry (keyOf 0x6011 7) ∈ [1, 2, 3] ∧ s.flowSilent 1 = true := by decide +kernel

theorem witness_frames_whole :
    (let s := ingester [] { FlowState.initial with packets := [(8, [1, 2])], first := some 8, last := some 8, legs := 3 } [];
      s.sound = true ∧ s.entry (keyOf 0x6011 1) ≠ 0 ∧ (s.flow 1).last.isSome = true ∧
      (s.flow 1).complete = some [1, 2]) ∧
    (let s := ingester [] { FlowState.initial with last := some 8 } []; (s.flow 1).last.isSome = true ∧
      (s.flow 1).first = none) := by decide +kernel

theorem witness_compression : ∀ j ∈ [(⟨0x10, 1, some ⟨1, 0, 0, []⟩, [], true, some 0, 0⟩ : CompressJob),
      ⟨0x40, 1, none, [64], false, some 0, 0⟩],
    let s := ingester [] FlowState.initial [j]
    let k := j.bands.foldl (fun x _ => x.hand 0) j
    s.sound = true ∧ s.finishOf j.source = some k.finish ∧
    takeFirst (fun x => x.source == j.source && x.started)
      (s.hid.ingest.handBands (some (max s.hid.time.cycles (ceilDiv k.finish 16) * 16)) s.hid.ingest.bandsLeft).jobs =
      some (k, []) ∧
    (s.surfaceSet 0).slot 1 + (s.compressed (s.surfaceSet 0) 1).length ≤ 2 ^ 56 ∧
    max (s.effective (s.surfaceSet 0).fence) 1 < 2 ^ 64 := by decide +kernel

/-! O46 FencesAndTheWindowOfMemory. -/

/-- A sender whose memory is up with region 0 on. -/
def memoryUp (rs : List (Nat × Nat × Nat) := []) : State := sender ([(0x3000, 3, 2), (0x3010, 3, 4096)] ++ rs)

theorem witness_fences :
    (∀ f ∈ [0, 8], let s := sender [(0x1644, 1, f)]; s.sound = true ∧ s.isSender = true ∧ s.up .core = true ∧
      s.frozen 3 = (f == 8) ∧ s.fence 0 = 0 ∧ (∀ i < 64, (s.surfaceSet i).fence ≠ 0 ∨ (s.surfaceSet i).on = false)) := by
  decide +kernel

theorem witness_fence_sets : ∀ format ∈ [1, 3],
    let s : State := { sender with mem := memWrite [] (domainBase (keyOf 0x6030 1) + 28) [format, 2, 7, 0, 1] }
    s.sound = true ∧ (s.surfaceSet 0).fence = 7 ∧ (s.surfaceSet 0).on = true ∧ (s.surfaceSet 0).raw = (format == 1) ∧
    (∀ j < 64, j ≠ 0 → (s.surfaceSet j).fence ≠ 7 ∨ (s.surfaceSet j).on = false) ∧ s.effective 7 = 0 ∧
    s.servesAt .pcie = true ∧ s.hid.ingest.jobs = [] := by
  decide +kernel

theorem witness_bar2 :
    (let s := memoryUp; s.sound = true ∧ s.isSender = true ∧ s.up .pipe = true ∧ s.frozen 3 = false ∧
      s.entry (keyOf 0x3000 3) = 2 ∧ s.mode ≠ Mode.freeze ∧
      s.allMapped 16 4 = true ∧ s.allMapped 4095 2 = false) ∧
    (memoryUp [(0x1644, 1, 8)]).frozen 3 = true ∧ 0x1A00000000 < 0x1A00000000 + 1 ∧ 0x1A00000000 - 1 + 1 ≤ 0x1A00000000 := by
  decide

/-! O47 FlipsSliceAndLaunch. -/

/-- A sender in a mode whose binding 0 takes surface set 0, with its effective fence and the frame shown. -/
def flipping (mode e shown : Nat) : State :=
  let s := sender [(0x1000, 6, 0), (0x1001, 1, mode)] gridded
  let m := memWrite [] (domainBase (keyOf 0x6100 1)) [1, 0x40, 0]
  let m := memWrite m (domainBase (keyOf 0x6031 1) + 8) (bytesLE 8 e)
  { s with mem := memWrite m (domainBase (keyOf 0x6102 2)) (bytesLE 8 shown) }

theorem witness_flips : ∀ q ∈ [(4, 7), (4, 3), (5, 7)], let s := flipping q.1 q.2 5; let c := s.configAt (s.tick + 2)
    s.sound = true ∧ s.shaped = true ∧ s.isSender = true ∧ s.up .pipe = true ∧ s.stepped = true ∧
    s.hid.ingest.sliced ≠ some (s.tick + 2) ∧ c.framed = [0] ∧ c.members 0 = [0x40] ∧
    s.effective (c.surfaceSet 0).fence = q.2 ∧ s.shown 0 = 5 ∧ s.modeAt (s.tick + 2) = q.1 := by decide +kernel

/-- A sender that launches tick 3, with a direct binding of receiver 0 and tile 2. -/
def launches : State :=
  let s := sender [(0x1000, 6, 0), (0x1001, 1, 4), (0x2000, 2, 6), (0x6001, 1, 1), (0x6001, 3, 2)] { chained with
    link := { chained.link with addresses := [(2, 0, 1)] }
    ingest := { IngestState.initial with launchTick := 3, sliced := some 3, directTick := 7 } }
  let m := memWrite [] (domainBase (keyOf 0x6100 1) + 32 * 56) ([1, 0x10, 0, 0, 0, 0, 0, 1] ++ bytesLE 2 0 ++ bytesLE 2 0 ++
    bytesLE 2 64 ++ bytesLE 2 64 ++ bytesLE 2 0 ++ bytesLE 2 0 ++ bytesLE 2 64 ++ bytesLE 2 64)
  { s with mem := memWrite m (domainBase (keyOf 0x6100 2) + 16) (bytesLE 2 0 ++ bytesLE 2 0 ++ bytesLE 2 32 ++ bytesLE 2 32) }

theorem witness_launch : let s := launches
    s.sound = true ∧ s.shaped = true ∧ s.isSender = true ∧ s.stepped = true ∧ s.hid.ingest.launchTick = 3 ∧
    s.hid.ingest.sliced = some 3 ∧ s.ingesting = true ∧
    s.mode ∈ [Mode.run, Mode.hold, Mode.derate, Mode.bringup] ∧ isDp 0x10 = true ∧ s.sourceOn 0x10 = true := by decide +kernel

theorem witness_direct_line : let s := launches
    s.directOf 0x10 = [56] ∧ s.portUp 0 = true ∧ s.yielding 0 = false ∧ (s.tilesOn 0).contains 2 = true ∧
    (s.tileWindow 56 2).map (fun w => (w.ix0, w.ix1, w.iy0, w.iy1)) = some (0, 32, 0, 32) ∧
    (s.binding 56).geo.dy = 0 ∧ (s.binding 56).geo.sy = 0 ∧ (s.binding 56).geo.sh = 64 := by decide +kernel

/-! O48 QueuesAndTheLoaderSend. -/

/-- A sender with a ring of 256 descriptors for stream 300 of tile 2, one message in it, timed or not. -/
def ringing (flags tail state : Nat) (held : List (Nat × Nat)) (rs : List (Nat × Nat × Nat) := []) : State :=
  let s := sender ([(0x1000, 6, 0), (0x2000, 2, 6), (0x2200, 1, 2 * 512 + 300)] ++ rs) { chained with
    ingest := { IngestState.initial with
      held := held, queues := [(2 * 512 + 300, ⟨0, 256, 0, tail, none, state, 0⟩)] } }
  { s with mem := memWrite [] (Space.payload.at 0) (bytesLE 8 4096 ++ bytesLE 4 500 ++ bytesLE 4 77 ++ bytesLE 1 flags) }

theorem witness_doorbell : let q := 2 * 512 + 300; let s := ringing 0 0 0 []
    s.sound = true ∧ s.shaped = true ∧ s.isSender = true ∧ s.up .core = true ∧ s.tailRefused q 1 = false ∧
    s.tailRefused q 256 = true ∧ s.up .pipe = true ∧ s.mode ≠ Mode.freeze ∧ (s.queue q).state < 2 ∧ s.inFlight q = false ∧
    (s.headDescriptor q).good q = true ∧ s.queuePorts q false = [0] := by decide +kernel

theorem witness_queues : let q := 2 * 512 + 300
    (let s := ringing 1 1 1 [(q, 77)]; s.sound = true ∧ s.shaped = true ∧ lookupKey s.hid.ingest.held q = some 77 ∧
      1 ≤ s.grid.rn ∧ s.period.floor < 2 ^ 31) ∧
    (let s := ringing 0 0 2 []; s.servesAt .pcie = true ∧ 256 ≤ s.entry (keyOf 0x2200 1) % 512) ∧
    (sender).entry (keyOf 0x2200 1) % 512 < 256 := by decide +kernel

theorem witness_loader : ∀ v ∈ [(64, Status.ok), (10, Status.range)],
    let s := ringing 0 0 0 [] [(0x2202, 1, 2), (0x2202, 2, v.1), (0x2202, 3, 0), (0x2202, 4, 64)]
    s.sound = true ∧ s.shaped = true ∧ s.servesAt .pcie = true ∧ s.loaderStatus = v.2 := by decide +kernel

theorem witness_host_stream : let s := tile [] { gridded with
      compose := { ComposeState.initial with messages := [⟨300, [1, 2], 0, 0⟩] } }
    s.sound = true ∧ s.isTile = true ∧
    takeFirst (fun x => x.stream == 300) s.hid.compose.messages = some (⟨300, [1, 2], 0, 0⟩, []) := by decide +kernel

/-! O49 WindowsAndTablesArrive. -/

/-- A tile of 8 by 4 pixels with layer 0 in view 0, or a direct layer, and a complete message. -/
def taking (m : Message) (rs : List (Nat × Nat × Nat) := []) : State :=
  tile ([(0x1001, 5, 100), (0x4100, 1, 8 * 65536 + 4), (0x4110, 1, 1), (0x4110, 3, 4 * 65536 + 8),
    (0x4110, 5, 4 * 65536 + 8), (0x4110, 6, 12), (0x4110, 7, 1), (0x4110, 8, 1), (0x4110, 9, 1)] ++ rs) { gridded with
      compose := { ComposeState.initial with messages := [m] } }
def windowOfLayer (bytes : Nat) : List Byte :=
  [12, 0, 0, 0, 0, 0, 0, 0] ++ bytesLE 4 0 ++ bytesLE 2 0 ++ bytesLE 2 0 ++ bytesLE 2 1 ++ bytesLE 2 1 ++ bytesLE 2 8 ++
    bytesLE 2 4 ++ bytesLE 4 48 ++ zeroBytes (4 + bytes)

theorem witness_windows_complete : ∀ g ∈ [12, 16], let m : Message := ⟨0, g :: (windowOfLayer 48).drop 1, 1450065408, 0⟩
    let s := taking m
    s.sound = true ∧ s.isTile = true ∧ s.up .pipe = true ∧ s.hid.compose.tick = none ∧ 32 ≤ m.bytes.length ∧
    takeFirst (fun x => x.stream == 0) s.hid.compose.messages = some (m, []) ∧
    m.bytes.length = 32 + descField m.bytes 24 4 ∧ (s.configAt (s.tickOf m.lt)).takesWindows 0 = true ∧
    (s.configAt (s.tickOf m.lt)).takesWindows 1 = false ∧
    (s.configAt (s.tickOf m.lt)).windowMatches 0 0 m.bytes = (g == 12) := by decide +kernel

/-- A segment of two pixels of line 1 of view 0. -/
def segment (flags n : Nat) : List Byte := [0x30, 7, 0] ++ bytesLE 1 flags ++ bytesLE 4 0 ++ bytesLE 2 1 ++ bytesLE 2 3 ++
  bytesLE 2 n ++ zeroBytes (2 + 6 * n)

theorem witness_segments : ∀ q ∈ [(0, 2), (4, 0)], let m : Message := ⟨56, segment q.1 q.2, 0, 0⟩
    let s := taking m [(0x4117, 1, 1), (0x4117, 0x0E, 1), (0x4117, 3, 4 * 65536 + 8), (0x4117, 5, 4 * 65536 + 8), (0x4117, 7, 1),
      (0x4117, 8, 1), (0x4117, 9, 1)]
    s.sound = true ∧ s.up .pipe = true ∧ s.layerDirect 7 = true ∧ 16 ≤ m.bytes.length ∧ descField m.bytes 0 1 = 0x30 ∧
    descField m.bytes 1 1 = 7 ∧ descField m.bytes 2 1 = 0 ∧ m.bytes.length = 16 + 6 * descField m.bytes 12 2 ∧
    s.segmentFits 0 (descField m.bytes 8 2) (descField m.bytes 10 2) (descField m.bytes 12 2) = true ∧
    descClear m.bytes = (q.1 == 4) ∧ s.regionW = 8 ∧ descField m.bytes 12 2 = q.2 ∧
    takeFirst (fun x => x.stream == 56) s.hid.compose.messages = some (m, []) := by decide +kernel

/-- A table message of two bytes. -/
def tableOf (kind flags total : Nat) : Message := ⟨70, bytesLE 1 kind ++ bytesLE 1 flags ++ zeroBytes 6 ++ bytesLE 4 2 ++
  bytesLE 4 total ++ zeroBytes 16 ++ [1, 2], 0, 0⟩

theorem witness_tables :
    (∀ q ∈ [(1, 3, 2, false), (1, 0, 2, false), (0x10, 2, 2, false), (0x11, 3, 1, true), (9, 3, 2, false)],
      let m := tableOf q.1 q.2.1 q.2.2.1
      let s := taking m [(0x4201, 1, 0)]
      s.sound = true ∧ s.frozen 1 = false ∧ 32 ≤ m.bytes.length ∧ m.head 0 1 = q.1 ∧ m.malformed = q.2.2.2 ∧
      m.starts = (q.2.1 == 3) ∧ m.finishes = (2 ≤ q.2.1) ∧ s.loadBank 0 = some 1 ∧ s.bankCode 0 1 ≠ Bank.loading ∧
      s.entry (keyOf 0x5200 0x12) ≠ Bank.loading) := by
  decide +kernel

theorem witness_tables_going :
    (let s := taking (tableOf 1 2 2) [(0x4201, 1, 0), (0x4201, 3, 4), (0x5200, 0x12, 1)]; s.bankCode 0 1 = Bank.loading ∧
      (s.bankLoad 0 1).total = 0 ∧ s.entry (keyOf 0x5200 0x12) = Bank.loading ∧ s.hid.colour.uploadTotal = 0) ∧
    (let s := taking (tableOf 1 3 2) [(0x4201, 1, 0)];
      let c : Commit := ⟨[(keyOf 0x4201 1, 1)], [], none, false, 7, none⟩
      ({ s with hid := { s.hid with commit := { CommitState.initial with pend := some c } } } : State).loadBank 0 = none) := by
  decide +kernel

theorem witness_map_replaced : (taking (tableOf 1 3 2)).mapClearStatus = Status.ok ∧
    (taking (tableOf 1 3 2) [(0x1001, 1, 4)]).mapClearStatus ≠ Status.ok := by decide +kernel

/-! O50 TheCompositorRuns. -/

/-- The tile of `taking` in a mode, with a view to compose. -/
def composing (mode : Nat) (rs : List (Nat × Nat × Nat) := []) : State :=
  let s := taking ⟨0, [], 0, 0⟩ ((0x1001, 1, mode) :: rs)
  { s with hid := { s.hid with compose := { s.hid.compose with tick := some 101, todo := [0] } } }

theorem witness_compose : ∀ m ∈ [4, 3], let s := composing m
    s.sound = true ∧ s.isTile = true ∧ s.stepped = true ∧ s.up .scan = true ∧ s.up .pipe = true ∧ s.servesAt .spi = true ∧
    ([4, 6, 11].contains (s.modeAt (s.tick + 1)) && s.hid.compose.firstAfter.all (· ≤ s.tick + 1)) = (m == 4) ∧
    (s.configAt (s.tick + 1)).composedKeys = [0] ∧ s.hid.compose.todo = [0] := by decide +kernel

theorem witness_capture : ∀ h ∈ [0, 0xFF], let s := composing 4 [(0x4180, 1, 1), (0x4180, 0x0B, h)]; let c := s.configAt 101
    c.entry (keyOf 0x4180 1) = 1 ∧ c.entry (keyOf 0x4180 2) = 0 ∧ c.entry (keyOf 0x4180 5) ≠ 1 ∧
    (s.entry (keyOf 0x4180 0x0B) != s.entry (keyOf 0x4180 7) % max 1 (c.entry (keyOf 0x4180 4))) = (h == 0xFF) := by
  decide +kernel

/-! O51 PreviewsAndSyncOutputsRun. -/

/-- A sender whose preview 0 is on, with a build under way, and whose SYNC output 0 runs or waits. -/
def showing (rs : List (Nat × Nat × Nat) := []) : State :=
  sender ([(0x1000, 6, 0), (0x1001, 1, 4), (0x1001, 5, 100), (0x6300, 1, 1), (0x4000, 1, 1)] ++ rs) { gridded with
    scan := { ScanState.initial with running := true }
    ingest := { IngestState.initial with previews := [⟨0, some 102, false, true, 0, [[], []]⟩, PreviewState.initial] } }

theorem witness_previews : let s := showing
    s.sound = true ∧ s.shaped = true ∧ s.isSender = true ∧ s.up .pipe = true ∧ (s.preview 0).building = some 102 ∧
    s.mode ∈ [Mode.run, Mode.derate, Mode.hold, Mode.bringup] ∧ s.entry (keyOf 0x6300 1) = 1 ∧ s.tgRuns 0 = true ∧
    s.servesAt .pcie = true := by decide +kernel

theorem witness_sync :
    (let s := showing [(0x4330, 1, 1)]; s.sound = true ∧ s.syncRuns 0 = true ∧ (s.nextEdge 0 s.step64).isSome = true) ∧
    (let s := showing [(0x4330, 1, 2), (0x4330, 8, Status.pending), (0x4330, 7, 1410070000)]; s.stepped = true ∧
      s.syncMode = true ∧ s.entry (keyOf 0x4330 1) = 2 ∧ s.entry (keyOf 0x4330 8) = Status.pending ∧
      (s.nextEdge 0 (max (80 * ((s.ns : Int) + lt32Diff (s.entry (keyOf 0x4330 7)) s.lt32)) s.step64)).isSome = true) := by
  decide +kernel

/-! O52 LanesShiftAndLatch. -/

/-- A tile in RUN whose TG 0 drives lane 0, two pixels by two, with a frame of view 0 composed. -/
def scanning (rs : List (Nat × Nat × Nat) := []) (x : LaneState := LaneState.initial) : State :=
  tile ([(0x1000, 6, 1), (0x1001, 1, 4), (0x1001, 5, 100), (0x4000, 1, 1), (0x4000, 4, 1), (0x5110, 2, 0x20002),
    (0x4117, 0x0E, 1)] ++ rs) { gridded with
    lampEn := true
    compose := { ComposeState.initial with images := [(0, ⟨100, 0, List.replicate 16 0x8000⟩)] }
    scan := { ScanState.initial with
      running := true, tick := 100, slot := 0, lanes := setAt ScanState.initial.lanes 0 x, mapLoaded := true } }

def halfway : LaneState := { LaneState.initial with started := true, rows := 1, frame := 1 }

theorem witness_lanes :
    (let s := scanning; let q := s.nextSlot
      s.sound = true ∧ s.shaped = true ∧ s.isTile = true ∧ s.scanRuns = true ∧ s.hid.scan.slot ≠ 255 ∧
      (s.laneState 0).started = false ∧ s.latchKind 0 q.1 q.2 = 0 ∧ s.laneOn 0 = true) ∧
    (let s := scanning [] halfway; s.scanRuns = true ∧ (s.laneState 0).started = true ∧ (s.laneState 0).ended = false ∧
      (s.laneState 0).rows = 1 ∧ 1 < ((s.scanAt s.nextSlot.1).lane 0).h) ∧
    (let s := scanning [] { halfway with rows := 2 }; (s.laneState 0).rows = ((s.scanAt s.nextSlot.1).lane 0).h) := by
  decide +kernel

theorem witness_slot_latch : let s := scanning [(0x4000, 3, 0x100001000100010), (0x4300, 3, 6)] halfway
    s.sound = true ∧ s.shaped = true ∧ s.stepped = true ∧ s.scanRuns = true ∧ s.latchedSlot.isSome = true ∧
    s.tgRuns 0 = true ∧ s.layerDirect 7 = true ∧ 0 < s.ver s.profileB 0 3 ∧
    ((lanesIn (1 &&& s.laneMask s.profileB 0)).filter s.unfinished).foldl withBit 0 ≠ 0 := by decide +kernel

/-! O53 LampsAreDiagnosed. -/

/-- A string under test, pulsed. -/
def underTest : Locate := ⟨0, 0, 0, 0, false, 1, true⟩

/-- A tile in RUN with lane 0 driven, a string queued and one under test. -/
def diagnosing (queue testing : List Locate) (rs : List (Nat × Nat × Nat) := []) : State :=
  let s := scanning rs
  { s with hid := { s.hid with scan := { s.hid.scan with queue := queue, testing := testing } } }

/-- The words of a return frame of one record, as a lane sends them after 58 line bits of 0. -/
def returnWords (a b : Nat) : List Nat := laneWords 0
  [⟨true, 2 ^ 32 + 0x2D⟩, ⟨false, a⟩, ⟨false, b⟩, ⟨true, crc32 (bytesLE 8 a ++ bytesLE 8 b) * 2 ^ 8 + 0x66⟩]

theorem witness_diagnosis :
    (let s := diagnosing [{ underTest with pulsed := false }] [];
      s.sound = true ∧ s.shaped = true ∧ s.isTile = true ∧ s.scanRuns = true ∧ s.laneOn 0 = true ∧
      s.entry (keyOf 0x5200 1) = 1 ∧ s.frozen 5 = false ∧ s.diagGranted = true ∧
      (List.range (s.arraysOn 0)).filterMap (s.nextString 0) ≠ [] ∧ s.entry (keyOf 0x5200 3) ≠ 0 ∧
      s.hid.scan.sweepAt.all (48 ≤ ·) = true ∧ s.up .scan = true ∧ s.servesAt .spi = true ∧ s.up .core = true) ∧
    (let s := diagnosing [] [{ underTest with pulsed := false }];
      (s.hid.scan.testing.filter fun q => q.lane == 0 && !q.pulsed).length ≠ 0) ∧
    (let s := tile [(0x5200, 7, 0x80)];
      s.mode ∈ [Mode.dark, Mode.bringup] ∧ s.isTile = true ∧ s.servesAt .spi = true ∧
      s.entry (keyOf 0x5200 0x0E) ≠ 0 ∧ bitAt (s.entry (keyOf 0x5200 7)) 7 = true) := by decide +kernel

theorem witness_return_frame :
    (let s := diagnosing [] [underTest];
      s.returned 5 (laneBlocks 0 []) = none ∧
      s.returned 5 (laneBlocks 0 (returnWords 2 0)) = some [⟨0, 0, 0, 2, false, 0, 0⟩] ∧
      (∀ q ∈ s.hid.scan.queue ++ s.hid.scan.testing, stringKey q.lane q.array q.string ≠ stringKey 0 0 1) ∧
      lookupKey s.hid.scan.recent (stringKey 0 0 1) = none ∧ s.hid.scan.queue.length + 49 ≤ 256) ∧
    (let s := diagnosing [] [underTest];
      s.returned 5 (laneBlocks 0 (returnWords 0 (2 ^ 38 + 6))) = some [⟨0, 0, 0, 0, true, 0, 6⟩] ∧
      s.tested 0 0 0 = some underTest ∧ s.mode ≠ Mode.freeze ∧ 1 < s.entry (keyOf 0x5200 5) ∧ 6 - (6 &&& 1) ≠ 0 ∧
      1 - (1 &&& underTest.mask) = 0 ∧ popCount 32 1 + popCount 32 6 ≤ s.entry (keyOf 0x5200 4) ∧
      s.entry (keyOf 0x5200 4) < popCount 32 1 + popCount 32 62) := by decide +kernel

/-! O54 MemoryTrainsAndRefreshes. -/

/-- A tile whose controller is in a state, with channel 0 populated and the memory as given. -/
def remembering (st : Nat) (m : MemoryState) (rs : List (Nat × Nat × Nat) := []) : State :=
  tile ([(0x3000, 3, st), (0x3030, 1, 0x10000 + (if st = 2 then 2 else 1))] ++ rs) { Hidden.initial with memory := m }

def place : MemPlace := ⟨0, 0, 0, 0, 0, false, 6, 0⟩

theorem witness_training :
    (let s := remembering 1 MemoryState.initial; s.sound = true ∧ s.shaped = true ∧ s.up .mem = true ∧ 0 ∈ s.channels ∧
      bitAt s.hid.memory.trained 0 = false ∧ s.hid.memory.releasing = false ∧ s.entry (keyOf 0x3000 3) = 1) ∧
    (let s := remembering 1 { MemoryState.initial with trained := 254 };
      s.channels.all (bitAt (withBit s.hid.memory.trained 0)) = true) ∧
    (let s := remembering 1 { MemoryState.initial with attempts := List.replicate 36 2 }; ¬ s.hid.memory.attempts.getD 0 0 < 2) ∧
    (let s := remembering 3 { MemoryState.initial with releasing := true, failing := some place }; s.servesAt .spi = true ∧
      s.entry (keyOf 0x3000 3) = 3 ∧ field (s.entry (keyOf 0x3030 1)) 2 0 = 1 ∧ s.hid.memory.freezeKind ≠ 1) ∧
    (let s := remembering 2 { MemoryState.initial with retraining := some 0 } [(0x1620, 1, 16), (0x1620, 2, 0xFFFFFF02FFFFFFFF)];
      s.running Activity.retraining = true ∧ s.frozen 7 = false ∧ s.entry (keyOf 0x3000 3) = 2 ∧ s.density 0 ≠ 0 ∧
      bitAt (s.entry (keyOf 0x3030 1)) 4 = false ∧ s.entry (keyOf 0x3080 3) ≠ 0 ∧ s.servesAt .spi = true) := by decide +kernel

/-! O55 MemoryErrorsAreCountedAndFreeze. -/

theorem witness_errors :
    (let s := remembering 2 { MemoryState.initial with poison := [0] }
        [(0x1001, 1, 4), (0x3010, 1, 1), (0x3010, 3, 0x100000), (0x3010, 4, 0xFF)];
      s.sound = true ∧ s.shaped = true ∧ s.up .mem = true ∧ 0 ∈ s.populated ∧ 0 ∈ s.channels ∧ s.poisoned 0 = true ∧
      s.poisoned 4096 = false ∧ s.maintenance = true ∧ s.granting = true ∧ s.frozen 6 = false ∧
      s.entry (keyOf 0x7030 3) ≠ 1 ∧ s.hid.memory.retraining = none ∧ s.entry (keyOf 0x3080 1) ≠ 0 ∧
      s.entry (keyOf 0x3000 3) = 2 ∧ ¬ s.entry (keyOf 0x3080 5) ≤ 1) ∧
    (let s := remembering 3 MemoryState.initial; s.entry (keyOf 0x3000 3) = 3) ∧
    (let s := remembering 1 MemoryState.initial; s.entry (keyOf 0x3000 3) ∉ [2, 3]) := by decide +kernel

/-! O56 TemperaturesAndTests. -/

theorem witness_shutdown :
    (let s := tile [(0x1200, 3, 1840)]; s.sound = true ∧ s.shaped = true ∧ 1840 ≤ s.int 16 0x1200 3 ∧
      bitAt (s.entry (keyOf 0x1200 4)) 2 = false ∧ s.hid.reset.coreHeld = false ∧ s.up .core = true ∧
      s.mode ∉ [Mode.off, Mode.vigil, Mode.shutdown]) ∧
    (let s := tile [(0x1200, 3, 1840), (0x1001, 1, 9)]; s.mode ∈ [Mode.off, Mode.vigil, Mode.shutdown]) ∧
    (let s := tile [(0x1200, 3, 1840)] { Hidden.initial with reset := { ResetState.initial with coreHeld := true } };
      s.hid.reset.coreHeld = true) ∧
    (let s := tile [(0x1300, 3, 3)] { Hidden.initial with time := { TimeState.initial with tjLog := [400] } };
      s.entry (keyOf 0x1300 3) = 3 ∧ s.hid.time.tjLog = [400]) := by decide +kernel

theorem witness_throttle :
    (let s := tile [(0x1200, 2, 1680), (0x1001, 1, 4)]; bitAt (s.entry (keyOf 0x1200 4)) 1 = false ∧
      1680 ≤ s.int 16 0x1200 2 ∧ s.mode = Mode.run ∧ s.hid.mode.automatic = none ∧ s.stepped = false) ∧
    (let s := tile [(0x1200, 2, 1599), (0x1200, 4, 2), (0x1001, 1, 6)] gridded; bitAt (s.entry (keyOf 0x1200 4)) 1 = true ∧
      s.int 16 0x1200 2 < 1600 ∧ s.entry (keyOf 0x1210 1) ≠ 1 ∧ s.stepped = true ∧ s.mode = Mode.derate) := by decide +kernel

theorem witness_tests :
    (let s := tile [(0x1001, 1, 11), (0x3011, 1, 1), (0x7030, 3, 1)]; s.sound = true ∧ s.shaped = true ∧ s.servesAt .spi = true ∧
      0 ∈ s.ports ∧ s.mode = Mode.bringup ∧ s.isTile = true ∧ s.testRegionFree = true ∧ s.entry (keyOf 0x7030 2) < 8 ∧
      s.entry (keyOf 0x7030 3) = 1) ∧
    (tile [(0x1001, 1, 11)]).testRegionFree = false ∧ (tile []).mode ≠ Mode.bringup := by decide +kernel

/-! O57 EquinoxCalibrates. -/

/-- A tile that calibrates: its run, the state of Equinox and the tokens held. -/
def calibrating (r : Option EquinoxRun) (st : Nat) (rs : List (Nat × Nat × Nat) := []) : State :=
  let h := gridded
  tile ([(0x1600, 6, st), (0x1600, 7, 3), (0x1620, 1, 3), (0x1620, 2, 0xFFFFFFFFFFFF0000), (0x4000, 1, 1), (0x4000, 4, 3)] ++ rs)
    { h with time := { h.time with cycles := 300000 }
             heat := { h.heat with run := r } }

def run0 : EquinoxRun := ⟨0, 1, none, none, 0, none, 0⟩

theorem witness_equinox :
    (let s := calibrating none 0 [(0x1620, 1, 0), (0x1200, 1, 480)]; s.sound = true ∧ s.shaped = true ∧
      s.hid.heat.run = none ∧ s.maintenance = true ∧ s.nextItem = some 65 ∧ s.running Activity.equinox = false ∧
      s.canStart Activity.equinox = true ∧ s.servesAt .spi = true ∧ s.entry (keyOf 0x1600 5) ≠ 0) ∧
    (calibrating none 0 [(0x1600, 1, 0)]).nextItem = none ∧
    (let s := calibrating (some run0) 2; 0 ∈ s.items ∧ s.running Activity.equinox = true ∧
      s.tokenFree Token.diagSlot = true ∧ s.abortCause { run0 with startTj := s.int 16 0x1200 1 } = 0) ∧
    (let s := calibrating (some run0) 2 [(0x5000, 0x0A, 16)]; s.abortCause { run0 with startTj := s.int 16 0x1200 1 } = 3) ∧
    (let s := calibrating (some { run0 with first := some [0, 3276, 0] }) 3; s.frozen 4 = false ∧ s.maintenance = true ∧
      s.entry (keyOf 0x1600 6) = 3 ∧ s.abortCause run0 = 0 ∧
      disagreement (coefficients [0, 3276, 0] (s.diagCode 0)) (coefficients [0, 3276, 0] (s.diagCode 0)) ≤ 8388 ∧
      8388 < disagreement (coefficients [0, 3276, 0] (s.diagCode 0)) (coefficients [9000, 3276, 0] (s.diagCode 0))) ∧
    (tile [(0x1600, 9, 0x80)]).entry (keyOf 0x1600 9) = 0x80 := by decide +kernel

theorem witness_rc : ¬ (((0 : Int) - ((Config.rcNominal + 1 : Nat) : Int)).natAbs * 2000 ≤ Config.rcNominal) := by omega

/-! O58 UpdateSessionsRun. -/

/-- A tile with an update session of a length and state that SPI holds. -/
def updating (st len : Nat) (rs : List (Nat × Nat × Nat) := []) (u : UpdateState := UpdateState.initial) : State :=
  tile ([(0x1500, 2, st), (0x1500, 3, if st = 0 then 0xF000 else 0x3000), (0x1500, 4, len)] ++ rs)
    { gridded with update := { u with dlen := len } }

theorem witness_session :
    (let s := updating 0 256; s.sound = true ∧ s.shaped = true ∧ s.servesAt .spi = true ∧ s.openStatus .spi = Status.ok ∧
      s.holderStatus .spi ≠ Status.ok) ∧
    (updating 0 64).openStatus .spi = Status.range ∧
    (let s := updating 2 256 [(0x1642, 0x0B, 2 ^ 64 - 1)]; s.chunkStatus (!s.notHolder .spi) 0 (List.replicate 256 7) = Status.ok ∧
      s.chunkStatus (!s.notHolder .spi) 1 (List.replicate 256 7) = Status.range ∧ s.sessionFlash = true ∧ s.frozen 0 = false ∧
      s.hid.update.buffer = [] ∧ s.charging = true ∧ s.holderStatus .spi = Status.ok ∧ s.session = 2) ∧
    (updating 2 256 [(0x1620, 1, 8)]).sessionFlash = false ∧ (updating 2 256 [(0x1644, 1, 1025)]).frozen 10 = true ∧
    (updating 2 256 [(0x1644, 1, 1025)]).frozen 0 = true ∧
    (let s := updating 1 256; s.session = 1 ∧ s.sessionFlash = true ∧ s.frozen 10 = false) ∧
    (let s := sender [(0x1520, 3, 256), (0x1520, 1, 2)]; s.servesAt .pcie = true ∧ s.isSender = true ∧ s.updateTargets = [] ∧
      s.entry (keyOf 0x1520 6) ≠ 0xFF ∧ s.entry (keyOf 0x1520 2) % 256 = 0 ∧ s.entry (keyOf 0x1520 4) = 192) ∧
    (let s := sender [(0x1520, 3, 256), (0x1520, 1, 2), (0x2000, 2, 6)] chained; s.updateTargets ≠ [] ∧ s.hid.doors.requests = []) := by
  decide +kernel

/-- A firmware block of 64 bytes for the start of the delta area. -/
def fwBlock : List Byte :=
  bytesLE 4 0x4B4C4246 ++ bytesLE 4 0 ++ bytesLE 4 64 ++ bytesLE 4 (crc32 (List.replicate 64 7)) ++ List.replicate 64 7

theorem witness_block : let s := updating 2 256
    natLE (slice fwBlock 12 4) = crc32 (fwBlock.drop 16) ∧ (fwBlock.drop 16).length = 64 ∧
    natLE (fwBlock.take 4) = 0x4B4C4246 ∧ natLE (slice fwBlock 8 4) = 64 ∧
    s.chunkStatus (s.entry (keyOf 0x1500 3) == 0x3000) (natLE (slice fwBlock 4 4)) (fwBlock.drop 16) = Status.ok := by
  decide +kernel

/-! O59 StoresAndConsolidationRun. -/

/-- A tile with a store in progress, confirmed, with the FLASH token held by it. -/
def storing (kind tries : Nat) : State :=
  tile [(0x1101, 4, 1), (0x1620, 1, 8), (0x1620, 2, 0xFFFFFFFF05FFFFFF)]
    { Hidden.initial with update := { UpdateState.initial with store := some (kind, tries) } }

theorem witness_stores : ∀ q ∈ [(1, 0), (1, 1), (2, 0)], let s := storing q.1 q.2
    s.sound = true ∧ s.shaped = true ∧ s.servesAt .spi = true ∧ s.frozen 9 = false ∧ s.maintenance = true ∧
    s.hid.update.store = some q ∧ s.hid.update.storeQueue = [] ∧ s.mode ∈ [Mode.dark, Mode.bringup] := by decide +kernel

theorem witness_store_calibration : ((storing 1 0).storeImage 1).2.length ≤ storeRoom 1 := by decide +kernel

/-- A tile that consolidates a verified delta. -/
def consolidating : State :=
  { tile [(0x1620, 1, 8), (0x1620, 2, 0xFFFFFFFF06FFFFFF)] with
    mem := memWrite (memWrite [] (Space.flash.at (Flash.pointer 0)) (Pointer.bytes ⟨1, 0, 2, 1, 0, 128⟩))
      (Space.firmware.at 0) (zeroBytes 8 ++ bytesLE 4 128) }

theorem witness_consolidation : let s := consolidating
    s.sound = true ∧ s.shaped = true ∧ s.running Activity.consolidation = true ∧ s.pointer.dstate = 2 ∧ s.frozen 10 = false ∧
    s.maintenance = true ∧ s.hid.update.storeQueue = [] ∧ s.imageLength scratchImage = 128 ∧
    s.hid.update.consolidate = 0 := by decide +kernel

/-! O60 TheAlmanacRecords. -/

/-- An open page, and an Almanac with it. -/
def openedPage : Page := ⟨5, false, 0, 3, 960, List.replicate 64 0, List.replicate 16 Extreme.none, false⟩

def logging (closing : Option Nat) (rs : List (Nat × Nat × Nat) := []) (queued : Bool := false) : State :=
  tile rs { Hidden.initial with almanac := ⟨some openedPage, closing, List.replicate 64 0, [], false, false, 0, queued⟩ }

theorem witness_almanac :
    (let s := logging none; s.sound = true ∧ s.shaped = true ∧ s.recording = true ∧ s.entry (keyOf 0x1400 1) = 1 ∧
      bitAt (s.entry (keyOf 0x1400 4)) 3 = true ∧ s.entry (keyOf 0x1400 3) = 0 ∧ openedPage.bins.length = 64 ∧ s.servesAt .spi = true ∧
      s.mode ≠ 0 ∧ (openedPage.image 1).length = 256 ∧ s.entry (keyOf 0x1400 7) < 2048 ∧ s.hid.almanac.page.isSome = true) ∧
    (logging none [(0x1400, 7, 2048)]).entry (keyOf 0x1400 7) = 2048 ∧
    (logging none [(0x1400, 3, 1)]).entry (keyOf 0x1400 3) = 1 ∧ (logging (some 1)).hid.almanac.shadow.getD 7 0 < 255 ∧
    (let s := logging none [(0x1400, 7, 1), (0x1620, 1, 8), (0x1620, 2, 0xFFFFFFFF04FFFFFF)] true;
      s.up .core = true ∧ s.frozen 8 = false ∧ s.hid.almanac.queued = true ∧ s.running Activity.persistence = true ∧
      s.pagesWaiting = 1) ∧
    (let s := logging none [(0x1400, 7, 1), (0x1400, 0x0A, 60), (0x1620, 1, 8), (0x1620, 2, 0xFFFFFFFF05FFFFFF)];
      s.entry (keyOf 0x1400 0x0A) ≠ 0 ∧ s.pagesWaiting ≠ 0 ∧ s.running Activity.persistence = false ∧
      s.canStart Activity.persistence = false) := by decide +kernel

/-! An ill-formed term for each check of WellFormed, and a well-formed one beside it. -/

/-- A cell with one field out of its width. -/
def badCell : Cell := { plainCell 1 0 240 0 0 false false false [] with kind := 16 }

theorem test_ill_formed_parts :
    (badCell.wf = false ∧ (plainCell 1 0 240 0 0 false false false []).wf = true) ∧
    lanesWf [] = false ∧ lanesWf (List.replicate 4 []) = false ∧
    (SharedPoint.channel 36).wf = false ∧ (SharedPoint.egress 16).wf = false ∧ (Master.budgeted 11).wf = false ∧
    ({ place with channel := 36 }).wf = false ∧ ({ place with bank := 16 }).wf = false ∧
    ({ place with row := 2 ^ 17 }).wf = false ∧ ({ place with atom := 64 }).wf = false ∧
    ({ place with word := 2 }).wf = false ∧ place.wf = true ∧
    keyWf (2 ^ 24) = false := by decide +kernel

theorem test_ill_formed_commands_refused : ∀ i ∈ ([.alignSlotSend 16, .portGoDown .spi 16, .portTestMode .spi 0 256,
    .blockLockLoss 0 4, .receiveSlot 0 [], .lockAcquired 0 16 false [0, 0, 0, 0], .lockAcquired 0 0 false [],
    .alignFound 0 4 0 0 0, .alignFound 0 0 16 0 0, .marginMeasure 0 [] [], .arbiterGrant (.channel 36) [],
    .arbiterGrant .crossbar [⟨.budgeted 11, 0, 0, false, 0, false⟩], .budgetRelease .spi (2 ^ 16), .read .spi (2 ^ 24),
    .enumeration [(16, 1)], .enumeration [(0, 63)], .gatewayTimeout ⟨16, 0⟩, .gatewayTimeout ⟨0, 512⟩, .mailboxGo 8, .deviceSilent 65536, .dpLost ⟨4, false⟩,
    .flowPacket 2 ⟨0, 0, 0⟩ 0 false [], .flowPacket 0 ⟨0, 0, 65536⟩ 0 false [], .flowLost 16, .fenceReset .spi 256, .compressionDone 256,
    .directLineSlice 256 0 [], .viewComposed 8] : List Instr), i.wf = false := by decide +kernel

theorem test_ill_formed_scan_refused : ∀ i ∈ ([.previewBuild 2, .previewFrameStart ⟨0, some ⟨5, []⟩⟩, .syncEdge 8, .syncStartTimeWrite .spi 0 (2 ^ 32), .blank 4,
    .underrun 0 (2 ^ 32), .l7LineUnderrun 0 256, .tgCounterClear .spi 4, .latch 32, .laneRowSend 0 256, .returnFrame 32 ⟨0, 0, []⟩,
    .returnFrame 0 ⟨0, 0, [2 ^ 66]⟩, .vrefFrame (0, 1) ⟨0, 0⟩, .beaconReceive 0 64, .diodeSample 4 none, .memoryTraining 36 0 true, .memoryTraining 0 256 true,
    .retrainDue 36, .refresh 0 16, .deviceTempReadout 0 [], .correctedRead { place with bank := 16 }, .scrub place 4,
    .hardwareTrip 12, .hardwareTrip 20, .equinoxAbort 0, .equinoxAbort 4, .sensorSample (List.replicate 13 .openOrShort) [],
    .sensorSample [] [0, 0, 0, 0, 0], .equinoxMeasurement (List.replicate 257 0), .tokenGrant 256, .almanacEvent 8 0,
    .almanacEvent 0 8, .lampPattern .spi 256] : List Instr), i.wf = false := by decide +kernel

theorem test_well_formed_commands : ∀ i ∈ ([.alignSlotSend 15, .portGoDown .spi 15, .portTestMode .spi 0 4, .blockLockLoss 0 3,
    .lockAcquired 0 15 false [0, 0, 0, 0], .marginMeasure 0 [1, 2, 3, 4] [1, 2, 3, 4], .mailboxGo 7, .read .spi 0x100101,
    .enumeration [(0, 62)], .scrub place 3, .hardwareTrip 19, .latch 31, .almanacEvent 7 7, .flipDeadline, .warmReset,
    .sensorSample [] []] : List Instr), i.wf = true := by decide +kernel

/-! The spec's own worked examples. -/

/-- R60: the 32-byte request for the mode of the tile at address 22 leaves the sender as one READ of 1001h.01. -/
theorem test_tlaroek_request :
    let s := sender [(0x2000, 2, 6)] { gridded with link := { LinkState.initial with addresses := [(22, 0, 1)] } }
    let c : Instr := .tlaroekDatagram ⟨0x0A000001, 5000, 31260⟩ ([0x54, 0x4C, 1, 0, 7, 0, 0, 0, 1, 0, 0x20, 0, 0, 0, 0, 0,
      1, 0, 0x16, 0, 1, 0x10, 1, 0, 0, 0, 0, 0, 0, 0, 0, 0])
    (match exec c s with
      | .next t => t.hid.doors.requests.map fun r => (r.target, r.op, r.key, r.port)
      | _ => []) = [(22, 1, keyOf 0x1001 1, 0)] := by decide +kernel

/-- R62: 6101h.01 lies at 0x0308_0808 and 1010h.01 at 0x0080_8008 of BAR0. -/
theorem test_bar0_offsets :
    (match exec (.bar0Access true 0x03080808 0 4 [0xD1, 7, 0, 0]) (sender [(0x6020, 1, 0x33)]) with
      | .next t => t.hid.commit.staged
      | _ => []) = [(keyOf 0x6101 1, 2001)] ∧
    (0x03080808 / 8, 0x00808008 / 8) = (keyOf 0x6101 1, keyOf 0x1010 1) := by decide +kernel

/-- R85: four channels at 16 Gb/s, f = 80 and 1,920 Hz hold 47,407,407 bytes; the domain mover has 948,350 bytes and
32,554 cc of them. -/
theorem test_capacity_and_budget :
    let s := tile [(0x3010, 1, 1), (0x3010, 4, 0xF)] { gridded with
      time := { gridded.time with grid := some ⟨100, 10 * 10 ^ 9, 1920, 1, 8⟩ }
      memory := { MemoryState.initial with rate := 160 } }
    s.capacity 1920 1 0 = 47407407 ∧ s.byteBudget 0 = 948350 ∧ s.cycleBudget 0 = 32554 := by decide +kernel

/-- The slot of Bench Two (R314, R315, R318): blanking 3,300 cc, active length 78,080 cc, TMAX 3,929. -/
theorem test_bench_two_slot :
    let s := tile [(0x4300, 1, 1920), (0x4300, 2, 1), (0x4300, 3, 8), (0x4000, 1, 1), (0x4000, 2, 0x0480002400100010),
      (0x4000, 3, 0x0040000100010000), (0x4000, 4, 0xFF)]
    s.lineLength false 0 = 1220 ∧ s.activeLength false 0 = 78080 ∧ s.blanking false 0 = 3300 ∧ s.tmax false 0 = 3929 := by
  decide +kernel

/-- Bench Two, tile 3: position 17 of string 5 of array 2 of lane 3 is lamp 25,713 (R330). -/
theorem test_bench_two_lamp :
    let s := tile [(0x4100, 1, 0x01000100), (0x4200, 1, 3), (0x5113, 1, 96), (0x5113, 2, 0x400020)]
    s.stringLamp 3 2 5 17 = some 25713 := by decide +kernel

/-- The sender's reserved area (R372, R374): 0x1A_0000_0000 lies in M32, bank 7, row 94,663, with its code in bank 15, row
128,340, at code atom 56. -/
theorem test_reserved_area_mapping :
    let s := sender [(0x3010, 1, 1), (0x3010, 3, 2 ^ 40), (0x3010, 4, 2 ^ 36 - 1), (0x3010, 5, 12)]
    (s.placeOf 0x1A00000000 0).map (fun p => (p.channel, p.bank, p.row, p.atom)) = some (32, 7, 94663, 0) ∧
    (s.placeOf 0x1A00000000 0).map (fun p => let c := codePlace true 3 p; (c.bank, c.row, c.atom)) = some (15, 128340, 56) ∧
    (s.placeOf 0x1A00001000 0).map MemPlace.channel = some 33 := by decide +kernel

/-- The worked re-epoch (R175, R198): sdiff(0x8AFD_0250, 0x2000_0000) = +1,794,966,096 ns. -/
theorem test_reepoch_difference : lt32Diff 0x8AFD0250 0x20000000 = 1794966096 := by decide

/-- Chapter 3: 651,041 cc at 1,920 Hz, 20,833,333 at 60 Hz. -/
theorem test_cycles_per_tick : Grid.lcc 1920 1 = 651041 ∧ Grid.lcc 60 1 = 20833333 := by decide

end Sys2Proof.Tests
end

section
namespace Sys2Proof.Machine

/-! ### The fixed lists of the state

`State.shaped` counts the lists that stand for hardware present in a fixed number. The predicate is taken apart by the
part of the state it speaks of, and each way to change a part, and each way to put effects together, is given its rule. -/

@[simp] theorem length_setAt {α : Type} (l : List α) (i : Nat) (v : α) : (setAt l i v).length = l.length := by
  induction l generalizing i with
  | nil => rfl
  | cons x r ih => cases i <;> simp [setAt, ih]

@[simp] theorem length_updateAt {α : Type} (l : List α) (i : Nat) (f : α → α) : (updateAt l i f).length = l.length := by
  induction l generalizing i with
  | nil => rfl
  | cons x r ih => cases i <;> simp [updateAt, ih]

/-- The budgets of the 11 budgeted masters (R82). -/
@[simp] def BudgetState.Shaped (b : BudgetState) : Prop :=
  b.bytes.length = 11 ∧ b.cycles.length = 11 ∧ b.streak.length = 11

/-- 32 lanes, 65 references, the diodes and their margins, and the sweeps of 128 arrays (R369). -/
@[simp] def ScanState.Shaped (x : ScanState) : Prop :=
  x.lanes.length = 32 ∧ x.kinds.length = 32 ∧ x.refs.length = 65 ∧ x.diodes.length = 4 ∧ x.margins.length = 4 ∧
    x.sweepAt.length = 128

/-- Four sources of time and the best master of each of the two PTP ports. -/
@[simp] def TimeState.Shaped (m : TimeState) : Prop := m.sources.length = 4 ∧ m.ptp.best.length = 2

/-- Four inputs, two previews and 16 flows. -/
@[simp] def IngestState.Shaped (i : IngestState) : Prop :=
  i.hpd.length = 4 ∧ i.full.length = 4 ∧ i.dpAt.length = 4 ∧ i.engines.length = 4 ∧ i.previews.length = 2 ∧
    i.flows.length = 16

/-- 12 sensors (R398). -/
@[simp] def HeatState.Shaped (h : HeatState) : Prop := h.sensors.length = 12

/-- 36 channels. -/
@[simp] def MemoryState.Shaped (m : MemoryState) : Prop :=
  m.writeBacks.length = 36 ∧ m.halving.length = 36 ∧ m.attempts.length = 36

/-- The agreement counted for each of 16 ports. -/
@[simp] def PairState.Shaped (p : PairState) : Prop := p.agree.length = 16

/-- The counts of the tick, for each of 16 ports. -/
@[simp] def TickCounts.Shaped (t : TickCounts) : Prop :=
  t.corrected.length = 16 ∧ t.uncorrectable.length = 16 ∧ t.idle.length = 16 ∧ t.cells.length = 16

/-- The fixed lists of everything beside the dictionary have their lengths: `State.shaped`, by the part it speaks of. -/
structure Hidden.Shaped (h : Hidden) : Prop where
  ports : h.ports.length = 16
  budget : h.budget.Shaped
  scan : h.scan.Shaped
  time : h.time.Shaped
  ingest : h.ingest.Shaped
  heat : h.heat.Shaped
  memory : h.memory.Shaped
  pair : h.pair.Shaped
  counts : h.counts.Shaped

theorem State.shaped_iff (s : State) : s.shaped = true ↔ s.hid.Shaped := by
  simp only [State.shaped, Bool.and_eq_true, beq_iff_eq]
  constructor
  · intro h
    constructor <;> simp [h]
  · rintro ⟨hports, hbudget, hscan, htime, hingest, hheat, hmemory, hpair, hcounts⟩
    simp_all

/-- The fixed lists keep their lengths from one state to the other. -/
def ShapeKept (a b : Hidden) : Prop := a.Shaped → b.Shaped

/-- Whatever an effect changes beside the dictionary, the fixed lists keep their lengths. -/
def Effect.KeepsShape (e : Effect) : Prop := e.Beside ShapeKept

theorem Effect.KeepsShape.run {e : Effect} {s : State} (h : e.KeepsShape) (hs : s.shaped = true) :
    (e.run s).shaped = true := by
  rw [State.shaped_iff] at hs ⊢
  exact Effect.Beside.hid (R := ShapeKept) (fun _ => id) (fun h h' => h' ∘ h) h hs

theorem Hidden.shaped_initial : Hidden.initial.Shaped := by
  constructor <;>
  simp [Hidden.initial, BudgetState.initial, ScanState.initial, TimeState.initial, PtpState.initial, IngestState.initial,
    HeatState.initial, MemoryState.initial, PairState.initial, TickCounts.initial]

@[simp] theorem Effect.keepsShape_nothing : Effect.nothing.KeepsShape := trivial
@[simp] theorem Effect.keepsShape_seq (a b : Effect) : (Effect.seq a b).KeepsShape ↔ a.KeepsShape ∧ b.KeepsShape :=
  Iff.rfl
@[simp] theorem Effect.keepsShape_look (f : State → Effect) : (Effect.look f).KeepsShape ↔ ∀ s, (f s).KeepsShape :=
  Iff.rfl
@[simp] theorem Effect.keepsShape_all_nil : (Effect.all []).KeepsShape := trivial
@[simp] theorem Effect.keepsShape_all_cons (e : Effect) (es : List Effect) :
    (Effect.all (e :: es)).KeepsShape ↔ e.KeepsShape ∧ (Effect.all es).KeepsShape := Effect.beside_all_cons e es
@[simp] theorem Effect.keepsShape_each {α : Type} (f : α → Effect) (l : List α) :
    (Effect.each f l).KeepsShape ↔ ∀ x ∈ l, (f x).KeepsShape := Effect.beside_each f l
@[simp] theorem Effect.keepsShape_when (c : Bool) (e : Effect) :
    (Effect.when c e).KeepsShape ↔ (c = true → e.KeepsShape) := Effect.beside_when c e
@[simp] theorem Effect.keepsShape_ite (c : Prop) [Decidable c] (a b : Effect) :
    (if c then a else b).KeepsShape ↔ (c → a.KeepsShape) ∧ (¬ c → b.KeepsShape) := Effect.beside_ite c a b
@[simp] theorem Effect.keepsShape_if (c : State → Bool) (a b : Effect) :
    (Effect.if' c a b).KeepsShape ↔ ∀ s, (c s = true → a.KeepsShape) ∧ (c s = false → b.KeepsShape) := by
  simp [Effect.if']
@[simp] theorem Effect.keepsShape_ofOption {α : Type} (o : Option α) (f : α → Effect) (e : Effect) :
    (Effect.ofOption o f e).KeepsShape ↔ (∀ x, o = some x → (f x).KeepsShape) ∧ (o = none → e.KeepsShape) :=
  Effect.beside_ofOption o f e
@[simp] theorem set_keepsShape (i sub v : Nat) : (set i sub v).KeepsShape := trivial
@[simp] theorem setBy_keepsShape (i sub : Nat) (f : State → Nat) : (setBy i sub f).KeepsShape := fun _ => trivial
@[simp] theorem setInt_keepsShape (w i sub : Nat) (v : Int) : (setInt w i sub v).KeepsShape := trivial
@[simp] theorem addTo_keepsShape (w i sub n : Nat) : (addTo w i sub n).KeepsShape := fun _ => trivial
@[simp] theorem count_keepsShape (w i sub : Nat) : (count w i sub).KeepsShape := fun _ => trivial
@[simp] theorem setField_keepsShape (i sub hi lo v : Nat) : (setField i sub hi lo v).KeepsShape := fun _ => trivial
@[simp] theorem addField_keepsShape (i sub hi lo n : Nat) : (addField i sub hi lo n).KeepsShape := fun _ => trivial
@[simp] theorem countField_keepsShape (i sub hi lo : Nat) : (countField i sub hi lo).KeepsShape := fun _ => trivial
@[simp] theorem setBit_keepsShape (i sub b : Nat) (on : Bool) : (setBit i sub b on).KeepsShape := fun _ => trivial
@[simp] theorem clearOnes_keepsShape (k : Key) (ones : Nat) : (clearOnes k ones).KeepsShape := fun _ => trivial
@[simp] theorem emit_keepsShape (o : Output) : (emit o).KeepsShape := trivial
@[simp] theorem raise_keepsShape (r d : Nat) : (raise r d).KeepsShape := trivial
@[simp] theorem storeAt_keepsShape (a : Nat) (bs : List Byte) : (storeAt a bs).KeepsShape := trivial
@[simp] theorem eraseAt_keepsShape (a n : Nat) : (eraseAt a n).KeepsShape := trivial
@[simp] theorem act_resetRegs_keepsShape (p : Personality) (ks : List Key) : (Effect.act (.resetRegs p ks)).KeepsShape :=
  trivial
@[simp] theorem act_erase_keepsShape (lo hi : Nat) : (Effect.act (.erase lo hi)).KeepsShape := trivial
@[simp] theorem useFree_keepsShape : useFree.KeepsShape := trivial
@[simp] theorem onCommit_keepsShape (f : CommitState → CommitState) : (onCommit f).KeepsShape := fun _ hs => { hs with }
@[simp] theorem onReset_keepsShape (f : ResetState → ResetState) : (onReset f).KeepsShape := fun _ hs => { hs with }
@[simp] theorem onMode_keepsShape (f : ModeState → ModeState) : (onMode f).KeepsShape := fun _ hs => { hs with }
@[simp] theorem onLink_keepsShape (f : LinkState → LinkState) : (onLink f).KeepsShape := fun _ hs => { hs with }
@[simp] theorem onDoors_keepsShape (f : DoorState → DoorState) : (onDoors f).KeepsShape := fun _ hs => { hs with }
@[simp] theorem onAlmanac_keepsShape (f : AlmanacState → AlmanacState) : (onAlmanac f).KeepsShape :=
  fun _ hs => { hs with }
@[simp] theorem onCompose_keepsShape (f : ComposeState → ComposeState) : (onCompose f).KeepsShape :=
  fun _ hs => { hs with }
@[simp] theorem onColour_keepsShape (f : ColourState → ColourState) : (onColour f).KeepsShape := fun _ hs => { hs with }
@[simp] theorem onUpdate_keepsShape (f : UpdateState → UpdateState) : (onUpdate f).KeepsShape := fun _ hs => { hs with }
@[simp] theorem onPort_keepsShape (p : Nat) (f : PortState → PortState) : (onPort p f).KeepsShape := fun _ hs =>
  { hs with ports := by simpa using hs.ports }

@[simp] theorem onBudget_keepsShape (f : BudgetState → BudgetState) : (onBudget f).KeepsShape ↔
    ∀ x : BudgetState, x.Shaped → (f x).Shaped :=
  ⟨fun h x hx => (h { Hidden.initial with budget := x } { Hidden.shaped_initial with budget := hx }).budget,
    fun hf _ hs => { hs with budget := hf _ hs.budget }⟩

@[simp] theorem onScan_keepsShape (f : ScanState → ScanState) : (onScan f).KeepsShape ↔
    ∀ x : ScanState, x.Shaped → (f x).Shaped :=
  ⟨fun h x hx => (h { Hidden.initial with scan := x } { Hidden.shaped_initial with scan := hx }).scan,
    fun hf _ hs => { hs with scan := hf _ hs.scan }⟩

@[simp] theorem onTime_keepsShape (f : TimeState → TimeState) : (onTime f).KeepsShape ↔
    ∀ x : TimeState, x.Shaped → (f x).Shaped :=
  ⟨fun h x hx => (h { Hidden.initial with time := x } { Hidden.shaped_initial with time := hx }).time,
    fun hf _ hs => { hs with time := hf _ hs.time }⟩

@[simp] theorem onIngest_keepsShape (f : IngestState → IngestState) : (onIngest f).KeepsShape ↔
    ∀ x : IngestState, x.Shaped → (f x).Shaped :=
  ⟨fun h x hx => (h { Hidden.initial with ingest := x } { Hidden.shaped_initial with ingest := hx }).ingest,
    fun hf _ hs => { hs with ingest := hf _ hs.ingest }⟩

@[simp] theorem onHeat_keepsShape (f : HeatState → HeatState) : (onHeat f).KeepsShape ↔
    ∀ x : HeatState, x.Shaped → (f x).Shaped :=
  ⟨fun h x hx => (h { Hidden.initial with heat := x } { Hidden.shaped_initial with heat := hx }).heat,
    fun hf _ hs => { hs with heat := hf _ hs.heat }⟩

@[simp] theorem onMemory_keepsShape (f : MemoryState → MemoryState) : (onMemory f).KeepsShape ↔
    ∀ x : MemoryState, x.Shaped → (f x).Shaped :=
  ⟨fun h x hx => (h { Hidden.initial with memory := x } { Hidden.shaped_initial with memory := hx }).memory,
    fun hf _ hs => { hs with memory := hf _ hs.memory }⟩

@[simp] theorem onPair_keepsShape (f : PairState → PairState) : (onPair f).KeepsShape ↔
    ∀ x : PairState, x.Shaped → (f x).Shaped :=
  ⟨fun h x hx => (h { Hidden.initial with pair := x } { Hidden.shaped_initial with pair := hx }).pair,
    fun hf _ hs => { hs with pair := hf _ hs.pair }⟩

@[simp] theorem onCounts_keepsShape (f : TickCounts → TickCounts) : (onCounts f).KeepsShape ↔
    ∀ x : TickCounts, x.Shaped → (f x).Shaped :=
  ⟨fun h x hx => (h { Hidden.initial with counts := x } { Hidden.shaped_initial with counts := hx }).counts,
    fun hf _ hs => { hs with counts := hf _ hs.counts }⟩

end Sys2Proof.Machine
end

section
namespace Sys2Proof.Machine

/-! ### Every named effect of the model keeps the fixed lists

One rule per effect, in the order of the model's files, so that the rule of a command cites those of the effects it is
made of and unfolds none of them. -/

/-! #### Modes, domains, local time and the tick grid as every block reads them (R171 to R176, R428, R443) -/

@[simp] theorem TimeState.runOn_shaped (m : TimeState) (units : Nat) : (m.runOn units).Shaped ↔ m.Shaped := Iff.rfl
@[simp] theorem advanceTo_keepsShape (t : Int) : (advanceTo t).KeepsShape := by simp [advanceTo, -TimeState.Shaped]

@[simp] theorem advanceToStep_keepsShape (t : Int) : (advanceToStep t).KeepsShape := by
  simp [advanceToStep, -TimeState.Shaped]

@[simp] theorem advanceCycles_keepsShape (n : Nat) : (advanceCycles n).KeepsShape := by simp [advanceCycles]
@[simp] theorem waitUntil_keepsShape (t : Nat) : (waitUntil t).KeepsShape := fun _ hs => { hs with time := hs.time }

/-! #### The Almanac (R482 to R497) -/

@[simp] theorem loseEvents_keepsShape (n : Nat) : (loseEvents n).KeepsShape := by simp [loseEvents]

@[simp] theorem almanacCount_keepsShape (h b n : Nat) : (almanacCount h b n).KeepsShape := by
  rw [almanacCount, Effect.keepsShape_look]
  intro s
  dsimp only
  repeat' split
  all_goals simp

@[simp] theorem almanac_keepsShape (h b : Nat) : (almanac h b).KeepsShape := by simp [almanac]
@[simp] theorem openPage_keepsShape : openPage.KeepsShape := by simp [openPage]

@[simp] theorem finishPage_keepsShape (reason : Nat) : (finishPage reason).KeepsShape := by
  rw [finishPage, Effect.keepsShape_look]
  intro s
  split <;> simp

@[simp] theorem beginClose_keepsShape (reason : Nat) : (beginClose reason).KeepsShape := by simp [beginClose]

@[simp] theorem almanacSample_keepsShape (samples : List (Nat × Int)) : (almanacSample samples).KeepsShape := by
  rw [almanacSample, Effect.keepsShape_look]
  intro s
  dsimp only
  repeat' split
  all_goals simp

@[simp] theorem almanacBoundary_keepsShape : almanacBoundary.KeepsShape := by
  rw [almanacBoundary, Effect.keepsShape_look]
  intro s
  split <;> simp

@[simp] theorem almanacSetFreeze_keepsShape (on : Bool) : (almanacSetFreeze on).KeepsShape := by simp [almanacSetFreeze]
@[simp] theorem almanacClear_keepsShape : almanacClear.KeepsShape := by simp [almanacClear]

@[simp] theorem almanacStart_keepsShape (warm : Bool) : (almanacStart warm).KeepsShape := by
  simp [almanacStart, -State.reg_eq_entry]

/-! #### The budgeted masters (R82 to R93) -/

@[simp] theorem computeBudgets_keepsShape : computeBudgets.KeepsShape := by simp [computeBudgets]
@[simp] theorem haltMaster_keepsShape (m : Nat) : (haltMaster m).KeepsShape := by simp [haltMaster]
@[simp] theorem charge_keepsShape (m bytes cycles : Nat) : (charge m bytes cycles).KeepsShape := by simp [charge]
@[simp] theorem askRelease_keepsShape (mask : Nat) : (askRelease mask).KeepsShape := by simp [askRelease]
@[simp] theorem masterBoundary_keepsShape (m : Nat) : (masterBoundary m).KeepsShape := by simp [masterBoundary]
@[simp] theorem budgetBoundary_keepsShape : budgetBoundary.KeepsShape := by simp [budgetBoundary]
@[simp] theorem budgetReset_keepsShape : budgetReset.KeepsShape := by simp [budgetReset, BudgetState.initial]
@[simp] theorem budgetCounterClear_keepsShape : budgetCounterClear.KeepsShape := by simp [budgetCounterClear]

/-! #### The maintenance arbiter (R420 to R423) -/

@[simp] theorem takeToken_keepsShape (a t : Nat) : (takeToken a t).KeepsShape := by simp [takeToken]
@[simp] theorem freeToken_keepsShape (t : Nat) : (freeToken t).KeepsShape := by simp [freeToken]
@[simp] theorem endActivity_keepsShape (a : Nat) : (endActivity a).KeepsShape := by simp [endActivity]

@[simp] theorem activityStarts_keepsShape (a : Nat) : (activityStarts a).KeepsShape := by
  rw [activityStarts, Effect.keepsShape_look]
  intro s
  repeat' split
  all_goals simp

@[simp] theorem beginActivity_keepsShape (a : Nat) : (beginActivity a).KeepsShape := by simp [beginActivity]
@[simp] theorem requestActivity_keepsShape (a : Nat) : (requestActivity a).KeepsShape := by simp [requestActivity]
@[simp] theorem grantToken_keepsShape (t : Nat) : (grantToken t).KeepsShape := by simp [grantToken]
@[simp] theorem endMaintenance_keepsShape : endMaintenance.KeepsShape := by simp [endMaintenance]
@[simp] theorem countDeferrals_keepsShape : countDeferrals.KeepsShape := by simp [countDeferrals]

/-! #### The link states of an Elxel port (R119 to R122, R134 to R143) and the commands that move them -/

@[simp] theorem setLink_keepsShape (p state : Nat) : (setLink p state).KeepsShape := by simp [setLink]
@[simp] theorem countLockLoss_keepsShape (p : Nat) : (countLockLoss p).KeepsShape := by simp [countLockLoss]
@[simp] theorem countRealign_keepsShape (p : Nat) : (countRealign p).KeepsShape := by simp [countRealign]
@[simp] theorem leaveUp_keepsShape (p : Nat) : (leaveUp p).KeepsShape := by simp [leaveUp]
@[simp] theorem portDown_keepsShape (p : Nat) : (portDown p).KeepsShape := by simp [portDown]
@[simp] theorem trainingFails_keepsShape (p : Nat) : (trainingFails p).KeepsShape := by simp [trainingFails]
@[simp] theorem startTraining_keepsShape (p : Nat) : (startTraining p).KeepsShape := by simp [startTraining]

@[simp] theorem State.setRole_keepsShape (s : State) (far : Bool) : (State.setRole s far).KeepsShape := by
  simp [State.setRole]

@[simp] theorem evaluateRole_keepsShape : evaluateRole.KeepsShape := by simp [evaluateRole]
@[simp] theorem enterUp_keepsShape (p : Nat) : (enterUp p).KeepsShape := by simp [enterUp]

@[simp] theorem applyPortEnable_keepsShape (p : Nat) : (applyPortEnable p).KeepsShape := by
  simp [applyPortEnable, -State.reg_eq_entry]

@[simp] theorem portRetrain_keepsShape (p : Nat) : (portRetrain p).KeepsShape := by simp [portRetrain]
@[simp] theorem portGoDown_keepsShape (p : Nat) : (portGoDown p).KeepsShape := by simp [portGoDown]
@[simp] theorem portCounterClear_keepsShape (p : Nat) : (portCounterClear p).KeepsShape := by simp [portCounterClear]
@[simp] theorem losePort_keepsShape (p : Nat) : (losePort p).KeepsShape := by simp [losePort]
@[simp] theorem loseAlign_keepsShape (p : Nat) : (loseAlign p).KeepsShape := by simp [loseAlign]

/-! #### The tick grid, steps of local time, re-epochs and own cells -/

@[simp] theorem queueUp_keepsShape (p : Nat) (w : Waiting) : (queueUp p w).KeepsShape := by simp [queueUp]
@[simp] theorem postCell_keepsShape (p : Nat) (c : Cell) : (postCell p c).KeepsShape := by simp [postCell]

@[simp] theorem onQueue_keepsShape (q : Nat) (f : QueueContext → QueueContext) : (onQueue q f).KeepsShape := by
  simp [onQueue]

@[simp] theorem countSent_keepsShape (p : Nat) (c : Cell) : (countSent p c).KeepsShape := by simp [countSent]

@[simp] theorem sendSlot_keepsShape (p : Nat) (blocks : List Block) : (sendSlot p blocks).KeepsShape := by
  simp [sendSlot]

@[simp] theorem sendWaiting_keepsShape (p : Nat) (leaves : Int) (w : Waiting) :
    (sendWaiting p leaves w).KeepsShape := by
  rw [sendWaiting]
  split <;> simp

@[simp] theorem fillSlot_keepsShape (p : Nat) : (fillSlot p).KeepsShape := by
  rw [fillSlot, Effect.keepsShape_look]
  intro s
  split <;> simp

@[simp] theorem withCellOf_keepsShape (p : Nat × Cell → Bool) (f : Nat → Cell → Effect) :
    (withCellOf p f).KeepsShape ↔ ∀ s q, State.takeCell s p = some q → (f q.1.1 q.1.2).KeepsShape := by
  simp [withCellOf]

@[simp] theorem withCell_keepsShape (p : Cell → Bool) (f : Nat → Cell → Effect) :
    (withCell p f).KeepsShape ↔ ∀ s q, State.takeCell s (fun q => p q.2) = some q → (f q.1.1 q.1.2).KeepsShape := by
  simp [withCell]

@[simp] theorem setGrid_keepsShape (n : Nat) (a : Int) (rn rd slots : Nat) : (setGrid n a rn rd slots).KeepsShape := by
  simp [setGrid]

@[simp] theorem alignGrid_keepsShape (num den rn rd slots : Nat) : (alignGrid num den rn rd slots).KeepsShape := by
  simp [alignGrid]

@[simp] theorem moveTime_keepsShape (d : Int) : (moveTime d).KeepsShape := by simp [moveTime]
@[simp] theorem startTrim_keepsShape (d : Int) : (startTrim d).KeepsShape := by simp [startTrim]

@[simp] theorem rebaseLaunches_keepsShape (d : Int) : (rebaseLaunches d).KeepsShape := by
  have hports (f : PortState → PortState) : (hidden fun h => { h with ports := h.ports.map f }).KeepsShape :=
    fun _ hs => { hs with ports := by simpa using hs.ports }
  simp [rebaseLaunches, hports]

@[simp] theorem renumber_keepsShape (before : Nat) : (renumber before).KeepsShape := by simp [renumber]
@[simp] theorem noteSelf_keepsShape : noteSelf.KeepsShape := by simp [noteSelf]
@[simp] theorem applyReepoch_keepsShape (r : Reepoch) : (applyReepoch r).KeepsShape := by simp [applyReepoch]
@[simp] theorem countEntry_keepsShape (e : Nat) : (countEntry e).KeepsShape := by simp [countEntry]
@[simp] theorem noteTime_keepsShape : noteTime.KeepsShape := by simp [noteTime]
@[simp] theorem setRate_keepsShape (r : Int) : (setRate r).KeepsShape := by simp [setRate]

/-! #### The dictionary as a whole -/

@[simp] theorem storeContent_keepsShape (index sub offset : Nat) (bs : List Byte) :
    (storeContent index sub offset bs).KeepsShape := by
  simp [storeContent]

/-! #### The twelve modes (R443 to R447) -/

@[simp] theorem endPending_keepsShape (code : Nat) : (endPending code).KeepsShape := by simp [endPending]
@[simp] theorem endChecking_keepsShape (code : Nat) : (endChecking code).KeepsShape := by simp [endChecking]
@[simp] theorem dropCommits_keepsShape (code : Nat) : (dropCommits code).KeepsShape := by simp [dropCommits]
@[simp] theorem dropByMode_keepsShape : dropByMode.KeepsShape := by simp [dropByMode]

@[simp] theorem setLampEn_keepsShape (on : Bool) : (setLampEn on).KeepsShape := by
  have hpin : (hidden fun h => { h with lampEn := on }).KeepsShape := fun _ hs => { hs with }
  simp [setLampEn, hpin]

@[simp] theorem stopLanes_keepsShape : stopLanes.KeepsShape := by simp +contextual [stopLanes]

@[simp] theorem clamp_keepsShape (on : Bool) : (hidden fun h => { h with clamped := on }).KeepsShape :=
  fun _ hs => { hs with }

@[simp] theorem darkOutputs_keepsShape : darkOutputs.KeepsShape := by simp [darkOutputs]

@[simp] theorem moveMemory_keepsShape (before after : Nat) : (moveMemory before after).KeepsShape := by
  simp [moveMemory]

@[simp] theorem restDomains_keepsShape : restDomains.KeepsShape := by simp [restDomains]
@[simp] theorem wakeDomains_keepsShape : wakeDomains.KeepsShape := by simp [wakeDomains]
@[simp] theorem endTests_keepsShape : endTests.KeepsShape := by simp [endTests]
@[simp] theorem driveHpd_keepsShape (d : Nat) : (driveHpd d).KeepsShape := by simp [driveHpd]
@[simp] theorem driveHpds_keepsShape : driveHpds.KeepsShape := by simp [driveHpds]
@[simp] theorem dropHpds_keepsShape : dropHpds.KeepsShape := by simp [dropHpds]
@[simp] theorem trainPcie_keepsShape : trainPcie.KeepsShape := by simp [trainPcie]

@[simp] theorem enterModeAt_keepsShape (tick m cause : Nat) : (enterModeAt tick m cause).KeepsShape := by
  simp [enterModeAt]

@[simp] theorem enterMode_keepsShape (m cause : Nat) : (enterMode m cause).KeepsShape := by simp [enterMode]

@[simp] theorem changeModeAt_keepsShape (tick m cause : Nat) : (changeModeAt tick m cause).KeepsShape := by
  simp [changeModeAt]

@[simp] theorem changeMode_keepsShape (m cause : Nat) : (changeMode m cause).KeepsShape := by simp [changeMode]
@[simp] theorem acceptRequest_keepsShape (m : Nat) : (acceptRequest m).KeepsShape := by simp [acceptRequest]
@[simp] theorem followThrottle_keepsShape : followThrottle.KeepsShape := by simp [followThrottle]

/-! #### The memory controller (R369 to R397) -/

@[simp] theorem clearPoison_keepsShape (a n : Nat) : (clearPoison a n).KeepsShape := by simp [clearPoison]

@[simp] theorem storePayload_keepsShape (a : Nat) (bs : List Byte) : (storePayload a bs).KeepsShape := by
  simp [storePayload]

@[simp] theorem recordCommand_keepsShape (channel cmd bank row atom req result : Nat) :
    (recordCommand channel cmd bank row atom req result).KeepsShape := by
  simp [recordCommand]

@[simp] theorem resultOf_keepsShape (channel : Nat) (place : Option MemPlace) (result : Nat) :
    (resultOf channel place result).KeepsShape := by
  simp [resultOf]

@[simp] theorem refreshNeighbours_keepsShape (p : MemPlace) : (refreshNeighbours p).KeepsShape := by
  simp [refreshNeighbours]

@[simp] theorem hammerAction_keepsShape (p : MemPlace) : (hammerAction p).KeepsShape := by simp [hammerAction]
@[simp] theorem activate_keepsShape (p : MemPlace) : (activate p).KeepsShape := by simp [activate]
@[simp] theorem openRowAt_keepsShape (p : MemPlace) : (openRowAt p).KeepsShape := by simp [openRowAt]

@[simp] theorem writeCode_keepsShape (channel bank requester : Nat) (r : OpenRow) :
    (writeCode channel bank requester r).KeepsShape := by
  simp [writeCode]

@[simp] theorem writeBackCode_keepsShape (channel bank requester : Nat) :
    (writeBackCode channel bank requester).KeepsShape := by
  simp [writeBackCode]

@[simp] theorem fillCode_keepsShape (p : MemPlace) : (fillCode p).KeepsShape := by simp [fillCode]

@[simp] theorem accessAtom_keepsShape (isWrite part : Bool) (p : MemPlace) :
    (accessAtom isWrite part p).KeepsShape := by
  simp [accessAtom]

@[simp] theorem grantOnChannel_keepsShape (r : BusRequest) : (grantOnChannel r).KeepsShape := by simp [grantOnChannel]
@[simp] theorem defaultRegion_keepsShape : defaultRegion.KeepsShape := by simp [defaultRegion]
@[simp] theorem memoryFails_keepsShape (c : Nat) : (memoryFails c).KeepsShape := by simp [memoryFails]
@[simp] theorem channelTrained_keepsShape (c : Nat) : (channelTrained c).KeepsShape := by simp [channelTrained]
@[simp] theorem finishRelease_keepsShape : finishRelease.KeepsShape := by simp [finishRelease]
@[simp] theorem markDue_keepsShape (c : Nat) : (markDue c).KeepsShape := by simp [markDue]
@[simp] theorem correctedError_keepsShape (c : Nat) : (correctedError c).KeepsShape := by simp [correctedError]

@[simp] theorem freezeMemory_keepsShape (trigger : FreezeTrigger) (p : MemPlace) :
    (freezeMemory trigger p).KeepsShape := by
  simp [freezeMemory]

@[simp] theorem scrubAtom_keepsShape (p : MemPlace) (found : Nat) : (scrubAtom p found).KeepsShape := by
  simp [scrubAtom]

@[simp] theorem freezeRelease_keepsShape : freezeRelease.KeepsShape := by
  rw [freezeRelease, Effect.keepsShape_look]
  intro s
  split <;> simp

@[simp] theorem clearFreezeRecord_keepsShape : clearFreezeRecord.KeepsShape := by simp [clearFreezeRecord]
@[simp] theorem retrainAll_keepsShape : retrainAll.KeepsShape := by simp [retrainAll]
@[simp] theorem scrubNow_keepsShape : scrubNow.KeepsShape := by simp [scrubNow]
@[simp] theorem clearChannel_keepsShape (c : Nat) : (clearChannel c).KeepsShape := by simp [clearChannel]
@[simp] theorem clearChannels_keepsShape : clearChannels.KeepsShape := by simp [clearChannels]
@[simp] theorem startMemoryTest_keepsShape : startMemoryTest.KeepsShape := by simp [startMemoryTest]

/-! #### Looped chains and the sender pair (R144 to R170) -/

@[simp] theorem recordDigest_keepsShape (c : Cell) : (recordDigest c).KeepsShape := by simp [recordDigest]

@[simp] theorem compareDuplicate_keepsShape (c : Cell) : (compareDuplicate c).KeepsShape := by
  rw [compareDuplicate, Effect.keepsShape_look]
  intro s
  split <;> simp

@[simp] theorem throughWindow_keepsShape (c : Cell) {take : Effect} (h : take.KeepsShape) :
    (throughWindow c take).KeepsShape := by
  rw [throughWindow, Effect.keepsShape_look]
  intro s
  dsimp only
  split <;> simp [h]

@[simp] theorem selfBoundary_keepsShape : selfBoundary.KeepsShape := by simp [selfBoundary]
@[simp] theorem peerConfig_keepsShape (dig : Nat) : (peerConfig dig).KeepsShape := by simp [peerConfig]
@[simp] theorem putOwn_keepsShape (d : TickDigest) : (putOwn d).KeepsShape := by simp [putOwn]
@[simp] theorem addOwn_keepsShape (port tick : Nat) (c : Cell) : (addOwn port tick c).KeepsShape := by simp [addOwn]

@[simp] theorem settleDigest_keepsShape (port tick : Nat) : (settleDigest port tick).KeepsShape := by
  simp [settleDigest]

@[simp] theorem applyYields_keepsShape (n : Nat) : (applyYields n).KeepsShape := by simp [applyYields]

@[simp] theorem peerReport_keepsShape (c : Cell) (again : Bool) : (peerReport c again).KeepsShape := by
  simp [peerReport]

@[simp] theorem dropOldDigests_keepsShape : dropOldDigests.KeepsShape := by simp [dropOldDigests]
@[simp] theorem ageHarvests_keepsShape : ageHarvests.KeepsShape := by simp [ageHarvests]
@[simp] theorem pairSettled_keepsShape : pairSettled.KeepsShape := by simp [pairSettled]
@[simp] theorem becomeMaster_keepsShape : becomeMaster.KeepsShape := by simp [becomeMaster]
@[simp] theorem becomeStandby_keepsShape : becomeStandby.KeepsShape := by simp [becomeStandby]
@[simp] theorem announceClaim_keepsShape (m : Nat) : (announceClaim m).KeepsShape := by simp [announceClaim]
@[simp] theorem senderBoundary_keepsShape : senderBoundary.KeepsShape := by simp [senderBoundary]
@[simp] theorem pairBoundary_keepsShape : pairBoundary.KeepsShape := by simp [pairBoundary]
@[simp] theorem pairChoices_keepsShape : pairChoices.KeepsShape := by simp [pairChoices]
@[simp] theorem beaconRuns_keepsShape : beaconRuns.KeepsShape := by simp [beaconRuns]
@[simp] theorem mastership_keepsShape (command : Nat) : (mastership command).KeepsShape := by simp [mastership]

@[simp] theorem clearRedundancyCounters_keepsShape : clearRedundancyCounters.KeepsShape := by
  simp [clearRedundancyCounters]

/-! #### The flash (R454 to R460, R473 to R477) -/

@[simp] theorem program_keepsShape (a : Nat) (bs : List Byte) : (program a bs).KeepsShape := by simp [program]
@[simp] theorem eraseFlash_keepsShape (a n : Nat) : (eraseFlash a n).KeepsShape := by simp [eraseFlash]
@[simp] theorem writePointer_keepsShape (f : Pointer → Pointer) : (writePointer f).KeepsShape := by simp [writePointer]
@[simp] theorem writeAdvent_keepsShape (v : Nat) : (writeAdvent v).KeepsShape := by simp [writeAdvent]
@[simp] theorem setAdvent_keepsShape (v : Nat) : (setAdvent v).KeepsShape := by simp [setAdvent]

/-! #### Update sessions, stores, consolidation, the choice of the image and the confirmation of a start (R461 to
R480) -/

@[simp] theorem openSession_keepsShape (d : Door) : (openSession d).KeepsShape := by simp [openSession]

@[simp] theorem endSession_keepsShape (result dstate : Nat) : (endSession result dstate).KeepsShape := by
  simp [endSession]

@[simp] theorem programPage_keepsShape (page : Nat) : (programPage page).KeepsShape := by simp [programPage]
@[simp] theorem programPages_keepsShape : programPages.KeepsShape := by simp [programPages]

@[simp] theorem takeChunks_keepsShape (offset : Nat) (data : List Byte) : (takeChunks offset data).KeepsShape := by
  simp [takeChunks]

@[simp] theorem finishClose_keepsShape : finishClose.KeepsShape := by simp [finishClose]
@[simp] theorem closeSession_keepsShape : closeSession.KeepsShape := by simp [closeSession]
@[simp] theorem sessionOn_keepsShape : sessionOn.KeepsShape := by simp [sessionOn]
@[simp] theorem dropBlock_keepsShape : dropBlock.KeepsShape := by simp [dropBlock]
@[simp] theorem takeBlock_keepsShape (m : Message) : (takeBlock m).KeepsShape := by simp [takeBlock]
@[simp] theorem flushStores_keepsShape : flushStores.KeepsShape := by simp [flushStores]
@[simp] theorem requestStore_keepsShape (kind : Nat) : (requestStore kind).KeepsShape := by simp [requestStore]

@[simp] theorem storeDone_keepsShape (kind : Nat) (image : List Byte) (slot : Nat) :
    (storeDone kind image slot).KeepsShape := by
  unfold storeDone
  split <;> simp

@[simp] theorem storeEnds_keepsShape : storeEnds.KeepsShape := by simp [storeEnds]
@[simp] theorem askConsolidation_keepsShape : askConsolidation.KeepsShape := by simp [askConsolidation]

@[simp] theorem runImage_keepsShape (image : List Byte) (source : Nat) : (runImage image source).KeepsShape := by
  simp [runImage]

@[simp] theorem runBase_keepsShape : runBase.KeepsShape := by simp [runBase]

@[simp] theorem chooseDelta_keepsShape (memReady : Bool) {vigil : Effect} (h : vigil.KeepsShape) :
    (chooseDelta memReady vigil).KeepsShape := by
  rw [chooseDelta, Effect.keepsShape_look]
  intro s
  simp only [Effect.keepsShape_ite, Effect.keepsShape_seq, Effect.keepsShape_look]
  refine ⟨by simp [h], fun _ => ⟨fun _ => ⟨by simp, fun t => ?_⟩, by simp [h]⟩⟩
  cases t.buildDelta <;> simp [h]

@[simp] theorem chooseBase_keepsShape : chooseBase.KeepsShape := by simp [chooseBase]

/-! #### Which values an entry takes (R11, R41, R475, R524) -/

@[simp] theorem stageValue_keepsShape (k : Key) (v : Nat) : (stageValue k v).KeepsShape := by simp [stageValue]

@[simp] theorem stageContent_keepsShape (k : Key) (offset : Nat) (bs : List Byte) :
    (stageContent k offset bs).KeepsShape := by
  simp [stageContent]

@[simp] theorem storeEntry_keepsShape (r : Row) (k : Key) (bs : List Byte) : (storeEntry r k bs).KeepsShape := by
  rw [storeEntry]
  split <;> simp

/-! #### The checks of a commit (R48) -/

@[simp] theorem recordChecks_keepsShape (c : State) (r : CheckRun) : (recordChecks c r).KeepsShape := by
  simp [recordChecks]

/-! #### What the shunt lanes send (R333, R338, R341) -/

@[simp] theorem onLane_keepsShape (lane : Nat) (f : LaneState → LaneState) : (onLane lane f).KeepsShape := by
  simp [onLane]

@[simp] theorem sendLane_keepsShape (lane : Nat) (blocks : List LaneBlock) : (sendLane lane blocks).KeepsShape := by
  simp [sendLane]

@[simp] theorem sendControl_keepsShape (lane v : Nat) : (sendControl lane v).KeepsShape := by simp [sendControl]
@[simp] theorem sendLatch_keepsShape (lane kind : Nat) : (sendLatch lane kind).KeepsShape := by simp [sendLatch]
@[simp] theorem sendDarkLatches_keepsShape : sendDarkLatches.KeepsShape := by simp [sendDarkLatches]

/-! #### Sensors, levels, compensation and Equinox (R398 to R427), and the assertion of a reset source that a trip
needs (R430 to R432) -/

@[simp] theorem assertReset_keepsShape (code : Nat) : (assertReset code).KeepsShape := by simp [assertReset]

@[simp] theorem takeSensor_keepsShape (k : Nat) (r : SensorReading) (ring : Int) :
    (takeSensor k r ring).KeepsShape := by
  cases r <;> simp [takeSensor]

@[simp] theorem deriveTemperatures_keepsShape : deriveTemperatures.KeepsShape := by simp [deriveTemperatures]
@[simp] theorem throttleTest_keepsShape (v : Nat) : (throttleTest v).KeepsShape := by simp [throttleTest]
@[simp] theorem storeDac_keepsShape (c : Nat) (r : DacRecord) : (storeDac c r).KeepsShape := by simp [storeDac]
@[simp] theorem showSuspects_keepsShape : showSuspects.KeepsShape := by simp [showSuspects]

@[simp] theorem loadCalibration_keepsShape : loadCalibration.KeepsShape := by
  rw [loadCalibration, Effect.keepsShape_look]
  intro s
  split <;> simp

@[simp] theorem takeBandgap_keepsShape : takeBandgap.KeepsShape := by simp [takeBandgap]
@[simp] theorem startNextItem_keepsShape : startNextItem.KeepsShape := by simp [startNextItem]

@[simp] theorem recordResult_keepsShape (result item pairs cause diff : Nat) :
    (recordResult result item pairs cause diff).KeepsShape := by
  simp [recordResult]

@[simp] theorem clearRun_keepsShape : clearRun.KeepsShape := by simp [clearRun]
@[simp] theorem itemDone_keepsShape (item : Nat) : (itemDone item).KeepsShape := by simp [itemDone]
@[simp] theorem abortRun_keepsShape (r : EquinoxRun) (cause : Nat) : (abortRun r cause).KeepsShape := by simp [abortRun]

@[simp] theorem finishRun_keepsShape (r : EquinoxRun) : (finishRun r).KeepsShape := by
  rw [finishRun]
  split <;> simp

@[simp] theorem trimRc_keepsShape (e : Int) : (trimRc e).KeepsShape := by simp [trimRc]
@[simp] theorem failRun_keepsShape (r : EquinoxRun) (cause : Nat) : (failRun r cause).KeepsShape := by simp [failRun]
@[simp] theorem endMeasuring_keepsShape (r : EquinoxRun) : (endMeasuring r).KeepsShape := by simp [endMeasuring]
@[simp] theorem nextPair_keepsShape (r : EquinoxRun) : (nextPair r).KeepsShape := by simp [nextPair]

@[simp] theorem takePair_keepsShape (r : EquinoxRun) (m1 m2 : List Int) : (takePair r m1 m2).KeepsShape := by
  simp [takePair]

@[simp] theorem equinoxBoundary_keepsShape : equinoxBoundary.KeepsShape := by simp [equinoxBoundary]
@[simp] theorem calibrate_keepsShape (items : List Nat) : (calibrate items).KeepsShape := by simp [calibrate]
@[simp] theorem clearSuspects_keepsShape : clearSuspects.KeepsShape := by simp [clearSuspects]
@[simp] theorem endForShutdown_keepsShape : endForShutdown.KeepsShape := by simp [endForShutdown]
@[simp] theorem shutDown_keepsShape : shutDown.KeepsShape := by simp [shutDown]

/-! #### Panel diodes and derating (R284, R351, R352) -/

@[simp] theorem showPanelTemps_keepsShape : showPanelTemps.KeepsShape := by simp [showPanelTemps]

@[simp] theorem diodeChanges_keepsShape (d : Nat) (broken first : Bool) : (diodeChanges d broken first).KeepsShape := by
  simp [diodeChanges]

@[simp] theorem derateTick_keepsShape (n : Nat) : (derateTick n).KeepsShape := by simp [derateTick]
@[simp] theorem showDerate_keepsShape (n : Nat) : (showDerate n).KeepsShape := by simp [showDerate]

/-! #### Where a tile keeps each kind of data in memory (R29, R376), and the words of it that are poisoned (R391) -/

@[simp] theorem mendKind_keepsShape (c : State) (k offset n : Nat) : (mendKind c k offset n).KeepsShape := by
  simp [mendKind]

@[simp] theorem remapRegion_keepsShape (before : State) (i : Nat) : (remapRegion before i).KeepsShape := by
  simp [remapRegion]

@[simp] theorem moveKind_keepsShape (k : Nat) : (moveKind k).KeepsShape := by
  unfold moveKind
  split <;> simp

@[simp] theorem followRegions_keepsShape (before : State) : (followRegions before).KeepsShape := by simp [followRegions]

/-! #### The receive path of a tile (R176, R234, R235, R250, R251, R263) -/

@[simp] theorem gatherCell_keepsShape (stream : Nat) (c : Cell) : (gatherCell stream c).KeepsShape := by
  simp [gatherCell]

@[simp] theorem countDiscard_keepsShape (x : Nat) : (countDiscard x).KeepsShape := by simp [countDiscard]
@[simp] theorem layerCell_keepsShape (stream : Nat) (c : Cell) : (layerCell stream c).KeepsShape := by simp [layerCell]
@[simp] theorem dropTable_keepsShape (error : Nat) : (dropTable error).KeepsShape := by simp [dropTable]
@[simp] theorem deliverCell_keepsShape (c : Cell) : (deliverCell c).KeepsShape := by simp [deliverCell]

@[simp] theorem withMessage_keepsShape (stream : Nat) (f : Message → Effect) : (withMessage stream f).KeepsShape ↔
    ∀ s : State, ∀ q, takeFirst (fun m => m.stream == stream) s.hid.compose.messages = some q → (f q.1).KeepsShape := by
  simp [withMessage]

@[simp] theorem keepWindow_keepsShape (stream tick : Nat) (bytes : List Byte) :
    (keepWindow stream tick bytes).KeepsShape := by
  simp [keepWindow]

@[simp] theorem mismatch_keepsShape (x : Nat) : (mismatch x).KeepsShape := by simp [mismatch]

@[simp] theorem consumeStream_keepsShape (stream n : Nat) : (consumeStream stream n).KeepsShape := by
  simp [consumeStream]

@[simp] theorem clearReceiveCounters_keepsShape : clearReceiveCounters.KeepsShape := by simp [clearReceiveCounters]

/-! #### The compositor of a tile (R252 to R265), the direct layer's line store (R266, R267) and the capture ring -/

@[simp] theorem countShown_keepsShape (late marked : Nat) : (countShown late marked).KeepsShape := by simp [countShown]
@[simp] theorem releaseBanks_keepsShape (s c : State) : (releaseBanks s c).KeepsShape := by simp [releaseBanks]

@[simp] theorem startComposing_keepsShape (n : Nat) (s c : State) : (startComposing n s c).KeepsShape := by
  simp [startComposing]

@[simp] theorem recordSubstitution_keepsShape (n x y : Nat) (poisoned : Bool) (u : Surface) (q : Nat × Bool) :
    (recordSubstitution n x y poisoned u q).KeepsShape := by
  simp [recordSubstitution]

@[simp] theorem readBlocks_keepsShape (n y x : Nat) : (readBlocks n y x).KeepsShape := by
  simp only [readBlocks, Effect.keepsShape_look, Effect.keepsShape_ofOption, Effect.keepsShape_nothing, implies_true, and_true]
  intro s u _
  split <;> simp

@[simp] theorem capture_keepsShape (c : State) (n y : Nat) (lamps : List Nat) : (capture c n y lamps).KeepsShape := by
  simp [capture]

@[simp] theorem emptyRing_keepsShape : emptyRing.KeepsShape := by simp [emptyRing]
@[simp] theorem releaseSlot_keepsShape : releaseSlot.KeepsShape := by simp [releaseSlot]
@[simp] theorem readCapture_keepsShape (offset n : Nat) : (readCapture offset n).KeepsShape := by simp [readCapture]
@[simp] theorem composeDone_keepsShape (c : State) (n : Nat) : (composeDone c n).KeepsShape := by simp [composeDone]

@[simp] theorem storeImage_keepsShape (c : State) (n y : Nat) (lamps : List Nat) :
    (storeImage c n y lamps).KeepsShape := by
  simp [storeImage]

@[simp] theorem abandonView_keepsShape (view : Nat) : (abandonView view).KeepsShape := by simp [abandonView]

@[simp] theorem storeLine_keepsShape (view y : Nat) (pixels : List (List Byte × Nat)) :
    (storeLine view y pixels).KeepsShape := by
  simp [storeLine]

@[simp] theorem clearFirstSubstitution_keepsShape (ones : Nat) : (clearFirstSubstitution ones).KeepsShape := by
  simp [clearFirstSubstitution]

@[simp] theorem clearLayerCounters_keepsShape (x : Nat) : (clearLayerCounters x).KeepsShape := by
  simp [clearLayerCounters]

/-! #### Lamps, strings and the lamp map (R330, R332, R358 to R361) -/

@[simp] theorem mapChanged_keepsShape : mapChanged.KeepsShape := by simp [mapChanged]

@[simp] theorem logBypass_keepsShape (lamp cause attempts : Nat) (td : Int) :
    (logBypass lamp cause attempts td).KeepsShape := by
  simp [logBypass]

@[simp] theorem bypassLamp_keepsShape (l : Nat) : (bypassLamp l).KeepsShape := by simp [bypassLamp]
@[simp] theorem mergeMap_keepsShape : mergeMap.KeepsShape := by simp [mergeMap]
@[simp] theorem replaceMap_keepsShape (bitmap : List Byte) : (replaceMap bitmap).KeepsShape := by simp [replaceMap]
@[simp] theorem clearMap_keepsShape : clearMap.KeepsShape := by simp [clearMap]

@[simp] theorem loadLampMap_keepsShape : loadLampMap.KeepsShape := by
  rw [loadLampMap, Effect.keepsShape_look]
  intro s
  dsimp only
  split <;> simp

/-! #### The scan path and the timing generators of a tile (R285 to R288, R295 to R298, R312 to R323, R333 to R350,
R520) -/

@[simp] theorem copyScan_keepsShape : copyScan.KeepsShape := by simp [copyScan]
@[simp] theorem sendEnd_keepsShape (lane : Nat) : (sendEnd lane).KeepsShape := by simp [sendEnd]
@[simp] theorem lampEnAt_keepsShape (n : Nat) (lanes : List Nat) : (lampEnAt n lanes).KeepsShape := by simp [lampEnAt]

@[simp] theorem latchCurrents_keepsShape (v : Nat) : (latchCurrents v).KeepsShape := by
  simp +contextual [latchCurrents]

@[simp] theorem showClipped_keepsShape : showClipped.KeepsShape := by simp [showClipped]
@[simp] theorem idleLanes_keepsShape (lanes : List Nat) : (idleLanes lanes).KeepsShape := by simp [idleLanes]
@[simp] theorem latchSlot_keepsShape (n k : Nat) : (latchSlot n k).KeepsShape := by simp [latchSlot]
@[simp] theorem tgEvent_keepsShape (r e : Nat) : (tgEvent r e).KeepsShape := by simp [tgEvent]
@[simp] theorem darkLatch_keepsShape (lane : Nat) : (darkLatch lane).KeepsShape := by simp [darkLatch]
@[simp] theorem clearTgCounters_keepsShape (r : Nat) : (clearTgCounters r).KeepsShape := by simp [clearTgCounters]

/-! #### Lamp diagnosis (R346 to R348, R353 to R357, R362) -/

@[simp] theorem showDiagnosis_keepsShape : showDiagnosis.KeepsShape := by simp [showDiagnosis]
@[simp] theorem queueString_keepsShape (q : Locate) : (queueString q).KeepsShape := by simp [queueString]

@[simp] theorem sendDiag_keepsShape (q : Locate) : (sendDiag q).KeepsShape := by
  rw [sendDiag, Effect.keepsShape_look]
  intro s
  dsimp only
  rw [Effect.keepsShape_seq, onScan_keepsShape]
  refine ⟨by simp, fun x hx => ?_⟩
  split_ifs <;> simpa using hx

@[simp] theorem recordLocate_keepsShape (result : Nat) (q : Locate) (position : Nat) :
    (recordLocate result q position).KeepsShape := by
  simp [recordLocate]

@[simp] theorem bypassString_keepsShape (q : Locate) (o : Nat) (whole : Bool) :
    (bypassString q o whole).KeepsShape := by
  simp [bypassString]

@[simp] theorem takeResult_keepsShape (q : Locate) (dresult : Nat) : (takeResult q dresult).KeepsShape := by
  have hsuspect (k : Nat) : (onScan fun x => x.suspect k).KeepsShape := by
    rw [onScan_keepsShape]
    intro x hx
    simpa [ScanState.suspect] using hx
  simp [takeResult, hsuspect, -State.reg_eq_entry]

@[simp] theorem holdResult_keepsShape (q : Locate) (dresult : Nat) : (holdResult q dresult).KeepsShape := by
  simp [holdResult]

@[simp] theorem takeHeld_keepsShape : takeHeld.KeepsShape := by simp [takeHeld]

@[simp] theorem openFlag_keepsShape (lane array string : Nat) : (openFlag lane array string).KeepsShape := by
  simp [openFlag]

@[simp] theorem takeRecord_keepsShape (lane : Nat) (r : ReturnRecord) : (takeRecord lane r).KeepsShape := by
  simp [takeRecord]

@[simp] theorem requeue_keepsShape (lane : Nat) : (requeue lane).KeepsShape := by simp [requeue]
@[simp] theorem countShort_keepsShape (lane n : Nat) : (countShort lane n).KeepsShape := by simp [countShort]

@[simp] theorem takeRecords_keepsShape (lane : Nat) (records : List ReturnRecord) :
    (takeRecords lane records).KeepsShape := by
  simp [takeRecords]

@[simp] theorem clearLampCounters_keepsShape (k : Key) : (clearLampCounters k).KeepsShape := by
  rw [clearLampCounters]
  split <;> simp

/-! #### Sender ingest (R205 to R228) -/

@[simp] theorem setFence_keepsShape (f v : Nat) : (setFence f v).KeepsShape := by simp [setFence]
@[simp] theorem setEffective_keepsShape (f v : Nat) : (setEffective f v).KeepsShape := by simp [setEffective]

theorem IngestState.handBands_shaped {i : IngestState} (limit : Option Nat) (hi : i.Shaped) :
    ∀ n, (i.handBands limit n).Shaped
  | 0 => hi
  | n + 1 => by
    have ih := IngestState.handBands_shaped limit hi n
    rw [IngestState.handBands]
    dsimp only
    repeat' split
    all_goals simpa using ih

@[simp] theorem runEngines_keepsShape : runEngines.KeepsShape := by
  rw [runEngines, Effect.keepsShape_look]
  exact fun s => (onIngest_keepsShape _).mpr fun i hi => IngestState.handBands_shaped _ hi _

@[simp] theorem startCompressing_keepsShape : startCompressing.KeepsShape := by simp [startCompressing]

@[simp] theorem queueFrame_keepsShape (source number w h : Nat) (frame : Option Frame) :
    (queueFrame source number w h frame).KeepsShape := by
  simp [queueFrame]

@[simp] theorem finishFrame_keepsShape (j : CompressJob) : (finishFrame j).KeepsShape := by
  rw [finishFrame]
  split <;> simp

@[simp] theorem followFence_keepsShape (i : Nat) : (followFence i).KeepsShape := by simp [followFence]
@[simp] theorem followFences_keepsShape : followFences.KeepsShape := by simp [followFences]
@[simp] theorem writeFence_keepsShape (f v : Nat) : (writeFence f v).KeepsShape := by simp [writeFence]
@[simp] theorem resetFence_keepsShape (f : Nat) : (resetFence f).KeepsShape := by simp [resetFence]

@[simp] theorem newFrame_keepsShape (source w h : Nat) (pixels : List Byte) :
    (newFrame source w h pixels).KeepsShape := by
  simp [newFrame]

@[simp] theorem noteReturn_keepsShape (source : Nat) (lost : Bool) : (noteReturn source lost).KeepsShape := by
  simp [noteReturn]

@[simp] theorem onFlow_keepsShape (f : Nat) (g : FlowState → FlowState) : (onFlow f g).KeepsShape := by simp [onFlow]
@[simp] theorem joinLeg_keepsShape (f leg : Nat) : (joinLeg f leg).KeepsShape := by simp [joinLeg]
@[simp] theorem followLegs_keepsShape (f : Nat) : (followLegs f).KeepsShape := by simp [followLegs, -State.reg_eq_entry]
@[simp] theorem clearDpCounters_keepsShape (d : Nat) : (clearDpCounters d).KeepsShape := by simp [clearDpCounters]
@[simp] theorem clearFlowCounters_keepsShape (f : Nat) : (clearFlowCounters f).KeepsShape := by simp [clearFlowCounters]
@[simp] theorem clearPcieCounters_keepsShape : clearPcieCounters.KeepsShape := by simp [clearPcieCounters]

/-! #### Flips, slicing and launch on a sender (R31, R147, R223 to R238) -/

@[simp] theorem advanceMember_keepsShape (c : State) (code : Nat) : (advanceMember c code).KeepsShape := by
  simp [advanceMember]

@[simp] theorem markStale_keepsShape (g : Nat) (on : Bool) : (markStale g on).KeepsShape := by simp [markStale]

@[simp] theorem advanceGroup_keepsShape (c : State) (g k : Nat) : (advanceGroup c g k).KeepsShape := by
  simp [advanceGroup]

@[simp] theorem settleGroup_keepsShape (n g : Nat) : (settleGroup n g).KeepsShape := by simp [settleGroup]
@[simp] theorem startClips_keepsShape (n : Nat) : (startClips n).KeepsShape := by simp [startClips]
@[simp] theorem sliceTick_keepsShape (n : Nat) : (sliceTick n).KeepsShape := by simp [sliceTick]
@[simp] theorem dropLayers_keepsShape : dropLayers.KeepsShape := by simp [dropLayers]
@[simp] theorem flipTick_keepsShape (n : Nat) : (flipTick n).KeepsShape := by simp [flipTick]

@[simp] theorem sendDirect_keepsShape (a b : Nat) (first last : Bool) (body : List Byte) :
    (sendDirect a b first last body).KeepsShape := by
  simp [sendDirect]

@[simp] theorem sendSegment_keepsShape (a b : Nat) (bytes : List Byte) : (sendSegment a b bytes).KeepsShape := by
  simp [sendSegment]

@[simp] theorem sliceLine_keepsShape (source line : Nat) (pixels : Option (Nat → List Byte)) (b : Nat) :
    (sliceLine source line pixels b).KeepsShape := by
  rw [sliceLine]
  split <;> simp

@[simp] theorem clearLines_keepsShape (source : Nat) : (clearLines source).KeepsShape := by simp [clearLines]
@[simp] theorem loseDp_keepsShape (d : Nat) : (loseDp d).KeepsShape := by simp [loseDp]
@[simp] theorem loseFlow_keepsShape (f : Nat) : (loseFlow f).KeepsShape := by simp [loseFlow]
@[simp] theorem clearSlicerCounters_keepsShape : clearSlicerCounters.KeepsShape := by simp [clearSlicerCounters]

/-! #### The preview outputs of a sender (R268 to R272, R280, R317), and the flip deadline that starts their builds -/

@[simp] theorem onPreview_keepsShape (o : Nat) (f : PreviewState → PreviewState) : (onPreview o f).KeepsShape := by
  simp [onPreview]

@[simp] theorem abandonBuild_keepsShape (o : Nat) : (abandonBuild o).KeepsShape := by simp [abandonBuild]
@[simp] theorem beginBuild_keepsShape (n o : Nat) : (beginBuild n o).KeepsShape := by simp [beginBuild]
@[simp] theorem readEdid_keepsShape (o : Nat) (k : PreviewSink) : (readEdid o k).KeepsShape := by simp [readEdid]
@[simp] theorem followPreview_keepsShape (o : Nat) : (followPreview o).KeepsShape := by simp [followPreview]

@[simp] theorem clearPreviewCounters_keepsShape (o : Nat) : (clearPreviewCounters o).KeepsShape := by
  simp [clearPreviewCounters]

@[simp] theorem clearBuildCounters_keepsShape : clearBuildCounters.KeepsShape := by simp [clearBuildCounters]

/-! #### The queue engine of a sender for streams 64 to 511 (R53, R54, R147, R232 to R236, R241) -/

@[simp] theorem sendMessage_keepsShape (ports : List Nat) (queue : Nat) (timed bcast : Bool) (lt : Nat) (bytes : List Byte)
    (ring : Option Nat) : (sendMessage ports queue timed bcast lt bytes ring).KeepsShape := by
  simp [sendMessage]

@[simp] theorem runQueue_keepsShape (q : Nat) : (runQueue q).KeepsShape := by simp [runQueue]
@[simp] theorem startQueue_keepsShape (q : Nat) : (startQueue q).KeepsShape := by simp [startQueue]
@[simp] theorem moveRing_keepsShape (q : Nat) : (moveRing q).KeepsShape := by simp [moveRing]
@[simp] theorem runQueues_keepsShape : runQueues.KeepsShape := by simp [runQueues]
@[simp] theorem ring_keepsShape (q tail : Nat) : (ring q tail).KeepsShape := by simp [ring]
@[simp] theorem resetQueue_keepsShape (q : Nat) : (resetQueue q).KeepsShape := by simp [resetQueue]
@[simp] theorem disableQueue_keepsShape (q : Nat) : (disableQueue q).KeepsShape := by simp [disableQueue]
@[simp] theorem enableQueue_keepsShape (q : Nat) : (enableQueue q).KeepsShape := by simp [enableQueue]
@[simp] theorem clearQueueCounters_keepsShape : clearQueueCounters.KeepsShape := by simp [clearQueueCounters]

/-! #### SYNC outputs (R299, R300, R310), the slot planner (R303, R309) and the table loader (R294, R311) of a sender
-/

@[simp] theorem writeStartTime_keepsShape (k t : Nat) : (writeStartTime k t).KeepsShape := by simp [writeStartTime]
@[simp] theorem planSlots_keepsShape : planSlots.KeepsShape := by simp [planSlots]
@[simp] theorem runLoader_keepsShape : runLoader.KeepsShape := by simp [runLoader]
@[simp] theorem startLoader_keepsShape : startLoader.KeepsShape := by simp [startLoader]

/-! #### The sender as a gateway (R53 to R56, R125 to R132) -/

@[simp] theorem sendSweep_keepsShape (p tag : Nat) (e : ServiceEntry) : (sendSweep p tag e).KeepsShape := by
  simp [sendSweep]

@[simp] theorem refuseTarget_keepsShape (a : Nat) : (refuseTarget a).KeepsShape := by simp [refuseTarget]
@[simp] theorem targetReady_keepsShape (a : Nat) : (targetReady a).KeepsShape := by simp [targetReady]
@[simp] theorem endUpdate_keepsShape (status : Nat) : (endUpdate status).KeepsShape := by simp [endUpdate]

@[simp] theorem finishRequest_keepsShape (r : Request) (status : Nat) (value : List Byte) :
    (finishRequest r status value).KeepsShape := by
  rw [finishRequest]
  dsimp only
  rw [Effect.keepsShape_seq]
  refine ⟨by simp, ?_⟩
  split
  · simp
  · simp
  · rw [Effect.keepsShape_look]
    intro s
    rw [Effect.keepsShape_when]
    intro _
    split <;> simp [apply_ite Effect.KeepsShape]

@[simp] theorem sendRequest_keepsShape (asker : Asker) (target op key : Nat) (value : List Byte) (stream : Option Nat) :
    (sendRequest asker target op key value stream).KeepsShape := by
  rw [sendRequest, Effect.keepsShape_look]
  intro s
  repeat' split
  all_goals simp

@[simp] theorem touchTransfer_keepsShape (stream target key : Nat) : (touchTransfer stream target key).KeepsShape := by
  simp [touchTransfer]

@[simp] theorem sendDomain_keepsShape (asker : Asker) (target op key offset count : Nat) (data : List Byte) :
    (sendDomain asker target op key offset count data).KeepsShape := by
  rw [sendDomain, Effect.keepsShape_look]
  intro s
  dsimp only
  repeat' split
  all_goals simp

@[simp] theorem sendBroadcast_keepsShape (key : Nat) (value : List Byte) : (sendBroadcast key value).KeepsShape := by
  simp [sendBroadcast]

@[simp] theorem resetLink_keepsShape : resetLink.KeepsShape := by simp [resetLink]
@[simp] theorem askTargets_keepsShape (key : Nat) : (askTargets key).KeepsShape := by simp [askTargets]
@[simp] theorem updateStage_keepsShape (n : Nat) : (updateStage n).KeepsShape := by simp [updateStage]

@[simp] theorem sendBlocks_keepsShape : ∀ n, (sendBlocks n).KeepsShape
  | 0 => trivial
  | n + 1 => by simp [sendBlocks, sendBlocks_keepsShape n]

@[simp] theorem updateOn_keepsShape : updateOn.KeepsShape := by
  rw [updateOn, Effect.keepsShape_look]
  intro s
  dsimp only
  rw [Effect.keepsShape_when]
  intro _
  repeat' split
  all_goals simp

@[simp] theorem startUpdate_keepsShape : startUpdate.KeepsShape := by simp [startUpdate]

/-! #### Coefficient tables and their uploads (R289 to R293, R361) -/

@[simp] theorem setBank_keepsShape (t b code : Nat) : (setBank t b code).KeepsShape := by simp [setBank]

@[simp] theorem tableBlock_keepsShape (t : Nat) (m : Message) : (tableBlock t m).KeepsShape := by
  rw [tableBlock, Effect.keepsShape_look]
  intro s
  split <;> simp

@[simp] theorem finishUpload_keepsShape (table : Nat) (m : Message) : (finishUpload table m).KeepsShape := by
  simp [finishUpload]

@[simp] theorem uploadBlock_keepsShape (table : Nat) (m : Message) : (uploadBlock table m).KeepsShape := by
  simp [uploadBlock]

@[simp] theorem loadTable_keepsShape (t size : Nat) (bytes : List Byte) : (loadTable t size bytes).KeepsShape := by
  simp [loadTable]

@[simp] theorem resetTableLoader_keepsShape : resetTableLoader.KeepsShape := by simp [resetTableLoader]
@[simp] theorem clearUploadCounters_keepsShape : clearUploadCounters.KeepsShape := by simp [clearUploadCounters]

/-! #### The time core's commands (R177 to R199, R528) -/

@[simp] theorem takeGrid_keepsShape (c : Cell) : (takeGrid c).KeepsShape := by simp [takeGrid]

@[simp] theorem joinWall_keepsShape (c : Cell) (port : Nat) (e : Int) : (joinWall c port e).KeepsShape := by
  simp [joinWall]

@[simp] theorem timeAlarm_keepsShape (e : Int) : (timeAlarm e).KeepsShape := by simp [timeAlarm, -State.reg_eq_entry]

@[simp] theorem acceptBeacon_keepsShape (c : Cell) (port : Nat) (e : Int) : (acceptBeacon c port e).KeepsShape := by
  simp [acceptBeacon]

@[simp] theorem startTileHoldover_keepsShape : startTileHoldover.KeepsShape := by simp [startTileHoldover]

@[simp] theorem measureResidence_keepsShape (port : Nat) : (measureResidence port).KeepsShape := by
  simp [measureResidence]

@[simp] theorem acquire_keepsShape : acquire.KeepsShape := by simp [acquire]
@[simp] theorem enterHoldover_keepsShape : enterHoldover.KeepsShape := by simp [enterHoldover]
@[simp] theorem jumpTime_keepsShape : jumpTime.KeepsShape := by simp [jumpTime]

@[simp] theorem onPtp_keepsShape (f : PtpState → PtpState) (h : ∀ x, x.best.length = 2 → (f x).best.length = 2) :
    (onPtp f).KeepsShape := by
  simp +contextual [onPtp, h]

@[simp] theorem showMaster_keepsShape : showMaster.KeepsShape := by
  rw [showMaster, Effect.keepsShape_look]
  intro s
  split <;> simp

@[simp] theorem choosePtp_keepsShape : choosePtp.KeepsShape := by simp [choosePtp]
@[simp] theorem followPtp_keepsShape : followPtp.KeepsShape := by simp [followPtp, -State.reg_eq_entry]

@[simp] theorem hearMaster_keepsShape (netPort : Nat) (m : PtpMaster) : (hearMaster netPort m).KeepsShape := by
  simp [hearMaster]

@[simp] theorem onSource_keepsShape (code : Nat) (f : SourceState → SourceState) : (onSource code f).KeepsShape := by
  simp [onSource]

@[simp] theorem measured_keepsShape (code : Nat) (offset : Option Int) (good : Bool) :
    (measured code offset good).KeepsShape := by
  simp [measured, -State.reg_eq_entry]

@[simp] theorem ptpMoves_keepsShape (offset : Int) : (ptpMoves offset).KeepsShape := by
  simp [ptpMoves, -State.reg_eq_entry]

@[simp] theorem measureSync_keepsShape (origin arrival : Int) : (measureSync origin arrival).KeepsShape := by
  simp [measureSync]

@[simp] theorem measurePath_keepsShape (receive : Int) (sequence : Nat) :
    (measurePath receive sequence).KeepsShape := by
  simp [measurePath]

@[simp] theorem keepEdge_keepsShape (code : Nat) (edge : Int) : (keepEdge code edge).KeepsShape := by simp [keepEdge]
@[simp] theorem changeSource_keepsShape (code : Nat) : (changeSource code).KeepsShape := by simp [changeSource]

@[simp] theorem nextSource_keepsShape : nextSource.KeepsShape := by
  rw [nextSource, Effect.keepsShape_look]
  intro s
  split <;> simp

@[simp] theorem followSources_keepsShape : followSources.KeepsShape := by
  rw [followSources, Effect.keepsShape_look]
  intro s
  split <;> simp

@[simp] theorem reepochCommand_keepsShape (kind : Nat) : (reepochCommand kind).KeepsShape := by
  rw [reepochCommand, Effect.keepsShape_look]
  intro s
  dsimp only
  repeat' split
  all_goals simp

@[simp] theorem reepochFirst_keepsShape : reepochFirst.KeepsShape := by simp [reepochFirst]
@[simp] theorem timeCounterClear_keepsShape : timeCounterClear.KeepsShape := by simp [timeCounterClear]
@[simp] theorem ptpCounterClear_keepsShape : ptpCounterClear.KeepsShape := by simp [ptpCounterClear]

/-! #### The commit engine (R45 to R51, R436 step 5, R527) and the tick boundary (R75) -/

@[simp] theorem checkNew_keepsShape (c : Commit) : (checkNew c).KeepsShape := by simp [checkNew]
@[simp] theorem takeCommit_keepsShape (timed : Bool) : (takeCommit timed).KeepsShape := by simp [takeCommit]
@[simp] theorem commandCommit_keepsShape (timed : Bool) : (commandCommit timed).KeepsShape := by simp [commandCommit]
@[simp] theorem cancelCommit_keepsShape : cancelCommit.KeepsShape := by simp [cancelCommit]
@[simp] theorem discardStaged_keepsShape : discardStaged.KeepsShape := by simp [discardStaged]

@[simp] theorem refuseCommit_keepsShape (c : Commit) (f : Failure) (phase : Nat) :
    (refuseCommit c f phase).KeepsShape := by
  simp [refuseCommit]

@[simp] theorem followRate_keepsShape (before : State) (boot : Bool) (n : Nat) :
    (followRate before boot n).KeepsShape := by
  simp [followRate]

@[simp] theorem followTile_keepsShape (before : State) (n : Nat) : (followTile before n).KeepsShape := by
  simp [followTile]

@[simp] theorem followSender_keepsShape : followSender.KeepsShape := by simp [followSender]
@[simp] theorem applyCommit_keepsShape (c : Commit) (n : Nat) : (applyCommit c n).KeepsShape := by simp [applyCommit]
@[simp] theorem modeAfterBoot_keepsShape : modeAfterBoot.KeepsShape := by simp [modeAfterBoot]
@[simp] theorem returnMode_keepsShape : returnMode.KeepsShape := by simp [returnMode]
@[simp] theorem supervise_keepsShape : supervise.KeepsShape := by simp [supervise]
@[simp] theorem countMissed_keepsShape : countMissed.KeepsShape := by simp [countMissed]

/-! #### Slots, cells and service cells of the Elxel ports (R101 to R136), and enumeration (R18 to R21, R123) -/

@[simp] theorem countCorrected_keepsShape (p lane n : Nat) : (countCorrected p lane n).KeepsShape := by
  simp [countCorrected]

@[simp] theorem countUncorrectable_keepsShape (p n : Nat) : (countUncorrectable p n).KeepsShape := by
  simp [countUncorrectable]

@[simp] theorem countPoisoned_keepsShape (p n : Nat) : (countPoisoned p n).KeepsShape := by simp [countPoisoned]
@[simp] theorem countIdle_keepsShape (p n : Nat) : (countIdle p n).KeepsShape := by simp [countIdle]
@[simp] theorem countUntaken_keepsShape (p : Nat) : (countUntaken p).KeepsShape := by simp [countUntaken]
@[simp] theorem sendAlign_keepsShape (p : Nat) : (sendAlign p).KeepsShape := by simp [sendAlign]
@[simp] theorem sendTrain_keepsShape (p : Nat) : (sendTrain p).KeepsShape := by simp [sendTrain]
@[simp] theorem passEmpty_keepsShape (p : Nat) : (passEmpty p).KeepsShape := by simp [passEmpty]

@[simp] theorem passSlot_keepsShape (p : Nat) (blocks : List Block) : (passSlot p blocks).KeepsShape := by
  simp [passSlot]

@[simp] theorem loseSlot_keepsShape (p : Nat) : (loseSlot p).KeepsShape := by simp [loseSlot]
@[simp] theorem takeCellIn_keepsShape (p : Nat) (c : Cell) : (takeCellIn p c).KeepsShape := by simp [takeCellIn]

@[simp] theorem turnCell_keepsShape (p : Nat) (c : Cell) (bad : List Nat) : (turnCell p c bad).KeepsShape := by
  simp [turnCell]

@[simp] theorem passSweep_keepsShape (p : Nat) (c : Cell) (bad : List Nat) : (passSweep p c bad).KeepsShape := by
  simp [passSweep]

@[simp] theorem rejectBeacon_keepsShape : rejectBeacon.KeepsShape := by simp [rejectBeacon]

@[simp] theorem tileCell_keepsShape (p : Nat) (c : Cell) (bad : List Nat) : (tileCell p c bad).KeepsShape := by
  simp [tileCell]

@[simp] theorem takeDigest_keepsShape (p : Nat) (c : Cell) : (takeDigest p c).KeepsShape := by simp [takeDigest]

@[simp] theorem senderCell_keepsShape (p : Nat) (c : Cell) (bad : List Nat) : (senderCell p c bad).KeepsShape := by
  rw [senderCell, Effect.keepsShape_look]
  intro s
  repeat' split
  all_goals simp

@[simp] theorem countBlocks_keepsShape (p : Nat) (d : List (List Byte × Decoded)) : (countBlocks p d).KeepsShape := by
  simp [countBlocks]

@[simp] theorem dataSlot_keepsShape (p : Nat) (blocks : List Block) : (dataSlot p blocks).KeepsShape := by
  simp [dataSlot]

@[simp] theorem recordAlign_keepsShape (p : Nat) (blocks : List (List Byte)) : (recordAlign p blocks).KeepsShape := by
  simp [recordAlign]

@[simp] theorem resetSlot_keepsShape (p : Nat) (d : List (List Byte × Decoded)) : (resetSlot p d).KeepsShape := by
  rw [resetSlot, Effect.keepsShape_look]
  intro s
  split <;> simp

@[simp] theorem controlSlotIn_keepsShape (p : Nat) (blocks : List Block) : (controlSlotIn p blocks).KeepsShape := by
  simp [controlSlotIn]

@[simp] theorem alignSlot_keepsShape (p : Nat) (raw : List Block) : (alignSlot p raw).KeepsShape := by
  rw [alignSlot]
  split <;> simp

@[simp] theorem upSlot_keepsShape (p : Nat) (raw : List Block) : (upSlot p raw).KeepsShape := by
  rw [upSlot, Effect.keepsShape_look]
  intro s
  repeat' split
  all_goals simp

@[simp] theorem checkSlot_keepsShape (p : Nat) (raw : List Block) : (checkSlot p raw).KeepsShape := by
  rw [checkSlot, Effect.keepsShape_look]
  intro s
  repeat' split
  all_goals simp

@[simp] theorem trainSlot_keepsShape (p : Nat) (raw : List Block) : (trainSlot p raw).KeepsShape := by simp [trainSlot]
@[simp] theorem takeAddress_keepsShape (a : Nat) : (takeAddress a).KeepsShape := by simp [takeAddress]

@[simp] theorem answerDeferred_keepsShape (d : Deferred) (status : Nat) (value : List Byte) :
    (answerDeferred d status value).KeepsShape := by
  simp [answerDeferred]

@[simp] theorem abortDeferred_keepsShape : abortDeferred.KeepsShape := by simp [abortDeferred]

/-! #### Resets, the release of the domains and the start (R428 to R442, R450) -/

@[simp] theorem flashResetPin_keepsShape (on : Bool) : (hidden fun h => { h with flashReset := on }).KeepsShape :=
  fun _ hs => { hs with }

@[simp] theorem flashResetStart_keepsShape : flashResetStart.KeepsShape := by simp [flashResetStart]
@[simp] theorem flashResetEnd_keepsShape : flashResetEnd.KeepsShape := by simp [flashResetEnd]
@[simp] theorem enterVigil_keepsShape (cause fault : Nat) : (enterVigil cause fault).KeepsShape := by simp [enterVigil]
@[simp] theorem loseMemory_keepsShape : loseMemory.KeepsShape := by simp [loseMemory]
@[simp] theorem sampleStrap_keepsShape : sampleStrap.KeepsShape := by simp [sampleStrap]

theorem Hidden.restarted_shaped {h : Hidden} (hs : h.Shaped) (p : Personality) (level : Bool) :
    (h.restarted p level).Shaped :=
  { Hidden.shaped_initial with
    memory := by simp [Hidden.restarted, MemoryState.initial]
    heat := by simpa [Hidden.restarted] using hs.heat }

@[simp] theorem coldReset_keepsShape (code : Nat) : (coldReset code).KeepsShape := by
  have hrestart (p : Personality) (level : Bool) : (hidden fun h => h.restarted p level).KeepsShape :=
    fun _ hs => Hidden.restarted_shaped hs p level
  simp [coldReset, hrestart]

@[simp] theorem clearDoorCounters_keepsShape : clearDoorCounters.KeepsShape := by simp [clearDoorCounters]
@[simp] theorem clearCounters_keepsShape : clearCounters.KeepsShape := by simp [clearCounters]
@[simp] theorem stopPipe_keepsShape : stopPipe.KeepsShape := by simp +contextual [stopPipe, IngestState.initial]
@[simp] theorem stopCore_keepsShape : stopCore.KeepsShape := by simp [stopCore]
@[simp] theorem warmReset_keepsShape (code : Nat) : (warmReset code).KeepsShape := by simp [warmReset]
@[simp] theorem performReset_keepsShape : performReset.KeepsShape := by simp [performReset]
@[simp] theorem vigilNoImage_keepsShape : vigilNoImage.KeepsShape := by simp [vigilNoImage]

@[simp] theorem adventCheck_keepsShape {e : Effect} (h : e.KeepsShape) : (adventCheck e).KeepsShape := by
  simp [adventCheck, h, -State.reg_eq_entry]

@[simp] theorem chooseImage_keepsShape : chooseImage.KeepsShape := by simp [chooseImage]
@[simp] theorem releaseCore_keepsShape : releaseCore.KeepsShape := by simp [releaseCore]
@[simp] theorem releaseTime_keepsShape : releaseTime.KeepsShape := by simp [releaseTime]
@[simp] theorem releasePipe_keepsShape : releasePipe.KeepsShape := by simp [releasePipe]

@[simp] theorem loadRecord_keepsShape (r : SettingsRecord) : (loadRecord r).KeepsShape := by
  rw [loadRecord, Effect.keepsShape_look]
  intro s
  repeat' split
  all_goals simp

@[simp] theorem readSettings_keepsShape : readSettings.KeepsShape := by
  rw [readSettings, Effect.keepsShape_look]
  intro s
  split <;> simp

@[simp] theorem loadTables_keepsShape : loadTables.KeepsShape := by simp [loadTables]

/-! #### Bring-up tests (R518 to R523), poisoned reads (R391), persistence of the Almanac (R493, R494), and resets of
one block (R440) -/

@[simp] theorem portTest_keepsShape (p mode : Nat) : (portTest p mode).KeepsShape := by simp [portTest]
@[simp] theorem clearPortTest_keepsShape (p : Nat) : (clearPortTest p).KeepsShape := by simp [clearPortTest]
@[simp] theorem stopMemoryTest_keepsShape : stopMemoryTest.KeepsShape := by simp [stopMemoryTest]
@[simp] theorem driveGpio_keepsShape (v : Nat) : (driveGpio v).KeepsShape := by simp [driveGpio]
@[simp] theorem beginSector_keepsShape : beginSector.KeepsShape := by simp [beginSector]
@[simp] theorem persistPage_keepsShape (i : Nat) : (persistPage i).KeepsShape := by simp [persistPage]
@[simp] theorem persistPages_keepsShape : persistPages.KeepsShape := by simp [persistPages]
@[simp] theorem persistNow_keepsShape : persistNow.KeepsShape := by simp [persistNow]

@[simp] theorem resetEffect_keepsShape (code : Nat) : (resetEffect code).KeepsShape := by
  rw [resetEffect]
  split <;> simp

@[simp] theorem resetBlockNow_keepsShape : resetBlockNow.KeepsShape := by simp [resetBlockNow, -State.reg_eq_entry]
@[simp] theorem clearResetCounters_keepsShape : clearResetCounters.KeepsShape := by simp [clearResetCounters]

/-! #### Dictionary accesses (R36 to R45, R70, R524) -/

@[simp] theorem refuse_keepsShape (st : Nat) : (refuse st).effect.KeepsShape := trivial

@[simp] theorem domainReadEffect_keepsShape (d : Door) (k : Key) (offset n : Nat) :
    (domainReadEffect d k offset n).KeepsShape := by
  simp [domainReadEffect]

@[simp] theorem readEffect_keepsShape (d : Door) (k : Key) : (readEffect d k).KeepsShape := by simp [readEffect]

theorem State.readAccess_keepsShape (s : State) (d : Door) (k : Key) : (s.readAccess d k).effect.KeepsShape := by
  unfold State.readAccess
  repeat' split
  all_goals simp

theorem State.stagedAccess_keepsShape (s : State) (d : Door) (k : Key) : (s.stagedAccess d k).effect.KeepsShape := by
  have h := s.readAccess_keepsShape d k
  unfold State.stagedAccess
  dsimp only
  repeat' split
  all_goals exact h

theorem State.domainReadAccess_keepsShape (s : State) (d : Door) (k : Key) (o n limit : Nat) :
    (s.domainReadAccess d k o n limit).effect.KeepsShape := by
  unfold State.domainReadAccess
  repeat' split
  all_goals simp

@[simp] theorem markChanged_keepsShape (r : Row) (k : Key) : (markChanged r k).KeepsShape := by simp [markChanged]

@[simp] theorem State.domainWriteAccess_keepsShape (s : State) (d : Door) (k : Key) (o : Nat) (bs : List Byte) (limit : Nat) :
    (s.domainWriteAccess d k o bs limit).effect.KeepsShape := by
  unfold State.domainWriteAccess
  dsimp only
  repeat' split
  all_goals simp

/-- What a write does beyond storing its value, if anything, keeps the shape. -/
def CommandKeepsShape (o : Option (Nat × Effect)) : Prop := ∀ c, o = some c → c.2.KeepsShape

@[simp] theorem commandKeepsShape_none : CommandKeepsShape none := fun _ h => nomatch h
@[simp] theorem commandKeepsShape_some (c : Nat × Effect) : CommandKeepsShape (some c) ↔ c.2.KeepsShape :=
  ⟨fun h => h c rfl, fun h _ hc => Option.some.inj hc ▸ h⟩
@[simp] theorem taken_keepsShape (e : Effect) : CommandKeepsShape (taken e) ↔ e.KeepsShape := by simp [taken]

@[simp] theorem answered_keepsShape (st : Nat) {e : Effect} (h : e.KeepsShape) : CommandKeepsShape (answered st e) := by
  simp [answered, h]

theorem State.coreCommand_keepsShape (s : State) {go : Nat → Effect} (hgo : ∀ n, (go n).KeepsShape) (d : Door) (i sub v : Nat) :
    CommandKeepsShape (s.coreCommand go d i sub v) := by
  unfold State.coreCommand
  dsimp only
  repeat' split
  all_goals simp [hgo]

theorem State.linkCommand_keepsShape (s : State) (i sub v : Nat) : CommandKeepsShape (s.linkCommand i sub v) := by
  unfold State.linkCommand
  dsimp only
  repeat' split
  all_goals simp

theorem State.pipeCommand_keepsShape (s : State) (i sub v : Nat) : CommandKeepsShape (s.pipeCommand i sub v) := by
  unfold State.pipeCommand
  repeat' split
  all_goals simp

theorem State.command_keepsShape (s : State) {go : Nat → Effect} (hgo : ∀ n, (go n).KeepsShape) (d : Door) (k : Key) (v : Nat) :
    CommandKeepsShape (s.command go d k v) := by
  unfold State.command
  split_ifs
  · exact s.coreCommand_keepsShape hgo d _ _ v
  · exact s.linkCommand_keepsShape _ _ v
  · exact s.pipeCommand_keepsShape _ _ v

theorem State.writeAccess_keepsShape (s : State) {go : Nat → Effect} (hgo : ∀ n, (go n).KeepsShape) (d : Door) (k : Key)
    (bs : List Byte) : (s.writeAccess go d k bs).effect.KeepsShape := by
  unfold State.writeAccess
  iterate 7 (split; · exact refuse_keepsShape _)
  split
  next st e h => exact (Effect.keepsShape_seq _ _).mpr ⟨s.command_keepsShape hgo d k _ _ h, by simp⟩
  next =>
    repeat' split
    all_goals simp

theorem State.access_keepsShape (s : State) {go : Nat → Effect} (hgo : ∀ n, (go n).KeepsShape) (d : Door) (a : Ask) :
    (s.access go d a).effect.KeepsShape := by
  unfold State.access
  split
  · exact s.readAccess_keepsShape d _
  · exact s.writeAccess_keepsShape hgo d _ _
  · exact s.stagedAccess_keepsShape d _
  · exact s.domainReadAccess_keepsShape d _ _ _ _
  · exact s.domainWriteAccess_keepsShape d _ _ _ _
  · exact refuse_keepsShape _

theorem serve_keepsShape {go : Nat → Effect} (hgo : ∀ n, (go n).KeepsShape) (d : Door) (a : Ask)
    {reply : Nat → List Byte → Effect} (hr : ∀ st v, (reply st v).KeepsShape) : (serve go d a reply).KeepsShape := by
  simp [serve, State.access_keepsShape, hgo, hr]

theorem mailboxRequest_keepsShape {go : Nat → Effect} (hgo : ∀ n, (go n).KeepsShape) (n : Nat) :
    (mailboxRequest go n).KeepsShape := by
  simp [mailboxRequest, serve_keepsShape hgo]

@[simp] theorem mailboxGo_keepsShape : ∀ fuel n, (mailboxGo fuel n).KeepsShape
  | 0, _ => trivial
  | fuel + 1, n => mailboxRequest_keepsShape (mailboxGo_keepsShape fuel) n

theorem serveDoor_keepsShape (d : Door) (a : Ask) {reply : Nat → List Byte → Effect} (hr : ∀ st v, (reply st v).KeepsShape) :
    (serveDoor d a reply).KeepsShape := serve_keepsShape (mailboxGo_keepsShape 8) d a hr

@[simp] theorem atDoor_keepsShape (d : Door) (a : Ask) : (atDoor d a).KeepsShape := by
  rw [atDoor, Effect.keepsShape_look]
  intro s
  dsimp only
  split_ifs
  · simp
  · exact serveDoor_keepsShape d a (by simp)
  · split <;> simp

@[simp] theorem writeAt_keepsShape (d : Door) (k : Key) (bs : List Byte) : (writeAt d k bs).KeepsShape := by
  simp [writeAt]

@[simp] theorem commandAt_keepsShape (d : Door) (index sub v : Nat) : (commandAt d index sub v).KeepsShape := by
  simp [commandAt]

/-! #### What arrives at the doors -/

@[simp] theorem takeAnswer_keepsShape (p : Nat) (c : Cell) : (takeAnswer p c).KeepsShape := by
  rw [takeAnswer, Effect.keepsShape_look]
  intro s
  split <;> simp

@[simp] theorem answerRecord_keepsShape (d i status : Nat) (value : List Byte) :
    (answerRecord d i status value).KeepsShape := by
  simp [answerRecord]

@[simp] theorem performRecord_keepsShape (d i : Nat) (r : List Byte) : (performRecord d i r).KeepsShape := by
  simp [performRecord, serveDoor_keepsShape]

@[simp] theorem bar0Status_keepsShape (k : Key) (status : Nat) : (bar0Status k status).KeepsShape := by
  simp [bar0Status]

@[simp] theorem latchWide_keepsShape (v : List Byte) : (latchWide v).KeepsShape := by simp [latchWide]

@[simp] theorem bar0Read_keepsShape (k first n : Nat) : (bar0Read k first n).KeepsShape := by
  simp [bar0Read, serveDoor_keepsShape]

@[simp] theorem bar0Write_keepsShape (k first : Nat) (data : List Byte) : (bar0Write k first data).KeepsShape := by
  simp [bar0Write, serveDoor_keepsShape]

@[simp] theorem bar0_keepsShape (isWrite : Bool) (offset first n : Nat) (data : List Byte) :
    (bar0 isWrite offset first n data).KeepsShape := by
  simp [bar0]

@[simp] theorem dropFrame_keepsShape : dropFrame.KeepsShape := by simp [dropFrame]

@[simp] theorem performFrame_keepsShape (f : List Byte) (late : Bool) : (performFrame f late).KeepsShape := by
  simp [performFrame, serveDoor_keepsShape]

@[simp] theorem sendContent_keepsShape (d : Deferred) (stream : Nat) (v : List Byte) :
    (sendContent d stream v).KeepsShape := by
  simp [sendContent]

@[simp] theorem performDomain_keepsShape (d : Deferred) : (performDomain d).KeepsShape := by
  simp [performDomain, serveDoor_keepsShape]

@[simp] theorem performEntry_keepsShape (d : Deferred) : (performEntry d).KeepsShape := by
  simp [performEntry, serveDoor_keepsShape]

/-! #### The commands that are one access at a door -/

@[simp] theorem valueAt_keepsShape (d : Door) (k : Key) (v : Nat) : (valueAt d k v).KeepsShape := by simp [valueAt]

/-! #### The slot grids that a part originates (R107, R111, R117, R119, R236, R237) -/

@[simp] theorem sendUp_keepsShape (p : Nat) : (sendUp p).KeepsShape := by
  rw [sendUp, Effect.keepsShape_look]
  intro s
  dsimp only
  repeat' split
  all_goals simp

@[simp] theorem sendNext_keepsShape (p : Nat) : (sendNext p).KeepsShape := by
  rw [sendNext, Effect.keepsShape_look]
  intro s
  split <;> simp

@[simp] theorem sendDue_keepsShape (p : Nat) : (sendDue p).KeepsShape := by simp [sendDue]
@[simp] theorem passSlots_keepsShape : passSlots.KeepsShape := by simp [passSlots]

end Sys2Proof.Machine
end

section
namespace Sys2Proof.Machine

/-! ### Every command performs one effect

No command faults or is refused: `exec` performs an effect that can be named. What all effects keep, every command and
every step therefore keeps; that the effect keeps the shape is shown beside it, once per command. -/

/-- A command comes to performing one effect on the state, and that effect keeps the shape. -/
def Performs (s : State) (o : Host.Outcome State Fault Refusal) : Prop := ∃ e, o = perform e s ∧ e.KeepsShape

theorem Effect.KeepsShape.when {e : Effect} (h : e.KeepsShape) (c : Bool) : (Effect.when c e).KeepsShape :=
  (Effect.keepsShape_when c e).mpr fun _ => h

theorem Effect.KeepsShape.ofOption {α : Type} {f : α → Effect} (h : ∀ x, (f x).KeepsShape) (o : Option α) :
    (Effect.ofOption o f).KeepsShape :=
  (Effect.keepsShape_ofOption o f .nothing).mpr ⟨fun x _ => h x, fun _ => trivial⟩

theorem execPor_performs (s : State) (v : Nat) : Performs s (execPor s v) := by
  have hinit (rate : Nat) : (hidden fun _ => { Hidden.initial with
      memory := { MemoryState.initial with rate := rate }, heat := HeatState.initial, vioHigh := 2500 < v }).KeepsShape :=
    fun _ _ => { Hidden.shaped_initial with memory := by simp [MemoryState.initial] }
  refine ⟨_, rfl, ?_⟩
  simpa using hinit _

theorem execTickBoundary_performs (s : State) : Performs s (execTickBoundary s) := by
  have hturn (on : Bool) : (hidden fun h =>
      { h with lastCounts := { h.counts with holdover := on }, counts := TickCounts.initial }).KeepsShape :=
    fun _ hs => { hs with counts := by simp [TickCounts.initial] }
  refine ⟨_, rfl, ?_⟩
  simp [hturn]

theorem execHardwareTrip_performs (s : State) (k : Nat) : Performs s (execHardwareTrip k s) := by
  have hstop : (hidden fun h => { h with scan := { h.scan with running := false } }).KeepsShape :=
    fun _ hs => { hs with scan := hs.scan }
  refine ⟨_, rfl, ?_⟩
  simp [hstop]

theorem execSweepStart_performs (s : State) : Performs s (execSweepStart s) := ⟨_, rfl, by simp +contextual⟩

theorem execCompensationUpdate_performs (s : State) : Performs s (execCompensationUpdate s) := by
  refine ⟨_, rfl, .when ?_ _⟩
  simp [apply_ite HeatState.sensors]

theorem execModeChange_performs (s : State) : Performs s (execModeChange s) := by
  refine ⟨_, rfl, ?_⟩
  split <;> simp

theorem execDomainRelease_performs (s : State) (d : Domain) : Performs s (execDomainRelease d s) := by
  refine ⟨_, rfl, .when ?_ _⟩
  cases d <;> simp

theorem execArbiterGrant_performs (s : State) (p : SharedPoint) (w : List BusRequest) :
    Performs s (execArbiterGrant p w s) := by
  refine ⟨_, rfl, .when (.ofOption (fun r => ?_) _) _⟩
  cases r.master <;> simp

theorem execCommitChecksEnd_performs (s : State) : Performs s (execCommitChecksEnd s) := by
  refine ⟨_, rfl, .when (.ofOption (fun c => ?_) _) _⟩
  dsimp only
  split <;> simp

theorem execCommitApply_performs (s : State) : Performs s (execCommitApply s) := by
  refine ⟨_, rfl, .when ?_ _⟩
  rw [Effect.keepsShape_seq, Effect.keepsShape_look]
  refine ⟨by simp, fun t => .ofOption (fun c => ?_) _⟩
  dsimp only
  split <;> simp

theorem execTlaroekDatagram_performs (s : State) (p : UdpPath) (bs : List Byte) :
    Performs s (execTlaroekDatagram p bs s) := by
  refine ⟨_, rfl, .when ?_ _⟩
  split <;> simp

theorem execSpiFrame_performs (s : State) (f : List Byte) : Performs s (execSpiFrame f s) := by
  refine ⟨_, rfl, .when ?_ _⟩
  split
  · simp
  · split <;> simp

theorem execReceiveSlot_performs (s : State) (p : Nat) (l : List (List Level)) :
    Performs s (execReceiveSlot p l s) := by
  refine ⟨_, rfl, .when ?_ _⟩
  split <;> simp

theorem execPtpMessage_performs (s : State) (p : Nat) (m : PtpMessage) (a : Arrival) :
    Performs s (execPtpMessage p m a s) := by
  refine ⟨_, rfl, ?_⟩
  rw [Effect.keepsShape_seq]
  refine ⟨by simp, .when ?_ _⟩
  dsimp only
  repeat' split
  all_goals simp

theorem execFlowPacket_performs (s : State) (leg : Nat) (p : FlowPath) (seq : Nat) (marker : Bool) (bs : List Byte) :
    Performs s (execFlowPacket leg p seq marker bs s) := by
  refine ⟨_, rfl, .when ?_ _⟩
  split <;> simp

theorem execFlowFrameComplete_performs (s : State) (f : Nat) : Performs s (execFlowFrameComplete f s) := by
  refine ⟨_, rfl, .when ?_ _⟩
  split <;> simp

theorem execTableMessage_performs (s : State) (n : Nat) : Performs s (execTableMessage n s) := by
  refine ⟨_, rfl, .when ?_ _⟩
  rw [withMessage_keepsShape]
  intro _ _ _
  repeat' split
  all_goals simp

theorem execEquinoxMeasurement_performs (s : State) (ps : List Int) : Performs s (execEquinoxMeasurement ps s) := by
  refine ⟨_, rfl, .ofOption (fun r => .when ?_ _) _⟩
  repeat' split
  all_goals simp

theorem execEquinoxSwapOut_performs (s : State) : Performs s (execEquinoxSwapOut s) := by
  refine ⟨_, rfl, .ofOption (fun r => .when ?_ _) _⟩
  split <;> simp

theorem execCalibrationStore_performs (s : State) (d : Option Door) : Performs s (execCalibrationStore d s) := by
  refine ⟨_, rfl, ?_⟩
  cases d <;> simp

theorem execMemoryTestDone_performs (s : State) (failure : Option Nat) : Performs s (execMemoryTestDone failure s) := by
  refine ⟨_, rfl, .when ?_ _⟩
  cases failure <;> simp

theorem exec_performs (c : Instr) (s : State) : Performs s (exec c s) := by
  cases c with
  | por v => exact execPor_performs s v
  | tickBoundary => exact execTickBoundary_performs s
  | hardwareTrip k => exact execHardwareTrip_performs s k
  | sweepStart => exact execSweepStart_performs s
  | compensationUpdate => exact execCompensationUpdate_performs s
  | modeChange => exact execModeChange_performs s
  | domainRelease d => exact execDomainRelease_performs s d
  | arbiterGrant p w => exact execArbiterGrant_performs s p w
  | commitChecksEnd => exact execCommitChecksEnd_performs s
  | commitApply => exact execCommitApply_performs s
  | tlaroekDatagram p bs => exact execTlaroekDatagram_performs s p bs
  | spiFrame f => exact execSpiFrame_performs s f
  | receiveSlot p l => exact execReceiveSlot_performs s p l
  | ptpMessage p m a => exact execPtpMessage_performs s p m a
  | flowPacket leg p q m bs => exact execFlowPacket_performs s leg p q m bs
  | flowFrameComplete f => exact execFlowFrameComplete_performs s f
  | tableMessage n => exact execTableMessage_performs s n
  | equinoxMeasurement ps => exact execEquinoxMeasurement_performs s ps
  | equinoxSwapOut => exact execEquinoxSwapOut_performs s
  | calibrationStore d => exact execCalibrationStore_performs s d
  | memoryTestDone x => exact execMemoryTestDone_performs s x
  | _ => exact ⟨_, rfl, by simp⟩

end Sys2Proof.Machine
end

section
namespace Sys2Proof.Machine

/-! ### What every command and every step keeps (O4, O5, O6, O7) -/

/-- A step comes to performing one effect on the state without the command at the front of its queue. -/
theorem step_performs (s : State) : Performs { s with pending := s.pending.tail } (step s) := by
  unfold step
  split
  case h_1 h =>
    have hs : { s with pending := s.pending.tail } = s := by rw [h, List.tail_nil, ← h]
    exact ⟨_, by rw [hs], by simp⟩
  case h_2 c rest h =>
    rw [h, List.tail_cons]
    exact exec_performs c _

/-- What the effect of a command or a step keeps, the next state has. -/
theorem Performs.next {s : State} {o : Host.Outcome State Fault Refusal} {P : State → Prop} (h : Performs s o)
    (hP : ∀ e : Effect, e.KeepsShape → P (e.run s)) : ∃ t, o = .next t ∧ P t := by
  obtain ⟨e, he, hk⟩ := h
  exact ⟨_, he, hP e hk⟩

/-- Settles O4: whatever effect a command or a step performs, each of its acts keeps both canonical forms. -/
theorem stepKeepsSound : Obligations.StepKeepsSound :=
  ⟨fun c s hs => (exec_performs c s).next fun e _ => e.run_sound hs,
    fun s hs => (step_performs s).next fun e _ => e.run_sound hs⟩

/-- Settles O5: the lists of the reset state are counted, and what each effect does beside the dictionary leaves their
lengths alone. -/
theorem stepKeepsShape : Obligations.StepKeepsShape :=
  ⟨(State.shaped_iff _).mpr Hidden.shaped_initial, fun c s hs => (exec_performs c s).next fun _ hk => hk.run hs,
    fun s hs => (step_performs s).next fun _ hk => hk.run hs⟩

/-- Settles O6: a command performs an effect, and no act of an effect touches the queue or the strap, or takes an output
back. -/
theorem commandsLeaveQueueStrapAndPastOutputs : Obligations.CommandsLeaveQueueStrapAndPastOutputs := fun c s =>
  (exec_performs c s).next fun e _ => ⟨e.run_pending s, e.run_strap s, e.run_outputs s⟩

/-- Settles O7: the next state is sound, and a sound state lists no CONST entry, so that each reads its default. -/
theorem constEntriesNeverChange : Obligations.ConstEntriesNeverChange := fun c s hs =>
  (exec_performs c s).next fun e _ k _ hr hk => by
    obtain ⟨_, hvalues⟩ := (State.sound_iff _).mp (e.run_sound hs)
    refine valueOf_fixed hvalues fun r hr' => ?_
    rw [hr] at hr'
    exact Option.some.inj hr' ▸ hk

end Sys2Proof.Machine
end

section
namespace Sys2Proof.Machine

/-! ### A step with no command waiting (O2) -/

/-! What leaves in a cycle moves no time. -/

/-- The time core stands as it stood. -/
def TimeKept (a b : Hidden) : Prop := b.time = a.time

@[simp] theorem sendSlot_keepsTime (p : Nat) (bs : List Block) : (sendSlot p bs).Beside TimeKept := by
  simp [sendSlot, TimeKept]

@[simp] theorem sendAlign_keepsTime (p : Nat) : (sendAlign p).Beside TimeKept := by simp [sendAlign, TimeKept]

@[simp] theorem sendTrain_keepsTime (p : Nat) : (sendTrain p).Beside TimeKept := by simp [sendTrain, TimeKept]

@[simp] theorem onQueue_keepsTime (q : Nat) (f : QueueContext → QueueContext) : (onQueue q f).Beside TimeKept := by
  simp [onQueue, TimeKept]

@[simp] theorem countSent_keepsTime (p : Nat) (c : Cell) : (countSent p c).Beside TimeKept := by
  rw [countSent, Effect.beside_look]
  exact fun s => ⟨fun _ => rfl, by simp⟩

@[simp] theorem sendMessage_keepsTime (ports : List Nat) (q : Nat) (timed bcast : Bool) (lt : Nat) (bs : List Byte)
    (ring : Option Nat) : (sendMessage ports q timed bcast lt bs ring).Beside TimeKept := by
  rw [sendMessage, Effect.beside_look]
  refine fun s => ⟨by simp, ?_⟩
  simp [queueUp, TimeKept]

@[simp] theorem runQueue_keepsTime (q : Nat) : (runQueue q).Beside TimeKept := by
  have hheld (v : Nat) : (onIngest fun i => { i with held := insertKey i.held q v }).Beside TimeKept := fun _ => rfl
  simp [runQueue, hheld, -onIngest_beside]

@[simp] theorem moveRing_keepsTime (q : Nat) : (moveRing q).Beside TimeKept := by
  have hheld : (onIngest fun i => { i with held := removeKey i.held q }).Beside TimeKept := fun _ => rfl
  simp [moveRing, startQueue, hheld, -onIngest_beside]

@[simp] theorem sendWaiting_keepsTime (p : Nat) (leaves : Int) (w : Waiting) :
    (sendWaiting p leaves w).Beside TimeKept := by
  rw [sendWaiting, Effect.beside_look]
  intro s
  split <;> simp

@[simp] theorem sendUp_keepsTime (p : Nat) : (sendUp p).Beside TimeKept := by
  rw [sendUp, Effect.beside_look]
  intro s
  dsimp only
  split
  · simp
  · refine ⟨fun _ => rfl, ?_⟩
    split <;> simp

@[simp] theorem sendNext_keepsTime (p : Nat) : (sendNext p).Beside TimeKept := by
  rw [sendNext, Effect.beside_look]
  refine fun s => ⟨?_, fun _ => rfl⟩
  split <;> simp

theorem passSlots_keepsTime : passSlots.Beside TimeKept := by simp [passSlots, sendDue]

theorem passSlots_time (s : State) : (passSlots.run s).hid.time = s.hid.time :=
  Effect.Beside.hid (R := TimeKept) (fun _ => rfl) (fun h h' => h'.trans h) passSlots_keepsTime

/-- Effects that each leave a state alone leave it alone one after the other. -/
theorem Effect.run_each_of_run_eq {α : Type} {f : α → Effect} {s : State} : ∀ {l : List α}, (∀ x ∈ l, (f x).run s = s) →
    (Effect.each f l).run s = s
  | [], _ => rfl
  | x :: xs, h => by
    rw [Effect.run_each_cons, h x List.mem_cons_self]
    exact Effect.run_each_of_run_eq fun y hy => h y (List.mem_cons_of_mem x hy)

/-- Where no port sends slots of its own grid, none leaves. -/
theorem passSlots_run_of_silent {s : State} (h : ∀ p ∈ s.ports, s.sendsOwn p = false) : passSlots.run s = s := by
  rw [passSlots, Effect.run_look, Effect.run_when]
  split
  · exact Effect.run_each_of_run_eq fun p hp => by simp [sendDue, h p hp]
  · rfl

theorem step_idle {s : State} (h : s.pending = []) : step s = .next (passSlots.run ((advanceCycles 1).run s)) := by
  unfold step
  split
  · rfl
  · simp_all

/-- Settles O2: a step with no command is one cycle of the time core, after which the slots leave that have come; these
move no time. -/
theorem idleStepPassesOneCycle : Obligations.IdleStepPassesOneCycle := by
  intro s hs
  refine ⟨_, step_idle hs, ?_, ?_, ?_, fun hsilent => ?_⟩
  · rw [Effect.run_pending, Effect.run_pending, hs]
  · rw [passSlots_time]
    rfl
  · rw [passSlots_time]
    simp [advanceCycles, unitsPerCycle]
  · rw [passSlots_run_of_silent (s := (advanceCycles 1).run s) hsilent]
    rfl

end Sys2Proof.Machine
end

section
namespace Sys2Proof.Machine

/-! ### Accesses that the checks refuse (O13) -/

/-- An access at a door that the checks refuse changes nothing but the door's marks. -/
theorem Refused.of_access {c : Instr} {d : Door} {st : Nat} {s : State} {a : Ask} (hs : s.sound = true)
    (hd : s.hears d = true) (hc : exec c s = perform (atDoor d a) s) (hok : st ≠ Status.ok) (hq : st ≠ Status.queued)
    (ha : s.access (mailboxGo 8) d a = refuse st) : Refused c d st s := by
  have hmark : (almanac 7 7).Writes (· ∈ doorMarks) := almanac_writes (by simp [doorMarks]) 7 7
  have hrun : (atDoor d a).run s = (Act.out (.answer d st [])).apply ((almanac 7 7).run s) := by
    have h1 : (st != Status.ok) = true := by simpa using hok
    have h2 : (st == Status.ok || st == Status.queued) = false := by simp [hok, hq]
    simp only [atDoor_run hd, ha, refuse, Effect.run_nothing, h1, h2, Bool.and_false, Effect.run_when_true,
      Effect.run_when_false]
  refine ⟨_, hc, ?_⟩
  rw [hrun]
  exact ⟨by simp [Answered], hmark.frame hs, (almanac_noStore 7 7).frame, SameBeside.of (almanac_beside (fun _ _ => rfl) 7 7)⟩

/-- The commands that are one access of an entry at a door (R40). -/
def accessCommands (d : Door) (k : Key) (bs : List Byte) (o n : Nat) : List Instr :=
  [.read d k, .write d k bs, .readStaged d k, .domainRead d k o n, .domainWrite d k o bs]

/-- Each of them is that access: the op, the entry and what it carries. -/
theorem exec_of_mem_accessCommands {d : Door} {k : Key} {bs : List Byte} {o n : Nat} {c : Instr}
    (hc : c ∈ accessCommands d k bs o n) (s : State) :
    ∃ a : Ask, a.key = k ∧ 1 ≤ a.op ∧ a.op ≤ 5 ∧ exec c s = perform (atDoor d a) s := by
  simp only [accessCommands, List.mem_cons, List.not_mem_nil, or_false] at hc
  rcases hc with rfl | rfl | rfl | rfl | rfl
  · exact ⟨⟨1, k, [], 0, 0, 0⟩, rfl, by simp, by simp, rfl⟩
  · exact ⟨⟨2, k, bs, 0, 0, 0⟩, rfl, by simp, by simp, rfl⟩
  · exact ⟨⟨3, k, [], 0, 0, 0⟩, rfl, by simp, by simp, rfl⟩
  · exact ⟨⟨4, k, [], o, n, chunkLimit d⟩, rfl, by simp, by simp, rfl⟩
  · exact ⟨⟨5, k, bs, o, bs.length, chunkLimit d⟩, rfl, by simp, by simp, rfl⟩

/-- What the first checks refuse, every op refuses. -/
theorem State.access_of_absent {s : State} {go : Nat → Effect} {d : Door} {a : Ask} {st : Nat} (h : s.absent a.key = some st)
    (hst : st ≠ Status.ok) (h1 : 1 ≤ a.op) (h5 : a.op ≤ 5) : s.access go d a = refuse st := by
  have hop : a.op = 1 ∨ a.op = 2 ∨ a.op = 3 ∨ a.op = 4 ∨ a.op = 5 := by omega
  rcases hop with hop | hop | hop | hop | hop <;>
    simp [State.access, hop, State.readAccess, State.writeAccess, State.stagedAccess, State.domainReadAccess,
      State.domainWriteAccess, State.domainAbsent, h, refuse, hst]

theorem State.absent_eq_noObject {s : State} {k : Key} (h : (rowsOf s.pers (k / 256)).isNone = true) :
    s.absent k = some Status.noObject := by
  simp_all [State.absent]

theorem State.absent_eq_noSub {s : State} {k : Key} (h : (rowsOf s.pers (k / 256)).isSome = true) (hk : k % 256 ≠ 0)
    (hr : s.row k = none) : s.absent k = some Status.noSub := by
  simp_all [State.absent, Option.isSome_iff_ne_none]

theorem State.absent_eq_unavailable {s : State} {k : Key} (h : (s.row k).isSome = true) (hv : s.served k = false) :
    s.absent k = some Status.unavailable := by
  obtain ⟨r, hr⟩ := Option.isSome_iff_exists.mp h
  have hrows := rowsOf_of_rowAt hr
  simp_all [State.absent, Option.isSome_iff_ne_none]

/-- The first checks refuse an access of any op. -/
theorem refused_of_absent {s : State} {d : Door} {k : Key} {bs : List Byte} {o n : Nat} {c : Instr} {st : Nat}
    (hs : s.sound = true) (hd : s.hears d = true) (hc : c ∈ accessCommands d k bs o n) (h : s.absent k = some st)
    (hok : st ≠ Status.ok) (hq : st ≠ Status.queued) : Refused c d st s := by
  obtain ⟨a, rfl, h1, h5, hexec⟩ := exec_of_mem_accessCommands hc s
  exact .of_access hs hd hexec hok hq (State.access_of_absent h hok h1 h5)

section
variable {s : State} {d : Door} {k : Key} {r : Row} (hs : s.sound = true) (hd : s.hears d = true)
  (hv : s.served k = true) (hr : s.row k = some r)
include hs hd hv hr

/-- The checks of a WRITE, in their order. -/
theorem write_refused (bs : List Byte) :
    (r.acc = .ro ∨ r.acc = .konst → Refused (.write d k bs) d Status.readOnly s) ∧
    (r.acc ≠ .ro → r.acc ≠ .konst →
      (r.ty = .domain → Refused (.write d k bs) d Status.domainState s) ∧
      (r.ty ≠ .domain → lengthOk r.ty bs = false → Refused (.write d k bs) d Status.length s) ∧
      (r.ty ≠ .domain → lengthOk r.ty bs = true → r.takes s.pers (entryValue r.ty bs) = false →
        Refused (.write d k bs) d Status.range s) ∧
      (r.ty ≠ .domain → lengthOk r.ty bs = true → r.takes s.pers (entryValue r.ty bs) = true → s.stageFull r k = true →
        Refused (.write d k bs) d Status.stageFull s)) := by
  have habs := State.absent_none hv hr
  have of (st : Nat) (hok : st ≠ Status.ok) (hq : st ≠ Status.queued)
      (h : s.writeAccess (mailboxGo 8) d k bs = refuse st) : Refused (.write d k bs) d st s :=
    .of_access hs hd rfl hok hq h
  refine ⟨fun hacc => of _ (by decide) (by decide) ?_, fun hro hk => ⟨fun hty => of _ (by decide) (by decide) ?_,
    fun hty hl => of _ (by decide) (by decide) ?_, fun hty hl ht => of _ (by decide) (by decide) ?_,
    fun hty hl ht hf => of _ (by decide) (by decide) ?_⟩⟩
  · simp [State.writeAccess, habs, hr, hacc]
  · simp [State.writeAccess, habs, hr, hro, hk, hty]
  · simp [State.writeAccess, habs, hr, hro, hk, hty, hl]
  · simp [State.writeAccess, habs, hr, hro, hk, hty, hl, ht]
  · simp [State.writeAccess, habs, hr, hro, hk, hty, hl, ht, hf]

theorem read_refused_of_wo (hacc : r.acc = .wo) : Refused (.read d k) d Status.writeOnly s := by
  refine .of_access hs hd rfl (by decide) (by decide) ?_
  simp [State.access, State.readAccess, State.absent_none hv hr, hr, hacc]

theorem domainRead_refused_of_unreadable (o n : Nat) (hu : s.unreadable k = true) :
    Refused (.domainRead d k o n) d Status.unavailable s := by
  refine .of_access hs hd rfl (by decide) (by decide) ?_
  simp [State.access, State.domainReadAccess, State.domainAbsent, State.absent_none hv hr, hu]

/-- The checks of a DOMAIN_READ of an entry that can be reached: the door's limit, then the entry and its content. -/
theorem domainRead_refused (o n : Nat) (hu : s.unreadable k = false) (hacc : r.acc ≠ .wo) :
    (n = 0 ∨ chunkLimit d < n → Refused (.domainRead d k o n) d Status.length s) ∧
    (n ≠ 0 → n ≤ chunkLimit d → r.ty ≠ .domain ∨ s.domainSize k < o →
      Refused (.domainRead d k o n) d Status.domainState s) := by
  have habs : s.domainAbsent k = none := by simp [State.domainAbsent, State.absent_none hv hr, hu]
  have hty : s.ty k = some r.ty := by simp [State.ty, hr]
  refine ⟨fun hn => .of_access hs hd rfl (by decide) (by decide) ?_,
    fun h0 hn ho => .of_access hs hd rfl (by decide) (by decide) ?_⟩
  · simp [State.access, State.domainReadAccess, habs, hr, hacc, hn]
  · have hbytes : s.domainBytes k o n = (Status.domainState, []) := by
      simp [State.domainBytes, habs, hr, hacc, hty, ho]
    simp [State.access, State.domainReadAccess, habs, hr, hacc, h0, Nat.not_lt.mpr hn, hbytes, refuse,
      show (Status.domainState == Status.ok) = false from rfl, Effect.when]

end

/-- Settles O13: every check of an access refuses it before it has done anything, so that only the answer and the event of a
refused access are left. -/
theorem failedAccessChangesNothing : Obligations.FailedAccessChangesNothing := by
  refine ⟨fun s d k bs o n hs hd c hc => ⟨fun h => ?_, fun h hk hr => ?_, fun h hv => ?_⟩,
    fun s d k r bs hs hd hv hr => ?_, fun s d k r o n hs hd hv hr hu hacc => domainRead_refused hs hd hv hr o n hu hacc,
    fun s d k r o n hs hd hv hr hu => domainRead_refused_of_unreadable hs hd hv hr o n hu,
    fun s d k bs o n hd c hc => ?_⟩
  · exact refused_of_absent hs hd hc (State.absent_eq_noObject h) (by decide) (by decide)
  · exact refused_of_absent hs hd hc (State.absent_eq_noSub h hk hr) (by decide) (by decide)
  · exact refused_of_absent hs hd hc (State.absent_eq_unavailable h hv) (by decide) (by decide)
  · obtain ⟨hreadOnly, hwritable⟩ := write_refused hs hd hv hr bs
    refine ⟨hreadOnly, read_refused_of_wo hs hd hv hr, fun hro hk => ?_⟩
    obtain ⟨hdomain, hlength, hrange, hfull⟩ := hwritable hro hk
    refine ⟨hdomain, hlength, hrange, fun hty hl ht hacc hn hkey => hfull hty hl ht ?_⟩
    simp [State.stageFull, hacc, hn, hkey]
  · obtain ⟨a, -, -, -, hexec⟩ := exec_of_mem_accessCommands (bs := bs) (o := o) (n := n) hc s
    rw [hexec, perform_eq, atDoor_absent hd]

end Sys2Proof.Machine
end

section
namespace Sys2Proof.Machine

/-! ### Writes that the checks pass (O12) -/

/-! #### Values as bytes (R10) -/

theorem natLE_lt : ∀ bs : List Byte, natLE bs < 256 ^ bs.length
  | [] => by simp [natLE]
  | b :: bs => by
    have ih := natLE_lt bs
    have hb : b.toNat < 256 := b.isLt
    rw [natLE, List.length_cons, pow_succ]
    omega

theorem natLE_zeroBytes : ∀ n, natLE (zeroBytes n) = 0
  | 0 => rfl
  | n + 1 => by
    have ih := natLE_zeroBytes n
    simpa [zeroBytes, List.replicate_succ, natLE] using ih

theorem natLE_padTo (n : Nat) (bs : List Byte) : natLE (padTo n bs) = natLE bs := by
  unfold padTo
  generalize n - bs.length = m
  induction bs with
  | nil => simp [natLE_zeroBytes, natLE]
  | cons b bs ih => simp [natLE, ih]

theorem length_bytesLE : ∀ n v, (bytesLE n v).length = n
  | 0, _ => rfl
  | n + 1, v => by simp [bytesLE, length_bytesLE n]

theorem natLE_bytesLE : ∀ {n v : Nat}, v < 256 ^ n → natLE (bytesLE n v) = v
  | 0, v, h => by simp_all [bytesLE, natLE]
  | n + 1, v, h => by
    have ih := natLE_bytesLE (n := n) (v := v / 256) (by rw [pow_succ] at h; omega)
    simp only [bytesLE, natLE, ih, BitVec.toNat_ofNat]
    omega

theorem entryValue_eq (t : Ty) (bs : List Byte) : entryValue t bs = natLE bs := by
  unfold entryValue
  split
  · exact natLE_padTo 64 bs
  · rfl

/-- A value of the right length has the width of its type. -/
theorem entryValue_lt {t : Ty} {bs : List Byte} (h : lengthOk t bs = true) : entryValue t bs < 2 ^ t.width := by
  have hlen : bs.length ≤ t.size := by
    unfold lengthOk at h
    split at h
    · simp_all [Ty.size]
    · simp_all
  calc entryValue t bs < 256 ^ bs.length := entryValue_eq t bs ▸ natLE_lt bs
    _ ≤ 256 ^ t.size := Nat.pow_le_pow_right (by decide) hlen
    _ = 2 ^ t.width := by rw [Ty.width, pow_mul]; rfl

theorem keyOf_div_mod (k : Key) : keyOf (k / 256) (k % 256) = k := Nat.div_add_mod' k 256

/-! #### The staging set (R45) -/

theorem lookupKey_insertKey_self {β : Type} (q : Nat) (v : β) : ∀ l : List (Nat × β), lookupKey (insertKey l q v) q = some v
  | [] => by simp [insertKey, lookupKey]
  | (k, w) :: r => by
    rw [insertKey]
    split_ifs with h1 h2
    · simp [lookupKey]
    · simp [lookupKey]
    · simp [lookupKey, Ne.symm h2, lookupKey_insertKey_self q v r]

theorem lookupKey_insertKey_of_ne {β : Type} {q x : Nat} (v : β) (h : x ≠ q) :
    ∀ l : List (Nat × β), lookupKey (insertKey l q v) x = lookupKey l x
  | [] => by simp [insertKey, lookupKey, h.symm]
  | (k, w) :: r => by
    rw [insertKey]
    split_ifs with h1 h2
    · simp [lookupKey, h.symm]
    · simp [lookupKey, h.symm, ← h2]
    · simp [lookupKey, lookupKey_insertKey_of_ne v h r]

/-! #### Commands of the entries, whatever a mailbox's write sets going -/

/-- Whether a write of an entry does more than store its value does not depend on what a mailbox then does. -/
theorem State.command_isNone (s : State) (go go' : Nat → Effect) (d : Door) (k : Key) (v : Nat) :
    (s.command go d k v).isNone = (s.command go' d k v).isNone := by
  unfold State.command
  split_ifs
  · unfold State.coreCommand
    split
    case h_25 => split_ifs <;> rfl -- a mailbox: what it does stands beside its status
    all_goals rfl
  · rfl
  · rfl

/-! #### A WRITE that the checks pass -/

/-- The marks that a WRITE answered OK leaves behind: the change of a saved entry, and the event of the write. -/
def writeMarks (r : Row) (k : Key) : Effect := .seq (markChanged r k) (almanac 7 (writeBin (k / 256)))

theorem writeMarks_writes (r : Row) (k : Key) : (writeMarks r k).Writes (· ∈ doorMarks) := by
  simp [writeMarks, almanac_writes, markChanged_writes, doorMarks]

theorem writeMarks_noStore (r : Row) (k : Key) : (writeMarks r k).NoStore := by
  simp [writeMarks, almanac_noStore, markChanged_noStore]

theorem writeMarks_sameBeside (r : Row) (k : Key) (s : State) : SameBeside s ((writeMarks r k).run s) :=
  SameBeside.of (by simp [writeMarks, almanac_beside, markChanged_beside])

section
variable {s : State} {d : Door} {k : Key} {bs : List Byte} {r : Row} (hd : s.hears d = true) (hv : s.served k = true)
  (hr : s.row k = some r) (hty : r.ty ≠ .domain) (hlen : lengthOk r.ty bs = true)
  (htake : r.takes s.pers (entryValue r.ty bs) = true) (hcmd : s.command (mailboxGo 8) d k (entryValue r.ty bs) = none)
include hd hv hr hty hlen htake hcmd

/-- A WRITE that the checks pass, of an RW or RWS entry with no behaviour of its own, stores the value or stages it. -/
theorem writeAt_run_store (hacc : r.acc = .rw ∨ r.acc = .rws) (hfull : s.stageFull r k = false) :
    (writeAt d k bs).run s =
      (Act.out (.answer d Status.ok [])).apply ((writeMarks r k).run ((storeEntry r k bs).run s)) := by
  have habs := State.absent_none hv hr
  rw [writeAt, atDoor_run hd]
  rcases hacc with hacc | hacc <;>
    simp [State.access, State.writeAccess, habs, hr, hacc, hty, hlen, htake, hfull, hcmd, writeMarks]

/-- A WRITE that the checks pass, of an RW1C entry: each 1 clears its bit. -/
theorem writeAt_run_clear (hacc : r.acc = .rw1c) :
    (writeAt d k bs).run s = (Act.out (.answer d Status.ok [])).apply
      ((almanac 7 (writeBin (k / 256))).run ((clearOnes k (natLE bs)).run s)) := by
  have habs := State.absent_none hv hr
  have hfull : s.stageFull r k = false := by simp [State.stageFull, hacc]
  rw [writeAt, atDoor_run hd]
  simp [State.access, State.writeAccess, habs, hr, hacc, hty, hlen, htake, hfull, hcmd]

end

/-- REGISTER_WRITE of an entry with no behaviour of its own is WRITE. -/
theorem exec_registerWrite_eq {s : State} {d : Door} {k : Key} {t : Ty} {bs : List Byte}
    (hcmd : s.command (mailboxGo 8) d k (entryValue t bs) = none) : exec (.registerWrite d k bs) s = exec (.write d k bs) s := by
  have hnone : (s.command (fun _ => .nothing) d k (natLE bs)).isNone = true := by
    rw [State.command_isNone s _ (mailboxGo 8), ← entryValue_eq t bs, hcmd]
    rfl
  show perform (Effect.when _ (writeAt d k bs)) s = perform (writeAt d k bs) s
  rw [hnone]
  rfl

/-- Neither of the door's marks is an entry that can be written. -/
theorem acc_of_mem_doorMarks {p : Personality} {k : Key} {r : Row} (hk : k ∈ doorMarks) (hr : rowAt p k = some r) :
    r.acc = .ro := by
  have hall : ∀ q ∈ doorMarks, ∀ p ∈ [Personality.tile, .sender, .invalid], (rowAt p q).all fun r => r.acc == .ro := by
    decide +kernel
  have := hall k hk p (by cases p <;> simp)
  simpa [hr] using this

theorem exec_of_mem_writes {s : State} {d : Door} {k : Key} {t : Ty} {bs : List Byte} {c : Instr}
    (hcmd : s.command (mailboxGo 8) d k (entryValue t bs) = none)
    (hc : c ∈ [Instr.write d k bs, Instr.registerWrite d k bs]) : exec c s = .next ((writeAt d k bs).run s) := by
  simp only [List.mem_cons, List.not_mem_nil, or_false] at hc
  rcases hc with rfl | rfl
  · rfl
  · rw [exec_registerWrite_eq hcmd]
    rfl

theorem storeEntry_of_rw {r : Row} {k : Key} {bs : List Byte} (hty : r.ty ≠ .domain) (hacc : r.acc = .rw) :
    storeEntry r k bs = set (k / 256) (k % 256) (entryValue r.ty bs) := by
  rw [storeEntry, hacc, beq_false_of_ne hty]
  rfl

theorem storeEntry_of_rws {r : Row} {k : Key} {bs : List Byte} (hty : r.ty ≠ .domain) (hacc : r.acc = .rws) :
    storeEntry r k bs = stageValue k (entryValue r.ty bs) := by
  rw [storeEntry, hacc, beq_false_of_ne hty]
  rfl

/-- An RW value goes into effect. -/
theorem write_sets {s : State} {d : Door} {k : Key} {r : Row} {bs : List Byte} (hs : s.sound = true) (hd : s.hears d = true)
    (hv : s.served k = true) (hr : s.row k = some r) (hacc : r.acc = .rw) (hty : r.ty ≠ .domain)
    (hlen : lengthOk r.ty bs = true) (htake : r.takes s.pers (entryValue r.ty bs) = true)
    (hcmd : s.command (mailboxGo 8) d k (entryValue r.ty bs) = none) {c : Instr}
    (hc : c ∈ [Instr.write d k bs, Instr.registerWrite d k bs]) :
    Completes c s fun t => Answered d Status.ok [] t ∧ t.entry k = entryValue r.ty bs ∧ Only (k :: doorMarks) s t ∧
      SameBeside s t := by
  have hset : (storeEntry r k bs).run s = (Act.reg k (entryValue r.ty bs)).apply s := by
    rw [storeEntry_of_rw hty hacc, set_run, keyOf_div_mod]
  have hmark : k ∉ doorMarks := fun h => by
    have := acc_of_mem_doorMarks h hr
    simp [hacc] at this
  have hs' := Act.keeps_sound (.reg k (entryValue r.ty bs)) s hs
  refine ⟨_, exec_of_mem_writes hcmd hc, ?_⟩
  rw [writeAt_run_store hd hv hr hty hlen htake hcmd (.inl hacc) (by simp [State.stageFull, hacc]), hset]
  refine ⟨by simp [Answered], ?_, ⟨⟨?_, fun q hq => ?_⟩, (writeMarks_noStore r k).frame⟩, writeMarks_sameBeside r k _⟩
  · calc ((writeMarks r k).run _).entry k = ((Act.reg k (entryValue r.ty bs)).apply s).entry k :=
          ((writeMarks_writes r k).keeps hmark hs').2
      _ = entryValue r.ty bs % 2 ^ r.ty.width := State.entry_set hs hr (by simp [hacc])
      _ = entryValue r.ty bs := Nat.mod_eq_of_lt (entryValue_lt hlen)
  · exact (writeMarks_writes r k).pers
  · rw [List.mem_cons, not_or] at hq
    exact ((writeMarks_writes r k).keeps hq.2 hs').2.trans (State.entry_set_of_ne hs hq.1)

/-- An RWS value goes into the staging set. -/
theorem write_stages {s : State} {d : Door} {k : Key} {r : Row} {bs : List Byte} (hs : s.sound = true) (hd : s.hears d = true)
    (hv : s.served k = true) (hr : s.row k = some r) (hacc : r.acc = .rws) (hty : r.ty ≠ .domain)
    (hlen : lengthOk r.ty bs = true) (htake : r.takes s.pers (entryValue r.ty bs) = true)
    (hcmd : s.command (mailboxGo 8) d k (entryValue r.ty bs) = none)
    (hroom : s.hid.commit.staged.length < 1024 ∨ (lookupKey s.hid.commit.staged k).isSome = true) {c : Instr}
    (hc : c ∈ [Instr.write d k bs, Instr.registerWrite d k bs]) :
    Completes c s fun t => Answered d Status.ok [] t ∧ lookupKey t.hid.commit.staged k = some (entryValue r.ty bs) ∧
      (∀ q, q ≠ k → lookupKey t.hid.commit.staged q = lookupKey s.hid.commit.staged q) ∧ Only doorMarks s t ∧
      t.hid = { s.hid with almanac := t.hid.almanac, commit := { s.hid.commit with staged := t.hid.commit.staged } } := by
  have hfull : s.stageFull r k = false := by
    rcases hroom with h | h
    · simp [State.stageFull, Nat.not_le.mpr h]
    · simp [State.stageFull, h]
  refine ⟨_, exec_of_mem_writes hcmd hc, ?_⟩
  rw [writeAt_run_store hd hv hr hty hlen htake hcmd (.inr hacc) hfull, storeEntry_of_rws hty hacc]
  generalize hu : (stageValue k (entryValue r.ty bs)).run s = u
  have hs' : u.sound = true := hu ▸ Effect.run_sound _ hs
  have hbeside := writeMarks_sameBeside r k u
  have hstaged : ((writeMarks r k).run u).hid.commit.staged = insertKey s.hid.commit.staged k (entryValue r.ty bs) := by
    rw [hbeside, ← hu]
    rfl
  refine ⟨by simp [Answered], ?_, fun q hq => ?_, ⟨⟨?_, fun q hq => ?_⟩, fun a => ?_⟩, ?_⟩
  · simp [hstaged, lookupKey_insertKey_self]
  · simp [hstaged, lookupKey_insertKey_of_ne _ hq]
  · exact (writeMarks_writes r k).pers.trans (hu ▸ rfl)
  · exact ((writeMarks_writes r k).keeps hq hs').2.trans (hu ▸ rfl)
  · exact ((writeMarks_noStore r k).frame a).trans (hu ▸ rfl)
  · simp only [Act.out_hid, hstaged]
    rw [hbeside, ← hu]
    rfl

/-- The two RW1C entries of a timing generator take every value of their width and have no behaviour of their own. -/
theorem tgStatus_row {s : State} {k : Key} {r : Row} {g : Nat} (hg : g < 4)
    (hk : k = keyOf (0x4000 + g) 9 ∨ k = keyOf (0x4000 + g) 0x10) (hr : s.row k = some r) :
    r.acc = .rw1c ∧ r.range = .any ∧ (r.ty = .u8 ∨ r.ty = .u32) := by
  have hall : ∀ g < 4, ∀ sub ∈ [9, 0x10], ∀ p ∈ [Personality.tile, .sender, .invalid],
      (rowAt p (keyOf (0x4000 + g) sub)).all fun r => r.acc == .rw1c && r.range == .any && (r.ty == .u8 || r.ty == .u32) := by
    decide +kernel
  have hp : s.pers ∈ [Personality.tile, .sender, .invalid] := by cases s.pers <;> simp
  rcases hk with rfl | rfl
  · have := hall g hg 9 (by simp) s.pers hp
    rw [State.row] at hr
    simpa [hr, and_assoc] using this
  · have := hall g hg 0x10 (by simp) s.pers hp
    rw [State.row] at hr
    simpa [hr, and_assoc] using this

theorem tgStatus_command {s : State} {d : Door} {k : Key} {g : Nat} (hg : g < 4)
    (hk : k = keyOf (0x4000 + g) 9 ∨ k = keyOf (0x4000 + g) 0x10) (v : Nat) : s.command (mailboxGo 8) d k v = none := by
  interval_cases g <;> rcases hk with rfl | rfl <;> rfl

theorem tgStatus_key {k : Key} {g : Nat} (hg : g < 4) (hk : k = keyOf (0x4000 + g) 9 ∨ k = keyOf (0x4000 + g) 0x10) :
    (0x4000 ≤ k / 256 && k / 256 < 0x4004 && (k % 256 == 9 || k % 256 == 0x10)) = true := by
  interval_cases g <;> rcases hk with rfl | rfl <;> rfl

/-- A number that fits in the entry's type is written in its size. -/
theorem valueAt_run {s : State} {d : Door} {k : Key} {r : Row} {v : Nat} (hr : s.row k = some r) (hsize : 1 ≤ r.ty.size)
    (hv : v < 256 ^ r.ty.size) : (valueAt d k v).run s = (writeAt d k (bytesLE r.ty.size v)).run s := by
  simp [valueAt, State.ty, hr, hv, Nat.max_eq_right hsize]

/-- TG_EVENT_STATUS_CLEAR clears the bits written as 1. -/
theorem tgEventStatusClear_clears {s : State} {d : Door} {k : Key} {r : Row} {g ones : Nat} (hs : s.sound = true)
    (hsv : s.servesAt d = true) (hr : s.row k = some r) (hg : g < 4)
    (hk : k = keyOf (0x4000 + g) 9 ∨ k = keyOf (0x4000 + g) 0x10) (hones : ones < 2 ^ r.ty.width) :
    Completes (.tgEventStatusClear d k ones) s fun t => Answered d Status.ok [] t ∧
      t.entry k = s.entry k - (s.entry k &&& ones) ∧ Only (k :: doorMarks) s t ∧ SameBeside s t := by
  obtain ⟨hacc, hrange, hty⟩ := tgStatus_row hg hk hr
  have hd := State.hears_of_servesAt hsv
  have hv : s.served k = true := by
    simp only [State.servesAt, Bool.and_eq_true] at hsv
    exact State.served_of_serves hsv.2 k
  have hones' : ones < 256 ^ r.ty.size := by rwa [Ty.width, pow_mul] at hones
  have hmark : k ∉ doorMarks := fun h => by
    have := acc_of_mem_doorMarks h hr
    simp [hacc] at this
  have hevent : (almanac 7 (writeBin (k / 256))).Writes (· ∈ doorMarks) := almanac_writes (by simp [doorMarks]) _ _
  have hclear : (clearOnes k ones).run s = (Act.reg k (s.entry k - (s.entry k &&& ones))).apply s := by
    rw [clearOnes, setBy_run, keyOf_div_mod, State.reg_eq_entry, keyOf_div_mod]
  have hs' := Act.keeps_sound (.reg k (s.entry k - (s.entry k &&& ones))) s hs
  have hold : s.entry k < 2 ^ r.ty.width := valueOf_lt ((State.sound_iff s).mp hs).2 hr
  have hrun : exec (.tgEventStatusClear d k ones) s = .next ((Act.out (.answer d Status.ok [])).apply
      ((almanac 7 (writeBin (k / 256))).run ((Act.reg k (s.entry k - (s.entry k &&& ones))).apply s))) := by
    have hwrite := writeAt_run_clear (bs := bytesLE r.ty.size ones) hd hv hr (by rcases hty with h | h <;> simp [h])
      (by rcases hty with h | h <;> simp [h, lengthOk, length_bytesLE])
      (by rcases hty with h | h <;> simp [Row.takes, h, hrange, Rng.holds]) (tgStatus_command hg hk _) hacc
    rw [natLE_bytesLE hones', hclear] at hwrite
    rw [← hwrite, ← valueAt_run hr (by rcases hty with h | h <;> simp [h, Ty.size]) hones']
    show perform (Effect.when _ _) s = _
    rw [tgStatus_key hg hk]
    rfl
  refine ⟨_, hrun, by simp [Answered], ?_, ⟨⟨hevent.pers, fun q hq => ?_⟩, (almanac_noStore _ _).frame⟩,
    SameBeside.of (almanac_beside (fun _ _ => rfl) _ _)⟩
  · calc ((almanac 7 (writeBin (k / 256))).run _).entry k
        = ((Act.reg k (s.entry k - (s.entry k &&& ones))).apply s).entry k := (hevent.keeps hmark hs').2
      _ = (s.entry k - (s.entry k &&& ones)) % 2 ^ r.ty.width := State.entry_set hs hr (by simp [hacc])
      _ = s.entry k - (s.entry k &&& ones) := Nat.mod_eq_of_lt (by omega)
  · rw [List.mem_cons, not_or] at hq
    exact (hevent.keeps hq.2 hs').2.trans (State.entry_set_of_ne hs hq.1)

/-- Settles O12: a WRITE that the checks pass is its store followed by the door's marks and the answer; what it stores
depends on the entry's access. -/
theorem writeSetsOrStagesValue : Obligations.WriteSetsOrStagesValue :=
  ⟨fun _ _ _ _ _ hs hd hv hr hacc hty hlen htake hcmd _ hc => write_sets hs hd hv hr hacc hty hlen htake hcmd hc,
    fun _ _ _ _ _ hs hd hv hr hacc hty hlen htake hcmd hroom _ hc =>
      write_stages hs hd hv hr hacc hty hlen htake hcmd hroom hc,
    fun _ _ _ _ _ hs hsv hr ⟨_, hg, hk⟩ hones => tgEventStatusClear_clears hs hsv hr hg hk hones⟩

end Sys2Proof.Machine
end

section
namespace Sys2Proof.Machine

/-! ### Enumeration of the tiles (O33)

#### Chains in ascending port order (R18) -/

/-- Chains stand in ascending port order, each port once. -/
abbrev PortsRise (l : List (Nat × Nat)) : Prop := l.Pairwise fun a b => a.1 < b.1

theorem mem_insertKey {β : Type} {c : Nat × β} {q : Nat} {v : β} :
    ∀ {l : List (Nat × β)}, c ∈ insertKey l q v → c = (q, v) ∨ c ∈ l
  | [], h => by simpa [insertKey] using h
  | (k, w) :: r, h => by
    rw [insertKey] at h
    split_ifs at h
    · simpa using h
    · simp only [List.mem_cons] at h ⊢
      exact h.imp_right .inr
    · simp only [List.mem_cons] at h ⊢
      rcases h with h | h
      · exact .inr (.inl h)
      · exact (mem_insertKey h).imp_right .inr

theorem insertKey_portsRise {q v : Nat} : ∀ {l : List (Nat × Nat)}, PortsRise l → PortsRise (insertKey l q v)
  | [], _ => by simp [insertKey]
  | (k, w) :: r, h => by
    obtain ⟨hk, hr⟩ := List.pairwise_cons.mp h
    rw [insertKey]
    split_ifs with h1 h2
    · refine List.pairwise_cons.mpr ⟨fun c hc => ?_, h⟩
      rcases List.mem_cons.mp hc with rfl | hc
      · exact h1
      · exact h1.trans (hk c hc)
    · exact List.pairwise_cons.mpr ⟨h2 ▸ hk, hr⟩
    · refine List.pairwise_cons.mpr ⟨fun c hc => ?_, insertKey_portsRise hr⟩
      rcases mem_insertKey hc with rfl | hc
      · show k < q
        omega
      · exact hk c hc

theorem insertKey_perm {q v : Nat} : ∀ {l : List (Nat × Nat)}, q ∉ l.map (·.1) → (insertKey l q v).Perm ((q, v) :: l)
  | [], _ => by simp [insertKey]
  | (k, w) :: r, h => by
    simp only [List.map_cons, List.mem_cons, not_or] at h
    rw [insertKey, if_neg h.1]
    split_ifs
    · exact .refl _
    · exact ((insertKey_perm h.2).cons _).trans (.swap _ _ _)

theorem insertKey_of_above {q v : Nat} : ∀ {l : List (Nat × Nat)}, (∀ c ∈ l, c.1 < q) → insertKey l q v = l ++ [(q, v)]
  | [], _ => rfl
  | (k, w) :: r, h => by
    obtain ⟨hk, hr⟩ := List.forall_mem_cons.mp h
    have hk : k < q := hk
    rw [insertKey, if_neg (by omega), if_neg (by omega), insertKey_of_above hr]
    rfl

theorem sortChains_append (l : List (Nat × Nat)) (c : Nat × Nat) :
    sortChains (l ++ [c]) = insertKey (sortChains l) c.1 c.2 := by simp [sortChains]

theorem sortChains_portsRise (l : List (Nat × Nat)) : PortsRise (sortChains l) := by
  induction l using List.reverseRecOn with
  | nil => exact List.Pairwise.nil
  | append_singleton l c ih =>
    rw [sortChains_append]
    exact insertKey_portsRise ih

theorem mem_of_mem_sortChains {l : List (Nat × Nat)} {c : Nat × Nat} (h : c ∈ sortChains l) : c ∈ l := by
  induction l using List.reverseRecOn with
  | nil => exact h
  | append_singleton l d ih =>
    rw [sortChains_append] at h
    rw [List.mem_append, List.mem_singleton]
    exact (mem_insertKey h).symm.imp_left ih

theorem sortChains_perm {l : List (Nat × Nat)} (h : (l.map (·.1)).Nodup) : (sortChains l).Perm l := by
  induction l using List.reverseRecOn with
  | nil => exact .refl _
  | append_singleton l c ih =>
    rw [List.map_append, List.nodup_append] at h
    obtain ⟨hl, -, hc⟩ := h
    have hnew : c.1 ∉ (sortChains l).map (·.1) := fun hm => by
      rw [((ih hl).map _).mem_iff] at hm
      exact hc _ hm _ (by simp) rfl
    rw [sortChains_append]
    exact (insertKey_perm hnew).trans (((ih hl).cons _).trans (List.perm_append_singleton _ _).symm)

theorem sortChains_of_portsRise {l : List (Nat × Nat)} (h : PortsRise l) : sortChains l = l := by
  induction l using List.reverseRecOn with
  | nil => rfl
  | append_singleton l c ih =>
    obtain ⟨hl, -, hc⟩ := List.pairwise_append.mp h
    rw [sortChains_append, ih hl, insertKey_of_above fun d hd => hc d hd c (by simp)]

/-! #### The addresses of the chains (R18, R20) -/

/-- One chain takes at most 32 addresses, and none above 511. -/
theorem length_assignChain (port next n : Nat) : (assignChain port next n).1.length = min (min 32 n) (512 - next) := by
  simp [assignChain]

theorem mem_assignChain {port next n : Nat} {a : Nat × Nat × Nat} (h : a ∈ (assignChain port next n).1) :
    a.2.1 = port ∧ 1 ≤ a.2.2 ∧ a.2.2 ≤ 32 ∧ a.2.2 ≤ n ∧ a.1 ≤ 511 := by
  simp only [assignChain, List.mem_map, List.mem_range] at h
  obtain ⟨i, hi, rfl⟩ := h
  refine ⟨rfl, ?_⟩
  dsimp only
  omega

theorem assignChain_next (port next n : Nat) :
    (assignChain port next n).2 = next + (assignChain port next n).1.length := by simp [assignChain]

/-- What a list of chains gets: the first chain's share, and the rest's unless a tile of the first had to go without. -/
theorem assignAll_cons (next p n : Nat) (r : List (Nat × Nat)) :
    assignAll next ((p, n) :: r) = (assignChain p next n).1 ++
      if (assignChain p next n).1.length < n then [] else assignAll (next + (assignChain p next n).1.length) r := by
  rw [assignAll, ← assignChain_next]
  split_ifs with h <;> simp [h]

theorem assignAll_numbers : ∀ (l : List (Nat × Nat)) (next : Nat),
    (assignAll next l).map (·.1) = List.range' next (assignAll next l).length
  | [], _ => rfl
  | (p, n) :: r, next => by
    have hchain : (assignChain p next n).1.map (·.1) = List.range' next (assignChain p next n).1.length := by
      simp [assignChain, List.range'_eq_map_range, Function.comp_def]
    rw [assignAll_cons, List.map_append, List.length_append, ← List.range'_append_1, hchain]
    split_ifs
    · rfl
    · rw [assignAll_numbers r]

theorem mem_assignAll {a : Nat × Nat × Nat} : ∀ {l : List (Nat × Nat)} {next : Nat}, a ∈ assignAll next l →
    a.1 ≤ 511 ∧ 1 ≤ a.2.2 ∧ a.2.2 ≤ 32 ∧ ∃ c ∈ l, c.1 = a.2.1 ∧ a.2.2 ≤ c.2
  | (p, n) :: r, next, h => by
    rw [assignAll_cons, List.mem_append] at h
    rcases h with h | h
    · obtain ⟨hp, h1, h32, hn, h511⟩ := mem_assignChain h
      exact ⟨h511, h1, h32, (p, n), by simp, hp.symm, hn⟩
    · split_ifs at h
      · cases h
      · obtain ⟨h511, h1, h32, c, hc, hcp, hcn⟩ := mem_assignAll h
        exact ⟨h511, h1, h32, c, List.mem_cons_of_mem _ hc, hcp, hcn⟩

theorem assignAll_rises : ∀ {l : List (Nat × Nat)} (next : Nat), PortsRise l →
    (assignAll next l).Pairwise fun a b => a.2.1 < b.2.1 ∨ (a.2.1 = b.2.1 ∧ a.2.2 < b.2.2)
  | [], _, _ => List.Pairwise.nil
  | (p, n) :: r, next, h => by
    obtain ⟨hp, hr⟩ := List.pairwise_cons.mp h
    rw [assignAll_cons]
    refine List.pairwise_append.mpr ⟨?_, ?_, fun a ha b hb => .inl ?_⟩
    · rw [assignChain, List.pairwise_map]
      exact List.pairwise_lt_range.imp fun hij => .inr ⟨rfl, Nat.succ_lt_succ hij⟩
    · split_ifs
      · exact List.Pairwise.nil
      · exact assignAll_rises _ hr
    · split_ifs at hb
      · cases hb
      · obtain ⟨-, -, -, c, hc, hcb, -⟩ := mem_assignAll hb
        rw [(mem_assignChain ha).1, ← hcb]
        exact hp c hc

/-- How many tiles of the chain on a port have an address. -/
abbrev addressed (l : List (Nat × Nat × Nat)) (port : Nat) : Nat := (l.filter fun a => a.2.1 == port).length

theorem addressed_cons_of_ne {c p n next : Nat} {r : List (Nat × Nat)} (h : c ≠ p) :
    addressed (assignAll next ((p, n) :: r)) c =
      addressed (if (assignChain p next n).1.length < n then []
        else assignAll (next + (assignChain p next n).1.length) r) c := by
  have hnone : (assignChain p next n).1.filter (fun a => a.2.1 == c) = [] := by
    rw [List.filter_eq_nil_iff]
    intro a ha hac
    exact h ((beq_iff_eq.mp hac).symm.trans (mem_assignChain ha).1)
  rw [addressed, assignAll_cons, List.filter_append, hnone, List.nil_append]

theorem le_addressed_head {p n next : Nat} (r : List (Nat × Nat)) :
    (assignChain p next n).1.length ≤ addressed (assignAll next ((p, n) :: r)) p := by
  have hall : (assignChain p next n).1.filter (fun a => a.2.1 == p) = (assignChain p next n).1 :=
    List.filter_eq_self.mpr fun a ha => beq_iff_eq.mpr (mem_assignChain ha).1
  rw [addressed, assignAll_cons, List.filter_append, hall, List.length_append]
  omega

/-- After a chain with a tile that has to go without, no tile of a later chain gets an address. -/
theorem assignAll_stops {c d : Nat × Nat} : ∀ {l : List (Nat × Nat)} {next : Nat}, PortsRise l → c ∈ l → d ∈ l → c.1 < d.1 →
    addressed (assignAll next l) c.1 < c.2 → ∀ a ∈ assignAll next l, a.2.1 ≠ d.1
  | (p, n) :: r, next, h, hc, hd, hcd, hlt, a, ha => by
    obtain ⟨hp, hr⟩ := List.pairwise_cons.mp h
    have hpd : p < d.1 := by
      rcases List.mem_cons.mp hd with rfl | hd
      · rcases List.mem_cons.mp hc with rfl | hc
        · exact absurd hcd (lt_irrefl _)
        · exact (hp c hc).trans hcd
      · exact hp d hd
    rw [assignAll_cons, List.mem_append] at ha
    rcases ha with ha | ha
    · exact (mem_assignChain ha).1 ▸ hpd.ne
    · split_ifs at ha with hfull
      · cases ha
      · rcases List.mem_cons.mp hc with rfl | hc
        · exact absurd (lt_of_le_of_lt (le_addressed_head r) hlt) hfull
        · have hd : d ∈ r := (List.mem_cons.mp hd).resolve_left fun h => by simp [h] at hpd
          rw [addressed_cons_of_ne (hp c hc).ne', if_neg hfull] at hlt
          exact assignAll_stops hr hc hd hcd hlt a ha

/-- Where the addresses suffice, every tile gets one. -/
theorem length_assignAll : ∀ {l : List (Nat × Nat)} {next : Nat}, (∀ c ∈ l, c.2 ≤ 32) → next + (l.map (·.2)).sum ≤ 512 →
    (assignAll next l).length = (l.map (·.2)).sum
  | [], _, _, _ => rfl
  | (p, n) :: r, next, h32, hsum => by
    obtain ⟨hn, hr⟩ := List.forall_mem_cons.mp h32
    have hn : n ≤ 32 := hn
    rw [List.map_cons, List.sum_cons] at hsum ⊢
    dsimp only at hsum ⊢
    have hchain : (assignChain p next n).1.length = n := by
      rw [length_assignChain]
      omega
    rw [assignAll_cons, hchain, if_neg (lt_irrefl n), List.length_append, hchain, length_assignAll hr (by omega)]

end Sys2Proof.Machine
end

section
namespace Sys2Proof.Machine

/-! #### Entries that take a value -/

/-- An entry of a personality exists, is not CONST and is w bits wide. -/
def settable (p : Personality) (k : Key) (w : Nat) : Bool := (rowAt p k).any fun r => r.acc != .konst && r.ty.width == w

theorem State.entry_set_of_settable {s : State} {k v w : Nat} (hs : s.sound = true) (h : settable s.pers k w = true)
    (hv : v < 2 ^ w) : ((Act.reg k v).apply s).entry k = v := by
  simp only [settable, Option.any_eq_true, Bool.and_eq_true, bne_iff_ne, beq_iff_eq] at h
  obtain ⟨r, hr, hacc, rfl⟩ := h
  rw [State.entry_set hs hr hacc, Nat.mod_eq_of_lt hv]

theorem address_settable (p : Personality) : settable p (keyOf 0x1000 6) 16 = true := by cases p <;> decide +kernel

/-- A device address that is set reads as itself. -/
theorem State.address_set {s : State} (hs : s.sound = true) {a : Nat} (ha : a < 2 ^ 16) :
    ((set 0x1000 6 a).run s).address = a := State.entry_set_of_settable hs (address_settable _) ha

/-! #### ENUMERATION (R14, R18, R20) -/

/-- The chains that count, in ascending port order, and the addresses of their tiles. -/
abbrev State.foundChains (s : State) (chains : List (Nat × Nat)) : List (Nat × Nat) :=
  sortChains (chains.filter fun c => s.counts c.1)
abbrev State.givenAddresses (s : State) (chains : List (Nat × Nat)) : List (Nat × Nat × Nat) :=
  assignAll (if s.pairLayout then 2 else 1) (s.foundChains chains)

/-- What ENUMERATION writes: the sender takes address 0 where it has none, and its role. -/
def State.takeRole (s : State) : Effect := .seq (Effect.when (s.address == 0xFFFF) (set 0x1000 6 0)) (s.setRole (s.address == 1))

theorem State.setRole_writes {K : Key → Prop} (hK : K (keyOf 0x2100 1)) (s : State) (far : Bool) : (s.setRole far).Writes K := by
  simp [State.setRole, hK]

theorem State.takeRole_writes (s : State) : s.takeRole.Writes (· ∈ [keyOf 0x1000 6, keyOf 0x2100 1]) := by
  simp [State.takeRole, State.setRole_writes]

theorem State.takeRole_noStore (s : State) : s.takeRole.NoStore := by simp [State.takeRole, State.setRole]

theorem State.takeRole_hid (s : State) : (s.takeRole.run s).hid = s.hid :=
  Effect.Beside.eq (by simp [State.takeRole, State.setRole])

theorem State.takeRole_address {s : State} (hs : s.sound = true) :
    (s.takeRole.run s).address = if s.address = 0xFFFF then 0 else s.address := by
  have hrole : ∀ u : State, u.sound = true → ((s.setRole (s.address == 1)).run u).address = u.address := fun u hu =>
    ((State.setRole_writes (K := (· = keyOf 0x2100 1)) rfl s _).keeps (by decide) hu).2
  rw [State.takeRole, Effect.run_seq, hrole _ (Effect.run_sound _ hs), Effect.run_when]
  simp only [beq_iff_eq]
  split_ifs
  · exact State.address_set hs (by decide)
  · rfl

theorem exec_enumeration {s : State} (chains : List (Nat × Nat)) (hsender : s.isSender = true) (hcore : s.up .core = true) :
    exec (.enumeration chains) s = .next ((Effect.ofOption (firstUnassigned (s.givenAddresses chains) (s.foundChains chains))
      fun q => raise 20 (q.1 * 64 + q.2)).run ((onLink fun l => { l with
        addresses := s.givenAddresses chains, chains := s.foundChains chains, enumerated := true }).run
          (s.takeRole.run s))) := by
  show perform (Effect.when (s.isSender && s.up .core) _) s = _
  rw [hsender, hcore]
  rfl

/-- An event adds to the record of what has gone out, and changes nothing else. -/
theorem raise_ofOption_run {α : Type} (o : Option α) (rule : Nat) (detail : α → Nat) (s : State) :
    ∃ out, (Effect.ofOption o fun q => raise rule (detail q)).run s = { s with outputs := out } := by
  cases o
  · exact ⟨s.outputs, rfl⟩
  · exact ⟨_, rfl⟩

/-- ENUMERATION gives the tiles their addresses, and says which chains it found. -/
theorem enumeration_completes {s : State} (chains : List (Nat × Nat)) (hs : s.sound = true) (hsender : s.isSender = true)
    (hcore : s.up .core = true) : Completes (.enumeration chains) s fun t =>
      t.hid = { s.hid with link := { s.hid.link with
        addresses := s.givenAddresses chains, chains := s.foundChains chains, enumerated := true } } ∧
      t.address = (if s.address = 0xFFFF then 0 else s.address) ∧ Only [keyOf 0x1000 6, keyOf 0x2100 1] s t := by
  refine ⟨_, exec_enumeration chains hsender hcore, ?_⟩
  obtain ⟨out, hout⟩ := raise_ofOption_run (firstUnassigned (s.givenAddresses chains) (s.foundChains chains)) 20
    (fun q => q.1 * 64 + q.2) ((onLink fun l => { l with
        addresses := s.givenAddresses chains, chains := s.foundChains chains, enumerated := true }).run (s.takeRole.run s))
  rw [hout]
  refine ⟨?_, State.takeRole_address hs, s.takeRole_writes.frame hs, s.takeRole_noStore.frame⟩
  simp [s.takeRole_hid]

end Sys2Proof.Machine
end

section
namespace Sys2Proof.Machine

/-! #### Pieces of a list of bytes -/

theorem slice_append_right {α : Type} (a b : List α) (o n : Nat) : slice (a ++ b) (a.length + o) n = slice b o n := by
  rw [slice, slice, List.drop_length_add_append]

theorem slice_append_left {α : Type} {a : List α} {o n : Nat} (b : List α) (h : o + n ≤ a.length) :
    slice (a ++ b) o n = slice a o n := by
  rw [slice, slice, List.drop_append_of_le_length (by omega), List.take_append_of_le_length (by rw [List.length_drop]; omega)]

/-- Piece i of pieces of one length, end to end. -/
theorem slice_flatMap {α β : Type} {f : α → List β} {k : Nat} (hf : ∀ x, (f x).length = k) :
    ∀ {l : List α} {i : Nat} (h : i < l.length), slice (l.flatMap f) (k * i) k = f l[i]
  | x :: l, 0, _ => by simp [slice, ← hf x]
  | x :: l, i + 1, h => by
    have hi : i < l.length := Nat.lt_of_succ_lt_succ h
    rw [List.flatMap_cons, Nat.mul_succ, Nat.add_comm, ← hf x, slice_append_right, hf x, slice_flatMap hf hi]
    rfl

theorem natLE_bytesLE_mod : ∀ n v : Nat, natLE (bytesLE n v) = v % 256 ^ n
  | 0, v => by simp [bytesLE, natLE, Nat.mod_one]
  | n + 1, v => by
    rw [bytesLE, natLE, natLE_bytesLE_mod n, BitVec.toNat_ofNat, pow_succ' 256 n, Nat.mod_mul]

/-! #### Cells that join what waits for the slots of ports -/

theorem getD_updateAt {α : Type} (f : α → α) (d : α) :
    ∀ (l : List α) (i j : Nat), (updateAt l i f).getD j d = if i = j ∧ j < l.length then f (l.getD j d) else l.getD j d
  | [], _, _ => by simp [updateAt]
  | _ :: _, 0, 0 => by simp [updateAt]
  | _ :: _, 0, _ + 1 => by simp [updateAt]
  | _ :: _, _ + 1, 0 => by simp [updateAt]
  | _ :: r, i + 1, j + 1 => by simpa [updateAt] using getD_updateAt f d r i j

/-- Something waits for a slot of a port, after what waits there. -/
def joinPort (ps : List PortState) (q : Nat × Waiting) : List PortState :=
  updateAt ps q.1 fun r => { r with egress := r.egress ++ [q.2] }

theorem length_foldl_joinPort : ∀ (ws : List (Nat × Waiting)) (ps : List PortState), (ws.foldl joinPort ps).length = ps.length
  | [], _ => rfl
  | w :: ws, ps => by simp [length_foldl_joinPort ws, joinPort]

theorem egress_foldl_joinPort {p : Nat} : ∀ (ws : List (Nat × Waiting)) {ps : List PortState}, p < ps.length →
    ((ws.foldl joinPort ps).getD p PortState.initial).egress =
      (ps.getD p PortState.initial).egress ++ (ws.filter fun q => q.1 == p).map (·.2)
  | [], _, _ => by simp
  | w :: ws, ps, h => by
    have h' : p < (joinPort ps w).length := by simpa [joinPort] using h
    rw [List.foldl_cons, egress_foldl_joinPort ws h', joinPort, getD_updateAt]
    by_cases hw : w.1 = p <;> simp [hw, h]

/-- Cells posted one after the other wait in that order; nothing else changes. -/
theorem run_posts : ∀ (l : List (Nat × Cell)) (s : State), (Effect.each (fun q => postCell q.1 q.2) l).run s =
    { s with hid := { s.hid with ports := (l.map fun q => (q.1, s.waiting q.2)).foldl joinPort s.hid.ports } }
  | [], _ => rfl
  | q :: l, s => by
    rw [Effect.run_each_cons, run_posts l]
    rfl

/-- One effect for each element that gives something, and none for the others. -/
theorem Effect.run_each_filterMap {α β : Type} {f : α → Option β} {g : α → Effect} {h : β → Effect}
    (hg : ∀ x s, (g x).run s = (Effect.ofOption (f x) h).run s) :
    ∀ (l : List α) (s : State), (Effect.each g l).run s = (Effect.each h (l.filterMap f)).run s
  | [], _ => rfl
  | x :: l, s => by
    rw [Effect.run_each_cons, hg, Effect.run_each_filterMap hg l]
    cases hx : f x <;> simp [hx]

/-! #### ENUM_SEND (R123) -/

/-- The ENUM cell of chain k on port p. -/
def State.enumCell (s : State) (k p : Nat) : Cell :=
  plainCell 7 s.address 68 0 0 true (s.endOf p) false (s.enumBody k p)

/-- The ENUM cells of a sender, each with its port. -/
def State.enumCells (s : State) : List (Nat × Cell) := s.hid.link.chains.filterMap fun c =>
  if c.2 = 0 then none else (s.enumPort c.1).map fun p => (p, s.enumCell c.1 p)

theorem State.length_enumBody (s : State) (k p : Nat) : (s.enumBody k p).length = 68 := by
  simp [State.enumBody, length_bytesLE, zeroBytes]

/-- A field inside the body of an ENUM cell. -/
theorem State.cellField_enumCell (s : State) (k p : Nat) {o n : Nat} (h : o + n ≤ 68) :
    cellField (s.enumCell k p) o n = natLE (slice (s.enumBody k p) o n) := by
  rw [cellField, State.enumCell, plainCell, padTo, slice_append_left _ (by rwa [State.length_enumBody])]

theorem State.enumCell_port (s : State) (k p : Nat) : cellField (s.enumCell k p) 0 1 = p % 256 := by
  rw [s.cellField_enumCell k p (by decide), State.enumBody, List.append_assoc, List.append_assoc,
    slice_append_left _ (by simp [length_bytesLE])]
  simp [slice, bytesLE, natLE]

theorem State.enumCell_end (s : State) (k p : Nat) : cellField (s.enumCell k p) 1 1 = if s.endOf p then 1 else 0 := by
  rw [s.cellField_enumCell k p (by decide), State.enumBody]
  cases h : s.endOf p <;> simp [slice, bytesLE, natLE]

/-- The addresses of an ENUM cell, by hop. -/
theorem State.enumCell_address (s : State) (k p : Nat) {h : Nat} (h1 : 1 ≤ h) (h32 : h ≤ 32) :
    cellField (s.enumCell k p) (4 + 2 * (h - 1)) 2 = s.enumAddress k (s.endOf p) h % 2 ^ 16 := by
  have hhead : (bytesLE 1 p ++ bytesLE 1 (if s.endOf p then 1 else 0) ++ zeroBytes 2).length = 4 := by
    simp [length_bytesLE, zeroBytes]
  have hlt : h - 1 < (List.range 32).length := by rw [List.length_range]; omega
  rw [s.cellField_enumCell k p (by omega), State.enumBody, ← hhead, slice_append_right,
    slice_flatMap (fun _ => length_bytesLE 2 _) hlt, natLE_bytesLE_mod, List.getElem_range, Nat.sub_add_cancel h1]
  rfl

theorem State.lt_of_enumPort {s : State} {k p : Nat} (hsender : s.isSender = true) (h : s.enumPort k = some p) : p < 16 := by
  have hp := (List.mem_filter.mp (List.mem_of_find?_eq_some h)).1
  simpa [State.ports, hsender] using hp

theorem exec_enumSend {s : State} (hsender : s.isSender = true) (henum : s.hid.link.enumerated = true) :
    exec .enumSend s = .next { s with hid := { s.hid with
      ports := (s.enumCells.map fun q => (q.1, s.waiting q.2)).foldl joinPort s.hid.ports } } := by
  show perform (Effect.when (s.isSender && s.hid.link.enumerated) _) s = _
  rw [hsender, henum, perform_eq, ← run_posts, State.enumCells]
  refine congrArg _ (Effect.run_each_filterMap (fun c u => ?_) _ _)
  by_cases hc : c.2 = 0
  · simp [hc]
  · rw [bne_iff_ne.mpr hc, if_neg hc]
    cases s.enumPort c.1 <;> rfl

/-- What ENUM_SEND has wait on a port: the ENUM cell of each chain that leaves there. -/
theorem State.mem_enumWaiting {s : State} {p : Nat} {w : Waiting} :
    w ∈ ((s.enumCells.map fun q => (q.1, s.waiting q.2)).filter fun q => q.1 == p).map (·.2) ↔
      ∃ c ∈ s.hid.link.chains, c.2 ≠ 0 ∧ s.enumPort c.1 = some p ∧ s.waiting (s.enumCell c.1 p) = w := by
  have hcells : ∀ q, q ∈ s.enumCells ↔
      ∃ c ∈ s.hid.link.chains, c.2 ≠ 0 ∧ s.enumPort c.1 = some q.1 ∧ s.enumCell c.1 q.1 = q.2 := by
    rintro ⟨a, x⟩
    simp only [State.enumCells, List.mem_filterMap, Option.ite_none_left_eq_some, Option.map_eq_some_iff, Prod.mk.injEq]
    constructor
    · rintro ⟨c, hc, hn, b, hport, rfl, hx⟩
      exact ⟨c, hc, hn, hport, hx⟩
    · rintro ⟨c, hc, hn, hport, hx⟩
      exact ⟨c, hc, hn, a, hport, rfl, hx⟩
  simp only [List.mem_map, List.mem_filter, beq_iff_eq]
  constructor
  · rintro ⟨_, ⟨⟨q, hq, rfl⟩, rfl⟩, rfl⟩
    obtain ⟨c, hc, hn, hport, hx⟩ := (hcells q).mp hq
    exact ⟨c, hc, hn, hport, congrArg s.waiting hx⟩
  · rintro ⟨c, hc, hn, hport, rfl⟩
    exact ⟨_, ⟨⟨(p, s.enumCell c.1 p), (hcells _).mpr ⟨c, hc, hn, hport, rfl⟩, rfl⟩, rfl⟩, rfl⟩

/-- A cell that waits is the ENUM cell of chain k on port p. -/
def State.IsEnumCell (s : State) (k p : Nat) (w : Waiting) : Prop := ∃ c : Cell, w = s.waiting c ∧ c.kind = 7 ∧
  c.bcast = true ∧ c.fromEnd = s.endOf p ∧ cellField c 0 1 = p % 256 ∧ cellField c 1 1 = (if s.endOf p then 1 else 0) ∧
  ∀ h, 1 ≤ h → h ≤ 32 → cellField c (4 + 2 * (h - 1)) 2 = s.enumAddress k (s.endOf p) h % 2 ^ 16

theorem State.isEnumCell_enumCell (s : State) (k p : Nat) : s.IsEnumCell k p (s.waiting (s.enumCell k p)) :=
  ⟨s.enumCell k p, rfl, rfl, rfl, rfl, s.enumCell_port k p, s.enumCell_end k p, fun _ => s.enumCell_address k p⟩

/-- After what waited on a port come the ENUM cells of the chains that leave there, and nothing else. -/
theorem State.enumSend_posts {s : State} (hshape : s.shaped = true) (hsender : s.isSender = true) (p : Nat) :
    ∃ ws, (((s.enumCells.map fun q => (q.1, s.waiting q.2)).foldl joinPort s.hid.ports).getD p PortState.initial).egress =
        (s.port p).egress ++ ws ∧
      (∀ w ∈ ws, ∃ c ∈ s.hid.link.chains, c.2 ≠ 0 ∧ s.enumPort c.1 = some p ∧ s.IsEnumCell c.1 p w) ∧
      ∀ c ∈ s.hid.link.chains, c.2 ≠ 0 → s.enumPort c.1 = some p → ∃ w ∈ ws, s.IsEnumCell c.1 p w := by
  have hlen : s.hid.ports.length = 16 := ((State.shaped_iff s).mp hshape).ports
  by_cases hp : p < 16
  · refine ⟨_, egress_foldl_joinPort _ (hlen ▸ hp), fun w hw => ?_, fun c hc hn hport => ?_⟩
    · obtain ⟨c, hc, hn, hport, rfl⟩ := State.mem_enumWaiting.mp hw
      exact ⟨c, hc, hn, hport, s.isEnumCell_enumCell c.1 p⟩
    · exact ⟨_, State.mem_enumWaiting.mpr ⟨c, hc, hn, hport, rfl⟩, s.isEnumCell_enumCell c.1 p⟩
  · have hout : ∀ ps : List PortState, ps.length = 16 → ps.getD p PortState.initial = PortState.initial := fun ps h => by
      simp [show ps.length ≤ p by omega]
    refine ⟨[], ?_, by simp, fun c _ _ hport => absurd (State.lt_of_enumPort hsender hport) hp⟩
    rw [List.append_nil, State.port, hout _ hlen, hout _ (by rw [length_foldl_joinPort, hlen])]

end Sys2Proof.Machine
end

section
namespace Sys2Proof.Machine

/-! #### What the entry to a mode changes (R51, R209, R343, R404, R443, R447) -/

/-- An effect that writes only entries of a list, or entries that the personality does not have, changes only those of the
list. -/
theorem Effect.Writes.frame_of_absent {ks : List Key} {e : Effect} {s : State} (hs : s.sound = true)
    (h : e.Writes fun k => k ∈ ks ∨ rowAt s.pers k = none) : SameEntriesBut ks s (e.run s) := by
  refine ⟨h.pers, fun k hk => ?_⟩
  cases hr : rowAt s.pers k with
  | some r => exact (h.keeps (by simp [hk, hr]) hs).2
  | none =>
    have hfixed : ∀ u : State, u.sound = true → u.pers = s.pers → u.entry k = defaultOf s.pers k := fun u hu hp =>
      hp ▸ valueOf_fixed ((State.sound_iff u).mp hu).2 fun row h => by simp [hp, hr] at h
    rw [hfixed _ (e.run_sound hs) h.pers, hfixed s hs rfl]

/-- What the entry to a mode may write: the entries listed for it, and such that the personality does not have. -/
def State.ModeKey (s : State) (k : Key) : Prop := k ∈ s.modeEntries ∨ rowAt s.pers k = none

/-- The same without the mode that is shown and its cause. -/
def State.BesideMode (s : State) (k : Key) : Prop := s.ModeKey k ∧ k ≠ keyOf 0x1001 1 ∧ k ≠ keyOf 0x1001 3

theorem State.BesideMode.of_fixed (s : State) {k : Key} (hk : k ∈ [keyOf 0x1001 4, keyOf 0x1001 6, keyOf 0x1010 3,
    keyOf 0x1010 5, keyOf 0x1010 6, keyOf 0x1010 7, keyOf 0x1010 0x0B, keyOf 0x1110 3, keyOf 0x1100 6, keyOf 0x1210 2,
    keyOf 0x3000 3, keyOf 0x4300 0x0B, keyOf 0x5000 1, keyOf 0x7020 1, keyOf 0x7030 3, keyOf 0x1600 6]) : s.BesideMode k := by
  simp only [List.mem_cons, List.not_mem_nil, or_false] at hk
  rcases hk with rfl | rfl | rfl | rfl | rfl | rfl | rfl | rfl | rfl | rfl | rfl | rfl | rfl | rfl | rfl | rfl <;>
    exact ⟨.inl (by simp [State.modeEntries]), by decide, by decide⟩

theorem keyOf_ne_of_lt {i j a b : Nat} (h : i < j) (ha : a < 256) : keyOf i a ≠ keyOf j b :=
  Nat.ne_of_lt (show i * 256 + a < j * 256 + b by omega)

theorem State.BesideMode.of_mem {s : State} {i a : Nat} (hi : 0x1001 < i) (h : keyOf i a ∈ s.modeEntries) :
    s.BesideMode (keyOf i a) :=
  ⟨.inl h, (keyOf_ne_of_lt hi (by decide)).symm, (keyOf_ne_of_lt hi (by decide)).symm⟩

theorem State.BesideMode.of_absent {s : State} {i a : Nat} (hi : 0x1001 < i) (h : rowAt s.pers (keyOf i a) = none) :
    s.BesideMode (keyOf i a) :=
  ⟨.inr h, (keyOf_ne_of_lt hi (by decide)).symm, (keyOf_ne_of_lt hi (by decide)).symm⟩

/-- The families of entries among those that the entry to a mode may change. -/
theorem State.mem_modeEntries_of_family {s : State} {k : Key} (h : k ∈ s.ports.map (fun p => keyOf (0x7010 + p) 1) ∨
    k ∈ (List.range 11).map (fun m => keyOf 0x1642 (m + 1)) ∨ k ∈ s.channels.map (fun c => keyOf (0x3030 + c) 1) ∨
    k ∈ laneEntries ∨ k ∈ (List.range 4).map fun d => keyOf (0x6001 + d) 3) : k ∈ s.modeEntries := by
  rw [State.modeEntries]
  simp only [List.mem_append (t := List.map _ _), List.mem_append (t := _ :: _), List.mem_cons (l := laneEntries)]
  rcases h with h | h | h | h | h <;> simp only [h, true_or, or_true]

theorem State.isSender_eq_false {s : State} : s.isSender = false ↔ s.pers = .tile ∨ s.pers = .invalid := by
  cases h : s.pers <;> simp [State.isSender, h]

theorem State.BesideMode.of_port (s u : State) {p : Nat} (hp : p ∈ u.ports) : s.BesideMode (keyOf (0x7010 + p) 1) := by
  have habsent : ∀ q ∈ [Personality.tile, .invalid], ∀ p < 16, 2 ≤ p → rowAt q (keyOf (0x7010 + p) 1) = none := by
    decide +kernel
  have hp : p < 16 := by
    simp only [State.ports, List.mem_range] at hp
    split_ifs at hp <;> omega
  by_cases hin : p ∈ s.ports
  · exact .of_mem (by omega) (State.mem_modeEntries_of_family (.inl (List.mem_map_of_mem hin)))
  · cases hs : s.isSender
    · have h2 : ¬p < 2 := by simpa [State.ports, hs] using hin
      exact .of_absent (by omega) (habsent _ (by simpa using State.isSender_eq_false.mp hs) p hp (not_lt.mp h2))
    · simp [State.ports, hs, hp] at hin

theorem State.BesideMode.of_channel (s u : State) {c : Nat} (hc : c ∈ u.channels) : s.BesideMode (keyOf (0x3030 + c) 1) := by
  have habsent : ∀ q ∈ [Personality.tile, .invalid], ∀ c < 36, 8 ≤ c → rowAt q (keyOf (0x3030 + c) 1) = none := by
    decide +kernel
  have hc : c < 36 := by
    simp only [State.channels, List.mem_range] at hc
    split_ifs at hc <;> omega
  by_cases hin : c ∈ s.channels
  · exact .of_mem (by omega) (State.mem_modeEntries_of_family (.inr (.inr (.inl (List.mem_map_of_mem hin)))))
  · cases hs : s.isSender
    · have h8 : 8 ≤ c := by simpa [State.channels, hs] using hin
      exact .of_absent (by omega) (habsent _ (by simpa using State.isSender_eq_false.mp hs) c hc h8)
    · simp [State.channels, hs, hc] at hin

theorem State.BesideMode.of_lane (s : State) {l : Nat} (hl : l ∈ List.range 32) : s.BesideMode (keyOf (0x5110 + l) 3) :=
  .of_mem (by omega) (State.mem_modeEntries_of_family (.inr (.inr (.inr (.inl (List.mem_map_of_mem hl))))))

theorem State.BesideMode.of_receiver (s : State) {d : Nat} (hd : d ∈ List.range 4) : s.BesideMode (keyOf (0x6001 + d) 3) :=
  .of_mem (by omega) (State.mem_modeEntries_of_family (.inr (.inr (.inr (.inr (List.mem_map_of_mem hd))))))

theorem State.BesideMode.of_master (s u : State) {m : Nat} (hm : m ∈ u.masters) : s.BesideMode (keyOf 0x1642 (m + 1)) :=
  .of_mem (by decide) (State.mem_modeEntries_of_family (.inr (.inl (List.mem_map_of_mem (List.mem_of_mem_filter hm)))))

/-! The parts of a mode entry, in the order of their definitions: each writes entries beside the mode shown, and none
stores. -/

section
variable (s : State)

theorem endPending_writes (code : Nat) : (endPending code).Writes s.BesideMode := by
  simp [endPending, State.BesideMode.of_fixed]

theorem endChecking_writes (code : Nat) : (endChecking code).Writes s.BesideMode := by
  simp [endChecking, State.BesideMode.of_fixed]

theorem dropByMode_writes : dropByMode.Writes s.BesideMode := by
  simp [dropByMode, dropCommits, endPending_writes, endChecking_writes, State.BesideMode.of_fixed]

theorem setLampEn_writes (on : Bool) : (setLampEn on).Writes s.BesideMode := by
  simp [setLampEn, State.BesideMode.of_fixed]

theorem stopLanes_writes : stopLanes.Writes s.BesideMode := by
  simp only [stopLanes, Effect.writes_look, Effect.writes_when, Effect.writes_seq, Effect.writes_each, setField_writes,
    onScan_writes, true_and]
  exact fun _ _ _ hl => .of_lane s hl

theorem moveMemory_writes (before after : Nat) : (moveMemory before after).Writes s.BesideMode := by
  simp only [moveMemory, Effect.writes_look, Effect.writes_when, Effect.writes_seq, Effect.writes_each, set_writes,
    setField_writes]
  exact fun u _ => ⟨.of_fixed s (by simp), fun c hc _ => .of_channel s u hc⟩

theorem darkOutputs_writes : darkOutputs.Writes s.BesideMode := by
  simp [darkOutputs, setLampEn_writes, stopLanes_writes]

theorem restDomains_writes : restDomains.Writes s.BesideMode := by
  simp [restDomains, darkOutputs_writes, moveMemory_writes, State.BesideMode.of_fixed]

theorem wakeDomains_writes : wakeDomains.Writes s.BesideMode := by
  simp [wakeDomains, moveMemory_writes, State.BesideMode.of_fixed]

theorem endTests_writes : endTests.Writes s.BesideMode := by
  simp only [endTests, Effect.writes_look, Effect.writes_all_cons, Effect.writes_all_nil, Effect.writes_each,
    Effect.writes_when, set_writes, and_true]
  exact fun u => ⟨fun p hp => .of_port s u hp, .of_fixed s (by simp), fun _ => .of_fixed s (by simp)⟩

theorem computeBudgets_writes : computeBudgets.Writes s.BesideMode := by
  simp only [computeBudgets, Effect.writes_look, Effect.writes_seq, Effect.writes_each, set_writes]
  exact fun u => ⟨fun m hm => .of_master s u hm, trivial⟩

theorem haltMaster_writes (m : Nat) : (haltMaster m).Writes s.BesideMode := by
  simp [haltMaster, State.BesideMode.of_fixed]

theorem driveHpds_writes : driveHpds.Writes s.BesideMode := by
  simp only [driveHpds, driveHpd, Effect.writes_each, Effect.writes_look, Effect.writes_when, Effect.writes_all_cons,
    Effect.writes_all_nil, set_writes, emit_writes, onIngest_writes, true_and, and_true]
  exact fun d hd _ _ => .of_receiver s hd

end

theorem moveMemory_noStore (before after : Nat) : (moveMemory before after).NoStore := by simp [moveMemory]
theorem darkOutputs_noStore : darkOutputs.NoStore := by simp [darkOutputs, setLampEn, stopLanes]
theorem restDomains_noStore : restDomains.NoStore := by simp [restDomains, darkOutputs_noStore, moveMemory_noStore]
theorem wakeDomains_noStore : wakeDomains.NoStore := by simp [wakeDomains, moveMemory_noStore]
theorem dropByMode_noStore : dropByMode.NoStore := by simp [dropByMode, dropCommits, endPending, endChecking]
theorem endTests_noStore : endTests.NoStore := by simp [endTests]
theorem computeBudgets_noStore : computeBudgets.NoStore := by simp [computeBudgets]
theorem haltMaster_noStore (m : Nat) : (haltMaster m).NoStore := by simp [haltMaster]
theorem driveHpds_noStore : driveHpds.NoStore := by simp [driveHpds, driveHpd]

theorem enterMode_noStore (m cause : Nat) : (enterMode m cause).NoStore := by
  simp [enterMode, enterModeAt, restDomains_noStore, wakeDomains_noStore, dropByMode_noStore, endTests_noStore,
    computeBudgets_noStore, haltMaster_noStore, driveHpds_noStore]

theorem Effect.run_all_append (s : State) : ∀ a b : List Effect,
    (Effect.all (a ++ b)).run s = (Effect.all b).run ((Effect.all a).run s)
  | [], _ => rfl
  | e :: a, b => by rw [List.cons_append, Effect.run_all_cons, Effect.run_all_cons, Effect.run_all_append]

/-- The entry to a mode shows the mode and the cause, and changes no other entry that it may not change. -/
theorem enterMode_shows (m cause : Nat) (s : State) : ∃ before after : List Effect,
    (enterMode m cause).run s = (Effect.all (before ++ set 0x1001 1 m :: set 0x1001 3 cause :: after)).run s ∧
    (Effect.all before).Writes s.BesideMode ∧ (Effect.all after).Writes s.BesideMode := by
  simp only [enterMode, enterModeAt, Effect.run_look]
  refine ⟨[_, _], _, rfl, ?_, ?_⟩
  · simp [dropByMode_writes]
  · simp [endTests_writes, computeBudgets_writes, restDomains_writes, haltMaster_writes, wakeDomains_writes,
      driveHpds_writes, State.BesideMode.of_fixed]

@[simp] theorem Effect.writes_all_append {K : Key → Prop} : ∀ a b : List Effect,
    (Effect.all (a ++ b)).Writes K ↔ (Effect.all a).Writes K ∧ (Effect.all b).Writes K
  | [], b => by simp
  | e :: a, b => by simp [Effect.writes_all_append a b, and_assoc]

theorem State.modeEntries_head (s : State) : keyOf 0x1001 1 ∈ s.modeEntries ∧ keyOf 0x1001 3 ∈ s.modeEntries := by
  simp [State.modeEntries]

theorem mode_settable (p : Personality) : settable p (keyOf 0x1001 1) 8 = true ∧ settable p (keyOf 0x1001 3) 8 = true := by
  cases p <;> decide +kernel

/-- The part is in the mode entered, with its cause, and only the entries that a mode entry may change have changed. -/
theorem enterMode_entries {s : State} {m cause : Nat} (hs : s.sound = true) (hm : m < 2 ^ 8) (hcause : cause < 2 ^ 8) :
    ((enterMode m cause).run s).mode = m ∧ ((enterMode m cause).run s).entry (keyOf 0x1001 3) = cause ∧
      SameEntriesBut s.modeEntries s ((enterMode m cause).run s) := by
  obtain ⟨before, after, hrun, hbefore, hafter⟩ := enterMode_shows m cause s
  have hframe : SameEntriesBut s.modeEntries s ((enterMode m cause).run s) := hrun ▸ Effect.Writes.frame_of_absent hs (by
    simp only [Effect.writes_all_append, Effect.writes_all_cons, set_writes]
    exact ⟨hbefore.mono fun _ => And.left, .inl s.modeEntries_head.1, .inl s.modeEntries_head.2,
      hafter.mono fun _ => And.left⟩)
  rw [Effect.run_all_append, Effect.run_all_cons, Effect.run_all_cons] at hrun
  have hu := Effect.run_sound (.all before) hs
  have hv := Effect.run_sound (set 0x1001 1 m) hu
  have hw := Effect.run_sound (set 0x1001 3 cause) hv
  refine ⟨?_, ?_, hframe⟩
  · rw [hrun]
    refine (hafter.keeps (q := keyOf 0x1001 1) (fun h => h.2.1 rfl) hw).2.trans ?_
    exact (State.entry_set_of_ne hv (by decide)).trans (State.entry_set_of_settable hu (mode_settable _).1 hm)
  · rw [hrun]
    refine (hafter.keeps (q := keyOf 0x1001 3) (fun h => h.2.2 rfl) hw).2.trans ?_
    exact State.entry_set_of_settable hv (mode_settable _).2 hcause

theorem setLampEn_lampEn (on : Bool) (s : State) : ((setLampEn on).run s).hid.lampEn = on := by
  by_cases h : s.hid.lampEn = on <;> simp [setLampEn, Effect.run_when, h]

/-- LAMP_EN is as it was. -/
abbrev LampKept (a b : Hidden) : Prop := b.lampEn = a.lampEn

theorem Effect.Beside.lampEn {e : Effect} {s : State} (h : e.Beside LampKept) : (e.run s).hid.lampEn = s.hid.lampEn :=
  Effect.Beside.hid (R := LampKept) (fun _ => rfl) (fun h h' => h'.trans h) h

theorem restDomains_lampEn (s : State) : (restDomains.run s).hid.lampEn = false := by
  have hafter : ∀ u : State, ((Effect.all [hidden fun h => { h with clamped := true }, stopLanes]).run u).hid.lampEn =
      u.hid.lampEn := fun u => Effect.Beside.lampEn (by simp [stopLanes])
  have hdomains : ∀ u : State, ((Effect.all [moveMemory 2 4, setBit 0x1100 6 Dom.scan.bit false,
      setBit 0x1100 6 Dom.pipe.bit false]).run u).hid.lampEn = u.hid.lampEn := fun u =>
    Effect.Beside.lampEn (by simp [moveMemory])
  rw [restDomains, Effect.run_all_cons, hdomains, darkOutputs, Effect.run_all_cons, hafter, setLampEn_lampEn]

/-- In a mode that rests the domains LAMP_EN is low. -/
theorem enterMode_lampEn {m : Nat} (hm : [1, 9, 10].contains m = true) (cause : Nat) (s : State) :
    ((enterMode m cause).run s).hid.lampEn = false := by
  obtain ⟨before, after, hrun, hafter⟩ : ∃ before after : List Effect, (enterMode m cause).run s =
      (Effect.all (before ++ Effect.when ([1, 9, 10].contains m) restDomains :: after)).run s ∧
      (Effect.all after).Beside LampKept := by
    simp only [enterMode, enterModeAt, Effect.run_look]
    refine ⟨[_, _, _, _, _, _, _, _, _, _], _, rfl, ?_⟩
    simp [haltMaster, wakeDomains, moveMemory, driveHpds, driveHpd]
  rw [hrun, Effect.run_all_append, Effect.run_all_cons, hafter.lampEn, hm, Effect.run_when_true, restDomains_lampEn]

/-! #### ENUM_RECEIVE (R20, R21, R123) -/

theorem address_notMem_modeEntries (s : State) : keyOf 0x1000 6 ∉ s.modeEntries := by
  have hbelow : ∀ {i a : Nat}, 0x1000 < i → keyOf i a ≠ keyOf 0x1000 6 := fun h => (keyOf_ne_of_lt h (by decide)).symm
  have hbelow' : ∀ {i a : Nat}, 0x1000 < i → keyOf 0x1000 6 ≠ keyOf i a := fun h => keyOf_ne_of_lt h (by decide)
  simp (disch := omega) [State.modeEntries, laneEntries, hbelow, hbelow']

/-- A sequence of two frames. -/
theorem Only.trans {ks ls : List Key} {s t u : State} (h : Only ks s t) (h' : Only ls t u) : Only (ks ++ ls) s u := by
  obtain ⟨⟨hpers, hentries⟩, hmem⟩ := h
  obtain ⟨⟨hpers', hentries'⟩, hmem'⟩ := h'
  refine ⟨⟨hpers'.trans hpers, fun k hk => ?_⟩, fun a => (hmem' a).trans (hmem a)⟩
  rw [List.mem_append, not_or] at hk
  exact (hentries' k hk.2).trans (hentries k hk.1)

theorem State.modeEntries_congr {s t : State} (h : t.pers = s.pers) : t.modeEntries = s.modeEntries := by
  rw [State.modeEntries, State.modeEntries, State.ports, State.ports, State.channels, State.channels, State.isSender,
    State.isSender, h]

/-- The state with the cells that are left once one has been taken. -/
abbrev State.withRx (s : State) (rest : List (Nat × Cell)) : State :=
  { s with hid := { s.hid with link := { s.hid.link with rx := rest } } }

theorem withCell_run {s : State} {p : Cell → Bool} {f : Nat → Cell → Effect} {q : Nat × Cell} {rest : List (Nat × Cell)}
    (h : s.takeCell (fun x => p x.2) = some (q, rest)) :
    (withCell p f).run s = (f q.1 q.2).run (s.withRx rest) := by
  simp only [withCell, withCellOf, Effect.run_look, h, Effect.run_ofOption_some, Effect.run_seq]
  rfl

/-- A part whose address is set, if it differs. -/
theorem setAddress_run {s : State} {a : Nat} (hs : s.sound = true) (ha : a < 2 ^ 16) (differs : Bool)
    (hd : differs = false → s.address = a) :
    let u := (Effect.when differs (set 0x1000 6 a)).run s
    u.sound = true ∧ u.address = a ∧ u.hid = s.hid ∧ Only [keyOf 0x1000 6] s u := by
  refine ⟨Effect.run_sound _ hs, ?_, Effect.Beside.eq (by simp), Effect.Writes.frame (by simp) hs, Effect.NoStore.frame (by simp)⟩
  cases differs
  · exact hd rfl
  · exact State.address_set hs ha

/-- A mode entered after the address was set: the address stays, and the mode and its cause are shown. -/
theorem setAddress_enterMode {s u : State} {a m : Nat} (hu : u.sound = true) (haddress : u.address = a)
    (honly : Only [keyOf 0x1000 6] s u) (hm : m < 2 ^ 8) :
    let t := (enterMode m Cause.enumeration).run u
    t.address = a ∧ t.mode = m ∧ t.entry (keyOf 0x1001 3) = Cause.enumeration ∧ Only (keyOf 0x1000 6 :: s.modeEntries) s t := by
  obtain ⟨hmode, hcause, hframe⟩ := enterMode_entries (cause := Cause.enumeration) hu hm (by decide)
  refine ⟨(hframe.2 _ (address_notMem_modeEntries u)).trans haddress, hmode, hcause, ?_⟩
  have hthen := honly.trans ⟨hframe, (enterMode_noStore m Cause.enumeration).frame⟩
  rwa [State.modeEntries_congr honly.1.1] at hthen

section
variable {s : State} {a : Nat} (hs : s.sound = true)
include hs

/-- A real address becomes the tile's own. -/
theorem takeAddress_own (ha : a < 2 ^ 16) (hne : a ≠ 0xFFFF) (hmode : ¬(s.mode = Mode.passthrough ∧ s.hid.mode.byEnum = true)) :
    ((takeAddress a).run s).address = a ∧ ((takeAddress a).run s).hid = s.hid ∧
      Only [keyOf 0x1000 6] s ((takeAddress a).run s) := by
  have hstay : (s.mode == Mode.passthrough && s.hid.mode.byEnum) = false := by simpa using hmode
  obtain ⟨-, haddress, hhid, honly⟩ := setAddress_run hs ha (a != s.address) (by simp +contextual)
  rw [takeAddress, Effect.run_look, if_neg hne, Effect.run_seq, hstay]
  exact ⟨haddress, hhid, honly⟩

/-- A real address wakes a tile that ENUM had put into PASSTHROUGH. -/
theorem takeAddress_wakes (ha : a < 2 ^ 16) (hne : a ≠ 0xFFFF) (hmode : s.mode = Mode.passthrough)
    (hby : s.hid.mode.byEnum = true) : let t := (takeAddress a).run s
    t.address = a ∧ t.mode = Mode.dark ∧ t.entry (keyOf 0x1001 3) = Cause.enumeration ∧
      Only (keyOf 0x1000 6 :: s.modeEntries) s t := by
  obtain ⟨hu, haddress, -, honly⟩ := setAddress_run hs ha (a != s.address) (by simp +contextual)
  rw [takeAddress, Effect.run_look, if_neg hne, Effect.run_seq, hmode, hby]
  exact setAddress_enterMode hu haddress honly (by decide)

/-- 0xFFFF leaves a tile without an address in its mode, where that mode does not leave for PASSTHROUGH. -/
theorem takeAddress_none (hmode : s.mode ∉ [2, 3, 4, 5, 6, 11]) :
    ((takeAddress 0xFFFF).run s).address = 0xFFFF ∧ ((takeAddress 0xFFFF).run s).hid = s.hid ∧
      Only [keyOf 0x1000 6] s ((takeAddress 0xFFFF).run s) := by
  have hstay : [2, 3, 4, 5, 6, 11].contains s.mode = false := by simpa using hmode
  obtain ⟨-, haddress, hhid, honly⟩ := setAddress_run (a := 0xFFFF) hs (by decide) true (by simp)
  rw [takeAddress, Effect.run_look, if_pos rfl, Effect.run_seq, hstay]
  exact ⟨haddress, hhid, honly⟩

/-- 0xFFFF takes a tile to PASSTHROUGH from every other mode. -/
theorem takeAddress_passes (hmode : s.mode ∈ [2, 3, 4, 5, 6, 11]) : let t := (takeAddress 0xFFFF).run s
    t.address = 0xFFFF ∧ t.mode = Mode.passthrough ∧ t.entry (keyOf 0x1001 3) = Cause.enumeration ∧
      t.hid.mode.byEnum = true ∧ t.hid.lampEn = false ∧ Only (keyOf 0x1000 6 :: s.modeEntries) s t := by
  have hgo : [2, 3, 4, 5, 6, 11].contains s.mode = true := by simpa using hmode
  obtain ⟨hu, haddress, -, honly⟩ := setAddress_run (a := 0xFFFF) hs (by decide) true (by simp)
  obtain ⟨htaddress, htmode, htcause, htonly⟩ := setAddress_enterMode (m := Mode.passthrough) hu haddress honly (by decide)
  rw [takeAddress, Effect.run_look, if_pos rfl, Effect.run_seq, hgo]
  exact ⟨htaddress, htmode, htcause, rfl, enterMode_lampEn rfl _ _, htonly⟩

end

theorem cellField_lt (c : Cell) (o n : Nat) : cellField c o n < 256 ^ n :=
  (natLE_lt _).trans_le (Nat.pow_le_pow_right (by decide) (List.length_take_le ..))

/-- The address that a tile h hops away takes from an ENUM cell: 0xFFFF beyond the 32 that a cell names. -/
abbrev enumTaken (c : Cell) (h : Nat) : Nat := if h ≤ 32 then cellField c (4 + 2 * (h - 1)) 2 else 0xFFFF

theorem enumTaken_lt (c : Cell) (h : Nat) : enumTaken c h < 2 ^ 16 := by
  rw [enumTaken]
  split_ifs
  · exact cellField_lt c _ 2
  · decide

section
variable {s : State} {p : Nat} {c : Cell} {rest : List (Nat × Cell)} (htile : s.isTile = true)
  (htake : s.takeCell (fun x => x.2.kind == 7) = some ((p, c), rest))
include htile htake

theorem exec_enumReceive : exec .enumReceive s =
    .next ((Effect.when (1 ≤ s.hopsFrom (cellField c 1 1 == 1) && s.hopsFrom (cellField c 1 1 == 1) != 0x3F)
      (takeAddress (enumTaken c (s.hopsFrom (cellField c 1 1 == 1))))).run (s.withRx rest)) := by
  refine congrArg _ ((withCell_run (p := fun c => c.kind == 7) htake).trans ?_)
  show (Effect.when (s.isTile && _ && _) _).run _ = _
  rw [htile, Bool.true_and]
  rfl

/-- A tile that does not know its hops only takes the cell. -/
theorem enumReceive_unknown
    (hnone : s.hopsFrom (cellField c 1 1 == 1) = 0 ∨ s.hopsFrom (cellField c 1 1 == 1) = 0x3F) :
    exec .enumReceive s = .next (s.withRx rest) := by
  rw [exec_enumReceive htile htake]
  rcases hnone with h | h <;> rw [h] <;> rfl

/-- A tile that knows its hops takes the address at its hop. -/
theorem enumReceive_known {h : Nat} (hh : s.hopsFrom (cellField c 1 1 == 1) = h) (h1 : 1 ≤ h) (h63 : h ≠ 0x3F) :
    exec .enumReceive s = .next ((takeAddress (enumTaken c h)).run (s.withRx rest)) := by
  rw [exec_enumReceive htile htake, hh, decide_eq_true h1, bne_iff_ne.mpr h63]
  rfl

end

end Sys2Proof.Machine
end

section
namespace Sys2Proof.Machine

/-- Settles O33: chains sorted by port get consecutive addresses hop by hop; the ENUM cells are one list, posted port by port;
a tile sets its address, and enters PASSTHROUGH or DARK by the general rule of a mode entry. -/
theorem tilesAreEnumerated : Obligations.TilesAreEnumerated := by
  refine ⟨fun s chains hs hsender hcore => ?_, fun s _ hshape hsender henum => ?_, fun s p c rest hs htile htake => ?_⟩
  · obtain ⟨t, ht, hhid, haddress, honly⟩ := enumeration_completes chains hs hsender hcore
    have hrise := sortChains_portsRise (chains.filter fun c => s.counts c.1)
    have hl : t.hid.link.addresses = s.givenAddresses chains := by rw [hhid]
    have hc : t.hid.link.chains = s.foundChains chains := by rw [hhid]
    refine ⟨t, ht, ?_⟩
    dsimp only
    rw [hl, hc]
    refine ⟨assignAll_numbers _ _, assignAll_rises _ hrise, fun a ha => ?_, fun hnodup => ?_, fun hsorted => ?_, haddress, hhid,
      honly⟩
    · obtain ⟨h511, h1, h32, c, hc, hport, hhops⟩ := mem_assignAll ha
      exact ⟨h511, h1, h32, c, mem_of_mem_sortChains hc, hport, hhops⟩
    · have hperm := sortChains_perm hnodup
      refine ⟨fun c hc d hd hcd => assignAll_stops hrise (hperm.mem_iff.mpr hc) (hperm.mem_iff.mpr hd) hcd, fun h32 hsum => ?_⟩
      rw [← (hperm.map _).sum_eq] at hsum ⊢
      exact length_assignAll (fun c hc => h32 c (mem_of_mem_sortChains hc)) hsum
    · exact sortChains_of_portsRise (List.pairwise_map.mp hsorted)
  · exact ⟨_, exec_enumSend hsender henum, s.enumSend_posts hshape hsender, rfl, rfl, ⟨rfl, fun _ _ => rfl⟩, fun _ => rfl⟩
  · refine ⟨fun hnone => ⟨_, enumReceive_unknown htile htake hnone, rfl, ⟨rfl, fun _ _ => rfl⟩, fun _ => rfl⟩, fun h1 h63 => ?_⟩
    have hexec := enumReceive_known htile htake rfl h1 h63
    have hlt := enumTaken_lt c (s.hopsFrom (cellField c 1 1 == 1))
    exact ⟨fun hne hmode => ⟨_, hexec, takeAddress_own (s := s.withRx rest) hs hlt hne hmode⟩,
      fun hne hmode hby => ⟨_, hexec, takeAddress_wakes (s := s.withRx rest) hs hlt hne hmode hby⟩,
      fun hnone hmode => ⟨_, hnone ▸ hexec, takeAddress_none (s := s.withRx rest) hs hmode⟩,
      fun hnone hmode => ⟨_, hnone ▸ hexec, takeAddress_passes (s := s.withRx rest) hs hmode⟩⟩

end Sys2Proof.Machine
end

section
namespace Sys2Proof.Machine

/-! ### The launch of layer cells (O47)

The statement says that what LAUNCH_CUTOFF counts as left over is at most what waited before. The slots that have come leave
first, and the last cell of a ring's message moves its ring on (R233), which sends the next message. Nothing in
`State.sound` or `State.shaped` keeps a ring from being one of stream 0 to 55, whose cells are layer cells (R236). A
doorbell and a write of a ring's fields refuse a stream below 256 (R233, R241), which is no part of either predicate. -/

/-- A sender in DARK with tile 2 on port 0, at the launch of tick 0, with one slot of that port due. What takes the slot ends
a message of ring 1024, which is stream 0 of tile 2; the next message of that ring is one byte of payload memory. -/
def ringOfLayerStream : State :=
  { State.reset with
    pers := .sender
    regs := [(0x1100, 6, 0x3F), (0x1001, 1, 3), (0x1000, 6, 0), (0x2000, 2, 6)].foldl
      (fun r e => setValue .sender r (keyOf e.1 e.2.1) e.2.2) []
    mem := memWrite [] (Space.payload.at 40) [1]
    hid := { Hidden.initial with
      time := { TimeState.initial with cycles := 14, grid := some ⟨0, 0, 60, 1, 6⟩ }
      link := { LinkState.initial with addresses := [(2, 0, 1)] }
      ports := { PortState.initial with egress := [⟨2, .reset 0 0, 0, some 1024⟩] } :: List.replicate 15 PortState.initial
      ingest := { IngestState.initial with sliced := some 0, queues := [(1024, ⟨0, 4, 0, 2, none, 0, 0⟩)] } } }

theorem ringOfLayerStream_launches : ringOfLayerStream.sound = true ∧ ringOfLayerStream.shaped = true ∧
    ringOfLayerStream.isSender = true ∧ ringOfLayerStream.stepped = true ∧
    ringOfLayerStream.hid.ingest.launchTick = 0 ∧ ringOfLayerStream.hid.ingest.sliced = some 0 := by decide +kernel

/-- No layer cell waits before, and none has counted. -/
theorem ringOfLayerStream_empty :
    ringOfLayerStream.layersWaiting = 0 ∧ ringOfLayerStream.hid.counts.underruns = 0 := by decide +kernel

/-- One layer cell is left over. -/
theorem ringOfLayerStream_underrun :
    Completes .launchCutoff ringOfLayerStream fun t => t.hid.counts.underruns = 1 := ⟨_, rfl, by decide +kernel⟩

/-- Refutes O47: in a sound and shaped state a ring of stream 0 sends its next message while the last slots leave, so that one
layer cell is left over where none waited. -/
theorem not_flipsSliceAndLaunch : ¬ Obligations.FlipsSliceAndLaunch := by
  rintro ⟨-, hlaunch, -⟩
  obtain ⟨hs, hshape, hsender, hstepped, htick, hsliced⟩ := ringOfLayerStream_launches
  obtain ⟨hwaiting, hbefore⟩ := ringOfLayerStream_empty
  obtain ⟨u, hu, hone⟩ := ringOfLayerStream_underrun
  obtain ⟨t, ht, -, -, -, ⟨left, hle, -, hcount, -⟩, -⟩ :=
    hlaunch ringOfLayerStream 0 hs hshape hsender hstepped htick hsliced
  obtain rfl : u = t := Host.Outcome.next.inj (hu.symm.trans ht)
  omega

end Sys2Proof.Machine
end

section
namespace Sys2Proof.Machine

/-! ### The state after reset (O3) -/

/-- The lists of the reset state are empty, so that both stores are canonical. -/
theorem State.reset_sound : State.reset.sound = true := rfl

/-- No entry is listed after reset. -/
theorem State.reset_entry (k : Key) : State.reset.entry k = defaultOf .tile k := rfl

theorem State.reset_up (d : Dom) : State.reset.up d = (d == .aon) := by cases d <;> decide +kernel

/-- Settles O3: nothing is listed after reset, so that the mode and the released domains too are those of the defaults. -/
theorem resetStateIsBoot : Obligations.ResetStateIsBoot :=
  ⟨State.reset_sound, rfl, rfl, State.reset_entry _, State.reset_up, rfl, State.reset_entry⟩

end Sys2Proof.Machine
end

section
namespace Sys2Proof.Machine

/-! ### Accesses that only read (O11) -/

/-- An access other than a WRITE or a DOMAIN_WRITE that is answered OK: what it does, then its answer. -/
theorem atDoor_run_ok {s : State} {d : Door} {a : Ask} (hd : s.hears d = true) (h2 : a.op ≠ 2) (h5 : a.op ≠ 5)
    (hok : (s.access (mailboxGo 8) d a).status = Status.ok) :
    (atDoor d a).run s = (Act.out (.answer d Status.ok (s.access (mailboxGo 8) d a).value)).apply
      ((s.access (mailboxGo 8) d a).effect.run s) := by
  simp [atDoor_run hd, beq_false_of_ne h2, beq_false_of_ne h5, hok]

/-- A READ that is answered OK. -/
theorem exec_read_ok {s : State} {d : Door} {k : Key} {v : List Byte} {e : Effect} (hd : s.hears d = true)
    (h : s.readAccess d k = ⟨Status.ok, v, e⟩) :
    exec (.read d k) s = .next ((Act.out (.answer d Status.ok v)).apply (e.run s)) := by
  have haccess : s.access (mailboxGo 8) d ⟨1, k, [], 0, 0, 0⟩ = ⟨Status.ok, v, e⟩ := h
  refine congrArg Host.Outcome.next ((atDoor_run_ok hd (by simp) (by simp) (by rw [haccess])).trans ?_)
  rw [haccess]

/-- No row of the dictionary describes subindex 00 (R34). -/
theorem row_sub_pos : ∀ b ∈ indexBlocks, ∀ r ∈ b.rows, 1 ≤ r.sub := by decide +kernel

theorem rowAt_sub_zero {p : Personality} {k : Key} (hk : k % 256 = 0) : rowAt p k = none := by
  have hrow : ∀ b, blockOf p (k / 256) = some b → rowIn p (k / 256) (k % 256) b.rows = none := fun b hb => by
    refine List.find?_eq_none.mpr fun r hr => ?_
    have := row_sub_pos b (List.mem_of_find?_eq_some hb) r hr
    simp [hk, Nat.pos_iff_ne_zero.mp this]
  unfold rowAt rowsOf
  cases hb : blockOf p (k / 256) with
  | none => rfl
  | some b => by_cases hp : b.present p (k / 256) <;> simp [hp, hrow b hb]

/-- The entries of the window of BAR0 and of the Almanac window are not staged. -/
theorem acc_of_window {p : Personality} {k : Key} {r : Row} (hr : rowAt p k = some r)
    (hk : k = keyOf 0x1401 9 ∨ (k / 256 = 0x1050 ∧ 0x10 ≤ k % 256 ∧ k % 256 ≤ 0x17)) : r.acc ≠ .rws := by
  have hall : ∀ p ∈ [Personality.tile, .sender, .invalid], ∀ q ∈ keyOf 0x1401 9 :: (List.range' 0x10 8).map (keyOf 0x1050),
      (rowAt p q).all fun r => r.acc != .rws := by decide +kernel
  have hmem : k ∈ keyOf 0x1401 9 :: (List.range' 0x10 8).map (keyOf 0x1050) := by
    rcases hk with rfl | ⟨hi, h0, h7⟩
    · simp
    · refine List.mem_cons_of_mem _ (List.mem_map.mpr ⟨k % 256, ?_, hi ▸ keyOf_div_mod k⟩)
      exact List.mem_range'_1.mpr ⟨h0, Nat.lt_succ_of_le h7⟩
  have := hall p (by cases p <;> simp) k hmem
  simpa [hr] using this

/-- A slot of the window of BAR0, which a read moves on (R65). -/
abbrev State.inWindow (s : State) (k : Key) : Prop := s.isSender = true ∧ k / 256 = 0x1050 ∧ 0x10 ≤ k % 256 ∧ k % 256 ≤ 0x17

theorem State.readValue_eq {s : State} {k : Key} (hw : ¬ s.inWindow k) : s.readValue k = s.value k := by
  rw [State.readValue, if_neg]
  simpa [State.inWindow] using hw

/-- A read of any other entry does nothing. -/
theorem readEffect_run {s : State} {d : Door} {k : Key} (ha : k ≠ keyOf 0x1401 9) (hw : ¬ s.inWindow k) :
    (readEffect d k).run s = s := by
  rw [readEffect, Effect.run_look, if_neg ha, if_neg]
  · rfl
  · simpa [State.inWindow] using hw

section
variable {s : State} {d : Door} {k : Key} {r : Row} (hv : s.served k = true) (hr : s.row k = some r) (hwo : r.acc ≠ .wo)
include hv hr hwo

/-- What READ comes to for an entry that is not a DOMAIN. -/
theorem State.readAccess_eq (hty : r.ty ≠ .domain) :
    s.readAccess d k = ⟨Status.ok, bytesLE r.ty.size (s.readValue k), readEffect d k⟩ := by
  simp [State.readAccess, State.absent_none hv hr, hr, hwo, hty]

/-- READ of a DOMAIN gives its content size. -/
theorem State.readAccess_domain (hty : r.ty = .domain) :
    s.readAccess d k = ⟨Status.ok, bytesLE 4 (s.domainSize k), .nothing⟩ := by
  simp [State.readAccess, State.absent_none hv hr, hr, hwo, hty]

end

/-- READ of subindex 00 gives the highest subindex (R34). -/
theorem State.readAccess_sub_zero {s : State} {d : Door} {i : Nat} (hv : s.served (i * 256) = true)
    (hi : (rowsOf s.pers i).isSome = true) :
    s.readAccess d (i * 256) = ⟨Status.ok, bytesLE 1 (highestSub s.pers i), .nothing⟩ := by
  have hrow : s.row (i * 256) = none := rowAt_sub_zero (by simp)
  have habs : s.absent (i * 256) = none := by
    have : ¬ (rowsOf s.pers i).isNone := by simpa [Option.isSome_iff_ne_none] using hi
    simp [State.absent, this, hv]
  simp [State.readAccess, habs, hrow, State.value]

/-- The Almanac window's last slot is a U64 that exists on every part. -/
theorem almanacSlot_row (p : Personality) :
    (rowAt p (keyOf 0x1401 9)).any (fun r => r.acc == .ro && r.ty == .u64) = true ∧ settable p (keyOf 0x1401 1) 32 = true := by
  cases p <;> decide +kernel

/-- READ of the last slot of the Almanac window moves the window on (R492). -/
theorem almanacWindowAdvance_completes {s : State} {d : Door} (hs : s.sound = true) (hsv : s.servesAt d = true) :
    Completes (.almanacWindowAdvance d) s fun t =>
      Answered d Status.ok (bytesLE 8 (natLE (slice s.almanacWindow 56 8))) t ∧
      t.entry (keyOf 0x1401 1) = (s.entry (keyOf 0x1401 1) + 64) % 524288 ∧ Only [keyOf 0x1401 1] s t ∧ t.hid = s.hid := by
  obtain ⟨hrow, hset⟩ := almanacSlot_row s.pers
  obtain ⟨r, hr, hprop⟩ := (Option.any_eq_true _ _).mp hrow
  obtain ⟨hacc, hty⟩ : r.acc = .ro ∧ r.ty = .u64 := by simpa using hprop
  have hd := State.hears_of_servesAt hsv
  have hv : s.served (keyOf 0x1401 9) = true := by
    simp only [State.servesAt, Bool.and_eq_true] at hsv
    exact State.served_of_serves hsv.2 _
  have hread := State.readAccess_eq (d := d) hv hr (by simp [hacc]) (by simp [hty])
  have hvalue : s.readValue (keyOf 0x1401 9) = natLE (slice s.almanacWindow 56 8) := by
    rw [State.readValue_eq fun h => absurd h.2.1 (by decide)]
    rfl
  rw [hvalue, hty] at hread
  refine ⟨_, exec_read_ok hd hread, by simp [Answered, Ty.size], ?_, ⟨⟨rfl, fun q hq => ?_⟩, fun _ => rfl⟩, rfl⟩
  · exact State.entry_set_of_settable hs hset ((Nat.mod_lt _ (by decide)).trans (by decide))
  · exact State.entry_set_of_ne hs (by simpa using hq)

/-- READ of an RWS entry only looks at it. -/
theorem readEffect_run_of_rws {s : State} {d : Door} {k : Key} {r : Row} (hr : s.row k = some r) (hacc : r.acc = .rws) :
    (readEffect d k).run s = s :=
  readEffect_run (fun h => acc_of_window hr (.inl h) hacc) fun h => acc_of_window hr (.inr h.2) hacc

section
variable {s : State} {d : Door} {k : Key} {r : Row} (hd : s.hears d = true) (hv : s.served k = true)
  (hr : s.row k = some r) (hacc : r.acc = .rws) (hty : r.ty ≠ .domain)
include hd hv hr hacc hty

/-- READ_STAGED of an entry with a staged value answers that value. -/
theorem readStaged_run_staged {v : Nat} (hstaged : lookupKey s.hid.commit.staged k = some v) :
    (atDoor d ⟨3, k, [], 0, 0, 0⟩).run s = (Act.out (.answer d Status.ok (bytesLE r.ty.size v))).apply s := by
  have hread := State.readAccess_eq (d := d) hv hr (by simp [hacc]) hty
  have haccess : s.access (mailboxGo 8) d ⟨3, k, [], 0, 0, 0⟩ =
      ⟨Status.ok, bytesLE r.ty.size v, readEffect d k⟩ := by
    simp [State.access, State.stagedAccess, hread, hr, hacc, hstaged, State.ty]
  rw [atDoor_run_ok hd (by simp) (by simp) (by rw [haccess]), haccess, readEffect_run_of_rws hr hacc]

/-- READ_STAGED of an entry with none answers NOT_STAGED and the value in effect, which counts in the Almanac. -/
theorem readStaged_run_notStaged (hstaged : lookupKey s.hid.commit.staged k = none) :
    (atDoor d ⟨3, k, [], 0, 0, 0⟩).run s =
      (Act.out (.answer d Status.notStaged (bytesLE r.ty.size (s.value k)))).apply ((almanac 7 7).run s) := by
  have hread := State.readAccess_eq (d := d) hv hr (by simp [hacc]) hty
  have hvalue : s.readValue k = s.value k := State.readValue_eq fun h => acc_of_window hr (.inr h.2) hacc
  have haccess : s.access (mailboxGo 8) d ⟨3, k, [], 0, 0, 0⟩ =
      ⟨Status.notStaged, bytesLE r.ty.size (s.value k), readEffect d k⟩ := by
    simp [State.access, State.stagedAccess, hread, hr, hacc, hstaged, hvalue]
  rw [atDoor_run hd, haccess]
  simp [readEffect_run_of_rws hr hacc, show (Status.notStaged != Status.ok) = true from rfl]

end

/-- READ_STAGED of an entry that is not RWS is READ (R40). -/
theorem exec_readStaged_eq_read {s : State} {d : Door} {k : Key} (h : (s.row k).map Row.acc ≠ some .rws) :
    exec (.readStaged d k) s = exec (.read d k) s := by
  have haccess : s.access (mailboxGo 8) d ⟨3, k, [], 0, 0, 0⟩ = s.access (mailboxGo 8) d ⟨1, k, [], 0, 0, 0⟩ := by
    simp [State.access, State.stagedAccess, h]
  have hserve (reply : Nat → List Byte → Effect) :
      (serveDoor d ⟨3, k, [], 0, 0, 0⟩ reply).run s = (serveDoor d ⟨1, k, [], 0, 0, 0⟩ reply).run s := by
    simp only [serveDoor, serve, Effect.run_look, haccess]
    rfl
  show perform (atDoor d _) s = perform (atDoor d _) s
  simp only [perform_eq, atDoor, Effect.run_look]
  split_ifs
  · rfl
  · rw [hserve]
  · rfl

/-- Settles O11: the checks pass, so that what is left of a read is its answer; only the two windows move on. -/
theorem readsAnswer : Obligations.ReadsAnswer := by
  refine ⟨⟨fun s d k r hd hv hr hwo hty ha hw => ?_, fun s d i hd hv hi => ?_, fun s d k r hd hv hr hwo hty => ?_,
    fun s d hs hsv => almanacWindowAdvance_completes hs hsv⟩, fun s d k r v hd hv hr hacc hty hstaged => ?_,
    fun s d k r hs hd hv hr hacc hty hstaged => ?_, fun s d k h => exec_readStaged_eq_read h⟩
  · rw [exec_read_ok hd (State.readAccess_eq hv hr hwo hty), State.readValue_eq hw, readEffect_run ha hw]
    rfl
  · rw [exec_read_ok hd (State.readAccess_sub_zero hv hi)]
    rfl
  · rw [exec_read_ok hd (State.readAccess_domain hv hr hwo hty)]
    rfl
  · exact congrArg Host.Outcome.next (readStaged_run_staged hd hv hr hacc hty hstaged)
  · have hevent : (almanac 7 7).Writes (· ∈ [keyOf 0x1400 8]) := almanac_writes (by simp) 7 7
    exact ⟨_, congrArg Host.Outcome.next (readStaged_run_notStaged hd hv hr hacc hty hstaged), by simp [Answered],
      ⟨hevent.frame hs, (almanac_noStore 7 7).frame⟩, SameBeside.of (almanac_beside (fun _ _ => rfl) 7 7)⟩

end Sys2Proof.Machine
end

section
namespace Sys2Proof.Machine

/-! ### The clear of the Almanac's counters (O15)

The statement says that the lost count is at most 1 after the clear, for the write itself is one event. A shadow bin has 8
bits (R490), and what an event does not find room for is lost: `AlmanacState.shadowAdd` counts all that stands above 255
then, not only the event. Nothing in `State.sound` keeps the bins of the model at 255, though every way to count in one
does. -/

/-- A tile in DARK with CORE released and no page open, whose shadow bins stand at 257. -/
def overfullShadow : State :=
  { State.reset with
    regs := [(0x1100, 6, 0x3F), (0x1001, 1, 3)].foldl (fun r e => setValue .tile r (keyOf e.1 e.2.1) e.2.2) []
    hid := { Hidden.initial with almanac := { AlmanacState.initial with shadow := List.replicate 64 257 } } }

theorem overfullShadow_serves : overfullShadow.sound = true ∧ overfullShadow.servesAt .spi = true := by decide +kernel

/-- The event of the write finds 257 in its bin, so that three counts are lost. -/
theorem overfullShadow_loses : Completes (.almanacCounterClear .spi) overfullShadow fun t => t.entry (keyOf 0x1400 8) = 3 :=
  ⟨_, rfl, by decide +kernel⟩

/-- Refutes O15: a sound state may hold more than 255 in a shadow bin, and the event of the clear then loses more than one
count. -/
theorem not_commonCountersClear : ¬ Obligations.CommonCountersClear := fun h => by
  obtain ⟨hs, hserves⟩ := overfullShadow_serves
  obtain ⟨-, -, -, -, -, -, -, -, -, -, t, ht, -, -, hle, -⟩ := h overfullShadow .spi hs hserves
  obtain ⟨u, hu, hlost⟩ := overfullShadow_loses
  obtain rfl : u = t := Host.Outcome.next.inj (hu.symm.trans ht)
  omega

end Sys2Proof.Machine
end

section
namespace Sys2Proof.Machine

/-! ### DOMAIN content (O14) -/

/-! #### The staged content (R45) -/

/-- Bytes staged from an address on, one by one. -/
def overlayBytes (l : List (Nat × Byte)) (a : Nat) (bs : List Byte) : List (Nat × Byte) :=
  bs.zipIdx.foldl (fun l q => insertKey l (a + q.2) q.1) l

theorem overlayBytes_nil (l : List (Nat × Byte)) (a : Nat) : overlayBytes l a [] = l := rfl

theorem overlayBytes_cons (l : List (Nat × Byte)) (a : Nat) (b : Byte) (bs : List Byte) :
    overlayBytes l a (b :: bs) = overlayBytes (insertKey l a b) (a + 1) bs := by
  simp only [overlayBytes, List.zipIdx_cons, List.foldl_cons, Nat.add_zero, Nat.zero_add]
  rw [List.zipIdx_succ, List.foldl_map]
  simp only [Nat.add_comm, Nat.add_left_comm]

theorem lookupKey_overlayBytes_below {x : Nat} : ∀ (bs : List Byte) {a : Nat} (l : List (Nat × Byte)), x < a →
    lookupKey (overlayBytes l a bs) x = lookupKey l x
  | [], _, _, _ => rfl
  | b :: bs, a, l, h => by
    rw [overlayBytes_cons, lookupKey_overlayBytes_below bs _ (by omega), lookupKey_insertKey_of_ne _ (by omega)]

theorem lookupKey_overlayBytes : ∀ (bs : List Byte) (a : Nat) (l : List (Nat × Byte)) {i : Nat} (h : i < bs.length),
    lookupKey (overlayBytes l a bs) (a + i) = some bs[i]
  | b :: bs, a, l, 0, _ => by
    rw [overlayBytes_cons]
    exact (lookupKey_overlayBytes_below bs _ (Nat.lt_succ_self a)).trans (lookupKey_insertKey_self a b l)
  | b :: bs, a, l, i + 1, h => by
    have ih := lookupKey_overlayBytes bs (a + 1) (insertKey l a b) (Nat.lt_of_succ_lt_succ h)
    rwa [Nat.add_right_comm, ← overlayBytes_cons] at ih

/-- Content staged over what is in effect reads back. -/
theorem State.stagedBytes_overlayBytes (s : State) (l : List (Nat × Byte)) (a : Nat) (bs : List Byte) :
    s.stagedBytes (overlayBytes l a bs) a bs.length = bs := by
  refine List.ext_getElem (by simp [State.stagedBytes]) fun i _ h => ?_
  simp [State.stagedBytes, lookupKey_overlayBytes bs a l h]

/-! #### DOMAIN_READ (R70) -/

section
variable {s : State} {d : Door} {k : Key} {r : Row} {o n : Nat} (hv : s.served k = true) (hu : s.unreadable k = false)
  (hr : s.row k = some r) (hty : r.ty = .domain)
include hv hu hr hty

/-- A DOMAIN entry that can be reached passes the first checks. -/
theorem State.domainAbsent_none : s.domainAbsent k = none ∧ s.ty k = some .domain := by
  simp [State.domainAbsent, State.absent_none hv hr, hu, State.ty, hr, hty]

/-- The bytes that a DOMAIN_READ inside the content finds. -/
theorem State.domainBytes_eq (hwo : r.acc ≠ .wo) (ho : o ≤ s.domainSize k) (hfrozen : s.frozen (moverOf k) = false) :
    s.domainBytes k o n = (Status.ok, if k = keyOf 0x2210 5
      then slice (s.hostStream (s.reg 0x2210 1)) o (min n (s.domainSize k - o))
      else s.bytes (domainBase k + o) (min n (s.domainSize k - o))) := by
  obtain ⟨habs, hdomain⟩ := State.domainAbsent_none hv hu hr hty
  simp [State.domainBytes, habs, hdomain, hr, hwo, Nat.not_lt.mpr ho, hfrozen]

/-- A DOMAIN_READ within the limits answers those bytes. -/
theorem domainRead_run (hd : s.hears d = true) (hwo : r.acc ≠ .wo) (h1 : 1 ≤ n) (hn : n ≤ chunkLimit d)
    {bs : List Byte} (hbytes : s.domainBytes k o n = (Status.ok, bs)) :
    (atDoor d ⟨4, k, [], o, n, chunkLimit d⟩).run s =
      (Act.out (.answer d Status.ok bs)).apply ((domainReadEffect d k o bs.length).run s) := by
  obtain ⟨habs, -⟩ := State.domainAbsent_none hv hu hr hty
  have haccess : s.access (mailboxGo 8) d ⟨4, k, [], o, n, chunkLimit d⟩ = ⟨Status.ok, bs, domainReadEffect d k o bs.length⟩ := by
    simp [State.access, State.domainReadAccess, habs, hr, hwo, Nat.pos_iff_ne_zero.mp h1, Nat.not_lt.mpr hn, hbytes,
      Effect.when]
  rw [atDoor_run_ok hd (by simp) (by simp) (by rw [haccess]), haccess]

end

/-- Reading plain content does nothing to it. -/
theorem domainReadEffect_run {s : State} {d : Door} {k : Key} {o n : Nat} (hstream : k ≠ keyOf 0x2210 5)
    (hcapture : k ≠ keyOf 0x4180 6) (hsession : k ≠ keyOf 0x1500 8) : (domainReadEffect d k o n).run s = s := by
  simp [domainReadEffect, hstream, hcapture, beq_false_of_ne hsession]

/-! #### DOMAIN_WRITE (R70) -/

/-- A DOMAIN_WRITE that the checks pass stores or stages the bytes; then come the marks and the answer. -/
theorem domainWrite_run {s : State} {d : Door} {k : Key} {r : Row} {o : Nat} {bs : List Byte} (hd : s.hears d = true)
    (hv : s.served k = true) (hu : s.unreadable k = false) (hr : s.row k = some r) (hty : r.ty = .domain)
    (hacc : r.acc = .rw ∨ r.acc = .rws) (hsession : k ≠ keyOf 0x1500 8) (hbs : bs ≠ []) (hlimit : bs.length ≤ chunkLimit d)
    (hfit : o + bs.length ≤ s.domainSize k) (hfrozen : s.frozen 0 = false) (hfull : s.stageFull r k = false) :
    exec (.domainWrite d k o bs) s = .next ((Act.out (.answer d Status.ok [])).apply ((writeMarks r k).run
      ((if r.acc = .rws then stageContent k o bs else storeAt (domainBase k + o) bs).run s))) := by
  obtain ⟨habs, -⟩ := State.domainAbsent_none hv hu hr hty
  have hwritable : ¬ (r.acc = .ro ∨ r.acc = .konst) := by rcases hacc with h | h <;> simp [h]
  have haccess : s.access (mailboxGo 8) d ⟨5, k, bs, o, bs.length, chunkLimit d⟩ = ⟨Status.ok, [], .seq
      (if r.acc = .rws then stageContent k o bs else storeAt (domainBase k + o) bs) (markChanged r k)⟩ := by
    simp [State.access, State.domainWriteAccess, habs, hr, hwritable, hbs, Nat.not_lt.mpr hlimit, hty, hsession,
      Nat.not_lt.mpr hfit, hfull, hfrozen]
  refine congrArg Host.Outcome.next ((atDoor_run hd).trans ?_)
  rw [haccess]
  rfl

/-- An RW DOMAIN takes the bytes at once. -/
theorem domainWrite_stores {s : State} {d : Door} {k : Key} {r : Row} {o : Nat} {bs : List Byte} (hs : s.sound = true)
    (hd : s.hears d = true) (hv : s.served k = true) (hu : s.unreadable k = false) (hr : s.row k = some r)
    (hty : r.ty = .domain) (hacc : r.acc = .rw) (hsession : k ≠ keyOf 0x1500 8) (hbs : bs ≠ [])
    (hlimit : bs.length ≤ chunkLimit d) (hfit : o + bs.length ≤ s.domainSize k) (hfrozen : s.frozen 0 = false) :
    Completes (.domainWrite d k o bs) s fun t => Answered d Status.ok [] t ∧ t.bytes (domainBase k + o) bs.length = bs ∧
      SameMemoryBut (domainBase k + o) bs.length s t ∧ SameEntriesBut doorMarks s t ∧ SameBeside s t := by
  refine ⟨_, domainWrite_run hd hv hu hr hty (.inl hacc) hsession hbs hlimit hfit hfrozen (by simp [State.stageFull, hacc]), ?_⟩
  have hmem : Memory.wf s.mem = true := ((State.sound_iff s).mp hs).1
  have hstore : (if r.acc = .rws then stageContent k o bs else storeAt (domainBase k + o) bs).run s =
      (Act.store (domainBase k + o) bs).apply s := by simp [hacc]
  have hs' := Act.keeps_sound (.store (domainBase k + o) bs) s hs
  have hmarks : ((writeMarks r k).run ((Act.store (domainBase k + o) bs).apply s)).mem = memWrite s.mem (domainBase k + o) bs :=
    (writeMarks_noStore r k).mem
  rw [hstore]
  refine ⟨by simp [Answered], ?_, fun x hx => ?_, (writeMarks_writes r k).frame hs', writeMarks_sameBeside r k _⟩
  · rw [State.bytes, Act.out_mem, hmarks, memRead_memWrite hmem]
  · rw [State.byte, Act.out_mem, hmarks, memGet_memWrite hmem, dif_neg (by omega)]
    rfl

theorem State.stageFull_of_room {s : State} {r : Row} {k : Key}
    (h : s.hid.commit.staged.length < 1024 ∨ (lookupKey s.hid.commit.staged k).isSome = true) : s.stageFull r k = false := by
  rcases h with h | h
  · simp [State.stageFull, Nat.not_le.mpr h]
  · simp [State.stageFull, h]

/-- An RWS DOMAIN keeps its content, and the bytes are staged. -/
theorem domainWrite_stages {s : State} {d : Door} {k : Key} {r : Row} {o : Nat} {bs : List Byte} (hs : s.sound = true)
    (hd : s.hears d = true) (hv : s.served k = true) (hu : s.unreadable k = false) (hr : s.row k = some r)
    (hty : r.ty = .domain) (hacc : r.acc = .rws) (hsession : k ≠ keyOf 0x1500 8) (hbs : bs ≠ [])
    (hlimit : bs.length ≤ chunkLimit d) (hfit : o + bs.length ≤ s.domainSize k) (hfrozen : s.frozen 0 = false)
    (hroom : s.hid.commit.staged.length < 1024 ∨ (lookupKey s.hid.commit.staged k).isSome = true) :
    Completes (.domainWrite d k o bs) s fun t => Answered d Status.ok [] t ∧
      t.stagedBytes t.hid.commit.content (domainBase k + o) bs.length = bs ∧
      (lookupKey t.hid.commit.staged k).isSome = true ∧ Only doorMarks s t := by
  refine ⟨_, domainWrite_run hd hv hu hr hty (.inr hacc) hsession hbs hlimit hfit hfrozen (State.stageFull_of_room hroom), ?_⟩
  generalize hstage : (if r.acc = .rws then stageContent k o bs else storeAt (domainBase k + o) bs).run s = u
  have hu : u = { s with hid := { s.hid with commit := { s.hid.commit with
      staged := insertKey s.hid.commit.staged k 0
      content := overlayBytes s.hid.commit.content (domainBase k + o) bs } } } := by
    rw [← hstage, if_pos hacc]
    rfl
  have hbeside : ((writeMarks r k).run u).hid.commit = u.hid.commit := by rw [writeMarks_sameBeside r k u]
  have honly : Only doorMarks u ((writeMarks r k).run u) :=
    ⟨(writeMarks_writes r k).frame (by rw [hu]; exact hs), (writeMarks_noStore r k).frame⟩
  refine ⟨by simp [Answered], ?_, ?_, ?_⟩
  · rw [Act.out_hid, hbeside, hu]
    exact State.stagedBytes_overlayBytes _ _ _ _
  · rw [Act.out_hid, hbeside, hu, lookupKey_insertKey_self]
    rfl
  · subst hu
    exact honly

/-! #### HOST_STREAM_READ (R234) -/

/-- The DOMAIN entry behind the host streams of a tile. -/
theorem hostStream_row : (rowAt .tile (keyOf 0x2210 5)).any (fun r => r.ty == .domain && r.acc == .ro) = true := by
  decide +kernel

theorem slice_min {α : Type} (l : List α) (o n : Nat) : slice l o (min n (l.length - o)) = slice l o n := by
  rw [slice, slice, ← List.length_drop, ← List.take_eq_take_min]

theorem drop_min {α : Type} {l : List α} {o : Nat} (n : Nat) (h : o ≤ l.length) :
    l.drop (o + min n (l.length - o)) = l.drop (o + n) := by
  rcases Nat.le_total n (l.length - o) with hn | hn
  · rw [Nat.min_eq_left hn]
  · rw [Nat.min_eq_right hn, List.drop_eq_nil_of_le (by omega), List.drop_eq_nil_of_le (by omega)]

/-- A read of the selected host stream takes its bytes out of it. -/
theorem hostStreamRead_completes {s : State} {d : Door} {o n : Nat} (hsv : s.servesAt d = true) (htile : s.isTile = true)
    (hu : s.unreadable (keyOf 0x2210 5) = false) (h1 : 1 ≤ n) (hn : n ≤ chunkLimit d)
    (ho : o ≤ (s.hostStream (s.reg 0x2210 1)).length) (hfrozen : s.frozen 0 = false) :
    Completes (.hostStreamRead d o n) s fun t =>
      Answered d Status.ok (slice (s.hostStream (s.reg 0x2210 1)) o n) t ∧
      t.hostStream (s.reg 0x2210 1) = (s.hostStream (s.reg 0x2210 1)).drop (o + n) ∧ Only [] s t := by
  have hpers : s.pers = .tile := by simpa [State.isTile] using htile
  obtain ⟨r, hr, hprop⟩ := (Option.any_eq_true _ _).mp hostStream_row
  obtain ⟨hty, hacc⟩ : r.ty = .domain ∧ r.acc = .ro := by simpa using hprop
  have hr : s.row (keyOf 0x2210 5) = some r := by rw [State.row, hpers, hr]
  have hv : s.served (keyOf 0x2210 5) = true := by
    simp only [State.servesAt, Bool.and_eq_true] at hsv
    exact State.served_of_serves hsv.2 _
  have hsize : s.domainSize (keyOf 0x2210 5) = (s.hostStream (s.reg 0x2210 1)).length := rfl
  have hbytes := State.domainBytes_eq (n := n) hv hu hr hty (by simp [hacc]) (hsize ▸ ho) hfrozen
  rw [if_pos rfl, hsize, slice_min] at hbytes
  have hrun := domainRead_run hv hu hr hty (State.hears_of_servesAt hsv) (by simp [hacc]) h1 hn hbytes
  refine ⟨_, congrArg Host.Outcome.next hrun, by simp [Answered], ?_, ⟨rfl, fun _ _ => rfl⟩, fun _ => rfl⟩
  have hlength : (slice (s.hostStream (s.reg 0x2210 1)) o n).length = min n ((s.hostStream (s.reg 0x2210 1)).length - o) := by
    simp [slice]
  rw [hlength, ← drop_min n ho]
  show (lookupKey (insertKey _ _ _) _).getD [] = _
  rw [lookupKey_insertKey_self]
  rfl

/-- Settles O14: the checks of a DOMAIN op pass, so that what is left of it is what it does to the content. -/
theorem domainOpsMoveContent : Obligations.DomainOpsMoveContent := by
  refine ⟨fun s d k r o n hd hv hu hr hty hwo hstream hcapture hsession h1 hn ho hfrozen => ?_,
    fun s d k r o bs hs hd hv hu hr hty hacc hsession hbs hlimit hfit hfrozen =>
      domainWrite_stores hs hd hv hu hr hty hacc hsession hbs hlimit hfit hfrozen,
    fun s d k r o bs hs hd hv hu hr hty hacc hsession hbs hlimit hfit hfrozen hroom =>
      domainWrite_stages hs hd hv hu hr hty hacc hsession hbs hlimit hfit hfrozen hroom,
    fun s d o n _ hsv htile hu h1 hn ho hfrozen => hostStreamRead_completes hsv htile hu h1 hn ho hfrozen⟩
  have hmover : s.frozen (moverOf k) = false := by rwa [moverOf, if_neg hcapture]
  have hbytes := State.domainBytes_eq (n := n) hv hu hr hty hwo ho hmover
  rw [if_neg hstream] at hbytes
  refine congrArg Host.Outcome.next ((domainRead_run hv hu hr hty hd hwo h1 hn hbytes).trans ?_)
  rw [domainReadEffect_run hstream hcapture hsession]
  rfl

end Sys2Proof.Machine
end

section
namespace Sys2Proof.Machine

/-! ### Commits (O18)

#### A command entry of a byte (R12, R524) -/

/-- A WO byte of a personality that takes a value. -/
def isCommand (p : Personality) (k : Key) (v : Nat) : Bool :=
  (rowAt p k).any fun r => r.acc == .wo && r.ty == .u8 && r.takes p v

/-- A command at a door does what the entry does beyond storing a value; only the door's marks come after it. -/
theorem commandAt_completes {s : State} {c : Instr} {d : Door} {i sub v st : Nat} {e : Effect} (hs : s.sound = true)
    (hsv : s.servesAt d = true) (hc : exec c s = perform (commandAt d i sub v) s)
    (hrow : isCommand s.pers (keyOf i sub) v = true) (hv : v < 256)
    (hcmd : s.command (mailboxGo 8) d (keyOf i sub) v = some (st, e)) :
    Completes c s fun t => Answered d st [] t ∧ Only doorMarks (e.run s) t ∧ SameBeside (e.run s) t := by
  obtain ⟨r, hr, hprop⟩ := (Option.any_eq_true _ _).mp hrow
  obtain ⟨⟨hacc, hty⟩, htakes⟩ : (r.acc = .wo ∧ r.ty = .u8) ∧ r.takes s.pers v = true := by simpa using hprop
  have hserved : s.served (keyOf i sub) = true := by
    simp only [State.servesAt, Bool.and_eq_true] at hsv
    exact State.served_of_serves hsv.2 _
  have hvalue : entryValue r.ty (bytesLE 1 v) = v := by rw [entryValue_eq, natLE_bytesLE (by omega)]
  obtain ⟨m, hwrites, hstore, hbeside, hrun⟩ := writeAt_run (bs := bytesLE 1 v) (State.hears_of_servesAt hsv)
    (State.absent_none hserved hr) hr (by simp [hacc]) (by simp [hacc]) (by simp [hty])
    (by simp [hty, lengthOk, length_bytesLE, Ty.size]) (by rwa [hvalue]) (by simp [State.stageFull, hacc])
    (by rwa [hvalue])
  refine ⟨_, hc.trans (congrArg Host.Outcome.next hrun), by simp [Answered], ⟨?_, ?_⟩, hbeside _⟩
  · exact hwrites.frame (Effect.run_sound _ hs)
  · exact hstore.frame

/-- An entry that can be set reads as what it was set to, cut to its width; every other entry as before. -/
theorem State.entry_set_mod {s : State} {k q v w : Nat} (hs : s.sound = true) (h : settable s.pers k w = true) :
    ((Act.reg k v).apply s).entry q = if q = k then v % 2 ^ w else s.entry q := by
  obtain ⟨r, hr, hprop⟩ := (Option.any_eq_true _ _).mp h
  obtain ⟨hacc, rfl⟩ : r.acc ≠ .konst ∧ r.ty.width = w := by simpa using hprop
  split_ifs with hq
  · rw [hq, State.entry_set hs hr hacc]
  · exact State.entry_set_of_ne hs hq

theorem State.entry_set_eq {s : State} {k q v w : Nat} (hs : s.sound = true) (h : settable s.pers k w = true)
    (hv : v < 2 ^ w) : ((Act.reg k v).apply s).entry q = if q = k then v else s.entry q := by
  rw [State.entry_set_mod hs h, Nat.mod_eq_of_lt hv]

theorem commit_settable (p : Personality) :
    settable p (keyOf 0x1010 3) 8 = true ∧ settable p (keyOf 0x1010 4) 16 = true ∧ settable p (keyOf 0x1010 5) 32 = true ∧
    settable p (keyOf 0x1010 6) 8 = true ∧ settable p (keyOf 0x1010 7) 8 = true ∧ settable p (keyOf 0x1010 0x0B) 8 = true ∧
    settable p (keyOf 0x1110 3) 8 = true ∧ settable p (keyOf 0x1110 4) 32 = true := by
  cases p <;> decide +kernel

theorem commit_isCommand (p : Personality) : ∀ v ∈ [1, 2, 3, 4], isCommand p (keyOf 0x1010 1) v = true := by
  cases p <;> decide +kernel

/-! #### The commands of 1010h.01 (R46, R47, R50) -/

/-- What taking a commit leaves behind. -/
theorem takeCommit_run {s : State} (hs : s.sound = true) (timed : Bool) : let u := (takeCommit timed).run s
    u.hid = { s.hid with commit := { s.hid.commit with
      staged := [], content := []
      checking := some (s.newCommit (if timed then some (s.reg 0x1010 2) else none) false) } } ∧
    u.entry (keyOf 0x1010 3) = Status.pending ∧ u.entry (keyOf 0x1010 4) = (s.entry (keyOf 0x1010 4) + 1) % 2 ^ 16 ∧
    u.entry (keyOf 0x1010 0x0B) = (if s.hid.commit.pend.isSome then Status.pending else 0) ∧
    Only [keyOf 0x1010 3, keyOf 0x1010 4, keyOf 0x1010 0x0B] s u := by
  obtain ⟨h3, h4, -, -, -, hB, -⟩ := commit_settable s.pers
  have hpend : (if s.hid.commit.pend.isSome then Status.pending else 0) < 2 ^ 8 := by split_ifs <;> decide
  have hwrites : (takeCommit timed).Writes (· ∈ [keyOf 0x1010 3, keyOf 0x1010 4, keyOf 0x1010 0x0B]) := by
    simp [takeCommit, checkNew]
  have hnoStore : (takeCommit timed).NoStore := by simp [takeCommit, checkNew]
  generalize hu1 : (Act.reg (keyOf 0x1010 0x0B) (if s.hid.commit.pend.isSome then Status.pending else 0)).apply s = u1
  have hs1 : u1.sound = true := hu1 ▸ Act.keeps_sound _ s hs
  have hp1 : u1.pers = s.pers := hu1 ▸ rfl
  generalize hu2 : (Act.reg (keyOf 0x1010 4) ((u1.entry (keyOf 0x1010 4) + 1) % 2 ^ 16)).apply u1 = u2
  have hs2 : u2.sound = true := hu2 ▸ Act.keeps_sound _ u1 hs1
  have hp2 : u2.pers = s.pers := hu2 ▸ hp1
  have hrun : (takeCommit timed).run s = (checkNew (s.newCommit (if timed then some (s.reg 0x1010 2) else none) false)).run
      ((Act.reg (keyOf 0x1010 3) Status.pending).apply u2) := by
    rw [← hu2, ← hu1]
    rfl
  have hentry : ∀ q, ((takeCommit timed).run s).entry q = ((Act.reg (keyOf 0x1010 3) Status.pending).apply u2).entry q := by
    rw [hrun]
    exact fun _ => rfl
  have hread : ∀ q, ((takeCommit timed).run s).entry q = if q = keyOf 0x1010 3 then Status.pending
      else if q = keyOf 0x1010 4 then (s.entry (keyOf 0x1010 4) + 1) % 2 ^ 16
      else if q = keyOf 0x1010 0x0B then (if s.hid.commit.pend.isSome then Status.pending else 0) else s.entry q := fun q => by
    rw [hentry, State.entry_set_eq hs2 (hp2 ▸ h3) (by decide), ← hu2,
      State.entry_set_eq hs1 (hp1 ▸ h4) (Nat.mod_lt _ (by decide)), ← hu1, State.entry_set_eq hs hB hpend,
      State.entry_set_eq hs hB hpend]
    rfl
  refine ⟨rfl, ?_, ?_, ?_, hwrites.frame hs, hnoStore.frame⟩ <;> rw [hread] <;> rfl

section
variable {s : State} {d : Door} (hs : s.sound = true) (hsv : s.servesAt d = true)
include hs hsv

/-- What the commands of 1010h.01 come to at a door. -/
theorem commitCommand_completes {c : Instr} {v : Nat} {e : Effect} (hv : v ∈ [1, 2, 3, 4])
    (hc : exec c s = perform (commandAt d 0x1010 1 v) s)
    (hcmd : s.command (mailboxGo 8) d (keyOf 0x1010 1) v = some (Status.ok, e)) :
    Completes c s fun t => Answered d Status.ok [] t ∧ Only doorMarks (e.run s) t ∧ SameBeside (e.run s) t :=
  commandAt_completes hs hsv hc (commit_isCommand s.pers v hv)
    (by simp only [List.mem_cons, List.not_mem_nil, or_false] at hv; omega) hcmd

/-- IMMEDIATE and TIMED, which find a commit under check or not. -/
theorem commitTaken_completes {q : Instr × Bool} (hq : q ∈ [(Instr.immediate d, false), (Instr.timed d, true)]) :
    Completes q.1 s fun t => Answered d Status.ok [] t ∧ Only doorMarks ((commandCommit q.2).run s) t ∧
      SameBeside ((commandCommit q.2).run s) t := by
  simp only [List.mem_cons, List.not_mem_nil, or_false] at hq
  rcases hq with rfl | rfl
  · exact commitCommand_completes hs hsv (v := 1) (by simp) rfl rfl
  · exact commitCommand_completes hs hsv (v := 2) (by simp) rfl rfl

/-- One that finds none makes the staging set a commit under check. -/
theorem commitTaken_checks {q : Instr × Bool} (hq : q ∈ [(Instr.immediate d, false), (Instr.timed d, true)])
    (hnone : s.hid.commit.checking = none) : Completes q.1 s fun t => Answered d Status.ok [] t ∧
      t.hid = { s.hid with almanac := t.hid.almanac, commit := { s.hid.commit with
        staged := [], content := []
        checking := some (s.newCommit (if q.2 then some (s.reg 0x1010 2) else none) false) } } ∧
      t.entry (keyOf 0x1010 3) = Status.pending ∧ t.entry (keyOf 0x1010 4) = (s.entry (keyOf 0x1010 4) + 1) % 2 ^ 16 ∧
      t.entry (keyOf 0x1010 0x0B) = (if s.hid.commit.pend.isSome then Status.pending else 0) ∧
      Only ([keyOf 0x1010 3, keyOf 0x1010 4, keyOf 0x1010 0x0B] ++ doorMarks) s t := by
  have htake : (commandCommit q.2).run s = (takeCommit q.2).run s := by simp [commandCommit, hnone]
  obtain ⟨hhid, h3, h4, hB, honly⟩ := takeCommit_run hs q.2
  obtain ⟨t, ht, hanswer, hmarks, hbeside⟩ := commitTaken_completes hs hsv hq
  rw [htake] at hmarks hbeside
  refine ⟨t, ht, hanswer, ?_, ?_, ?_, ?_, honly.trans hmarks⟩
  · rw [hbeside, hhid]
  · rw [hmarks.1.2 _ (by decide), h3]
  · rw [hmarks.1.2 _ (by decide), h4]
  · rw [hmarks.1.2 _ (by decide), hB]

/-- One that finds a commit under check waits, in place of one that waited. -/
theorem commitTaken_waits {q : Instr × Bool} (hq : q ∈ [(Instr.immediate d, false), (Instr.timed d, true)])
    (hsome : s.hid.commit.checking.isSome = true) : Completes q.1 s fun t => Answered d Status.ok [] t ∧
      t.hid = { s.hid with almanac := t.hid.almanac, commit := { s.hid.commit with waiting := some q.2 } } ∧
      Only doorMarks s t := by
  have hwait : (commandCommit q.2).run s =
      { s with hid := { s.hid with commit := { s.hid.commit with waiting := some q.2 } } } := by
    simp [commandCommit, hsome]
    rfl
  obtain ⟨t, ht, hanswer, hmarks, hbeside⟩ := commitTaken_completes hs hsv hq
  rw [hwait] at hmarks hbeside
  exact ⟨t, ht, hanswer, hbeside, hmarks⟩

/-- DISCARD empties the staging set. -/
theorem discard_completes : Completes (.discard d) s fun t => Answered d Status.ok [] t ∧
    t.hid = { s.hid with almanac := t.hid.almanac, commit := { s.hid.commit with staged := [], content := [] } } ∧
    Only doorMarks s t := by
  obtain ⟨t, ht, hanswer, hmarks, hbeside⟩ :=
    commitCommand_completes hs hsv (c := .discard d) (v := 4) (by simp) rfl rfl
  exact ⟨t, ht, hanswer, hbeside, hmarks⟩

end

/-! #### The end of a commit by a command (R46, R47, R50) -/

/-- The entries in which a commit that ends reports. -/
def commitReports : List Key := [keyOf 0x1010 3, keyOf 0x1010 0x0B, keyOf 0x1110 3]

theorem dropCommits_writes_reports (code : Nat) : (dropCommits code).Writes (· ∈ commitReports) := by
  simp [dropCommits, endPending, endChecking, commitReports]

theorem dropCommits_noStore (code : Nat) : (dropCommits code).NoStore := by
  simp [dropCommits, endPending, endChecking]

theorem endPending_run_none {s : State} (code : Nat) (h : s.hid.commit.pend = none) : (endPending code).run s = s := by
  rw [endPending, Effect.run_look, h, Effect.run_ofOption_none, Effect.run_nothing]

theorem endChecking_run_none {s : State} (code : Nat) (h : s.hid.commit.checking = none) : (endChecking code).run s = s := by
  rw [endChecking, Effect.run_look, h, Effect.run_ofOption_none, Effect.run_nothing]

/-- A pending commit that ends is no longer pending; nothing else changes beside the entries. -/
theorem endPending_hid (code : Nat) (s : State) :
    ((endPending code).run s).hid = { s.hid with commit := { s.hid.commit with pend := none } } := by
  cases hp : s.hid.commit.pend with
  | none => rw [endPending_run_none code hp, ← hp]
  | some c =>
    simp only [endPending, Effect.run_look, hp, Effect.run_ofOption_some, Effect.run_all_cons, Effect.run_all_nil]
    rw [onCommit_run, Act.hid_hid, Effect.Beside.eq (by simp), Effect.Beside.eq (by simp)]

/-- The commit under check ends, and with it the command that waits for it. -/
theorem endChecking_hid {s : State} (code : Nat) (h : s.hid.commit.checking.isSome = true) : ((endChecking code).run s).hid =
    { s.hid with commit := { s.hid.commit with checking := none, waiting := none } } := by
  obtain ⟨c, hc⟩ := Option.isSome_iff_exists.mp h
  simp only [endChecking, Effect.run_look, hc, Effect.run_ofOption_some, Effect.run_all_cons, Effect.run_all_nil]
  rw [onCommit_run, Act.hid_hid, Effect.Beside.eq (by simp)]

/-- A pending commit that is not the boot commit, and that no later commit stands over, reports in 1010h.03. -/
theorem endPending_entry {s : State} {c : Commit} {code : Nat} (hs : s.sound = true) (hcode : code < 2 ^ 8)
    (hpend : s.hid.commit.pend = some c) (hboot : c.boot = false) (hB : s.entry (keyOf 0x1010 0x0B) ≠ Status.pending) :
    ((endPending code).run s).entry (keyOf 0x1010 3) = code := by
  obtain ⟨h3, -⟩ := commit_settable s.pers
  have hrun : (endPending code).run s =
      (onCommit fun t => { t with pend := none }).run ((Act.reg (keyOf 0x1010 3) code).apply s) := by
    have hother : (s.entry (keyOf 0x1010 0x0B) == Status.pending) = false := beq_false_of_ne hB
    simp [endPending, hpend, hboot, bne, hother]
  rw [hrun]
  exact State.entry_set_of_settable hs h3 hcode

/-- The commit under check, where it is not the boot commit, reports in 1010h.03. -/
theorem endChecking_entry {s : State} {c : Commit} {code : Nat} (hs : s.sound = true) (hcode : code < 2 ^ 8)
    (hchecking : s.hid.commit.checking = some c) (hboot : c.boot = false) :
    ((endChecking code).run s).entry (keyOf 0x1010 3) = code := by
  obtain ⟨h3, -⟩ := commit_settable s.pers
  have hrun : (endChecking code).run s = (onCommit fun t => { t with checking := none, waiting := none }).run
      ((Act.reg (keyOf 0x1010 3) code).apply s) := by
    simp [endChecking, hchecking, hboot]
  rw [hrun]
  exact State.entry_set_of_settable hs h3 hcode

/-- CANCEL ends every commit and keeps the staging set. -/
theorem cancel_completes {s : State} {d : Door} (hs : s.sound = true) (hsv : s.servesAt d = true) :
    Completes (.cancel d) s fun t => Answered d Status.ok [] t ∧ t.hid.commit.pend = none ∧ t.hid.commit.checking = none ∧
      (s.hid.commit.checking.isSome = true → t.hid.commit.waiting = none) ∧
      t.hid.commit.staged = s.hid.commit.staged ∧ t.hid.commit.content = s.hid.commit.content ∧
      (∀ c, s.hid.commit.checking = some c → c.boot = false → t.entry (keyOf 0x1010 3) = Status.cancelled) ∧
      (∀ c, s.hid.commit.pend = some c → c.boot = false → s.hid.commit.checking = none →
        s.entry (keyOf 0x1010 0x0B) ≠ Status.pending → t.entry (keyOf 0x1010 3) = Status.cancelled) ∧
      Only ([keyOf 0x1010 3, keyOf 0x1010 0x0B, keyOf 0x1110 3] ++ doorMarks) s t := by
  obtain ⟨t, ht, hanswer, hmarks, hbeside⟩ :=
    commitCommand_completes hs hsv (c := .cancel d) (v := 3) (e := dropCommits Status.cancelled) (by simp) rfl rfl
  have honly : Only commitReports s ((dropCommits Status.cancelled).run s) :=
    ⟨(dropCommits_writes_reports _).frame hs, (dropCommits_noStore _).frame⟩
  have hcommit : t.hid.commit = ((dropCommits Status.cancelled).run s).hid.commit := by rw [hbeside]
  have hpend := endPending_hid Status.cancelled s
  have h3 : t.entry (keyOf 0x1010 3) = ((dropCommits Status.cancelled).run s).entry (keyOf 0x1010 3) :=
    hmarks.1.2 _ (by decide)
  rw [dropCommits, Effect.run_seq] at hcommit h3
  refine ⟨t, ht, hanswer, ?_⟩
  cases hchecking : s.hid.commit.checking with
  | none =>
    rw [endChecking_run_none _ (by rw [hpend, hchecking]), hpend] at hcommit
    rw [endChecking_run_none _ (by rw [hpend, hchecking])] at h3
    refine ⟨by rw [hcommit], by rw [hcommit, hchecking], by simp, by rw [hcommit], by rw [hcommit], by simp,
      fun c hc hboot _ hB => ?_, honly.trans hmarks⟩
    rw [h3, endPending_entry hs (by decide) hc hboot hB]
  | some c =>
    rw [endChecking_hid _ (by rw [hpend, hchecking]; rfl), hpend] at hcommit
    refine ⟨by rw [hcommit], by rw [hcommit], fun _ => by rw [hcommit], by rw [hcommit], by rw [hcommit],
      fun c' hc hboot => ?_, by simp, honly.trans hmarks⟩
    rw [h3, endChecking_entry (Effect.run_sound _ hs) (by decide) (by rw [hpend, hchecking, hc]) hboot]

/-! #### The end of the checks (R48, R527) -/

/-- The commit engine is as it was. -/
abbrev CommitKept (a b : Hidden) : Prop := b.commit = a.commit

theorem Effect.Beside.commit {e : Effect} {s : State} (h : e.Beside CommitKept) : (e.run s).hid.commit = s.hid.commit :=
  Effect.Beside.hid (R := CommitKept) (fun _ => rfl) (fun h h' => h'.trans h) h

/-- What the checks report goes into its entries, and into the memory controller. -/
theorem recordChecks_writes (c : State) (r : CheckRun) : (recordChecks c r).Writes (· ∈ r.results.map (·.1)) := by
  simp only [recordChecks, Effect.writes_seq, Effect.writes_each, set_writes, keyOf_div_mod, Effect.writes_when,
    onMemory_writes, implies_true, and_true]
  exact fun _ hx => List.mem_map_of_mem hx

theorem recordChecks_noStore (c : State) (r : CheckRun) : (recordChecks c r).NoStore := by simp [recordChecks]

theorem recordChecks_commit (c s : State) (r : CheckRun) : ((recordChecks c r).run s).hid.commit = s.hid.commit :=
  Effect.Beside.commit (by simp [recordChecks])

/-- What the end of the checks does, once they are recorded. -/
def State.checksOutcome (s : State) (c : Commit) : Effect := .all [
  match (s.checkCommit c false).failure with
    | some f => .seq (refuseCommit c f 0) (Effect.when (!c.boot) (set 0x1010 3 f.code))
    | none => .all [
        Effect.when s.hid.commit.pend.isSome (set 0x1010 0x0B Status.superseded),
        Effect.when (s.hid.commit.pend.any Commit.boot) (set 0x1110 3 Status.superseded),
        onCommit fun t => { t with pend := some { c with due := s.dueTick c } }],
  onCommit fun t => { t with checking := none, waiting := none }]

theorem exec_commitChecksEnd {s : State} {c : Commit} (hcore : s.up .core = true) (hchecking : s.hid.commit.checking = some c) :
    exec .commitChecksEnd s = .next ((Effect.ofOption s.hid.commit.waiting takeCommit).run ((s.checksOutcome c).run
      ((recordChecks (s.withCommit c) (s.checkCommit c false)).run s))) := by
  show perform (Effect.when (s.up .core) _) s = _
  rw [hcore, hchecking, State.checksOutcome]
  rfl

/-- Where no command waits, the outcome acts on the state with the checks recorded, which has what the checks do not report. -/
theorem commitChecksEnd_completes {s : State} {c : Commit} (hs : s.sound = true) (hcore : s.up .core = true)
    (hchecking : s.hid.commit.checking = some c) (hwaiting : s.hid.commit.waiting = none) {P : State → Prop}
    (h : ∀ u, u.sound = true → u.hid.commit = s.hid.commit →
      Only ((s.checkCommit c false).results.map (·.1)) s u → P ((s.checksOutcome c).run u)) :
    Completes .commitChecksEnd s P := by
  refine ⟨_, exec_commitChecksEnd hcore hchecking, ?_⟩
  rw [hwaiting, Effect.run_ofOption_none, Effect.run_nothing]
  have hrecord : Only ((s.checkCommit c false).results.map (·.1)) s
      ((recordChecks (s.withCommit c) (s.checkCommit c false)).run s) :=
    ⟨(recordChecks_writes _ _).frame hs, (recordChecks_noStore _ _).frame⟩
  exact h _ (Effect.run_sound _ hs) (recordChecks_commit _ _ _) hrecord

/-- The event of a refused commit: the Almanac counts it. -/
theorem almanac_only (h b : Nat) {s : State} (hs : s.sound = true) :
    Only [keyOf 0x1400 8] s ((almanac h b).run s) ∧ ((almanac h b).run s).hid.commit = s.hid.commit := by
  have hwrites : (almanac h b).Writes (· ∈ [keyOf 0x1400 8]) := almanac_writes (by simp) h b
  exact ⟨⟨hwrites.frame hs, (almanac_noStore h b).frame⟩, Effect.Beside.commit (almanac_beside (fun _ _ => rfl) h b)⟩

section
variable {s u : State} {c : Commit} (hu : u.sound = true) (hcommit : u.hid.commit = s.hid.commit)
  (hwaiting : s.hid.commit.waiting = none)
include hu hcommit hwaiting

/-- The outcome of a failure of a commit that is not the boot commit. -/
theorem checksOutcome_fails {f : Failure} (hf : (s.checkCommit c false).failure = some f) (hboot : c.boot = false) :
    let t := (s.checksOutcome c).run u
    t.entry (keyOf 0x1010 3) = f.code % 2 ^ 8 ∧ t.entry (keyOf 0x1010 5) = f.entry % 2 ^ 32 ∧
      t.entry (keyOf 0x1010 6) = (if f.profileB then 1 else 0) ∧ t.entry (keyOf 0x1010 7) = 0 ∧
      t.hid.commit = { s.hid.commit with checking := none } ∧
      Only [keyOf 0x1010 3, keyOf 0x1010 5, keyOf 0x1010 6, keyOf 0x1010 7, keyOf 0x1400 8] u t := by
  obtain ⟨h3, -, h5, h6, h7, -⟩ := commit_settable u.pers
  generalize hv1 : (Act.reg (keyOf 0x1010 5) f.entry).apply u = v1
  have hs1 : v1.sound = true := hv1 ▸ Act.keeps_sound _ u hu
  have hp1 : v1.pers = u.pers := hv1 ▸ rfl
  generalize hv2 : (Act.reg (keyOf 0x1010 6) (if f.profileB then 1 else 0)).apply v1 = v2
  have hs2 : v2.sound = true := hv2 ▸ Act.keeps_sound _ v1 hs1
  have hp2 : v2.pers = u.pers := hv2 ▸ hp1
  generalize hv3 : (Act.reg (keyOf 0x1010 7) 0).apply v2 = v3
  have hs3 : v3.sound = true := hv3 ▸ Act.keeps_sound _ v2 hs2
  obtain ⟨⟨hframe, -⟩, hkept⟩ := almanac_only 1 6 hs3
  have hs4 := Effect.run_sound (almanac 1 6) hs3
  have hp4 : ((almanac 1 6).run v3).pers = u.pers := hframe.1.trans (hv3 ▸ hp2)
  have hrun : (s.checksOutcome c).run u = (onCommit fun t => { t with checking := none, waiting := none }).run
      ((Act.reg (keyOf 0x1010 3) f.code).apply ((almanac 1 6).run v3)) := by
    simp [State.checksOutcome, hf, refuseCommit, hboot, ← hv3, ← hv2, ← hv1]
  have hread : ∀ q, q ≠ keyOf 0x1400 8 → ((s.checksOutcome c).run u).entry q =
      if q = keyOf 0x1010 3 then f.code % 2 ^ 8 else if q = keyOf 0x1010 7 then 0
      else if q = keyOf 0x1010 6 then (if f.profileB then 1 else 0) else if q = keyOf 0x1010 5 then f.entry % 2 ^ 32
      else u.entry q := fun q hq => by
    rw [hrun]
    show ((Act.reg (keyOf 0x1010 3) f.code).apply ((almanac 1 6).run v3)).entry q = _
    rw [State.entry_set_mod hs4 (hp4 ▸ h3), hframe.2 _ (by simpa using hq), ← hv3,
      State.entry_set_eq hs2 (hp2 ▸ h7) (by decide), ← hv2,
      State.entry_set_eq hs1 (hp1 ▸ h6) (by split_ifs <;> decide), ← hv1, State.entry_set_mod hu h5]
  have hwrites : (s.checksOutcome c).Writes
      (· ∈ [keyOf 0x1010 3, keyOf 0x1010 5, keyOf 0x1010 6, keyOf 0x1010 7, keyOf 0x1400 8]) := by
    simp [State.checksOutcome, hf, refuseCommit, hboot, almanac_writes]
  have hnoStore : (s.checksOutcome c).NoStore := by
    simp [State.checksOutcome, hf, refuseCommit, hboot, almanac_noStore]
  refine ⟨?_, ?_, ?_, ?_, ?_, hwrites.frame hu, hnoStore.frame⟩
  · rw [hread _ (by decide)]; rfl
  · rw [hread _ (by decide)]; rfl
  · rw [hread _ (by decide)]; rfl
  · rw [hread _ (by decide)]; rfl
  · rw [hrun, onCommit_run, Act.hid_hid]
    show { ((almanac 1 6).run v3).hid.commit with checking := none, waiting := none } = _
    rw [hkept, ← hv3, ← hv2, ← hv1]
    show { u.hid.commit with checking := none, waiting := none } = _
    rw [hcommit, ← hwaiting]

/-- The outcome of a failure of the boot commit: its entries are staged again, under what has been staged since. -/
theorem checksOutcome_fails_boot {f : Failure} (hf : (s.checkCommit c false).failure = some f) (hboot : c.boot = true) :
    let t := (s.checksOutcome c).run u
    t.entry (keyOf 0x1110 3) = f.code % 2 ^ 8 ∧ t.entry (keyOf 0x1110 4) = f.entry % 2 ^ 32 ∧
      t.hid.commit = { s.hid.commit with
        checking := none, staged := overlayKeys c.entries s.hid.commit.staged
        content := overlayKeys c.content s.hid.commit.content } ∧
      Only [keyOf 0x1110 3, keyOf 0x1110 4, keyOf 0x1400 8] u t := by
  obtain ⟨-, -, -, -, -, -, h3, h4⟩ := commit_settable u.pers
  generalize hv1 : (Act.reg (keyOf 0x1110 3) f.code).apply u = v1
  have hs1 : v1.sound = true := hv1 ▸ Act.keeps_sound _ u hu
  have hp1 : v1.pers = u.pers := hv1 ▸ rfl
  generalize hv2 : (onCommit fun t => { t with
    staged := overlayKeys c.entries t.staged, content := overlayKeys c.content t.content }).run
      ((Act.reg (keyOf 0x1110 4) f.entry).apply v1) = v2
  have hs2 : v2.sound = true := hv2 ▸ Effect.run_sound _ (Act.keeps_sound _ v1 hs1)
  obtain ⟨⟨hframe, -⟩, hkept⟩ := almanac_only 1 6 hs2
  have hrun : (s.checksOutcome c).run u = (onCommit fun t => { t with checking := none, waiting := none }).run
      ((almanac 1 6).run v2) := by
    simp [State.checksOutcome, hf, refuseCommit, hboot, ← hv2, ← hv1]
  have hread : ∀ q, q ≠ keyOf 0x1400 8 → ((s.checksOutcome c).run u).entry q =
      if q = keyOf 0x1110 4 then f.entry % 2 ^ 32 else if q = keyOf 0x1110 3 then f.code % 2 ^ 8 else u.entry q :=
    fun q hq => by
      rw [hrun]
      show ((almanac 1 6).run v2).entry q = _
      rw [hframe.2 _ (by simpa using hq), ← hv2]
      show ((Act.reg (keyOf 0x1110 4) f.entry).apply v1).entry q = _
      rw [State.entry_set_mod hs1 (hp1 ▸ h4), ← hv1, State.entry_set_mod hu h3]
  have hwrites : (s.checksOutcome c).Writes (· ∈ [keyOf 0x1110 3, keyOf 0x1110 4, keyOf 0x1400 8]) := by
    simp [State.checksOutcome, hf, refuseCommit, hboot, almanac_writes]
  have hnoStore : (s.checksOutcome c).NoStore := by
    simp [State.checksOutcome, hf, refuseCommit, hboot, almanac_noStore]
  refine ⟨?_, ?_, ?_, hwrites.frame hu, hnoStore.frame⟩
  · rw [hread _ (by decide)]; rfl
  · rw [hread _ (by decide)]; rfl
  · rw [hrun, onCommit_run, Act.hid_hid]
    show { ((almanac 1 6).run v2).hid.commit with checking := none, waiting := none } = _
    rw [hkept, ← hv2, ← hv1]
    show { u.hid.commit with
      staged := overlayKeys c.entries u.hid.commit.staged, content := overlayKeys c.content u.hid.commit.content
      checking := none, waiting := none } = _
    rw [hcommit, ← hwaiting]

/-- The outcome of checks that pass: the commit is the pending one, and one that was pending before is superseded. -/
theorem checksOutcome_passes (hpass : (s.checkCommit c false).failure = none) :
    let t := (s.checksOutcome c).run u
    t.hid.commit = { s.hid.commit with checking := none, pend := some { c with due := s.dueTick c } } ∧
      (s.hid.commit.pend.isSome = true → t.entry (keyOf 0x1010 0x0B) = Status.superseded) ∧
      (s.hid.commit.pend.any Commit.boot = true → t.entry (keyOf 0x1110 3) = Status.superseded) ∧
      Only (keyOf 0x1010 0x0B :: if s.hid.commit.pend.any Commit.boot then [keyOf 0x1110 3] else []) u t := by
  obtain ⟨-, -, -, -, -, hB, h3, -⟩ := commit_settable u.pers
  generalize hv1 : (Effect.when s.hid.commit.pend.isSome (set 0x1010 0x0B Status.superseded)).run u = v1
  have hs1 : v1.sound = true := hv1 ▸ Effect.run_sound _ hu
  have hp1 : v1.pers = u.pers := hv1 ▸ Effect.Writes.pers (K := (· = keyOf 0x1010 0x0B)) (by simp)
  generalize hv2 : (Effect.when (s.hid.commit.pend.any Commit.boot) (set 0x1110 3 Status.superseded)).run v1 = v2
  have hrun : (s.checksOutcome c).run u = (onCommit fun t => { t with checking := none, waiting := none }).run
      ((onCommit fun t => { t with pend := some { c with due := s.dueTick c } }).run v2) := by
    simp [State.checksOutcome, hpass, ← hv2, ← hv1]
  have hhid : v2.hid.commit = s.hid.commit := by
    rw [← hv2, Effect.Beside.commit (by simp), ← hv1, Effect.Beside.commit (by simp), hcommit]
  have hread : ∀ q, ((s.checksOutcome c).run u).entry q = v2.entry q := fun q => by
    rw [hrun]
    rfl
  have hwrites : (s.checksOutcome c).Writes
      (· ∈ keyOf 0x1010 0x0B :: if s.hid.commit.pend.any Commit.boot then [keyOf 0x1110 3] else []) := by
    simp +contextual [State.checksOutcome, hpass]
  have hnoStore : (s.checksOutcome c).NoStore := by simp [State.checksOutcome, hpass]
  refine ⟨?_, fun hsome => ?_, fun hany => ?_, hwrites.frame hu, hnoStore.frame⟩
  · rw [hrun, onCommit_run, Act.hid_hid]
    show { v2.hid.commit with pend := some { c with due := s.dueTick c }, checking := none, waiting := none } = _
    rw [hhid, ← hwaiting]
  · have hkeeps : v2.entry (keyOf 0x1010 0x0B) = v1.entry (keyOf 0x1010 0x0B) :=
      hv2 ▸ (Effect.Writes.keeps (K := (· = keyOf 0x1110 3)) (by decide) (by simp) hs1).2
    rw [hread, hkeeps, ← hv1, hsome]
    exact State.entry_set_of_settable hu hB (by decide)
  · rw [hread, ← hv2, hany]
    exact State.entry_set_of_settable hs1 (hp1 ▸ h3) (by decide)

end

/-- A command that waited is taken at the end of the checks (R47). -/
theorem commitChecksEnd_takes {s : State} {c : Commit} {timed : Bool} (hs : s.sound = true) (hcore : s.up .core = true)
    (hchecking : s.hid.commit.checking = some c) (hwaiting : s.hid.commit.waiting = some timed) :
    Completes .commitChecksEnd s fun t => t.entry (keyOf 0x1010 3) = Status.pending ∧ t.hid.commit.staged = [] ∧
      t.hid.commit.content = [] ∧ t.hid.commit.checking.isSome = true ∧ t.hid.commit.waiting = none := by
  refine ⟨_, exec_commitChecksEnd hcore hchecking, ?_⟩
  rw [hwaiting, Effect.run_ofOption_some]
  generalize hv : (s.checksOutcome c).run ((recordChecks (s.withCommit c) (s.checkCommit c false)).run s) = v
  have hsound : v.sound = true := hv ▸ Effect.run_sound _ (Effect.run_sound _ hs)
  have hnone : v.hid.commit.waiting = none := by
    rw [← hv, State.checksOutcome, Effect.run_all_cons]
    rfl
  obtain ⟨hhid, h3, -⟩ := takeCommit_run hsound timed
  refine ⟨h3, ?_⟩
  rw [hhid]
  exact ⟨rfl, rfl, rfl, hnone⟩

/-! #### The first checks (R48, R527) -/

theorem CheckRun.inOrder_of_fails {f : Unit → CheckRun} {fs : List (Unit → CheckRun)} {e : Failure} {r : List (Key × Nat)}
    (h : f () = ⟨some e, r⟩) : (CheckRun.inOrder (f :: fs)).failure = some e := by rw [CheckRun.inOrder, h]

theorem CheckRun.inOrder_of_pass {f : Unit → CheckRun} {fs : List (Unit → CheckRun)} (h : f () = .pass) :
    CheckRun.inOrder (f :: fs) = CheckRun.inOrder fs := by
  rw [CheckRun.inOrder, h]
  rfl

theorem checkCommit_mode {s : State} (c : Commit) (h : commitModes.contains s.mode = false) :
    (s.checkCommit c false).failure = some ⟨Status.mode, 0, false⟩ :=
  CheckRun.inOrder_of_fails (r := []) (by rw [checkMode, h]; rfl)

theorem checkCommit_late {s : State} {c : Commit} {k : Key} (h : commitModes.contains s.mode = true) (hlate : c.late = some k) :
    (s.checkCommit c false).failure = some ⟨Status.late, k, false⟩ := by
  rw [State.checkCommit, CheckRun.inOrder_of_pass (by rw [checkMode, h]; rfl)]
  exact CheckRun.inOrder_of_fails (r := []) (by rw [hlate]; rfl)

/-- A command fails step 2 where time is UNSET, and where its T is nearer than 2P; the boot commit has no step 2. -/
theorem newCommit_late (s : State) (time : Option Nat) : (s.newCommit time true).late = none ∧
    (s.reg 0x1300 3 = 0 → (s.newCommit time false).late = some (keyOf 0x1300 3)) ∧
    (s.reg 0x1300 3 ≠ 0 → ∀ T, s.atLeastP (lt32Diff T s.lt32) 2 = false →
      (s.newCommit (some T) false).late = some (keyOf 0x1010 2)) := by
  refine ⟨rfl, fun h => ?_, fun h T hT => ?_⟩
  · simp only [State.newCommit, State.lateEntry, h]
    rfl
  · simp [State.newCommit, State.lateEntry, h, hT, -State.reg_eq_entry]

/-- BOOT_COMMIT takes the staging set as the boot commit (R436). -/
theorem bootCommit_completes {s : State} (hs : s.sound = true) (hmode : s.mode = Mode.dark)
    (hread : s.hid.reset.settingsRead = true) (hran : s.hid.reset.bootRan = false) (hnone : s.hid.commit.checking = none)
    (htime : s.reg 0x1300 3 ∈ [2, 3, 4, 5]) : Completes .bootCommit s fun t => t.entry (keyOf 0x1110 3) = Status.pending ∧
      t.hid = { s.hid with reset := { s.hid.reset with bootRan := true }, commit := { s.hid.commit with
        staged := [], content := [], checking := some (s.newCommit none true) } } ∧ Only [keyOf 0x1110 3] s t := by
  obtain ⟨-, -, -, -, -, -, h3, -⟩ := commit_settable s.pers
  have htime' : [2, 3, 4, 5].contains (s.reg 0x1300 3) = true := by simpa using htime
  have hexec : exec .bootCommit s = .next ((Effect.all [onReset fun r => { r with bootRan := true },
      set 0x1110 3 Status.pending, checkNew (s.newCommit none true)]).run s) := by
    show perform (Effect.when (_ && _) _) s = _
    rw [hmode, hread, hran, hnone, htime']
    rfl
  exact ⟨_, hexec, State.entry_set_of_settable hs h3 (by decide), rfl,
    Effect.Writes.frame (by simp [checkNew]) hs, Effect.NoStore.frame (by simp [checkNew])⟩

theorem Only.mono {ks ls : List Key} {s t : State} (h : Only ks s t) (hsub : ks ⊆ ls) : Only ls s t :=
  ⟨⟨h.1.1, fun k hk => h.1.2 k fun hin => hk (hsub hin)⟩, h.2⟩

/-- Settles O18: a command of 1010h.01 acts on the commit engine behind the door's marks; at the end of the checks what they
report is recorded, and the outcome acts on the state with it. -/
theorem commitCommandsActAndChecksEndDecides : Obligations.CommitCommandsActAndChecksEndDecides := by
  refine ⟨fun s d hs hsv => ⟨fun hnone q hq => commitTaken_checks hs hsv hq hnone,
    fun hsome q hq => commitTaken_waits hs hsv hq hsome, cancel_completes hs hsv, discard_completes hs hsv⟩,
    fun s c hs hcore hchecking hboot hwaiting => ⟨fun f hf => ?_, fun hpass => ?_⟩,
    fun s c timed hs hcore hchecking hwaiting => commitChecksEnd_takes hs hcore hchecking hwaiting,
    fun s c h => checkCommit_mode c h, fun s c k h hlate => checkCommit_late h hlate, newCommit_late,
    fun s c hs hcore hchecking hboot hwaiting => ⟨fun f hf => ?_, fun hpass => ?_⟩,
    fun s hs hmode hread hran hnone htime => bootCommit_completes hs hmode hread hran hnone htime⟩
  · refine commitChecksEnd_completes hs hcore hchecking hwaiting fun u hu hcommit honly => ?_
    obtain ⟨h3, h5, h6, h7, hhid, hthen⟩ := checksOutcome_fails hu hcommit hwaiting hf hboot
    exact ⟨h3, h5, h6, h7, hhid, honly.trans hthen⟩
  · refine commitChecksEnd_completes hs hcore hchecking hwaiting fun u hu hcommit honly => ?_
    obtain ⟨hhid, hB, h3, hthen⟩ := checksOutcome_passes hu hcommit hwaiting hpass
    exact ⟨hhid, hB, h3, by simpa using honly.trans hthen⟩
  · refine commitChecksEnd_completes hs hcore hchecking hwaiting fun u hu hcommit honly => ?_
    obtain ⟨h3, h4, hhid, hthen⟩ := checksOutcome_fails_boot hu hcommit hwaiting hf hboot
    exact ⟨h3, h4, hhid, honly.trans hthen⟩
  · refine commitChecksEnd_completes hs hcore hchecking hwaiting fun u hu hcommit honly => ?_
    obtain ⟨hhid, -, -, hthen⟩ := checksOutcome_passes hu hcommit hwaiting hpass
    exact ⟨hhid, honly.trans (hthen.mono (by split_ifs <;> simp))⟩

end Sys2Proof.Machine
end

section
namespace Sys2Proof.Machine

/-! ### Records that no port reaches (O35)

The statement says that a READ record for an unreachable tile joins the datagrams in progress with UNREACHABLE, and that
nothing else stands otherwise beside the dictionary. The model answers such a record as it ends a request, and strikes from
the requests in flight every one that is equal to it. Nothing in `State.sound` or `State.shaped` keeps a request of an equal
record out of that list: each request there was sent on a datagram number that has been given out, which is no part of
either predicate. -/

/-- A sender in DARK with no chain, whose requests in flight hold one of record 0 of datagram 0, the next to come. -/
def requestOfNextDatagram : State :=
  { State.reset with
    pers := .sender
    regs := [(0x1100, 6, 0x3F), (0x1001, 1, 3), (0x1000, 6, 0)].foldl
      (fun r e => setValue .sender r (keyOf e.1 e.2.1) e.2.2) []
    hid := { Hidden.initial with doors := { DoorState.initial with
      requests := [⟨0, 0, .record 0 0, 5, 1, keyOf 0x1001 1, none, 0⟩] } } }

/-- A READ of 1001h.01 of tile 5. -/
def readRecord : List Byte :=
  bytesLE 2 1 ++ bytesLE 2 5 ++ bytesLE 2 0x1001 ++ bytesLE 1 1 ++ zeroBytes 9

/-- The datagram with that record. -/
def readDatagram : List Byte :=
  bytesLE 2 0x4C54 ++ bytesLE 2 1 ++ bytesLE 4 0 ++ bytesLE 2 1 ++ bytesLE 2 32 ++ zeroBytes 4 ++ readRecord

theorem requestOfNextDatagram_serves : requestOfNextDatagram.sound = true ∧ requestOfNextDatagram.shaped = true ∧
    requestOfNextDatagram.isSender = true ∧ requestOfNextDatagram.servesAt .tlaroek = true ∧
    requestOfNextDatagram.address = 0 ∧ requestOfNextDatagram.portTo 5 = none := by decide +kernel

theorem readDatagram_parses : parseDatagram readDatagram = some (0, [readRecord]) := by decide +kernel

/-- The request in flight is gone after the datagram. -/
theorem requestOfNextDatagram_struck :
    Completes (.tlaroekDatagram ⟨0, 0, requestOfNextDatagram.entry (keyOf 0x1031 1)⟩ readDatagram) requestOfNextDatagram
      fun t => t.hid.doors.requests = [] := ⟨_, rfl, by decide +kernel⟩

/-- Refutes O35: in a sound and shaped state a request in flight may be equal to the one that the record makes, and the answer
UNREACHABLE strikes it. -/
theorem not_datagramsAreAnswered : ¬ Obligations.DatagramsAreAnswered := by
  rintro ⟨-, -, -, hrecord, -⟩
  obtain ⟨hs, hshape, hsender, hserves, haddress, hport⟩ := requestOfNextDatagram_serves
  obtain ⟨-, hunreachable, -⟩ := hrecord requestOfNextDatagram 0 0 readDatagram readRecord 0 5 (keyOf 0x1001 1) hs hshape
    hsender hserves readDatagram_parses (by decide) (by decide) (by decide) (by decide)
  obtain ⟨t, ht, -, -, hhid⟩ := hunreachable (by rw [haddress]; decide) (by decide) hport
  obtain ⟨u, hu, hstruck⟩ := requestOfNextDatagram_struck
  obtain rfl : u = t := Host.Outcome.next.inj (hu.symm.trans ht)
  rw [hhid] at hstruck
  exact absurd hstruck (by decide)

end Sys2Proof.Machine
end

section
namespace Sys2Proof.Machine

/-! ### The settings at the start (O25) -/

/-! #### What an effect may store -/

/-- Every byte of memory that an effect stores or erases satisfies A. -/
def Effect.Stores (A : Nat → Prop) : Effect → Prop
  | .nothing => True
  | .act (.store a bs) => ∀ x, a ≤ x → x < a + bs.length → A x
  | .act (.erase lo hi) => ∀ x, lo ≤ x → x < hi → A x
  | .act _ => True
  | .seq a b => a.Stores A ∧ b.Stores A
  | .look f => ∀ s, (f s).Stores A

/-- A byte that an effect does not store reads as before. -/
theorem Effect.Stores.keeps {A : Nat → Prop} {x : Nat} (hx : ¬ A x) : ∀ {e : Effect} {s : State},
    e.Stores A → s.sound = true → (e.run s).byte x = s.byte x
  | .nothing, _, _, _ => rfl
  | .act (.reg _ _), _, _, _ => rfl
  | .act (.resetRegs _ _), _, _, _ => rfl
  | .act (.store _ _), s, h, hs =>
    (memGet_memWrite ((State.sound_iff s).mp hs).1).trans (dif_neg fun hin => hx (h x hin.1 hin.2))
  | .act (.erase _ _), s, h, hs =>
    (memGet_memErase ((State.sound_iff s).mp hs).1).trans (if_neg fun hin => hx (h x hin.1 hin.2))
  | .act (.hid _), _, _, _ => rfl
  | .act (.out _), _, _, _ => rfl
  | .act .fresh, _, _, _ => rfl
  | .seq a _, _, h, hs => (Effect.Stores.keeps hx h.2 (a.run_sound hs)).trans (Effect.Stores.keeps hx h.1 hs)
  | .look f, s, h, hs => Effect.Stores.keeps (e := f s) hx (h s) hs

theorem Effect.NoStore.stores {A : Nat → Prop} : ∀ {e : Effect}, e.NoStore → e.Stores A
  | .nothing, _ => trivial
  | .act (.reg _ _), _ => trivial
  | .act (.resetRegs _ _), _ => trivial
  | .act (.store _ _), h => h.elim
  | .act (.erase _ _), h => h.elim
  | .act (.hid _), _ => trivial
  | .act (.out _), _ => trivial
  | .act .fresh, _ => trivial
  | .seq _ _, h => ⟨h.1.stores, h.2.stores⟩
  | .look _, h => fun s => (h s).stores

/-- What holds before a list of effects and is kept by each of them holds after it. -/
theorem Effect.run_each_keeps {α : Type} {P : State → Prop} {f : α → Effect} : ∀ {l : List α} {s : State},
    (∀ x ∈ l, ∀ t, P t → P ((f x).run t)) → P s → P ((Effect.each f l).run s)
  | [], _, _, h => h
  | x :: l, s, hl, h => Effect.run_each_keeps (l := l) (s := (f x).run s) (fun y hy => hl y (List.mem_cons_of_mem x hy))
    (hl x List.mem_cons_self s h)

/-- Of a list of effects the last one that matters decides: what it sets, and those that do not matter leave as it is. -/
theorem Effect.run_each_last {α β : Type} {P : State → Prop} {f : α → Effect} {m : α → Bool} {x : α} (g : State → β) (v : β)
    (hP : ∀ y t, P t → P ((f y).run t)) (hkeep : ∀ y t, P t → m y = false → g ((f y).run t) = g t)
    (htake : ∀ t, P t → g ((f x).run t) = v) : ∀ {l : List α} {t : State}, P t → (l.filter m).getLast? = some x →
    g ((Effect.each f l).run t) = v
  | [], _, _, h => nomatch h
  | y :: l, t, ht, h => by
    cases hy : m y with
    | false =>
      rw [List.filter_cons_of_neg (by simp [hy])] at h
      exact Effect.run_each_last (l := l) (t := (f y).run t) g v hP hkeep htake (hP y t ht) h
    | true =>
      rw [List.filter_cons_of_pos hy, List.getLast?_cons, Option.some_inj] at h
      cases hl : (l.filter m).getLast? with
      | some z =>
        rw [hl, Option.getD_some] at h
        exact Effect.run_each_last (l := l) (t := (f y).run t) g v hP hkeep htake (hP y t ht) (hl.trans (congrArg some h))
      | none =>
        rw [hl, Option.getD_none] at h
        have hnot := List.filter_eq_nil_iff.mp (List.getLast?_eq_none_iff.mp hl)
        refine (Effect.run_each_keeps (P := fun u => P u ∧ g u = v) (fun z hz u hu => ?_) ⟨hP y t ht, h ▸ htake t ht⟩).2
        exact ⟨hP z u hu.1, (hkeep z u hu.1 (by simpa using hnot z hz)).trans hu.2⟩

/-! #### The records of the settings (R473, R475) -/

theorem loads_row {s : State} {q : SettingsRecord} {row : Row} (h : s.loads q = some row) :
    s.row (keyOf q.index q.sub) = some row ∧ savedRow (keyOf q.index q.sub) row = true ∧
      (row.ty ≠ .domain → q.value.length = row.ty.size) := by
  simp only [State.loads] at h
  cases hr : s.row (keyOf q.index q.sub) with
  | none => simp [hr] at h
  | some r =>
    simp only [hr] at h
    split_ifs at h <;> simp_all

/-- Whether a record of an entry other than a DOMAIN loads depends on the personality alone. -/
theorem loads_congr {s t : State} {q : SettingsRecord} (hp : t.pers = s.pers)
    (hty : ∀ row, s.row (keyOf q.index q.sub) = some row → row.ty ≠ .domain) : t.loads q = s.loads q := by
  have hrow : t.row (keyOf q.index q.sub) = s.row (keyOf q.index q.sub) := by rw [State.row, State.row, hp]
  simp only [State.loads, hrow, hp]
  cases hr : s.row (keyOf q.index q.sub) with
  | none => rfl
  | some r => simp [hty r hr]

/-- The records 0.1 and 0.2 are tables; nothing else may be loaded there. -/
theorem table_absent (p : Personality) : rowAt p (keyOf 0 1) = none ∧ rowAt p (keyOf 0 2) = none := by
  cases p <;> decide +kernel

/-- A record that loads is stored as its entry takes it. -/
theorem loadRecord_of_loads {s : State} {q : SettingsRecord} {row : Row} (h : s.loads q = some row) :
    (loadRecord q).run s = (storeEntry row (keyOf q.index q.sub) q.value).run s := by
  have hnot : ¬(q.index = 0 && (q.sub = 1 || q.sub = 2)) = true := by
    intro hq
    obtain ⟨hi, hsub⟩ : q.index = 0 ∧ (q.sub = 1 ∨ q.sub = 2) := by simpa using hq
    have hr := (loads_row h).1
    rw [State.row, hi] at hr
    rcases hsub with hsub | hsub <;> rw [hsub] at hr
    · rw [(table_absent _).1] at hr; cases hr
    · rw [(table_absent _).2] at hr; cases hr
  rw [loadRecord, Effect.run_look, if_neg hnot, h]

/-- A record that does not load is passed over or counted. -/
theorem loadRecord_of_not_loads {s : State} {q : SettingsRecord} (h : s.loads q = none) :
    (loadRecord q).run s = s ∨ (loadRecord q).run s = (addField 0x1500 0x13 47 32 1).run s := by
  rw [loadRecord, Effect.run_look, h]
  split_ifs
  · exact .inl rfl
  · exact .inr rfl

theorem loadRecord_pers (q : SettingsRecord) (s : State) : ((loadRecord q).run s).pers = s.pers := by
  cases hl : s.loads q with
  | none => rcases loadRecord_of_not_loads hl with h | h <;> rw [h]; rfl
  | some row =>
    rw [loadRecord_of_loads hl]
    unfold storeEntry
    split <;> rfl

/-- What the settings read cannot change: neither the personality nor the canonical form. -/
abbrev Reading (s t : State) : Prop := t.sound = true ∧ t.pers = s.pers

theorem Reading.loadRecord {s t : State} (h : Reading s t) (q : SettingsRecord) : Reading s ((loadRecord q).run t) :=
  ⟨Effect.run_sound _ h.1, (loadRecord_pers q t).trans h.2⟩

section
variable {s t : State} {k : Key} {q : SettingsRecord} (ht : Reading s t)
include ht

/-- A record leaves an entry alone that is not an RW entry which it loads. -/
theorem loadRecord_entry_of_ne (hk : k ≠ keyOf 0x1500 0x13)
    (hq : ∀ row, t.loads q = some row → row.acc = .rw → keyOf q.index q.sub ≠ k) :
    ((loadRecord q).run t).entry k = t.entry k := by
  cases hl : t.loads q with
  | none =>
    rcases loadRecord_of_not_loads hl with h | h <;> rw [h]
    exact State.entry_set_of_ne ht.1 hk
  | some row =>
    rw [loadRecord_of_loads hl]
    have hsaved := (loads_row hl).2.1
    unfold storeEntry
    split
    · rfl
    · rfl
    · rfl
    · next hrws =>
      refine State.entry_set_of_ne ht.1 ?_
      rw [keyOf_div_mod]
      refine fun h => hq row hl ?_ h.symm
      simp only [savedRow, Bool.and_eq_true, Bool.or_eq_true, beq_iff_eq] at hsaved
      exact hsaved.1.1.resolve_right fun h => by simp [h] at hrws

omit ht in
/-- A record leaves the staged value of an entry alone that it does not load. -/
theorem loadRecord_staged_of_ne (hq : (t.loads q).isSome = true → keyOf q.index q.sub ≠ k) :
    lookupKey ((loadRecord q).run t).hid.commit.staged k = lookupKey t.hid.commit.staged k := by
  cases hl : t.loads q with
  | none => rcases loadRecord_of_not_loads hl with h | h <;> rw [h]; rfl
  | some row =>
    have hne : k ≠ keyOf q.index q.sub := (hq (by simp [hl])).symm
    rw [loadRecord_of_loads hl]
    unfold storeEntry
    split
    · exact lookupKey_insertKey_of_ne _ hne _
    · rfl
    · exact lookupKey_insertKey_of_ne _ hne _
    · rfl

/-- An RW entry has the value of the record. -/
theorem loadRecord_sets {row : Row} (hl : t.loads q = some row) (hty : row.ty ≠ .domain) (hacc : row.acc = .rw) :
    ((loadRecord q).run t).entry (keyOf q.index q.sub) = natLE q.value := by
  obtain ⟨hr, -, hlen⟩ := loads_row hl
  have hlt : natLE q.value < 2 ^ row.ty.width := by
    have h := natLE_lt q.value
    rwa [hlen hty, show (256 : Nat) = 2 ^ 8 from rfl, ← pow_mul] at h
  rw [loadRecord_of_loads hl, storeEntry_of_rw hty hacc, set_run, keyOf_div_mod, entryValue_eq,
    State.entry_set ht.1 hr (by simp [hacc]), Nat.mod_eq_of_lt hlt]

omit ht in
/-- An RWS entry has it staged. -/
theorem loadRecord_stages {row : Row} (hl : t.loads q = some row) (hty : row.ty ≠ .domain) (hacc : row.acc = .rws) :
    lookupKey ((loadRecord q).run t).hid.commit.staged (keyOf q.index q.sub) = some (natLE q.value) := by
  rw [loadRecord_of_loads hl, storeEntry_of_rws hty hacc, entryValue_eq]
  exact lookupKey_insertKey_self _ _ _

end

/-! #### What follows the settings (R293, R360, R419, R436) -/

/-- What the start of s does once the settings are read. -/
def State.afterSettings (s : State) : Effect := .all [
  onReset fun r => { r with settingsRead := true },
  .look fun t => onMemory fun m => { m with rate := t.reg 0x3000 2 },
  enterMode Mode.dark Cause.bootStep,
  Effect.when s.isTile (.seq loadTables loadLampMap),
  loadCalibration]

theorem exec_memReady {s : State} (hmode : s.mode = Mode.boot) (hpipe : s.up .pipe = true)
    (hcold : s.hid.reset.warmStart = false) (hread : s.hid.reset.settingsRead = false) (hready : s.reg 0x3000 3 = 2) :
    exec .memReady s = .next (s.afterSettings.run (readSettings.run s)) := by
  show perform (Effect.when (_ && _ && _ && _ && _) _) s = _
  rw [hmode, hpipe, hcold, hread, hready]
  rfl

/-- The entries of the tables, the lamp map and the calibration set. -/
def tableMarks : List Key :=
  [keyOf 0x1600 8, keyOf 0x1600 9, keyOf 0x4201 3, keyOf 0x5200 6, keyOf 0x5200 7, keyOf 0x5200 0x0D]

/-- The tables, the lamp map and the calibration set, as the start of s loads them. -/
def State.loadedTables (s : State) : Effect := .seq (Effect.when s.isTile (.seq loadTables loadLampMap)) loadCalibration

theorem loadTables_writes : loadTables.Writes (· ∈ tableMarks) := by
  simp [loadTables, loadTable, setBank, mendKind, clearPoison, tableMarks]

theorem loadLampMap_writes : loadLampMap.Writes (· ∈ tableMarks) := by
  simp only [loadLampMap, Effect.writes_look]
  intro s
  cases newerSlot (s.lampMapSeq 0) (s.lampMapSeq 1) <;> simp [mendKind, clearPoison, tableMarks]

theorem loadCalibration_writes : loadCalibration.Writes (· ∈ tableMarks) := by
  simp only [loadCalibration, Effect.writes_look]
  intro s
  cases newerSlot (s.calibrationSeq 0) (s.calibrationSeq 1) <;> simp [storeContent, showSuspects, tableMarks]

theorem State.loadedTables_writes (s : State) : s.loadedTables.Writes (· ∈ tableMarks) := by
  simp [State.loadedTables, loadTables_writes, loadLampMap_writes, loadCalibration_writes]

/-- The footprint in memory of the parts of an effect. -/
theorem Effect.stores_all {A : Nat → Prop} : ∀ {es : List Effect}, (∀ e ∈ es, e.Stores A) → (Effect.all es).Stores A
  | [], _ => trivial
  | [e], h => h e List.mem_cons_self
  | e :: e' :: es, h =>
    ⟨h e List.mem_cons_self, Effect.stores_all (es := e' :: es) fun x hx => h x (List.mem_cons_of_mem e hx)⟩

/-- An address inside one of some ranges. -/
def InRanges (rs : List (Nat × Nat)) (a : Nat) : Prop := ∃ r ∈ rs, r.1 ≤ a ∧ a < r.2

theorem Effect.Stores.outside {rs : List (Nat × Nat)} {e : Effect} {s : State} (h : e.Stores (InRanges rs))
    (hs : s.sound = true) : SameMemoryOutside rs s (e.run s) := fun a ha => h.keeps (fun ⟨r, hr, hlo, hhi⟩ => by
  rcases ha r hr with h | h <;> omega) hs

theorem storeAt_stores {rs : List (Nat × Nat)} {a : Nat} {bs : List Byte} {r : Nat × Nat} (hr : r ∈ rs) (hlo : r.1 ≤ a)
    (hhi : a + bs.length ≤ r.2) : (storeAt a bs).Stores (InRanges rs) := fun x h1 h2 => ⟨r, hr, by omega, by omega⟩

/-- Where the calibration set and the lamp map lie. -/
def startRanges : List (Nat × Nat) := [(domainBase (keyOf 0x1610 1), domainBase (keyOf 0x1610 1) + 1120),
  (domainBase (keyOf 0x1220 1), domainBase (keyOf 0x1220 1) + 36), Space.lampMap.range]

theorem length_flash (s : State) (a n : Nat) : (s.flash a n).length = n := Sparse.getAll_length ..

theorem length_factorySet : factorySet.length = 1120 := by
  simp [factorySet, length_bytesLE, zeroBytes, List.length_flatMap]

theorem loadCalibration_stores : loadCalibration.Stores (InRanges startRanges) := by
  have hset : ∀ bs : List Byte, bs.length = 1120 → (storeContent 0x1610 1 0 bs).Stores (InRanges startRanges) := fun bs h =>
    storeAt_stores (r := (_, domainBase (keyOf 0x1610 1) + 1120)) (.head _) le_rfl (by rw [h, Nat.add_zero])
  have htable : ∀ bs : List Byte, bs.length = 36 → (storeContent 0x1220 1 0 bs).Stores (InRanges startRanges) := fun bs h =>
    storeAt_stores (r := (_, domainBase (keyOf 0x1220 1) + 36)) (.tail _ (.head _)) le_rfl (by rw [h, Nat.add_zero])
  simp only [loadCalibration, Effect.Stores]
  intro s
  cases newerSlot (s.calibrationSeq 0) (s.calibrationSeq 1) with
  | none =>
    exact ⟨hset _ length_factorySet, Effect.NoStore.stores (e := .all [_, _, _]) (by simp [showSuspects])⟩
  | some i =>
    refine ⟨hset _ (length_flash ..), htable _ ?_, Effect.NoStore.stores (e := .all [_, _]) (by simp [showSuspects])⟩
    simp [slice, length_flash]

theorem mendKind_noStore (c : State) (k offset n : Nat) : (mendKind c k offset n).NoStore := by simp [mendKind, clearPoison]

theorem lampMap_fits : Space.lampMap.at 0 + 90176 ≤ Space.lampMap.range.2 := by decide

theorem loadLampMap_stores : loadLampMap.Stores (InRanges startRanges) := by
  have hmap : ∀ bs : List Byte, bs.length ≤ 90176 → (storeAt (Space.lampMap.at 0) bs).Stores (InRanges startRanges) := fun bs h =>
    storeAt_stores (r := Space.lampMap.range) (.tail _ (.tail _ (.head _))) le_rfl
      ((Nat.add_le_add_left h _).trans lampMap_fits)
  have herase : (eraseAt (Space.lampMap.at 0) 90176).Stores (InRanges startRanges) := fun x h1 h2 =>
    ⟨Space.lampMap.range, .tail _ (.tail _ (.head _)), h1, h2.trans_le lampMap_fits⟩
  have hshown : (Effect.all [setBy 0x5200 6 fun t => t.mapWord 12 4, setBy 0x5200 0x0D fun t => t.mapWord 24 4,
      onScan fun c => { c with mapLoaded := true }]).Stores (InRanges startRanges) := Effect.NoStore.stores (by simp)
  intro s
  refine ⟨herase, (mendKind_noStore s 4 0 90176).stores, ?_, hshown⟩
  cases newerSlot (s.lampMapSeq 0) (s.lampMapSeq 1) with
  | none => exact ⟨hmap _ (by simp [length_bytesLE]), Effect.NoStore.stores (e := .seq _ _) (by simp)⟩
  | some i => exact ⟨hmap _ (length_flash ..).le, trivial⟩

/-! What follows the settings keeps the pin rate and the staging set, but for the selections of the tables. -/

/-- The pin rate, that the settings are read, and the staging set, but for the tables. -/
def StartKept (a b : Hidden) : Prop := b.memory.rate = a.memory.rate ∧ b.reset.settingsRead = a.reset.settingsRead ∧
  ∀ k ∉ [keyOf 0x4201 1, keyOf 0x4201 2], lookupKey b.commit.staged k = lookupKey a.commit.staged k

theorem StartKept.refl (h : Hidden) : StartKept h h := ⟨rfl, rfl, fun _ _ => rfl⟩

theorem StartKept.trans {a b c : Hidden} (h : StartKept a b) (h' : StartKept b c) : StartKept a c :=
  ⟨h'.1.trans h.1, h'.2.1.trans h.2.1, fun k hk => (h'.2.2 k hk).trans (h.2.2 k hk)⟩

/-- The commit engine, the pin rate, and that the settings are read. -/
def StartSame (a b : Hidden) : Prop :=
  b.memory.rate = a.memory.rate ∧ b.reset.settingsRead = a.reset.settingsRead ∧ b.commit = a.commit

theorem StartSame.kept {a b : Hidden} (h : StartSame a b) : StartKept a b := ⟨h.1, h.2.1, fun _ _ => by rw [h.2.2]⟩

theorem Effect.Beside.startSame {e : Effect} {s : State} (h : e.Beside StartSame) : StartSame s.hid (e.run s).hid :=
  Effect.Beside.hid (fun _ => ⟨rfl, rfl, rfl⟩)
    (fun h h' => ⟨h'.1.trans h.1, h'.2.1.trans h.2.1, h'.2.2.trans h.2.2⟩) h

theorem mendKind_startSame (c : State) (k offset n : Nat) : (mendKind c k offset n).Beside StartSame := by
  simp [mendKind, clearPoison, StartSame]

theorem loadCalibration_startSame : loadCalibration.Beside StartSame := by
  simp only [loadCalibration, Effect.beside_look]
  intro s
  cases newerSlot (s.calibrationSeq 0) (s.calibrationSeq 1) <;> simp [storeContent, showSuspects]

theorem loadLampMap_startSame : loadLampMap.Beside StartSame := by
  simp only [loadLampMap, Effect.beside_look]
  intro s
  cases newerSlot (s.lampMapSeq 0) (s.lampMapSeq 1) <;> simp [mendKind_startSame, StartSame]

theorem enterDark_startSame (cause : Nat) : (enterMode Mode.dark cause).Beside StartSame := by
  simp [enterMode, enterModeAt, droppingModes, Mode.dark, Mode.derate, Mode.freeze, endTests, computeBudgets, wakeDomains,
    moveMemory, driveHpds, driveHpd, StartSame]

theorem loadTables_startKept : loadTables.Beside StartKept := by
  have hselect : ∀ t, t = 0 ∨ t = 1 → ∀ size bs, (loadTable t size bs).Beside StartKept := by
    intro t ht size bs
    have hone : (onCommit fun c => { c with staged := insertKey c.staged (keyOf 0x4201 (t + 1)) 0 }).Beside StartKept :=
      fun h => ⟨rfl, rfl, fun k hk => lookupKey_insertKey_of_ne _ (by
        rintro rfl
        rcases ht with rfl | rfl <;> simp at hk) _⟩
    rw [loadTable, Effect.beside_seq]
    exact ⟨by simp [setBank, mendKind, clearPoison, StartKept], hone⟩
  simp only [loadTables, Effect.beside_look, Effect.beside_ofOption, Effect.beside_each, Effect.beside_when, Effect.beside_nothing,
    implies_true, and_true]
  intro s slot _ q _ hq u
  obtain ⟨-, hsub⟩ : q.index = 0 ∧ (q.sub = 1 ∨ q.sub = 2) := by simpa using hq
  exact hselect _ (by omega) _ _

theorem State.settingsSlot_congr {s t : State} (h : t.mem = s.mem) : t.settingsSlot = s.settingsSlot := by
  cases s
  cases t
  cases h
  rfl

/-- Without a slot there are no tables to load. -/
theorem loadTables_run_none {s : State} (h : s.settingsSlot = none) : loadTables.run s = s := by
  rw [loadTables, Effect.run_look, h, Effect.run_ofOption_none, Effect.run_nothing]

/-- The entry to DARK from BOOT leaves the fault code as it is. -/
theorem enterDark_fault {s : State} (hs : s.sound = true) (hmode : s.mode = Mode.boot) (cause : Nat) :
    ((enterMode Mode.dark cause).run s).entry (keyOf 0x1001 4) = s.entry (keyOf 0x1001 4) := by
  have hreceiver : ∀ d < 4, keyOf (0x6001 + d) 3 ≠ keyOf 0x1001 4 := by decide
  have hwrites : (enterModeAt s.tick Mode.dark cause).run s = ((Effect.all [
      Effect.when (!([4, 5].contains s.mode)) (onPair fun p => { p with selfSeen := true }),
      set 0x1001 1 Mode.dark, set 0x1001 3 cause, set 0x1001 6 s.tick,
      onReset fun r => { r with confirmFrom := s.uptime },
      driveHpds,
      onMode fun d => { d with request := none, automatic := none, throttleTick := none, byEnum := false }])).run s := by
    simp only [enterModeAt, Effect.run_look, hmode]
    rfl
  rw [enterMode, Effect.run_look, hwrites]
  refine (Effect.Writes.keeps (K := (· ≠ keyOf 0x1001 4)) (by simp) ?_ hs).2
  simp only [Effect.writes_all_cons, Effect.writes_all_nil, Effect.writes_when, set_writes, onPair_writes, onReset_writes,
    onMode_writes, driveHpds, driveHpd, Effect.writes_each, Effect.writes_look, emit_writes, onIngest_writes, implies_true,
    true_and, and_true]
  exact ⟨by decide, by decide, by decide, fun d hd _ _ => hreceiver d (List.mem_range.mp hd)⟩

theorem fault_settable (p : Personality) : settable p (keyOf 0x1001 4) 16 = true := by cases p <;> decide +kernel

/-- The entry that names the pin rate is none that a mode entry changes. -/
theorem pinRate_notMem_modeEntries (s : State) : keyOf 0x3000 2 ∉ s.modeEntries := by
  have hlow : ∀ {i a : Nat}, i < 0x3000 → a < 256 → keyOf 0x3000 2 ≠ keyOf i a := fun h ha => (keyOf_ne_of_lt h ha).symm
  have hhigh : ∀ {i a : Nat}, 0x3000 < i → keyOf 0x3000 2 ≠ keyOf i a := fun h => keyOf_ne_of_lt h (by decide)
  have hport : ∀ p, keyOf 0x3000 2 ≠ keyOf (0x7010 + p) 1 := fun p => hhigh (by omega)
  have hbudget : ∀ m < 11, keyOf 0x3000 2 ≠ keyOf 0x1642 (m + 1) := fun m hm => hlow (by decide) (by omega)
  have hchannel : ∀ c, keyOf 0x3000 2 ≠ keyOf (0x3030 + c) 1 := fun c => hhigh (by omega)
  have hlane : ∀ l, keyOf 0x3000 2 ≠ keyOf (0x5110 + l) 3 := fun l => hhigh (by omega)
  have hreceiver : ∀ d, keyOf 0x3000 2 ≠ keyOf (0x6001 + d) 3 := fun d => hhigh (by omega)
  have hfixed : keyOf 0x3000 2 ∉ [keyOf 0x1001 1, keyOf 0x1001 3, keyOf 0x1001 4, keyOf 0x1001 6, keyOf 0x1010 3,
      keyOf 0x1010 5, keyOf 0x1010 6, keyOf 0x1010 7, keyOf 0x1010 0x0B, keyOf 0x1110 3, keyOf 0x1100 6, keyOf 0x1210 2,
      keyOf 0x3000 3, keyOf 0x4300 0x0B, keyOf 0x5000 1, keyOf 0x7020 1, keyOf 0x7030 3] := by decide
  rw [State.modeEntries]
  simp only [List.mem_append, List.mem_map, laneEntries, List.mem_range, List.mem_cons (b := keyOf 0x1600 6)]
  rintro (((((h | ⟨p, -, h⟩) | ⟨m, hm, h⟩) | ⟨c, -, h⟩) | h | ⟨l, -, h⟩) | ⟨d, -, h⟩)
  · exact hfixed h
  · exact hport p h.symm
  · exact hbudget m hm h.symm
  · exact hchannel c h.symm
  · exact hlow (by decide) (by decide) h
  · exact hlane l h.symm
  · exact hreceiver d h.symm

theorem SameEntriesBut.trans {ks : List Key} {s t u : State} (h : SameEntriesBut ks s t) (h' : SameEntriesBut ks t u) :
    SameEntriesBut ks s u := ⟨h'.1.trans h.1, fun k hk => (h'.2 k hk).trans (h.2 k hk)⟩

theorem SameEntriesBut.mono {ks ls : List Key} {s t : State} (h : SameEntriesBut ks s t) (hsub : ks ⊆ ls) :
    SameEntriesBut ls s t := ⟨h.1, fun k hk => h.2 k fun hin => hk (hsub hin)⟩

/-- What the start loads of tables keeps the pin rate, that the settings are read, and what is staged. -/
theorem loadedTables_kept (s w : State) : let t := s.loadedTables.run w
    t.hid.memory.rate = w.hid.memory.rate ∧ t.hid.reset.settingsRead = w.hid.reset.settingsRead ∧
      ∀ k, s.isTile = false ∨ k ∉ [keyOf 0x4201 1, keyOf 0x4201 2] →
        lookupKey t.hid.commit.staged k = lookupKey w.hid.commit.staged k := by
  simp only [State.loadedTables, Effect.run_seq]
  cases htile : s.isTile with
  | false =>
    rw [Effect.run_when_false]
    obtain ⟨hrate, hread, hcommit⟩ := loadCalibration_startSame.startSame (s := w)
    exact ⟨hrate, hread, fun k _ => by rw [hcommit]⟩
  | true =>
    rw [Effect.run_when_true, Effect.run_seq]
    have htables : StartKept w.hid (loadTables.run w).hid := Effect.Beside.hid StartKept.refl StartKept.trans loadTables_startKept
    have hmap := (loadLampMap_startSame.startSame (s := loadTables.run w)).kept
    have hset := (loadCalibration_startSame.startSame (s := loadLampMap.run (loadTables.run w))).kept
    obtain ⟨hrate, hread, hstaged⟩ := (htables.trans hmap).trans hset
    exact ⟨hrate, hread, fun k hk => hstaged k (hk.resolve_left (by simp))⟩

/-- Without a slot no table is loaded: nothing is staged, and memory changes only where the calibration set and the lamp map
lie. -/
theorem loadedTables_none {s w : State} (hw : w.sound = true) (hnone : w.settingsSlot = none) : let t := s.loadedTables.run w
    t.hid.commit = w.hid.commit ∧ SameMemoryOutside startRanges w t := by
  have hrun : s.loadedTables.run w = (Effect.seq (Effect.when s.isTile loadLampMap) loadCalibration).run w := by
    cases h : s.isTile <;> simp [State.loadedTables, h, loadTables_run_none hnone]
  rw [hrun]
  refine ⟨(Effect.Beside.startSame ?_).2.2, Effect.Stores.outside ⟨?_, loadCalibration_stores⟩ hw⟩
  · simp [loadLampMap_startSame, loadCalibration_startSame]
  · cases s.isTile
    · trivial
    · exact loadLampMap_stores

/-- The state in which DARK is entered: the settings are read, and the pin rate is the one that they ask for. -/
def State.toDark (u : State) : State := (enterMode Mode.dark Cause.bootStep).run ((Effect.all [
  onReset fun r => { r with settingsRead := true },
  .look fun t => onMemory fun m => { m with rate := t.reg 0x3000 2 }]).run u)

theorem afterSettings_run (s u : State) : s.afterSettings.run u = s.loadedTables.run u.toDark := rfl

theorem toDark_shows {u : State} (hu : u.sound = true) : let w := u.toDark
    w.sound = true ∧ w.mode = Mode.dark ∧ w.entry (keyOf 0x1001 3) = Cause.bootStep ∧ w.hid.reset.settingsRead = true ∧
      w.hid.memory.rate = u.entry (keyOf 0x3000 2) ∧ w.hid.commit = u.hid.commit ∧ SameEntriesBut u.modeEntries u w ∧
      w.mem = u.mem ∧ (u.mode = Mode.boot → w.entry (keyOf 0x1001 4) = u.entry (keyOf 0x1001 4)) := by
  let v := (Effect.all [onReset fun r => { r with settingsRead := true },
    .look fun t => onMemory fun m => { m with rate := t.reg 0x3000 2 }]).run u
  have hv : v.sound = true := Effect.run_sound _ hu
  obtain ⟨hmode, hcause, hframe⟩ := enterMode_entries (m := Mode.dark) (cause := Cause.bootStep) hv (by decide) (by decide)
  obtain ⟨hrate, hread, hcommit⟩ := (enterDark_startSame Cause.bootStep).startSame (s := v)
  exact ⟨Effect.run_sound _ hv, hmode, hcause, hread, hrate, hcommit, hframe,
    (enterMode_noStore Mode.dark Cause.bootStep).mem (s := v), fun hboot => enterDark_fault hv hboot _⟩

/-- DARK is entered, with what has been read in effect or staged; only the entries of the tables, of the lamp map and of the
calibration set change beside those of the mode entry. -/
theorem afterSettings_shows {s u : State} (hu : Reading s u) : let t := s.afterSettings.run u
    t.mode = Mode.dark ∧ t.entry (keyOf 0x1001 3) = Cause.bootStep ∧ t.hid.reset.settingsRead = true ∧
      t.hid.memory.rate = t.entry (keyOf 0x3000 2) ∧ SameEntriesBut (tableMarks ++ s.modeEntries) u t ∧
      ∀ k, s.isTile = false ∨ k ∉ [keyOf 0x4201 1, keyOf 0x4201 2] →
        lookupKey t.hid.commit.staged k = lookupKey u.hid.commit.staged k := by
  obtain ⟨hw, hmode, hcause, hread, hrate, hcommit, hframe, -, -⟩ := toDark_shows hu.1
  obtain ⟨hrate', hread', hstaged⟩ := loadedTables_kept s u.toDark
  have htables := s.loadedTables_writes.frame hw
  rw [State.modeEntries_congr hu.2] at hframe
  have hall := (hframe.mono (List.subset_append_right tableMarks _)).trans (htables.mono (List.subset_append_left _ s.modeEntries))
  rw [afterSettings_run]
  refine ⟨(htables.2 _ (by decide)).trans hmode, (htables.2 _ (by decide)).trans hcause, hread'.trans hread,
    (hrate'.trans hrate).trans (hall.2 _ ?_).symm, hall, fun k hk => (hstaged k hk).trans (by rw [hcommit])⟩
  rw [List.mem_append, not_or]
  exact ⟨by decide, pinRate_notMem_modeEntries s⟩

/-- Without a slot the fault code stays, nothing is staged, and memory changes only where the calibration set and the lamp
map lie. -/
theorem afterSettings_none {s u : State} (hu : u.sound = true) (hmode : u.mode = Mode.boot) (hnone : u.settingsSlot = none) :
    let t := s.afterSettings.run u
    t.entry (keyOf 0x1001 4) = u.entry (keyOf 0x1001 4) ∧ t.hid.commit = u.hid.commit ∧ SameMemoryOutside startRanges u t := by
  obtain ⟨hw, -, -, -, -, hcommit, -, hmem, hfault⟩ := toDark_shows hu
  obtain ⟨hcommit', houtside⟩ := loadedTables_none (s := s) hw ((State.settingsSlot_congr hmem).trans hnone)
  rw [afterSettings_run]
  refine ⟨((s.loadedTables_writes.frame hw).2 _ (by decide)).trans (hfault hmode), hcommit'.trans hcommit, fun a ha => ?_⟩
  exact (houtside a ha).trans (by rw [State.byte, State.byte, hmem])

theorem readSettings_run_some {s : State} {slot : Nat} (h : s.settingsSlot = some slot) :
    readSettings.run s = (Effect.each loadRecord (s.settingsIn slot)).run s := by rw [readSettings, Effect.run_look, h]

theorem readSettings_run_none {s : State} (h : s.settingsSlot = none) :
    readSettings.run s = (Effect.when (!s.settingsErased) (set 0x1001 4 FaultCode.settings)).run s := by
  rw [readSettings, Effect.run_look, h]

theorem Reading.readSettings {s : State} (hs : s.sound = true) : Reading s (readSettings.run s) := by
  cases hslot : s.settingsSlot with
  | none =>
    rw [readSettings_run_none hslot]
    exact ⟨Effect.run_sound _ hs, Effect.Writes.pers (K := fun _ => True) (by simp)⟩
  | some slot =>
    rw [readSettings_run_some hslot]
    exact Effect.run_each_keeps (P := Reading s) (fun q _ t ht => ht.loadRecord q) ⟨hs, rfl⟩

/-- With no slot readable only the fault code may change. -/
theorem readSettings_none {s : State} (hs : s.sound = true) (hnone : s.settingsSlot = none) : let u := readSettings.run s
    u.entry (keyOf 0x1001 4) = (if s.settingsErased then s.entry (keyOf 0x1001 4) else 0x0150) ∧ u.hid = s.hid ∧
      u.mem = s.mem ∧ SameEntriesBut [keyOf 0x1001 4] s u := by
  rw [readSettings_run_none hnone]
  refine ⟨?_, Effect.Beside.eq (by simp), Effect.NoStore.mem (by simp), Effect.Writes.frame (by simp) hs⟩
  cases s.settingsErased
  · exact State.entry_set_of_settable hs (fault_settable _) (by decide)
  · rfl

section
variable {s : State} {slot : Nat} {k : Key} {r : SettingsRecord} {row : Row} (hs : s.sound = true)
  (hslot : s.settingsSlot = some slot) (hl : s.loads r = some row) (hty : row.ty ≠ .domain)
  (hlast : ((s.settingsIn slot).filter fun q => keyOf q.index q.sub == k && (s.loads q).isSome).getLast? = some r)
include hs hslot hl hty hlast

omit hs hslot in
/-- The last record that loads an entry is one of it, and whether a record of it loads stays as it is. -/
theorem last_loads : keyOf r.index r.sub = k ∧ ∀ t q, Reading s t → keyOf q.index q.sub = k → t.loads q = s.loads q := by
  have hr := List.mem_of_getLast? hlast
  simp only [List.mem_filter, Bool.and_eq_true, beq_iff_eq] at hr
  refine ⟨hr.2.1, fun t q ht hq => loads_congr ht.2 fun row' hrow' => ?_⟩
  have hrow := (loads_row hl).1
  rw [hq, ← hr.2.1, hrow] at hrow'
  exact Option.some.inj hrow' ▸ hty

theorem readSettings_sets (hacc : row.acc = .rw) (hk : k ≠ keyOf 0x1500 0x13) :
    (readSettings.run s).entry k = natLE r.value := by
  obtain ⟨rfl, hsame⟩ := last_loads hl hty hlast
  rw [readSettings_run_some hslot]
  refine Effect.run_each_last (P := Reading s) (·.entry (keyOf r.index r.sub)) _ (fun q t ht => ht.loadRecord q)
    (fun q t ht hq => loadRecord_entry_of_ne ht hk fun row' hrow' _ heq => ?_)
    (fun t ht => loadRecord_sets ht ((hsame t r ht rfl).trans hl) hty hacc) ⟨hs, rfl⟩ hlast
  simp [heq, ← hsame t q ht heq, hrow'] at hq

theorem readSettings_stages (hacc : row.acc = .rws) :
    lookupKey (readSettings.run s).hid.commit.staged k = some (natLE r.value) := by
  obtain ⟨rfl, hsame⟩ := last_loads hl hty hlast
  rw [readSettings_run_some hslot]
  refine Effect.run_each_last (P := Reading s) (lookupKey ·.hid.commit.staged (keyOf r.index r.sub)) _
    (fun q t ht => ht.loadRecord q) (fun q t ht hq => loadRecord_staged_of_ne fun hsome heq => ?_)
    (fun t ht => loadRecord_stages ((hsame t r ht rfl).trans hl) hty hacc) ⟨hs, rfl⟩ hlast
  simp [heq, ← hsame t q ht heq, hsome] at hq

end

/-- An entry that is no RW entry of the settings stays as it is. -/
theorem readSettings_entry {s : State} {k : Key} (hs : s.sound = true)
    (hk : ∀ row, rowAt s.pers k = some row → savedRow k row = true → row.acc ≠ .rw)
    (hmarks : k ≠ keyOf 0x1500 0x13 ∧ k ≠ keyOf 0x1001 4) : (readSettings.run s).entry k = s.entry k := by
  cases hslot : s.settingsSlot with
  | none => exact (readSettings_none hs hslot).2.2.2.2 k (by simpa using hmarks.2)
  | some slot =>
    rw [readSettings_run_some hslot]
    refine (Effect.run_each_keeps (P := fun t => Reading s t ∧ t.entry k = s.entry k) (fun q _ t ht => ?_) ⟨⟨hs, rfl⟩, rfl⟩).2
    refine ⟨ht.1.loadRecord q, (loadRecord_entry_of_ne ht.1 hmarks.1 fun row hl hacc heq => ?_).trans ht.2⟩
    obtain ⟨hrow, hsaved, -⟩ := loads_row hl
    rw [heq, State.row, ht.1.2] at hrow
    exact hk row hrow (heq ▸ hsaved) hacc

/-- Settles O25: of the records the last one that loads an entry decides, and nothing that follows the settings touches what they
set or stage. -/
theorem startReadsTheSettings : Obligations.StartReadsTheSettings := by
  intro s hs hmode hpipe hcold hread hready marks
  have hafter : Reading s (readSettings.run s) := Reading.readSettings hs
  obtain ⟨htmode, htcause, htread, htrate, hframe, hstaged⟩ := afterSettings_shows hafter
  have hfault : keyOf 0x1001 4 ∈ marks := List.mem_append_right _ (by simp [State.modeEntries])
  have hsub : tableMarks ++ s.modeEntries ⊆ marks := List.subset_cons_self _ _
  refine ⟨_, exec_memReady hmode hpipe hcold hread hready, htmode, htcause, htread, htrate, fun hnone => ?_,
    fun slot k r row hslot hlast hl hty => ⟨fun hacc hk => ?_, fun hacc hk => ?_⟩, fun k hk hmarks => ?_⟩
  · obtain ⟨hcode, hhid, hmem, hread⟩ := readSettings_none hs hnone
    have hboot : (readSettings.run s).mode = Mode.boot := (hread.2 _ (by decide)).trans hmode
    obtain ⟨hcode', hcommit, houtside⟩ :=
      afterSettings_none (s := s) hafter.1 hboot ((State.settingsSlot_congr hmem).trans hnone)
    refine ⟨hcode'.trans hcode, hcommit.trans (by rw [hhid]), (hread.mono (by simpa using hfault)).trans (hframe.mono hsub),
      fun a ha => (houtside a ha).trans (by rw [State.byte, State.byte, hmem])⟩
  · exact (hframe.2 k fun h => hk (hsub h)).trans
      (readSettings_sets hs hslot hl hty hlast hacc fun h => hk (h ▸ List.mem_cons_self))
  · refine (hstaged k (hk.imp (fun hsender => ?_) id)).trans (readSettings_stages hs hslot hl hty hlast hacc)
    rw [State.isSender, beq_iff_eq] at hsender
    rw [State.isTile, hsender]
    rfl
  · exact (hframe.2 k fun h => hmarks (hsub h)).trans
      (readSettings_entry hs hk ⟨fun h => hmarks (h ▸ List.mem_cons_self), fun h => hmarks (h ▸ hfault)⟩)

end Sys2Proof.Machine
end

section
namespace Sys2Proof.Machine

/-! ### Gateway requests and deferred entries (O34) -/

/-! #### What waits at each port -/

/-- A port with more waiting for its slots. -/
abbrev PortState.join (q : PortState) (ws : List Waiting) : PortState := { q with egress := q.egress ++ ws }

theorem PortState.join_nil (q : PortState) : q.join [] = q := by simp [PortState.join]

/-- What joins the ports stands behind what waited at its own, and at no other. -/
theorem port_foldl_joinPort {p : Nat} : ∀ (ws : List (Nat × Waiting)) (ps : List PortState),
    (ws.foldl joinPort ps).getD p PortState.initial = if p < ps.length then
      (ps.getD p PortState.initial).join ((ws.filter fun q => q.1 == p).map (·.2)) else PortState.initial
  | [], ps => by
    by_cases hp : p < ps.length
    · rw [if_pos hp]
      exact (PortState.join_nil _).symm
    · simp [hp]
  | w :: ws, ps => by
    have hlen : (joinPort ps w).length = ps.length := length_foldl_joinPort [w] ps
    rw [List.foldl_cons, port_foldl_joinPort ws, hlen, joinPort, getD_updateAt]
    by_cases hp : p < ps.length
    · by_cases hw : w.1 = p <;> simp [hw, hp]
    · rw [if_neg hp, if_neg hp]

/-- The ports of a state whose ports have been joined. -/
theorem State.port_joined {s t : State} {ws : List (Nat × Waiting)} (hshape : s.shaped = true)
    (ht : t.hid.ports = ws.foldl joinPort s.hid.ports) (p : Nat) :
    t.port p = if p < 16 then (s.port p).join ((ws.filter fun q => q.1 == p).map (·.2)) else s.port p := by
  have hlen : s.hid.ports.length = 16 := ((State.shaped_iff s).mp hshape).ports
  rw [State.port, ht, port_foldl_joinPort, hlen]
  split_ifs with hp
  · rfl
  · rw [State.port]
    simp [show s.hid.ports.length ≤ p by omega]

/-- A port that nothing joins is as it was. -/
theorem State.port_joined_of_not_mem {s t : State} {ws : List (Nat × Waiting)} (hshape : s.shaped = true)
    (ht : t.hid.ports = ws.foldl joinPort s.hid.ports) {p : Nat} (hp : ∀ w ∈ ws, w.1 ≠ p) : t.port p = s.port p := by
  have hnone : (ws.filter fun q => q.1 == p) = [] := List.filter_eq_nil_iff.mpr fun w hw => by simpa using hp w hw
  rw [State.port_joined hshape ht, hnone, List.map_nil, PortState.join_nil, ite_self]

theorem Effect.run_each_map {α β : Type} (f : β → Effect) (g : α → β) : ∀ (l : List α) (s : State),
    (Effect.each (fun x => f (g x)) l).run s = (Effect.each f (l.map g)).run s
  | [], _ => rfl
  | x :: l, s => by rw [List.map_cons, Effect.run_each_cons, Effect.run_each_cons, Effect.run_each_map f g l]

/-! #### The answers of a sweep (R129) -/

theorem answerCell_fields (a : SweepAnswer) (mine : Nat) (b : List Byte) : let c := answerCell a mine b
    c.kind = 3 ∧ c.queue = a.src * 512 + a.tag ∧ c.src = mine ∧ c.fromEnd = a.fromEnd ∧ c.len = b.length ∧ c.seq = a.seq ∧
      c.body.take b.length = b :=
  ⟨rfl, rfl, rfl, rfl, rfl, rfl, List.take_left⟩

/-- The port on which the answers of a sweep leave: that of the sweep, or the other one. -/
theorem find_answerPort (s : State) (p : Nat) : let q := if s.portUp p then p else 1 - p
    [p, opposite p].find? s.portUp = if s.portUp q then some q else none := by
  cases hp : s.portUp p with
  | true => simp [hp]
  | false => cases ho : s.portUp (1 - p) <;> simp [hp, ho, opposite]

/-- The answers of a sweep of which none waits join what waits at one port. -/
theorem serviceAnsSend_run {s : State} {a : SweepAnswer} {rest : List SweepAnswer}
    (htake : takeFirst (fun x => x.left == 0) s.hid.link.owed = some (a, rest)) :
    let p := if s.portUp a.port then a.port else 1 - a.port
    let ws := if s.portUp p then (packAnswers a.done).map fun b => (p, s.waiting (answerCell a s.address b)) else []
    exec .serviceAnsSend s = .next { s with hid := { s.hid with
      ports := ws.foldl joinPort s.hid.ports, link := { s.hid.link with owed := rest } } } := by
  intro p ws
  let u : State := { s with hid := { s.hid with link := { s.hid.link with owed := rest } } }
  have hexec : exec .serviceAnsSend s = .next ((Effect.ofOption ([a.port, opposite a.port].find? s.portUp) fun p =>
      Effect.each (fun b => postCell p (answerCell a s.address b)) (packAnswers a.done)).run u) := by
    show perform (Effect.ofOption (takeFirst _ _) _) s = _
    rw [htake]
    rfl
  rw [hexec, find_answerPort]
  by_cases hp : s.portUp p = true
  · have hposts := Effect.run_each_map (fun q => postCell q.1 q.2) (fun b => (p, answerCell a s.address b)) (packAnswers a.done) u
    rw [if_pos hp, Effect.run_ofOption_some, hposts, run_posts, List.map_map]
    simp only [ws, if_pos hp]
    rfl
  · rw [if_neg hp]
    simp only [ws, if_neg hp]
    rfl

theorem serviceAnsSend_completes {s : State} {a : SweepAnswer} {rest : List SweepAnswer} (hshape : s.shaped = true)
    (htake : takeFirst (fun x => x.left == 0) s.hid.link.owed = some (a, rest)) (ha : a.port < 2) :
    let cells := (packAnswers a.done).map fun b => s.waiting (answerCell a s.address b)
    let p := if s.portUp a.port then a.port else 1 - a.port
    Completes .serviceAnsSend s fun t => t.outputs = s.outputs ∧ Only [] s t ∧
      t.hid = { s.hid with ports := t.hid.ports, link := { s.hid.link with owed := rest } } ∧
      (s.portUp p = true → t.port p = { s.port p with egress := (s.port p).egress ++ cells }) ∧
      ∀ q, q ≠ p ∨ s.portUp p = false → t.port q = s.port q := by
  intro cells p
  have hp : p < 16 := by
    simp only [p]
    split_ifs <;> omega
  refine ⟨_, serviceAnsSend_run htake, rfl, ⟨⟨rfl, fun _ _ => rfl⟩, fun _ => rfl⟩, rfl, fun hup => ?_, fun q hq => ?_⟩
  · have hcells : ((((packAnswers a.done).map fun b => (p, s.waiting (answerCell a s.address b))).filter fun q => q.1 == p).map
        (·.2)) = cells := by
      simp [cells, List.filter_map, Function.comp_def]
    refine (State.port_joined hshape rfl p).trans ?_
    rw [if_pos hp, if_pos hup, hcells]
  · refine State.port_joined_of_not_mem hshape rfl fun w hw => ?_
    change w ∈ if s.portUp p = true then (packAnswers a.done).map fun b => (p, s.waiting (answerCell a s.address b)) else [] at hw
    by_cases hup : s.portUp p = true
    · rw [if_pos hup] at hw
      obtain ⟨b, -, rfl⟩ := List.mem_map.mp hw
      exact (hq.resolve_right (by simp [hup])).symm
    · rw [if_neg hup] at hw
      cases hw

/-! #### Deferred entries that end without being performed (R56, R130) -/

/-- The state with other answers owed. -/
abbrev State.withOwed (s : State) (l : List SweepAnswer) : State :=
  { s with hid := { s.hid with link := { s.hid.link with owed := l } } }

/-- An answer to a deferred entry is noted with the sweep that owes it; nothing else changes. -/
theorem answerDeferred_run (d : Deferred) (st : Nat) (v : List Byte) (s : State) :
    ∃ l, (answerDeferred d st v).run s = s.withOwed l := by
  cases h : d.silent with
  | true => exact ⟨s.hid.link.owed, by simp [answerDeferred, h]⟩
  | false => exact ⟨_, by simp only [answerDeferred, Effect.run_look, h, Bool.not_false, Effect.run_when_true, onLink_run]; rfl⟩

theorem answersDeferred_run (st : Nat) (l : List Deferred) (s : State) :
    ∃ o, (Effect.each (fun d => answerDeferred d st d.value) l).run s = s.withOwed o :=
  Effect.run_each_keeps (P := fun t => ∃ o, t = s.withOwed o)
    (fun d _ t ⟨o, ht⟩ => by
      obtain ⟨o', h⟩ := answerDeferred_run d st d.value t
      exact ⟨o', by rw [h, ht]⟩) ⟨_, rfl⟩

/-- The state with other deferred entries and other answers owed. -/
abbrev State.withDeferred (s : State) (l : List Deferred) (o : List SweepAnswer) : State :=
  { s with hid := { s.hid with link := { s.hid.link with deferred := l, owed := o } } }

/-- Some of the deferred entries are not performed but answered. -/
def dropDeferred (waits : Deferred → Bool) (l : List Deferred) : Effect := .all [
  Effect.each (fun d => answerDeferred d Status.aborted d.value) (l.filter waits),
  onLink fun x => { x with deferred := x.deferred.filter fun d => !waits d }]

theorem dropDeferred_run (waits : Deferred → Bool) (s : State) : ∃ o,
    (dropDeferred waits s.hid.link.deferred).run s = s.withDeferred (s.hid.link.deferred.filter fun d => !waits d) o ∧
    (s.hid.link.deferred.all (fun d => !waits d) = true →
      (s.withDeferred (s.hid.link.deferred.filter fun d => !waits d) o).hid.link = s.hid.link) := by
  by_cases hall : s.hid.link.deferred.all (fun d => !waits d) = true
  · have hnone : s.hid.link.deferred.filter waits = [] :=
      List.filter_eq_nil_iff.mpr fun d hd => by simpa using List.all_eq_true.mp hall d hd
    have hkeep : (s.hid.link.deferred.filter fun d => !waits d) = s.hid.link.deferred :=
      List.filter_eq_self.mpr fun d hd => List.all_eq_true.mp hall d hd
    refine ⟨s.hid.link.owed, ?_, fun _ => by rw [hkeep]⟩
    rw [dropDeferred, hnone]
    rfl
  · obtain ⟨o, ho⟩ := answersDeferred_run Status.aborted (s.hid.link.deferred.filter waits) s
    refine ⟨o, ?_, fun h => absurd h hall⟩
    rw [dropDeferred, Effect.run_all_cons, ho]
    rfl

/-- The state at another time. -/
abbrev State.atTime (s : State) (now cycles : Nat) (trim : Int) : State :=
  { s with hid := { s.hid with time := { s.hid.time with now := now, cycles := cycles, trimDone := trim } } }

/-- The part runs on until an instant in ns, if it still lies ahead (log 4). -/
theorem waitUntil_run (t : Nat) (s : State) :
    ∃ now trim, (waitUntil t).run s = s.atTime now (max s.hid.time.cycles ((5 * t + 3) / 4)) trim := by
  rw [show max s.hid.time.cycles ((5 * t + 3) / 4) = s.hid.time.cycles + ((5 * t + 3) / 4 - s.hid.time.cycles) by omega]
  exact ⟨_, _, rfl⟩

theorem captureSlot_settable : settable .tile (keyOf 0x4180 0x0B) 8 = true := by decide +kernel

/-- The end of a transfer that has been idle (R56, R265). -/
def endTransfer (s : State) (q : Nat) (f : Transfer) : Effect := .all [
  waitUntil (f.touched + 30 * 10 ^ 9),
  onDoors fun d => { d with transfers := d.transfers.filter fun x => x.stream != q },
  Effect.when (s.isTile && f.key == keyOf 0x4180 6) releaseSlot]

theorem endTransfer_shows {s : State} (hs : s.sound = true) (q : Nat) (f : Transfer) : let u := (endTransfer s q f).run s
    u.hid.doors = { s.hid.doors with transfers := s.hid.doors.transfers.filter fun x => x.stream != q } ∧
    u.hid.link = s.hid.link ∧ u.outputs = s.outputs ∧
    u.hid.time.cycles = max s.hid.time.cycles ((5 * (f.touched + 30 * 10 ^ 9) + 3) / 4) ∧
    (s.isTile = true → f.key = keyOf 0x4180 6 → u.entry (keyOf 0x4180 0x0B) = 0xFF) ∧
    Only (if s.isTile ∧ f.key = keyOf 0x4180 6 then [keyOf 0x4180 0x0B] else []) s u := by
  obtain ⟨now, trim, hwait⟩ := waitUntil_run (f.touched + 30 * 10 ^ 9) s
  rw [endTransfer, Effect.run_all_cons, hwait, Effect.run_all_cons, onDoors_run, Effect.run_all_cons, Effect.run_all_nil]
  by_cases hslot : s.isTile = true ∧ f.key = keyOf 0x4180 6
  · have hset : settable s.pers (keyOf 0x4180 0x0B) 8 = true := by
      have hpers : s.pers = .tile := by simpa [State.isTile] using hslot.1
      exact hpers ▸ captureSlot_settable
    have hb : (s.isTile && f.key == keyOf 0x4180 6) = true := by simpa using hslot
    rw [hb, Effect.run_when_true, releaseSlot, set_run, if_pos hslot]
    exact ⟨rfl, rfl, rfl, rfl, fun _ _ => State.entry_set_of_settable hs hset (by decide),
      ⟨rfl, fun k hk => State.entry_set_of_ne hs (by simpa using hk)⟩, fun _ => rfl⟩
  · have hb : (s.isTile && f.key == keyOf 0x4180 6) = false := by simpa using hslot
    rw [hb, Effect.run_when_false, if_neg hslot]
    exact ⟨rfl, rfl, rfl, rfl, fun ht hk => absurd ⟨ht, hk⟩ hslot, ⟨rfl, fun _ _ => rfl⟩, fun _ => rfl⟩

theorem domainTransferIdle_completes {s : State} {q : Nat} (hs : s.sound = true) :
    let waits (d : Deferred) : Bool := d.op == 5 && natLE (slice d.value 6 2) == q
    let found := s.hid.doors.transfers.find? fun x => x.stream == q
    Completes (.domainTransferIdle q) s fun t =>
      t.hid.doors = { s.hid.doors with transfers := s.hid.doors.transfers.filter fun x => x.stream != q } ∧
      t.hid.link.deferred = (s.hid.link.deferred.filter fun d => !waits d) ∧ t.outputs = s.outputs ∧
      (s.hid.link.deferred.all (fun d => !waits d) = true → t.hid.link = s.hid.link) ∧
      (found = none → t.hid.time = s.hid.time ∧ Only [] s t) ∧
      ∀ f, found = some f → t.hid.time.cycles = max s.hid.time.cycles ((5 * (f.touched + 30 * 10 ^ 9) + 3) / 4) ∧
        (s.isTile = true → f.key = keyOf 0x4180 6 → t.entry (keyOf 0x4180 0x0B) = 0xFF) ∧
        Only (if s.isTile ∧ f.key = keyOf 0x4180 6 then [keyOf 0x4180 0x0B] else []) s t := by
  intro waits found
  have hexec : exec (.domainTransferIdle q) s = .next ((dropDeferred waits s.hid.link.deferred).run
      ((Effect.ofOption found (endTransfer s q)).run s)) := rfl
  rw [Completes, hexec]
  cases hfound : found with
  | none =>
    obtain ⟨o, ho, hsame⟩ := dropDeferred_run waits s
    have hkeep : (s.hid.doors.transfers.filter fun x => x.stream != q) = s.hid.doors.transfers :=
      List.filter_eq_self.mpr fun x hx => by simpa using List.find?_eq_none.mp hfound x hx
    exact ⟨_, congrArg Host.Outcome.next ho, by rw [hkeep], rfl, rfl, hsame, fun _ => ⟨rfl, ⟨rfl, fun _ _ => rfl⟩, fun _ => rfl⟩,
      fun f hf => nomatch hf⟩
  | some f =>
    obtain ⟨hdoors, hlink, hout, hcycles, hslot, honly⟩ := endTransfer_shows hs q f
    rw [Effect.run_ofOption_some]
    obtain ⟨o, ho, hsame⟩ := dropDeferred_run waits ((endTransfer s q f).run s)
    rw [hlink] at ho hsame
    refine ⟨_, congrArg Host.Outcome.next ho, hdoors, rfl, hout, hsame, (nomatch ·), fun f' hf => ?_⟩
    obtain rfl : f = f' := Option.some.inj hf
    exact ⟨hcycles, hslot, honly⟩

end Sys2Proof.Machine
end

section
namespace Sys2Proof.Machine

/-! #### The end of a request (R55, R129) -/

/-- The value that a request's asker takes. -/
abbrev Request.taken (r : Request) (st : Nat) (value : List Byte) : List Byte :=
  if st = Status.ok ∨ st = Status.notStaged then remoteValue r.op r.key value else []

/-- The state in which a request is no longer outstanding. -/
abbrev State.withoutRequest (s : State) (r : Request) : State :=
  { s with hid := { s.hid with doors := { s.hid.doors with requests := s.hid.doors.requests.filter (· != r) } } }

/-- A value in the eight words of a mailbox. -/
def mailboxWords (n : Nat) (v : List Byte) : Effect :=
  Effect.each (fun j => set (0x1020 + n) (6 + j) (natLE (slice v (8 * j) 8))) (List.range 8)

theorem mailboxWords_keeps (n : Nat) (v : List Byte) (s : State) : let u := (mailboxWords n v).run s
    u.hid = s.hid ∧ u.outputs = s.outputs ∧ u.mem = s.mem ∧ u.pers = s.pers :=
  Effect.run_each_keeps (P := fun u => u.hid = s.hid ∧ u.outputs = s.outputs ∧ u.mem = s.mem ∧ u.pers = s.pers)
    (fun _ _ _ h => h) ⟨rfl, rfl, rfl, rfl⟩

/-- A mailbox shows a status, and a value that is not empty. -/
def showMailbox (n st : Nat) (v : List Byte) : Effect := .seq
  (Effect.when (!v.isEmpty) (mailboxWords n v))
  (set (0x1020 + n) 0x0F st)

theorem finishRequest_mailbox {s : State} {r : Request} {n st : Nat} {value : List Byte} (hr : r.asker = .mailbox n) :
    (finishRequest r st value).run s = (showMailbox n st (r.taken st value)).run (s.withoutRequest r) := by
  simp only [finishRequest, hr, Request.taken, Bool.or_eq_true, decide_eq_true_eq]
  rfl

/-- A record takes a status and a value. -/
abbrev answerIn (i st : Nat) (v : List Byte) (q : Datagram) : Datagram :=
  { q with records := updateAt q.records i fun c => { c with status := some st, value := v } }

theorem finishRequest_record {s : State} {r : Request} {d i st : Nat} {value : List Byte} (hr : r.asker = .record d i) :
    (finishRequest r st value).run s = { s with hid := { s.hid with doors := { s.hid.doors with
      requests := s.hid.doors.requests.filter (· != r)
      datagrams := s.hid.doors.datagrams.map fun q =>
        if q.number = d then answerIn i st (r.taken st value) q else q } } } := by
  simp only [finishRequest, hr, Request.taken, Bool.or_eq_true, decide_eq_true_eq]
  rfl

theorem mailbox_settable : ∀ n < 8, settable .sender (keyOf (0x1020 + n) 0x0F) 8 = true ∧
    ∀ j < 8, settable .sender (keyOf (0x1020 + n) (6 + j)) 64 = true := by decide +kernel

/-- The entries of a mailbox's value. -/
abbrev mailboxValue (n : Nat) : List Key := (List.range' 6 8).map (keyOf (0x1020 + n))

theorem mem_mailboxValue {n j : Nat} (hj : j < 8) : keyOf (0x1020 + n) (6 + j) ∈ mailboxValue n :=
  List.mem_map_of_mem (List.mem_range'_1.mpr (by omega))

theorem showMailbox_shows {s : State} {n st : Nat} {v : List Byte} (hs : s.sound = true) (hsender : s.isSender = true) (hn : n < 8)
    (hst : st < 256) : let t := (showMailbox n st v).run s
    t.hid = s.hid ∧ t.outputs = s.outputs ∧ t.entry (keyOf (0x1020 + n) 0x0F) = st ∧
      (v ≠ [] → ∀ j < 8, t.entry (keyOf (0x1020 + n) (6 + j)) = natLE (slice v (8 * j) 8)) ∧
      Only (keyOf (0x1020 + n) 0x0F :: if v = [] then [] else mailboxValue n) s t := by
  have hpers : s.pers = .sender := by simpa [State.isSender] using hsender
  obtain ⟨hstatus, hvalue⟩ := mailbox_settable n hn
  have hkeys : (showMailbox n st v).Writes (· ∈ keyOf (0x1020 + n) 0x0F :: if v = [] then [] else mailboxValue n) := by
    by_cases hv : v = []
    · simp [showMailbox, hv]
    · rw [if_neg hv]
      simp only [showMailbox, mailboxWords, Effect.writes_seq, Effect.writes_when, Effect.writes_each, set_writes, List.mem_range]
      exact ⟨fun _ j hj => List.mem_cons_of_mem _ (mem_mailboxValue hj), List.mem_cons_self⟩
  have hwords : ∀ j < 8, ((mailboxWords n v).run s).entry (keyOf (0x1020 + n) (6 + j)) = natLE (slice v (8 * j) 8) := by
    intro j hj
    have hlast : ((List.range 8).filter (· == j)).getLast? = some j := by revert j; decide
    have hlt : natLE (slice v (8 * j) 8) < 2 ^ 64 :=
      (natLE_lt _).trans_le (Nat.pow_le_pow_right (by decide) (List.length_take_le ..))
    refine Effect.run_each_last (P := fun t => t.sound = true ∧ t.pers = .sender) (m := (· == j))
      (f := fun i => set (0x1020 + n) (6 + i) (natLE (slice v (8 * i) 8))) (·.entry (keyOf (0x1020 + n) (6 + j))) _
      (fun i t ht => ⟨Effect.run_sound _ ht.1, ht.2⟩) (fun i t ht hi => State.entry_set_of_ne ht.1 ?_)
      (fun t ht => State.entry_set_of_settable ht.1 (ht.2 ▸ hvalue j hj) hlt) ⟨hs, hpers⟩ hlast
    intro heq
    exact ne_of_beq_false hi (by simpa [keyOf] using heq.symm)
  cases v with
  | nil => exact ⟨rfl, rfl, State.entry_set_of_settable hs (hpers ▸ hstatus) hst, fun h => absurd rfl h, hkeys.frame hs, fun _ => rfl⟩
  | cons b bs =>
    have hu : ((mailboxWords n (b :: bs)).run s).sound = true := Effect.run_sound _ hs
    have hrun : (showMailbox n st (b :: bs)).run s =
        (Act.reg (keyOf (0x1020 + n) 0x0F) st).apply ((mailboxWords n (b :: bs)).run s) := rfl
    obtain ⟨hhid, hout, hmem, hupers⟩ := mailboxWords_keeps n (b :: bs) s
    have hframe := hkeys.frame hs
    rw [hrun] at hframe ⊢
    generalize (mailboxWords n (b :: bs)).run s = u at *
    exact ⟨hhid, hout, State.entry_set_of_settable hu (by rw [hupers, hpers]; exact hstatus) hst,
      fun _ j hj => (State.entry_set_of_ne hu (by simp only [keyOf]; omega)).trans (hwords j hj), hframe,
      fun a => congrArg (memGet · a) hmem⟩

/-! #### SERVICE_ANS_RECEIVE and GATEWAY_TIMEOUT (R55, R129) -/

theorem updateOn_run_idle {s : State} (h : s.hid.update.stage = 0) : updateOn.run s = s := by
  show (Effect.when (s.isSender && s.hid.update.stage != 0 && s.mode != Mode.freeze) _).run s = s
  rw [h, show (s.isSender && (0 : Nat) != 0 && s.mode != Mode.freeze) = false by simp]
  rfl

/-- What a DOMAIN_READ announced has been taken. -/
def dropContent (r : Request) : Effect := Effect.when (r.op == 4) (onCompose fun x => { x with
  messages := x.messages.filter fun m => !(some m.stream == r.stream && m.src == r.target) })

/-- The state with other messages gathered. -/
abbrev State.withMessages (s : State) (l : List Message) : State :=
  { s with hid := { s.hid with compose := { s.hid.compose with messages := l } } }

theorem dropContent_run (r : Request) (s : State) : ∃ l, (dropContent r).run s = s.withMessages l ∧
    (r.op ≠ 4 → l = s.hid.compose.messages) ∧
    (r.op = 4 → l = s.hid.compose.messages.filter fun m => !(some m.stream == r.stream && m.src == r.target)) := by
  by_cases h : r.op = 4
  · exact ⟨_, by rw [dropContent, h]; rfl, fun h' => absurd h h', fun _ => rfl⟩
  · exact ⟨s.hid.compose.messages, by rw [dropContent, beq_false_of_ne h]; rfl, fun _ => rfl, fun h' => absurd h' h⟩

/-- What the asker of a request is given of an answer: content, or the entry's value. -/
abbrev State.answerValue (s : State) (r : Request) (e : ServiceEntry) : List Byte :=
  r.taken e.status (if r.op = 4 then (s.contentOf r e).getD [] else e.value)

/-- A request has ended: it is no longer outstanding, and its content is taken. -/
def RequestEnds (s : State) (rest : List (Nat × Cell)) (r : Request) (t : State) : Prop :=
  t.outputs = s.outputs ∧ t.hid = { s.hid with
    link := { s.hid.link with rx := rest }
    doors := { s.hid.doors with
      requests := s.hid.doors.requests.filter (· != r)
      datagrams := t.hid.doors.datagrams }
    compose := { s.hid.compose with messages := t.hid.compose.messages } } ∧
  (r.op ≠ 4 → t.hid.compose = s.hid.compose) ∧
  (r.op = 4 → t.hid.compose.messages =
    s.hid.compose.messages.filter fun m => !(some m.stream == r.stream && m.src == r.target))

section
variable {s : State} {p : Nat} {c : Cell} {rest : List (Nat × Cell)} (hsender : s.isSender = true) (hcore : s.up .core = true)
  (hidle : s.hid.update.stage = 0) (htake : s.takeCell s.answerReady = some ((p, c), rest))
include hsender hcore hidle htake

/-- The cell is taken and handled; the distribution of updates stands still. -/
theorem exec_serviceAnsReceive {t : State} (ht : (takeAnswer p c).run (s.withRx rest) = t) (hstage : t.hid.update = s.hid.update) :
    exec .serviceAnsReceive s = .next t := by
  have hexec : exec .serviceAnsReceive s = .next (updateOn.run ((takeAnswer p c).run (s.withRx rest))) := by
    show perform (Effect.when (s.isSender && s.up .core) (.seq (withCellOf s.answerReady takeAnswer) updateOn)) s = _
    rw [hsender, hcore, perform_eq, Bool.and_self, Effect.run_when_true, Effect.run_seq, withCellOf, Effect.run_look, htake,
      Effect.run_ofOption_some, Effect.run_seq, onLink_run]
    rfl
  rw [hexec, ht, updateOn_run_idle (hstage ▸ hidle)]

omit hsender hcore hidle htake in
theorem answerCount_settable : settable .sender (keyOf 0x1030 8) 32 = true := by decide +kernel

/-- An answer to no request, and an answer cell without an entry, counts. -/
theorem serviceAnsReceive_uncounted (hs : s.sound = true) (hnone : Cell.entry c = none ∨ s.requestOf (p, c) = none)
    (hkind : c.kind = 3) : Completes .serviceAnsReceive s fun t =>
      t.entry (keyOf 0x1030 8) = satAdd 32 (s.entry (keyOf 0x1030 8)) 1 ∧
      t.hid = { s.hid with link := { s.hid.link with rx := rest } } ∧ Only [keyOf 0x1030 8] s t := by
  have hrun : (takeAnswer p c).run (s.withRx rest) = (count 32 0x1030 8).run (s.withRx rest) := by
    rcases hnone with h | h
    · cases hr : (s.withRx rest).requestOf (p, c) <;> simp [takeAnswer, h, hkind]
    · have hr : (s.withRx rest).requestOf (p, c) = none := h
      cases he : Cell.entry c <;> simp [takeAnswer, hr, he, hkind]
  have hset : settable s.pers (keyOf 0x1030 8) 32 = true := by
    have hpers : s.pers = .sender := by simpa [State.isSender] using hsender
    exact hpers ▸ answerCount_settable
  refine ⟨_, exec_serviceAnsReceive hsender hcore hidle htake hrun rfl, State.entry_set_of_settable (s := s) hs hset ?_, rfl,
    ⟨rfl, fun k hk => State.entry_set_of_ne (s := s) hs (by simpa using hk)⟩, fun _ => rfl⟩
  exact lt_of_le_of_lt (Nat.min_le_left _ _) (by decide)

section
variable {r : Request} {e : ServiceEntry} (hrequest : s.requestOf (p, c) = some r) (hentry : Cell.entry c = some e)
include hrequest hentry

/-- An answer that is not final ends nothing. -/
theorem serviceAnsReceive_deferred (hfinal : e.final = false) : Completes .serviceAnsReceive s fun t =>
    t.hid = { s.hid with link := { s.hid.link with rx := rest } } ∧ t.outputs = s.outputs ∧ Only [] s t := by
  have hrequest' : (s.withRx rest).requestOf (p, c) = some r := hrequest
  have hrun : (takeAnswer p c).run (s.withRx rest) = s.withRx rest := by
    rw [takeAnswer, Effect.run_look, hrequest', hentry]
    show (Effect.when e.final _).run _ = _
    rw [hfinal]
    rfl
  exact ⟨_, exec_serviceAnsReceive hsender hcore hidle htake hrun rfl, rfl, rfl, ⟨rfl, fun _ _ => rfl⟩, fun _ => rfl⟩

omit hsender hcore hidle htake in
theorem takeAnswer_run (hfinal : e.final = true) : (takeAnswer p c).run (s.withRx rest) = (dropContent r).run
    ((finishRequest r e.status (if r.op = 4 then (s.contentOf r e).getD [] else e.value)).run (s.withRx rest)) := by
  have hrequest' : (s.withRx rest).requestOf (p, c) = some r := hrequest
  rw [takeAnswer, Effect.run_look, hrequest', hentry]
  show (Effect.when e.final _).run _ = _
  rw [hfinal]
  rfl

/-- A final answer to the request of a mailbox. -/
theorem serviceAnsReceive_mailbox (hs : s.sound = true) (hfinal : e.final = true) (hst : e.status < 256) {n : Nat}
    (hasker : r.asker = .mailbox n) (hn : n < 8) : let v := s.answerValue r e
    Completes .serviceAnsReceive s fun t => RequestEnds s rest r t ∧
      t.entry (keyOf (0x1020 + n) 0x0F) = e.status ∧ t.hid.doors.datagrams = s.hid.doors.datagrams ∧
      (v ≠ [] → ∀ j < 8, t.entry (keyOf (0x1020 + n) (6 + j)) = natLE (slice v (8 * j) 8)) ∧
      Only (keyOf (0x1020 + n) 0x0F :: if v = [] then [] else mailboxValue n) s t := by
  intro v
  have hs' : ((s.withRx rest).withoutRequest r).sound = true := hs
  have hshown := showMailbox_shows (v := v) hs' hsender hn hst
  have hrun := takeAnswer_run (rest := rest) hrequest hentry hfinal
  rw [finishRequest_mailbox hasker] at hrun
  change _ = (dropContent r).run ((showMailbox n e.status v).run _) at hrun
  generalize (showMailbox n e.status v).run ((s.withRx rest).withoutRequest r) = x at hshown hrun
  obtain ⟨hhid, hout, hstatus, hvalue, honly⟩ := hshown
  obtain ⟨l, hl, hsame, hfilter⟩ := dropContent_run r x
  have hall : (x.withMessages l).hid = (((s.withRx rest).withoutRequest r).withMessages l).hid := by
    rw [State.withMessages, hhid]
  rw [hhid] at hsame hfilter
  refine ⟨_, exec_serviceAnsReceive hsender hcore hidle htake (hrun.trans hl) (by rw [hall]),
    ⟨hout, by rw [hall], fun h => ?_, hfilter⟩, hstatus, by rw [hall], hvalue, honly⟩
  rw [hall, hsame h]

/-- A final answer to the request of a record. -/
theorem serviceAnsReceive_record (hfinal : e.final = true) {d i : Nat} (hasker : r.asker = .record d i) :
    Completes .serviceAnsReceive s fun t => RequestEnds s rest r t ∧
      (t.hid.doors.datagrams = s.hid.doors.datagrams.map fun q =>
        if q.number = d then answerIn i e.status (s.answerValue r e) q else q) ∧ Only [] s t := by
  have hrun := takeAnswer_run (rest := rest) hrequest hentry hfinal
  rw [finishRequest_record hasker] at hrun
  obtain ⟨l, hl, hsame, hfilter⟩ := dropContent_run r _
  refine ⟨_, exec_serviceAnsReceive hsender hcore hidle htake (hrun.trans hl) rfl, ⟨rfl, rfl, fun h => ?_, hfilter⟩, rfl,
    ⟨rfl, fun _ _ => rfl⟩, fun _ => rfl⟩
  rw [hsame h]

end

end

/-- The value that a READ's answer shows in a mailbox: the bytes that belong to the tile's entry. -/
theorem remoteValue_read {k : Key} {w : Row} {v : List Byte} (hw : rowAt .tile k = some w) (hty : w.ty ≠ .domain)
    (hsize : w.ty.size ≤ 8) (hv : v.length = 8) : remoteValue 1 k v = v.take w.ty.size ∧ remoteValue 1 k v ≠ [] ∧
      slice (remoteValue 1 k v) 0 8 = v.take w.ty.size := by
  have heq : remoteValue 1 k v = v.take w.ty.size := by simp [remoteValue, hw, hty]
  have hpos : 1 ≤ w.ty.size := by cases h : w.ty <;> simp_all [Ty.size]
  have hlen : (v.take w.ty.size).length = w.ty.size := by
    rw [List.length_take]
    omega
  refine ⟨heq, fun h => ?_, ?_⟩
  · rw [heq] at h
    rw [h, List.length_nil] at hlen
    omega
  · rw [heq, slice, List.drop_zero]
    exact List.take_of_length_le (by omega)

/-- A request has ended 2 ms after it was sent. -/
def RequestTimesOut (s : State) (r : Request) (t : State) : Prop :=
  t.hid.time.cycles = max s.hid.time.cycles ((5 * (r.sentAt + 2000000) + 3) / 4) ∧
  t.outputs = s.outputs ∧ t.hid = { s.hid with
    time := { s.hid.time with now := t.hid.time.now, cycles := t.hid.time.cycles, trimDone := t.hid.time.trimDone }
    doors := { s.hid.doors with
      requests := s.hid.doors.requests.filter (· != r)
      datagrams := t.hid.doors.datagrams } }

section
variable {s : State} {p tag : Nat} {r : Request} (hidle : s.hid.update.stage = 0)
  (hfind : (s.hid.doors.requests.find? fun q => q.port == p && q.tag == tag) = some r)
include hidle hfind

theorem exec_gatewayTimeout {t : State} (ht : (finishRequest r Status.timeout []).run ((waitUntil (r.sentAt + 2000000)).run s) = t)
    (hstage : t.hid.update = s.hid.update) : exec (.gatewayTimeout ⟨p, tag⟩) s = .next t := by
  have hexec : exec (.gatewayTimeout ⟨p, tag⟩) s =
      .next (updateOn.run ((finishRequest r Status.timeout []).run ((waitUntil (r.sentAt + 2000000)).run s))) := by
    show perform (Effect.ofOption (s.hid.doors.requests.find? fun q => q.port == p && q.tag == tag) _) s = _
    rw [hfind]
    rfl
  rw [hexec, ht, updateOn_run_idle (hstage ▸ hidle)]

theorem gatewayTimeout_mailbox (hs : s.sound = true) (hsender : s.isSender = true) {n : Nat} (hasker : r.asker = .mailbox n)
    (hn : n < 8) : Completes (.gatewayTimeout ⟨p, tag⟩) s fun t => RequestTimesOut s r t ∧
      t.entry (keyOf (0x1020 + n) 0x0F) = Status.timeout ∧ t.hid.doors.datagrams = s.hid.doors.datagrams ∧
      Only [keyOf (0x1020 + n) 0x0F] s t := by
  obtain ⟨now, trim, hwait⟩ := waitUntil_run (r.sentAt + 2000000) s
  have hrun := (congrArg (finishRequest r Status.timeout []).run hwait).trans (finishRequest_mailbox hasker)
  have hshown := showMailbox_shows (v := []) (st := Status.timeout)
    (s := (s.atTime now (max s.hid.time.cycles ((5 * (r.sentAt + 2000000) + 3) / 4)) trim).withoutRequest r) hs hsender hn (by decide)
  change _ = (showMailbox n Status.timeout []).run _ at hrun
  generalize (showMailbox n Status.timeout []).run _ = x at hshown hrun
  obtain ⟨hhid, hout, hstatus, -, honly⟩ := hshown
  exact ⟨_, exec_gatewayTimeout hidle hfind hrun (by rw [hhid]), ⟨by rw [hhid], hout, by rw [hhid]⟩, hstatus, by rw [hhid], honly⟩

theorem gatewayTimeout_record {d i : Nat} (hasker : r.asker = .record d i) :
    Completes (.gatewayTimeout ⟨p, tag⟩) s fun t => RequestTimesOut s r t ∧ Only [] s t ∧
      t.hid.doors.datagrams = s.hid.doors.datagrams.map fun q =>
        if q.number = d then answerIn i Status.timeout [] q else q := by
  obtain ⟨now, trim, hwait⟩ := waitUntil_run (r.sentAt + 2000000) s
  have hrun := (congrArg (finishRequest r Status.timeout []).run hwait).trans (finishRequest_record hasker)
  exact ⟨_, exec_gatewayTimeout hidle hfind hrun rfl, ⟨rfl, rfl, rfl⟩, ⟨⟨rfl, fun _ _ => rfl⟩, fun _ => rfl⟩, rfl⟩

end

end Sys2Proof.Machine
end

section
namespace Sys2Proof.Machine

/-! #### BROADCAST_WRITE (R54, R131) -/

/-- The sweep cell of a broadcast on a port, with its tag and its count. -/
def State.castCell (s : State) (k : Key) (bs : List Byte) (p tag seq : Nat) : Cell :=
  let body := (spreadEntry ⟨0xFFFF, k, 2, 0xFF, 0, bs⟩).flatten
  { plainCell 2 s.address body.length seq 0 true (s.endOf p) false body with queue := tag }

/-- No request of a port holds a tag. -/
abbrev State.tagFree (s : State) (p tag : Nat) : Bool := !(s.hid.doors.requests.any fun r => r.port == p && r.tag == tag)

theorem mem_tags {n x : Nat} : x ∈ (List.range 512).map (fun i => (n + i) % 512) ↔ x < 512 := by
  simp only [List.mem_map, List.mem_range]
  constructor
  · rintro ⟨i, -, rfl⟩
    omega
  · exact fun h => ⟨(x + 512 - n % 512) % 512, by omega, by omega⟩

theorem State.freeTag_isSome_iff (s : State) (p : Nat) : (s.freeTag p).isSome = true ↔ ∃ x < 512, s.tagFree p x = true := by
  rw [State.freeTag, List.find?_isSome]
  simp only [mem_tags]

theorem State.tagFree_of_freeTag {s : State} {p tag : Nat} (h : s.freeTag p = some tag) : s.tagFree p tag = true :=
  List.find?_some h

/-- The state while a broadcast leaves. -/
abbrev State.casting (s : State) (ps : List PortState) (n c : Nat) : State := { s with hid := { s.hid with
  ports := ps, doors := { s.hid.doors with nextTag := n, cells := c } } }

/-- Whether a tag of a port is free does not depend on the tag to try first. -/
theorem State.freeTag_casting (s : State) (ps : List PortState) (n c p : Nat) :
    ((s.casting ps n c).freeTag p).isSome = (s.freeTag p).isSome :=
  Bool.eq_iff_iff.mpr (((s.casting ps n c).freeTag_isSome_iff p).trans (s.freeTag_isSome_iff p).symm)

/-- What a port has waiting is the sweep cell of a broadcast. -/
def State.IsCast (s : State) (k : Key) (bs : List Byte) (p : Nat) (w : Nat × Waiting) : Prop :=
  ∃ tag seq, w = (p, s.waiting (s.castCell k bs p tag seq)) ∧ s.tagFree p tag = true

/-- One port of a broadcast. -/
def castOn (k : Key) (bs : List Byte) (p : Nat) : Effect :=
  .look fun t => Effect.ofOption (t.freeTag p) fun tag => sendSweep p tag ⟨0xFFFF, k, 2, 0xFF, 0, bs⟩

theorem castOn_run_some {s : State} {k : Key} {bs : List Byte} {p tag : Nat} (h : s.freeTag p = some tag) :
    (castOn k bs p).run s = s.casting (joinPort s.hid.ports (p, s.waiting (s.castCell k bs p tag s.hid.doors.cells)))
      ((tag + 1) % 512) ((s.hid.doors.cells + 1) % 2 ^ 32) := by
  rw [castOn, Effect.run_look, h]
  rfl

/-- The ports of a broadcast, each with a free tag, have one more cell waiting; the others none. -/
theorem casts_run (s : State) (k : Key) (bs : List Byte) : ∀ (l : List Nat) (ps : List PortState) (n c : Nat), l.Nodup →
    ∃ (ws : List (Nat × Waiting)) (n' c' : Nat), (Effect.each (castOn k bs) l).run (s.casting ps n c) = s.casting (ws.foldl joinPort ps) n' c' ∧
      (∀ w ∈ ws, w.1 ∈ l ∧ (s.freeTag w.1).isSome = true) ∧
      ∀ p ∈ l, (s.freeTag p).isSome = true → ∃ w, (ws.filter fun q => q.1 == p) = [w] ∧ s.IsCast k bs p w
  | [], ps, n, c, _ => ⟨[], n, c, rfl, by simp, by simp⟩
  | p :: l, ps, n, c, hnodup => by
    obtain ⟨hp, hl⟩ := List.nodup_cons.mp hnodup
    rw [Effect.run_each_cons]
    cases htag : (s.casting ps n c).freeTag p with
    | none =>
      have hfree : (s.freeTag p).isSome = false := by rw [← s.freeTag_casting ps n c, htag]; rfl
      have hrun : (castOn k bs p).run (s.casting ps n c) = s.casting ps n c := by
        rw [castOn, Effect.run_look, htag]
        rfl
      obtain ⟨ws, n', c', hws, hin, hone⟩ := casts_run s k bs l ps n c hl
      refine ⟨ws, n', c', by rw [hrun, hws], fun w hw => ⟨List.mem_cons_of_mem _ (hin w hw).1, (hin w hw).2⟩, fun q hq hsome => ?_⟩
      rcases List.mem_cons.mp hq with rfl | hq
      · rw [hfree] at hsome
        cases hsome
      · exact hone q hq hsome
    | some tag =>
      have hfree : (s.freeTag p).isSome = true := by rw [← s.freeTag_casting ps n c, htag]; rfl
      let w : Nat × Waiting := (p, s.waiting (s.castCell k bs p tag c))
      obtain ⟨ws, n', c', hws, hin, hone⟩ := casts_run s k bs l (joinPort ps w) ((tag + 1) % 512) ((c + 1) % 2 ^ 32) hl
      refine ⟨w :: ws, n', c', by rw [castOn_run_some htag]; exact hws, fun x hx => ?_, fun q hq hsome => ?_⟩
      · rcases List.mem_cons.mp hx with rfl | hx
        · exact ⟨List.mem_cons_self, hfree⟩
        · exact ⟨List.mem_cons_of_mem _ (hin x hx).1, (hin x hx).2⟩
      · rcases List.mem_cons.mp hq with rfl | hq
        · have hnone : (ws.filter fun x => x.1 == q) = [] := List.filter_eq_nil_iff.mpr fun x hx => by
            have hne : x.1 ≠ q := fun h => hp (h ▸ (hin x hx).1)
            simpa using hne
          exact ⟨w, by simp [w, hnone], tag, c, rfl, State.tagFree_of_freeTag (s := s.casting ps n c) htag⟩
        · have hne : p ≠ q := fun h => hp (h ▸ hq)
          obtain ⟨x, hx, hcast⟩ := hone q hq hsome
          exact ⟨x, by simpa [w, hne] using hx, hcast⟩

section
variable {s : State} {d : Door} {k : Key} {bs : List Byte} (hsender : s.isSender = true) (hcore : s.up .core = true)
  (hd : d = .tlaroek ∨ d = .pcie)
include hsender hcore hd

theorem exec_broadcastWrite : exec (.broadcastWrite d k bs) s = .next ((Act.out (.answer d (s.broadcastStatus 2 k bs) [])).apply
    ((Effect.when (s.broadcastStatus 2 k bs == Status.ok) (Effect.each (castOn k bs) s.castPorts)).run s)) := by
  have hdoor : (d == .tlaroek || d == .pcie) = true := by simpa using hd
  show perform (Effect.when (s.isSender && s.up .core && (d == .tlaroek || d == .pcie)) _) s = _
  rw [hsender, hcore, hdoor, perform_eq, Bool.and_self, Bool.and_self, Effect.run_when_true, Effect.run_seq, emit_run]
  cases hst : s.broadcastStatus 2 k bs == Status.ok <;> rfl

theorem broadcastWrite_length (hlen : remoteLengthOk 2 k bs = false) :
    exec (.broadcastWrite d k bs) s = .next { s with outputs := s.outputs ++ [.answer d Status.length []] } := by
  have hst : s.broadcastStatus 2 k bs = Status.length := by simp [State.broadcastStatus, hlen]
  rw [exec_broadcastWrite hsender hcore hd, hst]
  rfl

theorem broadcastWrite_unreachable (hlen : remoteLengthOk 2 k bs = true) (hports : s.castPorts = []) :
    exec (.broadcastWrite d k bs) s = .next { s with outputs := s.outputs ++ [.answer d Status.unreachable []] } := by
  have hst : s.broadcastStatus 2 k bs = Status.unreachable := by simp [State.broadcastStatus, hlen, hports]
  rw [exec_broadcastWrite hsender hcore hd, hst]
  rfl

theorem broadcastWrite_casts (hshape : s.shaped = true) (hlen : remoteLengthOk 2 k bs = true) (hports : s.castPorts ≠ []) :
    Completes (.broadcastWrite d k bs) s fun t => t.outputs = s.outputs ++ [.answer d Status.ok []] ∧ Only [] s t ∧
      (∀ p ∈ s.castPorts, (s.freeTag p).isSome = true → ∃ c : Cell,
        (t.port p).egress = (s.port p).egress ++ [s.waiting c] ∧ c.kind = 2 ∧ c.bcast = true ∧ c.turned = false ∧
        c.src = s.address ∧ c.fromEnd = s.endOf p ∧
        (s.hid.doors.requests.all fun r => r.port != p || r.tag != c.queue) = true ∧
        c.body = padTo 240 (spreadEntry ⟨0xFFFF, k, 2, 0xFF, 0, bs⟩).flatten) ∧
      (∀ p, p ∉ s.castPorts ∨ s.freeTag p = none → t.port p = s.port p) ∧
      t.hid = { s.hid with
        ports := t.hid.ports
        doors := { s.hid.doors with nextTag := t.hid.doors.nextTag, cells := t.hid.doors.cells } } := by
  have hst : s.broadcastStatus 2 k bs = Status.ok := by simp [State.broadcastStatus, hlen, hports]
  have hnodup : s.castPorts.Nodup := List.Nodup.filter _ (List.nodup_range)
  obtain ⟨ws, n, c, hws, hin, hone⟩ := casts_run s k bs s.castPorts s.hid.ports s.hid.doors.nextTag s.hid.doors.cells hnodup
  have hexec := exec_broadcastWrite (k := k) (bs := bs) hsender hcore hd
  rw [hst, beq_self_eq_true, Effect.run_when_true] at hexec
  refine ⟨_, hexec.trans (congrArg (fun t => Host.Outcome.next ((Act.out (.answer d Status.ok [])).apply t)) hws), rfl,
    ⟨⟨rfl, fun _ _ => rfl⟩, fun _ => rfl⟩, fun p hp hfree => ?_, fun p hp => ?_, rfl⟩
  · obtain ⟨w, hw, tag, seq, rfl, hfresh⟩ := hone p hp hfree
    have hp16 : p < 16 := by simpa [State.ports, hsender] using (List.mem_filter.mp hp).1
    refine ⟨s.castCell k bs p tag seq, ?_, rfl, rfl, rfl, rfl, rfl, ?_, rfl⟩
    · rw [State.port_joined hshape rfl, if_pos hp16, hw]
      rfl
    · simpa [State.tagFree, State.castCell, imp_iff_not_or] using hfresh
  · refine State.port_joined_of_not_mem hshape rfl fun w hw heq => ?_
    obtain ⟨hmem, hfree⟩ := hin w hw
    rw [heq] at hmem hfree
    rcases hp with h | h
    · exact h hmem
    · simp [h] at hfree

end

end Sys2Proof.Machine
end

section
namespace Sys2Proof.Machine

/-! #### The deferred entries of a tile (R126 to R129, R131) -/

/-- What an answered deferred entry adds to the answers of its sweep. -/
abbrev SweepAnswer.with (a : SweepAnswer) (mine : Nat) (d : Deferred) (st : Nat) (v : List Byte) : SweepAnswer :=
  { a with left := a.left - 1, done := a.done ++ [(spreadEntry ⟨mine, d.key, d.op, st, d.label, v⟩).flatten] }

/-- The sweep that owes the answer to a deferred entry. -/
def owesTo (l : List SweepAnswer) (d : Deferred) (a : SweepAnswer) : Prop := d.silent = false ∧
  ∃ r, takeFirst (fun a => a.port == d.port && a.tag == d.tag && a.src == d.src && a.left != 0) l = some (a, r)

theorem answerDeferred_run_owed {s : State} {d : Deferred} {a : SweepAnswer} (howes : owesTo s.hid.link.owed d a) (st : Nat)
    (v : List Byte) : (answerDeferred d st v).run s =
      s.withOwed (s.hid.link.owed.map fun b => if b = a then a.with s.address d st v else b) := by
  obtain ⟨hsilent, r, htake⟩ := howes
  rw [answerDeferred, Effect.run_look, hsilent, Bool.not_false, Effect.run_when_true, onLink_run]
  simp only [Act.apply, htake, beq_iff_eq]

theorem answerDeferred_run_silent {s : State} {d : Deferred} (h : d.silent = true) (st : Nat) (v : List Byte) :
    (answerDeferred d st v).run s = s := by
  rw [answerDeferred, Effect.run_look, h]
  rfl

theorem loseEvents_outputs (n : Nat) (s : State) : ((loseEvents n).run s).outputs = s.outputs := by
  rw [loseEvents, Effect.run_when]
  split_ifs <;> rfl

theorem almanacCount_outputs (h b n : Nat) (s : State) : ((almanacCount h b n).run s).outputs = s.outputs := by
  rw [almanacCount, Effect.run_look]
  dsimp only
  split_ifs
  · rfl
  · exact loseEvents_outputs _ _
  · exact loseEvents_outputs _ _
  · split <;> exact loseEvents_outputs _ _

theorem almanac_outputs (h b : Nat) (s : State) : ((almanac h b).run s).outputs = s.outputs := almanacCount_outputs h b 1 s

/-- The events of an access in the Almanac: that of a write that was taken, and that of a refusal (R485). -/
def askMarks (a : Ask) (st : Nat) : Effect := .seq
  (Effect.when ((a.op == 2 || a.op == 5) && (st == Status.ok || st == Status.queued)) (almanac 7 (writeBin (a.key / 256))))
  (Effect.when (st != Status.ok) (almanac 7 7))

/-- They change nothing but the Almanac, its lost count among the entries. -/
theorem askMarks_quiet {s : State} (hs : s.sound = true) (a : Ask) (st : Nat) : let t := (askMarks a st).run s
    t.hid = { s.hid with almanac := t.hid.almanac } ∧ t.outputs = s.outputs ∧ Only [keyOf 0x1400 8] s t := by
  refine ⟨SameBeside.of (by simp [askMarks, almanac_beside]), ?_, Effect.Writes.frame (by simp [askMarks, almanac_writes]) hs,
    Effect.NoStore.frame (by simp [askMarks, almanac_noStore])⟩
  rw [askMarks, Effect.run_seq, Effect.run_when, Effect.run_when]
  split_ifs <;> simp [almanac_outputs]

theorem serveDoor_run (d : Door) (a : Ask) (reply : Nat → List Byte → Effect) (s : State) : (serveDoor d a reply).run s =
    (reply (s.access (mailboxGo 8) d a).status (s.access (mailboxGo 8) d a).value).run
      ((askMarks a (s.access (mailboxGo 8) d a).status).run ((s.access (mailboxGo 8) d a).effect.run s)) := rfl

/-- The access that a deferred entry makes: a value longer than its type is cut (R128). -/
def State.deferredAsk (s : State) (d : Deferred) : Ask :=
  let value := match s.ty d.key with
    | some t => if t = .domain then d.value else d.value.take t.size
    | none => d.value
  ⟨d.op, d.key, value, 0, 0, 1024⟩

theorem performEntry_run (d : Deferred) (s : State) : (performEntry d).run s =
    (serveDoor (.service d.src) (s.deferredAsk d) fun st v =>
      answerDeferred d st (if d.op = 1 || d.op = 3 then v else d.value)).run s := rfl

/-- The state with the oldest deferred entry taken. -/
abbrev State.nextDeferred (s : State) (rest : List Deferred) : State := s.withDeferred rest s.hid.link.owed

section
variable {s : State} {d : Deferred} {rest : List Deferred} (hs : s.sound = true) (htile : s.isTile = true)
  (hsv : s.servesAt (.service d.src) = true) (hheld : s.hid.reset.coreHeld = false)
  (hdeferred : s.hid.link.deferred = d :: rest)

include htile hsv hheld hdeferred in
theorem exec_deferredPerform_waits (hready : s.deferredReady d = false) : exec .deferredPerform s = .next s := by
  have hcore : s.up .core = true := (by simpa [State.hears] using State.hears_of_servesAt hsv : _ ∧ _).2
  show perform (Effect.when (s.isTile && s.up .core && !s.hid.reset.coreHeld) _) s = _
  rw [htile, hcore, hheld, hdeferred, List.head?_cons, Option.filter_some, if_neg (by simp [hready])]
  rfl

variable (hready : s.deferredReady d = true)

section
include htile hsv hheld hdeferred hready

theorem exec_deferredPerform : exec .deferredPerform s = .next
    ((if d.silent then Effect.when (d.op == 2) (performEntry d)
      else if d.op = 4 || d.op = 5 then performDomain d else performEntry d).run (s.nextDeferred rest)) := by
  have hcore : s.up .core = true := (by simpa [State.hears] using State.hears_of_servesAt hsv : _ ∧ _).2
  show perform (Effect.when (s.isTile && s.up .core && !s.hid.reset.coreHeld) _) s = _
  rw [htile, hcore, hheld, hdeferred, List.head?_cons, Option.filter_some, if_pos hready, perform_eq, Bool.not_false,
    Bool.and_self, Bool.and_self, Effect.run_when_true, Effect.run_ofOption_some, Effect.run_seq, onLink_run]
  simp only [Act.apply, hdeferred, List.tail_cons]

/-- Of a broadcast entry only a WRITE is performed. -/
theorem deferredPerform_silent (hsilent : d.silent = true) (hop : d.op ≠ 2) : exec .deferredPerform s = .next (s.nextDeferred rest) := by
  rw [exec_deferredPerform htile hsv hheld hdeferred hready, if_pos hsilent, beq_false_of_ne hop]
  rfl

include hs in
/-- An entry whose access does nothing to the part is answered with what the access comes to. -/
theorem deferredPerform_answers {a : SweepAnswer} {v : List Byte} {st : Nat} {e : Effect} (howes : owesTo s.hid.link.owed d a)
    (hop : d.op ≠ 4 ∧ d.op ≠ 5)
    (haccess : (s.nextDeferred rest).access (mailboxGo 8) (.service d.src) (s.deferredAsk d) = ⟨st, v, e⟩)
    (heffect : e.run (s.nextDeferred rest) = s.nextDeferred rest) : Completes .deferredPerform s fun t =>
      t.hid = { s.hid with
        almanac := t.hid.almanac
        link := { s.hid.link with
          deferred := rest
          owed := s.hid.link.owed.map fun b =>
            if b = a then a.with s.address d st (if d.op = 1 || d.op = 3 then v else d.value) else b } } ∧
      t.outputs = s.outputs ∧ Only [keyOf 0x1400 8] s t := by
  have hrun : exec .deferredPerform s = .next ((answerDeferred d st (if d.op = 1 || d.op = 3 then v else d.value)).run
      ((askMarks (s.deferredAsk d) st).run (s.nextDeferred rest))) := by
    rw [exec_deferredPerform htile hsv hheld hdeferred hready, if_neg (by simp [howes.1]), if_neg (by simp [hop]), performEntry_run,
      serveDoor_run, show (s.nextDeferred rest).deferredAsk d = s.deferredAsk d from rfl, haccess, heffect]
  obtain ⟨hhid, hout, honly⟩ := askMarks_quiet (s := s.nextDeferred rest) hs (s.deferredAsk d) st
  generalize (askMarks (s.deferredAsk d) st).run (s.nextDeferred rest) = u at hrun hhid hout honly
  have hlink : u.hid.link = (s.nextDeferred rest).hid.link := by rw [hhid]
  have howes' : owesTo u.hid.link.owed d a := by rw [hlink]; exact howes
  have haddress : u.address = s.address := honly.1.2 _ (by decide)
  rw [answerDeferred_run_owed howes', haddress] at hrun
  refine ⟨_, hrun, ?_, hout, honly⟩
  rw [State.withOwed, hhid]

end

/-! What the access of a deferred entry comes to, in the state without it as in the state with it. -/

theorem access_nextDeferred (k : Key) (door : Door) :
    (s.nextDeferred rest).readAccess door k = s.readAccess door k ∧
      (s.nextDeferred rest).stagedAccess door k = s.stagedAccess door k := ⟨rfl, rfl⟩

theorem command_nextDeferred (go : Nat → Effect) (door : Door) (k : Key) (v : Nat) :
    (s.nextDeferred rest).command go door k v = s.command go door k v := rfl

end

theorem State.readAccess_effect_run {u : State} (hu : u.isTile = true) (s : State) (door : Door) {k : Key} (hk : k ≠ keyOf 0x1401 9) :
    (s.readAccess door k).effect.run u = u := by
  have hw : ¬ u.inWindow k := fun h => by
    have hsender := h.1
    rw [State.isTile, beq_iff_eq] at hu
    simp [State.isSender, hu] at hsender
  unfold State.readAccess
  split
  · rfl
  · split
    · rfl
    · split_ifs
      · rfl
      · rfl
      · exact readEffect_run hk hw

theorem State.stagedAccess_effect (s : State) (door : Door) (k : Key) :
    (s.stagedAccess door k).effect = (s.readAccess door k).effect := by
  unfold State.stagedAccess
  dsimp only
  split
  · split <;> rfl
  · rfl

theorem State.absent_ne_ok {s : State} {k : Key} {st : Nat} (h : s.absent k = some st) : st ≠ Status.ok := by
  unfold State.absent at h
  split_ifs at h <;> simp at h <;> subst h <;> decide

/-- The address of a part is no entry that can be written. -/
theorem address_acc {p : Personality} {r : Row} (hr : rowAt p (keyOf 0x1000 6) = some r) : r.acc = .ro := by
  have hall : ∀ p ∈ [Personality.tile, .sender, .invalid], (rowAt p (keyOf 0x1000 6)).all fun r => r.acc == .ro := by
    decide +kernel
  have := hall p (by cases p <;> simp)
  simpa [hr] using this

/-- What a WRITE comes to that the checks pass, of an RW entry with no behaviour of its own. -/
theorem State.writeAccess_rw {s : State} {door : Door} {k : Key} {bs : List Byte} {r : Row} (hv : s.served k = true)
    (hr : s.row k = some r) (hty : r.ty ≠ .domain) (hacc : r.acc = .rw) (hlen : lengthOk r.ty bs = true)
    (htake : r.takes s.pers (entryValue r.ty bs) = true)
    (hcmd : s.command (mailboxGo 8) door k (entryValue r.ty bs) = none) :
    s.writeAccess (mailboxGo 8) door k bs = ⟨Status.ok, [], .seq (storeEntry r k bs) (markChanged r k)⟩ := by
  simp [State.writeAccess, State.absent_none hv hr, hr, hacc, hty, hlen, htake, hcmd, State.stageFull]

theorem writeMarks_outputs (r : Row) (k : Key) (s : State) : ((writeMarks r k).run s).outputs = s.outputs := by
  rw [writeMarks, Effect.run_seq, almanac_outputs, markChanged, Effect.run_when]
  split_ifs <;> rfl

/-- An RW entry that takes a value, with the marks of the write. -/
theorem writeMarks_set {s : State} {k : Key} {r : Row} {v : Nat} (hs : s.sound = true) (hr : s.row k = some r) (hacc : r.acc = .rw)
    (hv : v < 2 ^ r.ty.width) : let t := (writeMarks r k).run ((Act.reg k v).apply s)
    t.entry k = v ∧ t.outputs = s.outputs ∧ Only (k :: doorMarks) s t ∧ t.hid = { s.hid with almanac := t.hid.almanac } := by
  have hmark : k ∉ doorMarks := fun h => by
    have := acc_of_mem_doorMarks h hr
    simp [hacc] at this
  have hs' := Act.keeps_sound (.reg k v) s hs
  refine ⟨?_, writeMarks_outputs r k _, ⟨⟨(writeMarks_writes r k).pers, fun q hq => ?_⟩, (writeMarks_noStore r k).frame⟩,
    writeMarks_sameBeside r k _⟩
  · exact ((writeMarks_writes r k).keeps hmark hs').2.trans
      ((State.entry_set hs hr (by simp [hacc])).trans (Nat.mod_eq_of_lt hv))
  · rw [List.mem_cons, not_or] at hq
    exact ((writeMarks_writes r k).keeps hq.2 hs').2.trans (State.entry_set_of_ne hs hq.1)

section
variable {s : State} {d : Deferred} {rest : List Deferred} (hs : s.sound = true) (htile : s.isTile = true)
  (hsv : s.servesAt (.service d.src) = true) (hheld : s.hid.reset.coreHeld = false)
  (hdeferred : s.hid.link.deferred = d :: rest) (hready : s.deferredReady d = true)
include hs htile hsv hheld hdeferred hready

/-- A WRITE of an RW entry without behaviour of its own takes effect, and is answered with its own value. -/
theorem deferredPerform_writes {r : Row} (hop : d.op = 2) (hr : s.row d.key = some r) (hty : r.ty ≠ .domain) (hacc : r.acc = .rw)
    (hlen : lengthOk r.ty (d.value.take r.ty.size) = true)
    (htake : r.takes s.pers (entryValue r.ty (d.value.take r.ty.size)) = true)
    (hcmd : s.command (mailboxGo 8) (.service d.src) d.key (entryValue r.ty (d.value.take r.ty.size)) = none) :
    Completes .deferredPerform s fun t => t.entry d.key = entryValue r.ty (d.value.take r.ty.size) ∧ t.outputs = s.outputs ∧
      Only (d.key :: doorMarks) s t ∧
      (∀ a, owesTo s.hid.link.owed d a → t.hid = { s.hid with
        almanac := t.hid.almanac
        link := { s.hid.link with
          deferred := rest
          owed := s.hid.link.owed.map fun b => if b = a then a.with s.address d Status.ok d.value else b } }) ∧
      (d.silent = true → t.hid = { s.hid with
        almanac := t.hid.almanac, link := { s.hid.link with deferred := rest } }) := by
  let bs := d.value.take r.ty.size
  let w := (Act.reg d.key (entryValue r.ty bs)).apply (s.nextDeferred rest)
  have hw : w.sound = true := Act.keeps_sound (.reg d.key (entryValue r.ty bs)) (s.nextDeferred rest) hs
  have hserves : s.serves = true := (by simpa [State.servesAt] using hsv : _ ∧ _).2
  have hask : (s.nextDeferred rest).deferredAsk d = ⟨d.op, d.key, bs, 0, 0, 1024⟩ := by
    have hty' : (s.nextDeferred rest).ty d.key = some r.ty := congrArg (Option.map Row.ty) hr
    simp only [State.deferredAsk, hty', hty, if_false, bs]
  have haccess : (s.nextDeferred rest).access (mailboxGo 8) (.service d.src) ⟨d.op, d.key, bs, 0, 0, 1024⟩ =
      ⟨Status.ok, [], .seq (storeEntry r d.key bs) (markChanged r d.key)⟩ := by
    rw [hop]
    exact State.writeAccess_rw (s := s.nextDeferred rest) (State.served_of_serves hserves _) hr hty hacc hlen htake hcmd
  have hset : (storeEntry r d.key bs).run (s.nextDeferred rest) = w := by
    rw [storeEntry_of_rw hty hacc, set_run, keyOf_div_mod]
  have hperform : (performEntry d).run (s.nextDeferred rest) =
      (answerDeferred d Status.ok d.value).run ((writeMarks r d.key).run w) := by
    rw [performEntry_run, serveDoor_run, hask, haccess, Effect.run_seq, hset, hop]
    rfl
  have hexec : exec .deferredPerform s = .next ((answerDeferred d Status.ok d.value).run ((writeMarks r d.key).run w)) := by
    rw [exec_deferredPerform htile hsv hheld hdeferred hready, ← hperform, hop]
    cases d.silent <;> rfl
  obtain ⟨hentry, hout, honly, hhid⟩ := writeMarks_set (s := s.nextDeferred rest) hs hr hacc (entryValue_lt hlen)
  generalize (writeMarks r d.key).run w = u at hexec hentry hout honly hhid
  have hlink : u.hid.link = (s.nextDeferred rest).hid.link := by rw [hhid]
  have haddress : u.address = s.address := by
    refine honly.1.2 _ fun hmem => ?_
    rcases List.mem_cons.mp hmem with hk | hmem
    · have := address_acc (hk ▸ hr)
      simp [hacc] at this
    · revert hmem
      decide
  obtain ⟨l, hl⟩ := answerDeferred_run d Status.ok d.value u
  refine ⟨_, hexec, ?_, ?_, ?_, fun a howes => ?_, fun hsilent => ?_⟩
  · rw [hl]
    exact hentry
  · rw [hl]
    exact hout
  · rw [hl]
    exact honly
  · have howes' : owesTo u.hid.link.owed d a := by rw [hlink]; exact howes
    rw [answerDeferred_run_owed howes', haddress, State.withOwed, hhid]
  · rw [answerDeferred_run_silent hsilent, hhid]

/-- A READ of an entry that is neither WO nor a DOMAIN gives its value. -/
theorem deferredPerform_reads {a : SweepAnswer} {r : Row} (howes : owesTo s.hid.link.owed d a) (hop : d.op = 1)
    (hr : s.row d.key = some r) (hty : r.ty ≠ .domain) (hwo : r.acc ≠ .wo) (hkey : d.key ≠ keyOf 0x1401 9) :
    Completes .deferredPerform s fun t =>
      t.hid = { s.hid with
        almanac := t.hid.almanac
        link := { s.hid.link with
          deferred := rest
          owed := s.hid.link.owed.map fun b =>
            if b = a then a.with s.address d Status.ok (bytesLE r.ty.size (s.value d.key)) else b } } ∧
      t.outputs = s.outputs ∧ Only [keyOf 0x1400 8] s t := by
  have hserves : s.serves = true := (by simpa [State.servesAt] using hsv : _ ∧ _).2
  have hw : ¬ s.inWindow d.key := fun h => by
    have hsender := h.1
    rw [State.isTile, beq_iff_eq] at htile
    simp [State.isSender, htile] at hsender
  have haccess : (s.nextDeferred rest).access (mailboxGo 8) (.service d.src) (s.deferredAsk d) =
      ⟨Status.ok, bytesLE r.ty.size (s.value d.key), readEffect (.service d.src) d.key⟩ := by
    simp only [State.access, State.deferredAsk, hop]
    rw [(access_nextDeferred d.key _).1, State.readAccess_eq (State.served_of_serves hserves _) hr hwo hty, State.readValue_eq hw]
  have h := deferredPerform_answers hs htile hsv hheld hdeferred hready howes (by simp [hop]) haccess
    (readEffect_run (s := s.nextDeferred rest) hkey hw)
  rwa [if_pos (by simp [hop])] at h

/-- READ_STAGED gives what the engine answers. -/
theorem deferredPerform_readsStaged {a : SweepAnswer} (howes : owesTo s.hid.link.owed d a) (hop : d.op = 3)
    (hkey : d.key ≠ keyOf 0x1401 9) : let x := s.stagedAccess (.service d.src) d.key
    Completes .deferredPerform s fun t =>
      t.hid = { s.hid with
        almanac := t.hid.almanac
        link := { s.hid.link with
          deferred := rest
          owed := s.hid.link.owed.map fun b => if b = a then a.with s.address d x.status x.value else b } } ∧
      t.outputs = s.outputs ∧ Only [keyOf 0x1400 8] s t := by
  have haccess : (s.nextDeferred rest).access (mailboxGo 8) (.service d.src) (s.deferredAsk d) =
      s.stagedAccess (.service d.src) d.key := by
    simp only [State.access, State.deferredAsk, hop]
    exact (access_nextDeferred d.key _).2
  have heffect : (s.stagedAccess (.service d.src) d.key).effect.run (s.nextDeferred rest) = s.nextDeferred rest := by
    rw [State.stagedAccess_effect]
    exact State.readAccess_effect_run (u := s.nextDeferred rest) htile s _ hkey
  have h := deferredPerform_answers hs htile hsv hheld hdeferred hready howes (by simp [hop]) haccess heffect
  rwa [if_pos (by simp [hop])] at h

/-- An access that is refused is answered with its status. -/
theorem deferredPerform_refuses {a : SweepAnswer} {st : Nat} (howes : owesTo s.hid.link.owed d a) (hop : d.op ≠ 4 ∧ d.op ≠ 5)
    (haccess : (s.nextDeferred rest).access (mailboxGo 8) (.service d.src) (s.deferredAsk d) = refuse st) :
    Completes .deferredPerform s fun t =>
      t.hid = { s.hid with
        almanac := t.hid.almanac
        link := { s.hid.link with
          deferred := rest
          owed := s.hid.link.owed.map fun b =>
            if b = a then a.with s.address d st (if d.op = 1 || d.op = 3 then [] else d.value) else b } } ∧
      t.outputs = s.outputs ∧ Only [keyOf 0x1400 8] s t :=
  deferredPerform_answers hs htile hsv hheld hdeferred hready howes hop haccess rfl

end

/-- Settles O34: the end of a request is one effect on its mailbox or its record; a broadcast posts one cell on each port; an
entry is performed by the dictionary engine in the state without it, and its answer joins those of its sweep. -/
theorem gatewayRequestsAndDeferredEntriesEnd : Obligations.GatewayRequestsAndDeferredEntriesEnd := by
  refine ⟨⟨fun s p c rest hs hsender hcore hidle htake => ⟨fun r e hrequest hentry hfinal hst => ⟨fun n hasker hn => ?_,
      fun d i hasker => ?_⟩, fun r e hrequest hentry hfinal =>
        serviceAnsReceive_deferred hsender hcore hidle htake hrequest hentry hfinal,
      serviceAnsReceive_uncounted hsender hcore hidle htake hs⟩,
    fun s p tag r hs hsender hidle hfind => ⟨fun n hasker hn => gatewayTimeout_mailbox hidle hfind hs hsender hasker hn,
      fun d i hasker => gatewayTimeout_record hidle hfind hasker⟩,
    fun s q hs => domainTransferIdle_completes hs,
    fun s d k bs hs hshape hsender hcore hd => ⟨broadcastWrite_length hsender hcore hd,
      broadcastWrite_unreachable hsender hcore hd, broadcastWrite_casts hsender hcore hd hshape⟩⟩,
    fun s d rest hs htile hsv hheld hdeferred => ⟨exec_deferredPerform_waits htile hsv hheld hdeferred, fun hready => ?_⟩,
    fun s a rest hs hshape htile htake ha => serviceAnsSend_completes hshape htake ha,
    fun a mine b hb => answerCell_fields a mine b⟩
  · obtain ⟨t, ht, hends, hstatus, hdatagrams, hvalue, honly⟩ :=
      serviceAnsReceive_mailbox hsender hcore hidle htake hrequest hentry hs hfinal hst hasker hn
    refine ⟨t, ht, hends, hstatus, hdatagrams, hvalue, fun w hop hok hw hty hsize hlen => ?_, honly⟩
    obtain ⟨-, hne, hslice⟩ := remoteValue_read hw hty hsize hlen
    have hv : s.answerValue r e = remoteValue 1 r.key e.value := by simp [State.answerValue, Request.taken, hop, hok]
    rw [hv] at hvalue
    rw [← hslice]
    exact hvalue hne 0 (by decide)
  · exact serviceAnsReceive_record hsender hcore hidle htake hrequest hentry hfinal hasker
  · have hno : ∀ {o}, d.op = o → o ≠ 4 → o ≠ 5 → d.op ≠ 4 ∧ d.op ≠ 5 := fun h h4 h5 => ⟨h ▸ h4, h ▸ h5⟩
    refine ⟨fun a r howes hop hr hty hwo hkey =>
        deferredPerform_reads hs htile hsv hheld hdeferred hready howes hop hr hty hwo hkey,
      fun a howes hop hkey => deferredPerform_readsStaged hs htile hsv hheld hdeferred hready howes hop hkey,
      fun a st howes hop habsent => ?_, fun a howes hop => ?_,
      fun r hop hr hty hacc hlen htake hcmd =>
        deferredPerform_writes hs htile hsv hheld hdeferred hready hop hr hty hacc hlen htake hcmd,
      fun hsilent hop => ⟨_, deferredPerform_silent htile hsv hheld hdeferred hready hsilent hop, rfl, rfl,
        ⟨rfl, fun _ _ => rfl⟩, fun _ => rfl⟩⟩
    · have hops : d.op ≠ 4 ∧ d.op ≠ 5 ∧ 1 ≤ d.op ∧ d.op ≤ 5 := by omega
      have h := deferredPerform_refuses hs htile hsv hheld hdeferred hready howes ⟨hops.1, hops.2.1⟩
        (State.access_of_absent (s := s.nextDeferred rest) habsent (State.absent_ne_ok habsent) hops.2.2.1 hops.2.2.2)
      have hvalue : (if d.op = 1 || d.op = 3 then [] else d.value) = if d.op = 2 then d.value else [] := by
        rcases hop with hop | hop | hop <;> simp [hop]
      rwa [hvalue] at h
    · have haccess : (s.nextDeferred rest).access (mailboxGo 8) (.service d.src) (s.deferredAsk d) = refuse Status.range := by
        unfold State.access State.deferredAsk
        split <;> simp_all
      have h := deferredPerform_refuses hs htile hsv hheld hdeferred hready howes (by omega) haccess
      have hread : ¬(d.op = 1 || d.op = 3) = true := by simp; omega
      rwa [if_neg hread] at h

end Sys2Proof.Machine
end

section
namespace Sys2Proof.Machine

/-! ### Sweeps that pass a tile (O31) -/

/-! #### Bytes -/

theorem bytesLE_natLE : ∀ bs : List Byte, bytesLE bs.length (natLE bs) = bs
  | [] => rfl
  | b :: bs => by
    have hdiv : (b.toNat + 256 * natLE bs) / 256 = natLE bs := by omega
    rw [natLE, List.length_cons, bytesLE, hdiv, bytesLE_natLE bs]
    congr 1
    exact BitVec.eq_of_toNat_eq (by simpa [Nat.add_mul_mod_self_left] using b.isLt)

theorem padTo_of_length {n : Nat} {bs : List Byte} (h : n ≤ bs.length) : padTo n bs = bs := by
  simp [padTo, zeroBytes, Nat.sub_eq_zero_of_le h]

theorem length_padTo (n : Nat) (bs : List Byte) : (padTo n bs).length = max n bs.length := by
  simp [padTo, zeroBytes]
  omega

/-! #### The code of a block (R102 to R104) -/

theorem xorBytes_lt : ∀ (bs : List Byte) {x : Nat}, x < 256 → bs.foldl (fun x b => x ^^^ b.toNat) x < 256
  | [], _, hx => hx
  | b :: bs, _, hx => xorBytes_lt bs (Nat.xor_lt_two_pow (n := 8) hx b.isLt)

theorem xorColumns_lt : ∀ (qs : List (Byte × Nat)) {x : Nat}, (∀ q ∈ qs, q.2 < 256) → x < 256 →
    qs.foldl (fun x q => if parity8 q.1.toNat then x ^^^ q.2 else x) x < 256
  | [], _, _, hx => hx
  | q :: qs, x, hq, hx => by
    refine xorColumns_lt qs (fun r hr => hq r (List.mem_cons_of_mem _ hr)) ?_
    show (if parity8 q.1.toNat then x ^^^ q.2 else x) < 256
    split
    · exact Nat.xor_lt_two_pow (n := 8) hx (hq q List.mem_cons_self)
    · exact hx

theorem checkBits_lt (bs : List Byte) : checkBits bs < 2 ^ 16 := by
  have hcode : ∀ u ∈ codeU, u < 256 := by decide
  have hlow := xorBytes_lt bs (x := 0) (by decide)
  have hhigh := xorColumns_lt (bs.zip codeU) (x := 0) (fun q hq => hcode _ (List.of_mem_zip hq).2) (by decide)
  simp only [checkBits]
  omega

/-- The codeword of 16 bytes decodes to them. -/
theorem decodeWord_encodeWord {bs : List Byte} (h : bs.length = 16) : decodeWord (encodeWord bs) = (bs, .clean) := by
  have hv : natLE bs < 2 ^ 128 := by simpa [h] using natLE_lt bs
  have hc := checkBits_lt bs
  have hword : (encodeWord bs).toNat = natLE bs + checkBits bs * 2 ^ 128 := by
    rw [encodeWord, padTo_of_length h.ge, BitVec.toNat_ofNat, Nat.mod_eq_of_lt (by omega)]
  have hpayload : bytesLE 16 ((encodeWord bs).toNat % 2 ^ 128) = bs := by
    rw [hword, Nat.add_mul_mod_self_right, Nat.mod_eq_of_lt hv, ← h, bytesLE_natLE]
  have hcheck : (encodeWord bs).toNat / 2 ^ 128 = checkBits bs := by omega
  rw [decodeWord, hpayload, hcheck, Nat.xor_self]
  rfl

/-! #### The cell in a slot (R106, R108) -/

theorem length_headerBytes (c : Cell) : (headerBytes c).length = 16 := length_bytesLE _ _

/-- Numbers packed one above the other, the first lowest, each in its width. -/
def packed : List (Nat × Nat) → Nat
  | [] => 0
  | (v, w) :: l => v + 2 ^ w * packed l

/-- Each packed number reads back. -/
theorem packed_at : ∀ {l : List (Nat × Nat)} (i : Nat) (hi : i < l.length), (∀ q ∈ l, q.1 < 2 ^ q.2) →
    packed l / 2 ^ ((l.take i).map Prod.snd).sum % 2 ^ l[i].2 = l[i].1
  | (v, w) :: l, 0, _, hl => by
    have hv : v < 2 ^ w := hl _ List.mem_cons_self
    simp [packed, Nat.add_mul_mod_self_left, Nat.mod_eq_of_lt hv]
  | (v, w) :: l, i + 1, hi, hl => by
    have hv : v < 2 ^ w := hl _ List.mem_cons_self
    have hdrop : (v + 2 ^ w * packed l) / 2 ^ w = packed l := by
      rw [Nat.add_mul_div_left _ _ (by positivity), Nat.div_eq_of_lt hv, Nat.zero_add]
    have ih := packed_at i (Nat.lt_of_succ_lt_succ hi) fun q hq => hl q (List.mem_cons_of_mem _ hq)
    rw [packed, List.take_succ_cons, List.map_cons, List.sum_cons, pow_add, ← Nat.div_div_eq_div_mul, hdrop]
    exact ih

theorem packed_lt : ∀ {l : List (Nat × Nat)}, (∀ q ∈ l, q.1 < 2 ^ q.2) → packed l < 2 ^ (l.map Prod.snd).sum
  | [], _ => by simp [packed]
  | (v, w) :: l, hl => by
    have hv : v < 2 ^ w := hl _ List.mem_cons_self
    have ih := packed_lt fun q hq => hl q (List.mem_cons_of_mem _ hq)
    rw [packed, List.map_cons, List.sum_cons, pow_add]
    calc v + 2 ^ w * packed l < 2 ^ w * (packed l + 1) := by rw [Nat.mul_succ]; omega
      _ ≤ 2 ^ w * 2 ^ (l.map Prod.snd).sum := Nat.mul_le_mul_left _ ih

/-- The fields of a header with their widths, from bit 0 on (R108). -/
def cellFields (c : Cell) : List (Nat × Nat) :=
  [(c.lt, 32), (c.seq, 32), (c.spare % 2 ^ 17, 17), (c.last.toNat, 1), (c.first.toNat, 1), (c.len, 8), (c.src, 9),
    (c.queue, 18), (c.spare / 2 ^ 17, 2), (c.timed.toNat, 1), (c.turned.toNat, 1), (c.fromEnd.toNat, 1), (c.bcast.toNat, 1),
    (c.kind, 4)]

theorem cellFields_fit {c : Cell} (h : c.wf = true) : ∀ q ∈ (cellFields c), q.1 < 2 ^ q.2 := by
  have hbool (b : Bool) : b.toNat < 2 ^ 1 := b.toNat_lt
  simp only [Cell.wf, Bool.and_eq_true, decide_eq_true_eq, beq_iff_eq] at h
  obtain ⟨⟨⟨⟨⟨⟨⟨hkind, hqueue⟩, hsrc⟩, hlen⟩, hseq⟩, hlt⟩, -⟩, hspare⟩ := h
  simp only [cellFields, List.forall_mem_cons, List.not_mem_nil, IsEmpty.forall_iff, implies_true, and_true]
  refine ⟨hlt, hseq, ?_, hbool _, hbool _, ?_, hsrc, hqueue, ?_, hbool _, hbool _, hbool _, hbool _, hkind⟩ <;> omega

/-- A flag as its bit. -/
theorem ite_two_pow (b : Bool) (i : Nat) : (if b then 2 ^ i else 0) = b.toNat * 2 ^ i := by cases b <;> simp

theorem headerBytes_eq (c : Cell) : headerBytes c = bytesLE 16 (packed (cellFields c)) := by
  have hsum : c.kind * 2 ^ 124 + c.bcast.toNat * 2 ^ 123 + c.fromEnd.toNat * 2 ^ 122 + c.turned.toNat * 2 ^ 121 +
      c.timed.toNat * 2 ^ 120 + c.spare / 2 ^ 17 * 2 ^ 118 + c.queue * 2 ^ 100 + c.src * 2 ^ 91 + c.len * 2 ^ 83 +
      c.first.toNat * 2 ^ 82 + c.last.toNat * 2 ^ 81 + c.spare % 2 ^ 17 * 2 ^ 64 + c.seq * 2 ^ 32 + c.lt =
      packed (cellFields c) := by
    simp only [packed, cellFields]
    omega
  rw [← hsum]
  simp only [headerBytes, ite_two_pow]

theorem natLE_headerBytes {c : Cell} (h : c.wf = true) : natLE (headerBytes c) = packed (cellFields c) := by
  have hlt := packed_lt (cellFields_fit h)
  rw [headerBytes_eq]
  refine natLE_bytesLE (hlt.trans_eq ?_)
  norm_num [cellFields]

/-- A cell's header and body read back as the cell. -/
theorem cellOf_headerBytes {c : Cell} (h : c.wf = true) : cellOf (headerBytes c ++ c.body) = c := by
  have hlen : c.body.length = 240 := by simp_all [Cell.wf]
  have hhead : natLE ((headerBytes c ++ c.body).take 16) = packed (cellFields c) := by
    rw [List.take_left' (length_headerBytes c), natLE_headerBytes h]
  have hbody : slice (headerBytes c ++ c.body) 16 240 = c.body := by
    rw [slice, List.drop_left' (length_headerBytes c), List.take_of_length_le hlen.le]
  have hat (i o v w : Nat) (ho : (((cellFields c).take i).map Prod.snd).sum = o) (hq : (cellFields c)[i]? = some (v, w)) :
      packed (cellFields c) / 2 ^ o % 2 ^ w = v := by
    obtain ⟨hi, hvw⟩ := List.getElem?_eq_some_iff.mp hq
    simpa only [ho, hvw] using packed_at i hi (cellFields_fit h)
  simp only [cellOf, hhead, hbody]
  generalize packed (cellFields c) = v at hat
  have hspare : v / 2 ^ 118 % 2 ^ 2 * 2 ^ 17 + v / 2 ^ 64 % 2 ^ 17 = c.spare := by
    have h8 := hat 8 118 (c.spare / 2 ^ 17) 2 (by simp [cellFields]) rfl
    have h2 := hat 2 64 (c.spare % 2 ^ 17) 17 (by simp [cellFields]) rfl
    omega
  have hbit {b : Bool} {i : Nat} (hv : v / 2 ^ i % 2 ^ 1 = b.toNat) : bitAt v i = b := by
    rw [pow_one] at hv
    cases b <;> simp [bitAt, hv]
  have hkind := hat 13 124 c.kind 4 (by simp [cellFields]) rfl
  have hqueue := hat 7 100 c.queue 18 (by simp [cellFields]) rfl
  have hsrc := hat 6 91 c.src 9 (by simp [cellFields]) rfl
  have hlength := hat 5 83 c.len 8 (by simp [cellFields]) rfl
  have hseq := hat 1 32 c.seq 32 (by simp [cellFields]) rfl
  have hlt := hat 0 0 c.lt 32 (by simp) rfl
  have hbcast := hbit (hat 12 123 c.bcast.toNat 1 (by simp [cellFields]) rfl)
  have hend := hbit (hat 11 122 c.fromEnd.toNat 1 (by simp [cellFields]) rfl)
  have hturned := hbit (hat 10 121 c.turned.toNat 1 (by simp [cellFields]) rfl)
  have htimed := hbit (hat 9 120 c.timed.toNat 1 (by simp [cellFields]) rfl)
  have hfirst := hbit (hat 4 82 c.first.toNat 1 (by simp [cellFields]) rfl)
  have hlast := hbit (hat 3 81 c.last.toNat 1 (by simp [cellFields]) rfl)
  simp only [field, Nat.reduceSub, Nat.reduceAdd, hkind, hqueue, hsrc, hlength, hseq, hlt, hbcast, hend, hturned, htimed, hfirst,
    hlast, hspare]

end Sys2Proof.Machine
end

section
namespace Sys2Proof.Machine

/-! #### A slot that carries a clean cell (R105, R106) -/

theorem cellBlocks_eq {c : Cell} (hbody : c.body.length = 240) : cellBlocks c [] =
    (List.range 16).map fun i => dataBlock (slice (headerBytes c ++ c.body) (16 * i) 16) := by
  simp [cellBlocks, padTo_of_length hbody.ge, dataBlock]

/-- Pieces of one length, end to end, are the list. -/
theorem flatMap_slice {α : Type} (k : Nat) : ∀ (n : Nat) {l : List α}, l.length = k * n →
    (List.range n).flatMap (fun i => slice l (k * i) k) = l
  | 0, l, hl => by simpa using (List.length_eq_zero_iff.mp hl).symm
  | n + 1, l, hl => by
    have htail : (fun i => slice l (k * (i + 1)) k) = fun i => slice (l.drop k) (k * i) k := by
      funext i
      rw [slice, slice, List.drop_drop, Nat.mul_succ, Nat.add_comm]
    have hlen : (l.drop k).length = k * n := by rw [List.length_drop, hl, Nat.mul_succ, Nat.add_sub_cancel]
    rw [List.range_succ_eq_map, List.flatMap_cons, List.flatMap_map]
    show slice l (k * 0) k ++ (List.range n).flatMap (fun i => slice l (k * (i + 1)) k) = l
    rw [htail, flatMap_slice k n hlen, slice, Nat.mul_zero, List.drop_zero, List.take_append_drop]

/-- The blocks of a cell decode to its bytes. -/
theorem decodeSlot_cellBlocks {c : Cell} (hbody : c.body.length = 240) : decodeSlot 0b01 (cellBlocks c []) =
    (List.range 16).map fun i => (slice (headerBytes c ++ c.body) (16 * i) 16, Decoded.clean) := by
  rw [decodeSlot, cellBlocks_eq hbody]
  refine List.map_congr_left fun i hi => ?_
  have hi : i < 16 := List.mem_range.mp hi
  have hlen : (slice (headerBytes c ++ c.body) (16 * i) 16).length = 16 := by
    rw [slice, List.length_take, List.length_drop, List.length_append, length_headerBytes, hbody]
    omega
  simp [hi, decodeBlock, dataBlock, decodeWord_encodeWord hlen]

/-- Scrambling keeps the sync headers. -/
theorem sync_of_scramble {d : Line} {raw blocks : List Block} (h : d.scramble raw = blocks) :
    raw.map Block.sync = blocks.map Block.sync := by
  subst h
  calc raw.map Block.sync = (raw.zipIdx.map Prod.fst).map Block.sync := by rw [List.zipIdx_map_fst]
    _ = (d.scramble raw).map Block.sync := by rw [Line.scramble, List.map_map, List.map_map]; rfl

/-- A slot's type is a matter of its sync headers. -/
theorem slotType_congr {a b : List Block} (h : a.map Block.sync = b.map Block.sync) : slotType a = slotType b := by
  have hn (l : List Block) (w : BitVec 2) : ((l.take 4).filter fun b => b.sync == w).length =
      (((l.map Block.sync).take 4).filter (· == w)).length := by
    rw [← List.map_take, List.filter_map, List.length_map]
    rfl
  simp only [slotType, hn, h]

theorem slotType_of_scramble {d : Line} {raw : List Block} {c : Cell} (hbody : c.body.length = 240)
    (h : d.scramble raw = cellBlocks c []) : slotType raw = .data := by
  rw [slotType_congr (sync_of_scramble h), cellBlocks_eq hbody]
  rfl

/-- Every block of a slot decodes clean. -/
abbrev AllClean (d : List (List Byte × Decoded)) : Prop := ∀ q ∈ d, q.2 = .clean

theorem AllClean.getD {d : List (List Byte × Decoded)} (h : AllClean d) (i : Nat) : (d.getD i ([], .clean)).2 = .clean := by
  by_cases hi : i < d.length
  · rw [List.getD_eq_getElem _ _ hi]
    exact h _ (List.getElem_mem hi)
  · rw [List.getD_eq_default _ _ (Nat.le_of_not_lt hi)]

/-- The outcomes of blocks that decode clean count nothing. -/
theorem countBlocks_run_of_clean {p : Nat} {d : List (List Byte × Decoded)} {s : State} (h : AllClean d) :
    (countBlocks p d).run s = s := by
  have hnone (x : Decoded) (hx : x ≠ .clean) : ((List.range 16).filter fun i => (d.getD i ([], .clean)).2 == x) = [] :=
    List.filter_eq_nil_iff.mpr fun i _ => by rw [h.getD]; simpa using hx.symm
  simp only [countBlocks, hnone .corrected (by simp), hnone .poisoned (by simp), hnone .uncorrectable (by simp)]
  rfl

theorem allClean_cellBlocks {c : Cell} (hbody : c.body.length = 240) : AllClean (decodeSlot 0b01 (cellBlocks c [])) := by
  rw [decodeSlot_cellBlocks hbody]
  intro q hq
  obtain ⟨i, -, rfl⟩ := List.mem_map.mp hq
  rfl

/-- The state with a port counted among those that cells arrived on in the tick. -/
abbrev State.arrivedOn (s : State) (p : Nat) : State :=
  { s with hid := { s.hid with counts := { s.hid.counts with
    ports := if s.hid.counts.ports.contains p then s.hid.counts.ports else s.hid.counts.ports ++ [p] } } }

/-- A data slot whose blocks are those of a cell gives a tile that cell. -/
theorem dataSlot_run {s : State} {p : Nat} {c : Cell} (htile : s.isSender = false) (hc : c.wf = true) :
    (dataSlot p (cellBlocks c [])).run s = (tileCell p c []).run (s.arrivedOn p) := by
  have hbody : c.body.length = 240 := by simp_all [Cell.wf]
  have hclean := allClean_cellBlocks hbody
  have hbad : ((List.range 16).filter fun i => !decoded ((decodeSlot 0b01 (cellBlocks c [])).getD i ([], .clean))) = [] :=
    List.filter_eq_nil_iff.mpr fun i _ => by simp only [decoded, hclean.getD]; decide
  have hlen : (headerBytes c ++ c.body).length = 16 * 16 := by rw [List.length_append, length_headerBytes, hbody]
  have hcell : cellOf ((decodeSlot 0b01 (cellBlocks c [])).flatMap (·.1)) = c := by
    rw [decodeSlot_cellBlocks hbody, List.flatMap_map, flatMap_slice 16 16 hlen, cellOf_headerBytes hc]
  simp only [dataSlot, hbad, hcell, Effect.run_look, Effect.run_all_cons, Effect.run_all_nil, countBlocks_run_of_clean hclean, htile]
  rfl

/-- A slot of a cell in UP, on a port that is not lost. -/
theorem receiveSlot_run {s : State} {p : Nat} {lanes : List (List Level)} {c : Cell} (htile : s.isTile = true) (hp : p < 2)
    (hlink : s.up .link = true) (hup : s.portUp p = true) (hc : c.wf = true) (hlost : (s.port p).lost = false)
    (hslot : (s.port p).rx.scramble (s.slotIn p lanes) = cellBlocks c []) :
    exec (.receiveSlot p lanes) s =
      .next ((onPort p fun q => { q with rx := q.rx.next }).run ((tileCell p c []).run (s.arrivedOn p))) := by
  have hbody : c.body.length = 240 := by simp_all [Cell.wf]
  have hsender : s.isSender = false := by simp_all [State.isTile, State.isSender]
  have htype := slotType_of_scramble hbody hslot
  have halign : alignBlocks (s.slotIn p lanes) = none := by simp [alignBlocks, htype]
  have hlive : s.portLive p = true := by simp [State.portLive, hlink, State.ports, hsender, hp]
  have hsix : s.link p = 6 := by simpa [State.portUp] using hup
  show perform _ _ = _
  rw [perform_eq, hlive, Effect.run_when_true, hsix]
  simp [upSlot, halign, hlost, htype, hslot, dataSlot_run hsender hc]

end Sys2Proof.Machine
end

section
namespace Sys2Proof.Machine

/-! #### What a tile does with the entries of a sweep (R126 to R131) -/

/-- The answers that go into a sweep, and the entries of it that are deferred. -/
def State.sweepWork (s : State) (p : Nat) (c : Cell) : List (Nat × ServiceEntry) × List Deferred :=
  if c.turned then ([], [])
  else s.sweepEntries p c [] (groupEntries 15 (serviceEntries c)) 1 s.hid.link.deferred.length

theorem State.sweepEntries_cons (s : State) (p : Nat) (c : Cell) (bad : List Nat) (e : ServiceEntry) (n : Nat)
    (g : List (ServiceEntry × Nat)) (i w : Nat) : s.sweepEntries p c bad ((e, n) :: g) i w =
      let r := s.sweepEntry p c bad i w e n
      let rest := s.sweepEntries p c bad g (i + n) (w + r.2.toList.length)
      (r.1.toList.map (fun x => (i, x)) ++ rest.1, r.2.toList ++ rest.2) := rfl

/-- The counts of the tick have no part in it. -/
theorem sweepEntries_arrivedOn (s : State) (p q : Nat) (c : Cell) (bad : List Nat) :
    ∀ (g : List (ServiceEntry × Nat)) (i w : Nat), (s.arrivedOn q).sweepEntries p c bad g i w = s.sweepEntries p c bad g i w
  | [], _, _ => rfl
  | (e, n) :: g, i, w => by
    have hentry : (s.arrivedOn q).sweepEntry p c bad i w e n = s.sweepEntry p c bad i w e n := rfl
    simp only [State.sweepEntries_cons, hentry, sweepEntries_arrivedOn s p q c bad g]

theorem sweepWork_arrivedOn (s : State) (p : Nat) (c : Cell) : (s.arrivedOn p).sweepWork p c = s.sweepWork p c := by
  rw [State.sweepWork, State.sweepWork, sweepEntries_arrivedOn]

/-- The answer cells owed for deferred entries. -/
def owedFor (p : Nat) (c : Cell) (ds : List Deferred) : List SweepAnswer :=
  let n := (ds.filter fun x => !x.silent).length
  if n = 0 then [] else [⟨p, c.queue % 512, c.src, c.fromEnd, n, [], c.seq⟩]

/-- The ports of a tile after a sweep cell has passed. -/
def State.portsPast (s : State) (p : Nat) (c : Cell) (as : List (Nat × ServiceEntry)) : List PortState :=
  let moved := if s.portUp (opposite p) then updateAt s.hid.ports (opposite p) fun q => { q with tx := q.tx.next }
    else if c.turned then s.hid.ports
    else joinPort s.hid.ports (p, s.waiting { answeredCell c as with turned := true })
  updateAt moved p fun q => { q with rx := q.rx.next }

/-- The state of a tile after a sweep cell has passed. -/
def State.sweptOn (s : State) (p : Nat) (c : Cell) : State :=
  let d := answeredCell c (s.sweepWork p c).1
  { s with
    outputs := if s.portUp (opposite p)
      then s.outputs ++ [.slot (opposite p) ((s.port (opposite p)).tx.lanes (cellBlocks d []))] else s.outputs
    hid := { s.hid with
      counts := (s.arrivedOn p).hid.counts
      ports := s.portsPast p c (s.sweepWork p c).1
      link := { s.hid.link with
        deferred := s.hid.link.deferred ++ (s.sweepWork p c).2
        owed := s.hid.link.owed ++ owedFor p c (s.sweepWork p c).2 } } }

theorem passSlot_run {s : State} {p : Nat} {bs : List Block} (htile : s.isTile = true) (hup : s.portUp (opposite p) = true) :
    (passSlot p bs).run s = (sendSlot (opposite p) bs).run s := by
  rw [passSlot, Effect.run_look, htile, hup]
  rfl

theorem passSweep_run {s : State} {p : Nat} {c : Cell} (htile : s.isTile = true) :
    (onPort p fun q => { q with rx := q.rx.next }).run ((passSweep p c []).run (s.arrivedOn p)) = s.sweptOn p c := by
  have howed (l : List SweepAnswer) (ds : List Deferred) : (if (ds.filter fun x => !x.silent).isEmpty then l
      else l ++ [⟨p, c.queue % 512, c.src, c.fromEnd, (ds.filter fun x => !x.silent).length, [], c.seq⟩]) =
      l ++ owedFor p c ds := by
    cases hds : ds.filter fun x => !x.silent <;> simp [owedFor, hds]
  have hpass : (passSweep p c []).run (s.arrivedOn p) =
      (if s.portUp (opposite p) then passSlot p (cellBlocks (answeredCell c (s.sweepWork p c).1) [])
        else if c.turned then .nothing else turnCell p (answeredCell c (s.sweepWork p c).1) []).run
      { s.arrivedOn p with hid := { (s.arrivedOn p).hid with link := { s.hid.link with
        deferred := s.hid.link.deferred ++ (s.sweepWork p c).2
        owed := s.hid.link.owed ++ owedFor p c (s.sweepWork p c).2 } } } := by
    rw [← sweepWork_arrivedOn, ← howed]
    rfl
  rw [hpass]
  cases hup : s.portUp (opposite p) with
  | true =>
    rw [if_pos rfl, passSlot_run]
    · simp only [State.sweptOn, State.portsPast, hup, if_true]
      rfl
    · exact htile
    · exact hup
  | false =>
    cases hturn : c.turned with
    | true =>
      simp only [State.sweptOn, State.portsPast, hup, hturn, if_true, Bool.false_eq_true, if_false]
      rfl
    | false =>
      simp only [State.sweptOn, State.portsPast, hup, hturn, Bool.false_eq_true, if_false]
      rfl

end Sys2Proof.Machine
end

section
namespace Sys2Proof.Machine

theorem getD_updateAt_self {α : Type} {f : α → α} {d : α} {l : List α} {i : Nat} (h : i < l.length) :
    (updateAt l i f).getD i d = f (l.getD i d) := by rw [getD_updateAt, if_pos ⟨rfl, h⟩]

theorem getD_updateAt_of_ne {α : Type} {f : α → α} {d : α} {l : List α} {i j : Nat} (h : i ≠ j) :
    (updateAt l i f).getD j d = l.getD j d := by rw [getD_updateAt, if_neg fun hij => h hij.1]

/-- What becomes of the port that a sweep cell arrived on, of the other port, and of the outputs. -/
theorem sweptOn_leaves {s : State} {p : Nat} {c : Cell} (hshape : s.shaped = true) (hp : p < 2) :
    let q := 1 - p
    let d := answeredCell c (s.sweepWork p c).1
    let t := s.sweptOn p c
    Only [] s t ∧
      (s.portUp q = true → t.outputs = s.outputs ++ [.slot q ((s.port q).tx.lanes (cellBlocks d []))] ∧
        t.port p = { s.port p with rx := (s.port p).rx.next } ∧ t.port q = { s.port q with tx := (s.port q).tx.next }) ∧
      (s.portUp q = false → t.outputs = s.outputs ∧ t.port q = s.port q ∧ t.port p = { s.port p with
        rx := (s.port p).rx.next
        egress := (s.port p).egress ++ if c.turned then [] else [s.waiting { d with turned := true }] }) := by
  intro q d t
  have hlen : s.hid.ports.length = 16 := ((State.shaped_iff s).mp hshape).ports
  have hp16 : p < s.hid.ports.length := by omega
  have hq16 : q < s.hid.ports.length := by omega
  have hpq : p ≠ q := by omega
  have hrx (l : List PortState) (hl : p < l.length) : (updateAt l p fun q => { q with rx := q.rx.next }).getD p
      PortState.initial = { l.getD p .initial with rx := (l.getD p .initial).rx.next } := getD_updateAt_self hl
  refine ⟨⟨⟨rfl, fun _ _ => rfl⟩, fun _ => rfl⟩, fun hup => ?_, fun hup => ?_⟩
  · have hports : t.hid.ports = updateAt (updateAt s.hid.ports q fun q => { q with tx := q.tx.next }) p
        fun q => { q with rx := q.rx.next } := congrArg (updateAt · p _) (if_pos hup)
    refine ⟨if_pos hup, ?_, ?_⟩
    · rw [State.port, hports, hrx _ (by rwa [length_updateAt]), getD_updateAt_of_ne hpq.symm]
      rfl
    · rw [State.port, hports, getD_updateAt_of_ne hpq, getD_updateAt_self hq16]
      rfl
  · have hdown : ¬ s.portUp (opposite p) = true := by rw [show opposite p = q from rfl, hup]; decide
    have hports : t.hid.ports = updateAt (if c.turned then s.hid.ports
        else joinPort s.hid.ports (p, s.waiting { d with turned := true })) p fun q => { q with rx := q.rx.next } :=
      congrArg (updateAt · p _) (if_neg hdown)
    refine ⟨if_neg hdown, ?_, ?_⟩
    · rw [State.port, hports, getD_updateAt_of_ne hpq]
      cases c.turned with
      | true => rfl
      | false => exact getD_updateAt_of_ne hpq
    · rw [State.port, hports, hrx]
      · cases c.turned with
        | true => simp [State.port]
        | false =>
          have hjoined : (joinPort s.hid.ports (p, s.waiting { d with turned := true })).getD p .initial =
              { s.port p with egress := (s.port p).egress ++ [s.waiting { d with turned := true }] } := getD_updateAt_self hp16
          rw [if_neg (by decide), hjoined]
          rfl
      · cases c.turned with
        | true => exact hp16
        | false => rw [if_neg (by decide), joinPort, length_updateAt]; exact hp16

/-- A clean sweep cell passes a tile. -/
theorem receiveSlot_sweep {s : State} {p : Nat} {lanes : List (List Level)} {c : Cell} (htile : s.isTile = true) (hp : p < 2)
    (hlink : s.up .link = true) (hup : s.portUp p = true) (hc : c.wf = true) (hkind : c.kind = 2)
    (hlost : (s.port p).lost = false) (hslot : (s.port p).rx.scramble (s.slotIn p lanes) = cellBlocks c []) :
    exec (.receiveSlot p lanes) s = .next (s.sweptOn p c) := by
  have hsweep : (tileCell p c []).run (s.arrivedOn p) = (passSweep p c []).run (s.arrivedOn p) := by
    simp [tileCell, hkind, reservedKind]
  rw [receiveSlot_run htile hp hlink hup hc hlost hslot, hsweep, passSweep_run htile]

/-! #### The entries of a service cell (R125, R128) -/

theorem length_serviceBytes {e : ServiceEntry} (h : e.value.length ≤ 8) : (serviceBytes e).length = 16 := by
  simp [serviceBytes, length_bytesLE, length_padTo, h]

/-- The eight bytes of an entry before its value. -/
def serviceHead (e : ServiceEntry) : List Byte :=
  [.ofNat 8 e.target, .ofNat 8 (e.target / 256), .ofNat 8 (e.key / 256), .ofNat 8 (e.key / 256 / 256), .ofNat 8 e.key,
    .ofNat 8 e.op, .ofNat 8 e.status, .ofNat 8 e.label]

theorem serviceBytes_eq (e : ServiceEntry) : serviceBytes e = serviceHead e ++ padTo 8 e.value := rfl

/-- An entry's bytes read back as the entry. -/
theorem serviceEntry_serviceBytes {e : ServiceEntry} (ht : e.target < 2 ^ 16) (hk : e.key < 2 ^ 24) (ho : e.op < 2 ^ 8)
    (hst : e.status < 2 ^ 8) (hl : e.label < 2 ^ 8) (hv : e.value.length = 8) : serviceEntry (serviceBytes e) = e := by
  obtain ⟨target, key, op, status, label, value⟩ := e
  have hvalue : slice (serviceBytes ⟨target, key, op, status, label, value⟩) 8 8 = value := by
    rw [serviceBytes_eq, padTo_of_length hv.ge]
    exact (slice_append_right (serviceHead _) value 0 8).trans (List.take_of_length_le hv.le)
  rw [serviceEntry, hvalue, serviceBytes_eq]
  simp only [serviceHead, slice, List.cons_append, List.take_succ_cons, List.take_zero, List.drop_succ_cons, List.drop_zero,
    natLE, BitVec.toNat_ofNat, ServiceEntry.mk.injEq, and_true] at *
  omega

theorem slice_append_slice {α : Type} (l : List α) (o n m : Nat) : slice l o n ++ slice l (o + n) m = slice l o (n + m) := by
  rw [slice, slice, slice, List.take_add, List.drop_drop]

theorem length_slice {α : Type} {l : List α} {o n : Nat} (h : o + n ≤ l.length) : (slice l o n).length = n := by
  rw [slice, List.length_take, List.length_drop]
  omega

theorem bytesLE_natLE_slice {bs : List Byte} {o n : Nat} (h : o + n ≤ bs.length) :
    bytesLE n (natLE (slice bs o n)) = slice bs o n := by
  have hback := bytesLE_natLE (slice bs o n)
  rwa [length_slice h] at hback

/-- What an answer keeps of the entry that it answers. -/
structure ServiceEntry.SameAsk (e x : ServiceEntry) : Prop where
  target : x.target = e.target
  key : x.key = e.key
  op : x.op = e.op
  label : x.label = e.label

/-- A block of a service cell with an answer in it differs in STATUS and VALUE alone. -/
theorem serviceBytes_of_sameAsk {bs : List Byte} {x : ServiceEntry} (hlen : bs.length = 16)
    (h : (serviceEntry bs).SameAsk x) :
    slice (serviceBytes x) 0 6 = slice bs 0 6 ∧ slice (serviceBytes x) 7 1 = slice bs 7 1 := by
  have hlow : natLE (slice bs 4 1) < 256 := by simpa [length_slice, hlen] using natLE_lt (slice bs 4 1)
  have hkey : x.key = natLE (slice bs 2 2) * 256 + natLE (slice bs 4 1) := h.key
  have hhigh : x.key / 256 = natLE (slice bs 2 2) := by omega
  have hbyte : bytesLE 1 x.key = bytesLE 1 (natLE (slice bs 4 1)) := by
    rw [bytesLE, bytesLE, hkey]
    congr 1
    exact BitVec.eq_of_toNat_eq (by simp [Nat.mul_add_mod_self_right])
  have hback (o n : Nat) (ho : o + n ≤ 16) : bytesLE n (natLE (slice bs o n)) = slice bs o n :=
    bytesLE_natLE_slice (by omega)
  have htarget : bytesLE 2 x.target = slice bs 0 2 := by rw [h.target]; exact hback 0 2 (by decide)
  have hop : bytesLE 1 x.op = slice bs 5 1 := by rw [h.op]; exact hback 5 1 (by decide)
  have hlabel : bytesLE 1 x.label = slice bs 7 1 := by rw [h.label]; exact hback 7 1 (by decide)
  have hask : serviceBytes x = slice bs 0 6 ++ (bytesLE 1 x.status ++ (slice bs 7 1 ++ padTo 8 x.value)) := by
    rw [serviceBytes, hhigh, hbyte, htarget, hop, hlabel, hback 2 2 (by decide), hback 4 1 (by decide),
      slice_append_slice, slice_append_slice, slice_append_slice]
    simp only [List.append_assoc]
  have h6 : (slice bs 0 6).length = 6 := length_slice (by omega)
  have h1 : (slice bs 7 1).length = 1 := length_slice (by omega)
  refine ⟨?_, ?_⟩
  · rw [hask, slice_append_left _ (by omega), slice, List.drop_zero, List.take_of_length_le h6.le]
  · have hskip := slice_append_right (slice bs 0 6 ++ bytesLE 1 x.status) (slice bs 7 1 ++ padTo 8 x.value) 0 1
    rw [List.length_append, h6, length_bytesLE, List.append_assoc, ← hask] at hskip
    rw [hskip, slice_append_left _ (by omega), slice, List.drop_zero, List.take_of_length_le h1.le]

end Sys2Proof.Machine
end

section
namespace Sys2Proof.Machine

/-! #### One entry of a passing sweep (R126, R127, R131) -/

section
variable {s : State} {p : Nat} {c : Cell} {i w : Nat} {e : ServiceEntry} {n : Nat}

/-- An entry as the tile defers it. -/
def deferredOf (p : Nat) (c : Cell) (e : ServiceEntry) (n : Nat) : Deferred :=
  ⟨p, c.queue % 512, c.src, c.fromEnd, e.op, e.key, e.label, e.value, e.target == 0xFFFF, n⟩

/-- What a status puts into the passing entry. -/
def State.answerOf (s : State) (e : ServiceEntry) (st : Nat) : ServiceEntry :=
  if st = Status.ok then { e with status := st, value := bytesLE 8 (s.value e.key) } else { e with status := st }

theorem sweepEntry_broadcast (ht : e.target = 0xFFFF) : s.sweepEntry p c [] i w e n =
    (none, if 64 ≤ w || s.hid.reset.coreHeld || !s.up .core then none else some (deferredOf p c e n)) := by
  simp [State.sweepEntry, ht, deferredOf]

theorem sweepEntry_unicast (ht : e.target ≠ 0xFFFF) : s.sweepEntry p c [] i w e n =
    match s.passingStatus w e with
    | none => (none, none)
    | some st => (some (s.answerOf e st), if st = Status.deferred then some (deferredOf p c e n) else none) := by
  have hbad : ¬ ((List.range n).any fun j => ([] : List Nat).contains (i + j)) = true := by simp
  simp only [State.sweepEntry, if_neg hbad, if_neg ht]
  cases s.passingStatus w e <;> rfl

/-- The tile acts on an entry for it that has no status yet, and on no other. -/
theorem passingStatus_none (h : e.target ≠ s.address ∨ e.status ≠ 0xFF) : s.passingStatus w e = none := by
  rcases h with h | h <;> simp [State.passingStatus, h]

theorem target_of_passingStatus {st : Nat} (h : s.passingStatus w e = some st) : e.target = s.address := by
  by_contra ht
  rw [passingStatus_none (.inl ht)] at h
  cases h

theorem answerOf_sameAsk (s : State) (e : ServiceEntry) (st : Nat) : e.SameAsk (s.answerOf e st) := by
  unfold State.answerOf
  split <;> exact ⟨rfl, rfl, rfl, rfl⟩

theorem sweepEntry_answer {x : ServiceEntry} (h : (s.sweepEntry p c [] i w e n).1 = some x) :
    e.SameAsk x ∧ e.target = s.address ∧ e.target ≠ 0xFFFF := by
  by_cases ht : e.target = 0xFFFF
  · rw [sweepEntry_broadcast ht] at h
    cases h
  · rw [sweepEntry_unicast ht] at h
    cases hst : s.passingStatus w e with
    | none =>
      rw [hst] at h
      cases h
    | some st =>
      rw [hst] at h
      cases h
      exact ⟨answerOf_sameAsk s e st, target_of_passingStatus hst, ht⟩

end

/-! #### The answers in a passing cell -/

/-- An answer in block j of the groups from block i on answers the entry in that block, which names the tile. -/
theorem sweepEntries_answer {s : State} {p : Nat} {c : Cell} {j : Nat} {x : ServiceEntry} :
    ∀ (n : Nat) {l : List ServiceEntry} {i w : Nat}, (j, x) ∈ (s.sweepEntries p c [] (groupEntries n l) i w).1 →
      ∃ e, i ≤ j ∧ l[j - i]? = some e ∧ e.SameAsk x ∧ e.target = s.address ∧ e.target ≠ 0xFFFF
  | 0, _, _, _, h => by simp [groupEntries, State.sweepEntries] at h
  | _ + 1, [], _, _, h => by simp [groupEntries, State.sweepEntries] at h
  | n + 1, e :: r, i, w, h => by
    rw [groupEntries, State.sweepEntries_cons] at h
    rcases List.mem_append.mp h with h | h
    · obtain ⟨y, hy, hjx⟩ := List.mem_map.mp h
      cases hjx
      obtain ⟨hask, ht, hb⟩ := sweepEntry_answer (Option.mem_toList.mp hy)
      exact ⟨e, le_rfl, by simp, ⟨hask.target, hask.key, hask.op, hask.label⟩, ht, hb⟩
    · obtain ⟨e', hij, he', hrest⟩ := sweepEntries_answer n h
      rw [List.getElem?_drop] at he'
      refine ⟨e', by omega, ?_, hrest⟩
      rw [← he', show j - i = (j - i - 1) + 1 by omega, List.getElem?_cons_succ]
      congr 1
      omega

theorem mem_of_lookupKey {β : Type} {k : Nat} {v : β} : ∀ {l : List (Nat × β)}, lookupKey l k = some v → (k, v) ∈ l
  | [], h => by cases h
  | (j, w) :: l, h => by
    rw [lookupKey] at h
    split_ifs at h with hjk
    · cases h
      rw [hjk]
      exact List.mem_cons_self
    · exact List.mem_cons_of_mem _ (mem_of_lookupKey h)

theorem serviceEntries_get {c : Cell} {k : Nat} {e : ServiceEntry} (h : (serviceEntries c)[k]? = some e) :
    e = serviceEntry (slice c.body (16 * k) 16) := by
  obtain ⟨hk, he⟩ := List.getElem?_eq_some_iff.mp h
  simpa [serviceEntries] using he.symm

/-- Block k of the entries of a passing cell. -/
def answeredBlock (c : Cell) (as : List (Nat × ServiceEntry)) (k : Nat) : List Byte :=
  match lookupKey as (k + 1) with
  | some e => serviceBytes { e with value := e.value.take 8 }
  | none => slice c.body (16 * k) 16

theorem length_answeredBlock_le (c : Cell) (as : List (Nat × ServiceEntry)) (k : Nat) : (answeredBlock c as k).length ≤ 16 := by
  rw [answeredBlock]
  cases lookupKey as (k + 1) with
  | some e => exact (length_serviceBytes (List.length_take_le 8 _)).le
  | none => exact List.length_take_le 16 _

theorem length_answeredBlock {c : Cell} (as : List (Nat × ServiceEntry)) {k : Nat} (hbody : c.body.length = 240) (hk : k < 15) :
    (answeredBlock c as k).length = 16 := by
  rw [answeredBlock]
  cases lookupKey as (k + 1) with
  | some e => exact length_serviceBytes (List.length_take_le 8 _)
  | none => exact length_slice (by omega)

theorem answeredCell_body (c : Cell) (as : List (Nat × ServiceEntry)) :
    (answeredCell c as).body = (List.range 15).flatMap (answeredBlock c as) := rfl

theorem slice_answeredCell {c : Cell} {as : List (Nat × ServiceEntry)} {k : Nat} (hbody : c.body.length = 240) (hk : k < 15) :
    slice (answeredCell c as).body (16 * k) 16 = answeredBlock c as k := by
  have hpad : (answeredCell c as).body = (List.range 15).flatMap fun i => padTo 16 (answeredBlock c as i) := by
    rw [answeredCell_body]
    refine List.flatMap_congr fun i hi => (padTo_of_length ?_).symm
    rw [length_answeredBlock as hbody (List.mem_range.mp hi)]
  rw [hpad, slice_flatMap (fun i => by rw [length_padTo, max_eq_left (length_answeredBlock_le c as i)]) (by simpa using hk)]
  simp [padTo_of_length (length_answeredBlock as hbody hk).ge]

theorem slice_slice {α : Type} {l : List α} {a n o m : Nat} (h : o + m ≤ n) : slice (slice l a n) o m = slice l (a + o) m := by
  rw [slice, slice, slice, List.drop_take, List.take_take, List.drop_drop, min_eq_left (by omega)]

/-- In a passing sweep only the STATUS and the VALUE of entries for this tile change. -/
theorem sweepWork_blocks {s : State} {p : Nat} {c : Cell} {k : Nat} (hbody : c.body.length = 240) (hk : k < 15) :
    let d := answeredCell c (s.sweepWork p c).1
    slice d.body (16 * k) 6 = slice c.body (16 * k) 6 ∧ slice d.body (16 * k + 7) 1 = slice c.body (16 * k + 7) 1 ∧
      (cellField c (16 * k) 2 ≠ s.address ∨ cellField c (16 * k) 2 = 0xFFFF ∨ c.turned = true →
        slice d.body (16 * k) 16 = slice c.body (16 * k) 16) := by
  intro d
  have hblock := slice_answeredCell (as := (s.sweepWork p c).1) hbody hk
  have hsix (l : List Byte) : slice l (16 * k) 6 = slice (slice l (16 * k) 16) 0 6 :=
    (slice_slice (o := 0) (m := 6) (n := 16) (by decide)).symm
  have hlabel (l : List Byte) : slice l (16 * k + 7) 1 = slice (slice l (16 * k) 16) 7 1 :=
    (slice_slice (by decide)).symm
  rw [hsix, hsix, hlabel, hlabel, hblock, answeredBlock]
  cases hx : lookupKey (s.sweepWork p c).1 (k + 1) with
  | none => exact ⟨rfl, rfl, fun _ => rfl⟩
  | some x =>
    have hmem := mem_of_lookupKey hx
    cases hturn : c.turned with
    | true => simp [State.sweepWork, hturn] at hmem
    | false =>
      rw [State.sweepWork, hturn] at hmem
      obtain ⟨e, -, he, hask, ht, hb⟩ := sweepEntries_answer 15 hmem
      rw [Nat.add_sub_cancel] at he
      have hentry := serviceEntries_get he
      have htarget : cellField c (16 * k) 2 = e.target := by
        rw [hentry, cellField, ← Nat.add_zero (16 * k), ← slice_slice (n := 16) (o := 0) (m := 2) (by decide)]
        rfl
      subst hentry
      obtain ⟨h6, h1⟩ := serviceBytes_of_sameAsk (x := { x with value := x.value.take 8 }) (length_slice (by omega))
        ⟨hask.target, hask.key, hask.op, hask.label⟩
      refine ⟨h6, h1, fun h => ?_⟩
      rw [htarget] at h
      rcases h with h | h | h
      · exact absurd ht h
      · exact absurd h hb
      · cases h

end Sys2Proof.Machine
end

section
namespace Sys2Proof.Machine

/-! #### A sweep of one entry -/

theorem answeredCell_nil {c : Cell} (hbody : c.body.length = 240) : answeredCell c [] = c := by
  have hall : (answeredCell c []).body = c.body := flatMap_slice 16 15 hbody
  exact congrArg (fun b => { c with body := b }) hall

/-- An answer in the first entry of a cell leaves the rest of its body. -/
theorem answeredCell_first {c : Cell} {x : ServiceEntry} (hbody : c.body.length = 240) (hx : x.value.length ≤ 8) :
    answeredCell c [(1, x)] = { c with body := serviceBytes x ++ c.body.drop 16 } := by
  have hrest : (fun k => answeredBlock c [(1, x)] (k + 1)) = fun k => slice (c.body.drop 16) (16 * k) 16 := by
    funext k
    rw [answeredBlock, slice, slice, List.drop_drop, Nat.mul_succ, Nat.add_comm (16 * k)]
    simp [lookupKey]
  have hfirst : answeredBlock c [(1, x)] 0 = serviceBytes x := by
    show serviceBytes { x with value := x.value.take 8 } = _
    rw [List.take_of_length_le hx]
  have hall : (answeredCell c [(1, x)]).body = serviceBytes x ++ c.body.drop 16 := by
    rw [answeredCell_body, List.range_succ_eq_map, List.flatMap_cons, List.flatMap_map, hfirst]
    show _ ++ (List.range 14).flatMap (fun k => answeredBlock c [(1, x)] (k + 1)) = _
    rw [hrest, flatMap_slice 16 14 (by rw [List.length_drop, hbody])]
  exact congrArg (fun b => { c with body := b }) hall

section
variable {s : State} {p : Nat} {c : Cell} {e : ServiceEntry}

/-- The cell of one entry with an answer in that entry. -/
theorem answeredCell_one {x : ServiceEntry} (hv : e.value.length = 8) (hx : x.value.length ≤ 8)
    (hbody : c.body = padTo 240 (serviceBytes e)) :
    answeredCell c [(1, x)] = { c with body := padTo 240 (serviceBytes x) } := by
  have hlen := length_serviceBytes hv.le
  rw [answeredCell_first (by rw [hbody, length_padTo, hlen]; rfl) hx, hbody]
  congr 1
  rw [padTo, padTo, hlen, length_serviceBytes hx, List.drop_left' hlen]

/-- What a tile does with a sweep of one entry is what it does with that entry. -/
theorem sweepWork_one (hlen : c.len = 16) (hturn : c.turned = false) (hbody : c.body = padTo 240 (serviceBytes e))
    (hread : serviceEntry (serviceBytes e) = e) (hv : e.value.length = 8) : s.sweepWork p c =
      let r := s.sweepEntry p c [] 1 s.hid.link.deferred.length e 1
      (r.1.toList.map (fun x => (1, x)), r.2.toList) := by
  have h16 := length_serviceBytes hv.le
  have hfirst : slice c.body 0 16 = serviceBytes e := by
    rw [hbody, padTo, slice_append_left _ (by omega), slice, List.drop_zero, List.take_of_length_le h16.le]
  have hentries : serviceEntries c = [e] := by simp [serviceEntries, hlen, ceilDiv, hfirst, hread]
  simp [State.sweepWork, hturn, hentries, groupEntries, State.sweepEntries_cons, State.sweepEntries]

/-- The status of an entry for the tile: CORE in reset before a full queue, and that before a fast READ (R126). -/
theorem passingStatus_own {w : Nat} (ht : e.target = s.address) (hst : e.status = 0xFF) : s.passingStatus w e =
    some (if s.hid.reset.coreHeld || !s.up .core then Status.unavailable else if 64 ≤ w then Status.busy
      else if e.op == 1 && s.isFast e.key && s.served e.key then Status.ok else Status.deferred) := by
  rw [State.passingStatus, if_neg (by simp [ht, hst])]
  split_ifs <;> simp_all

end

/-- Settles O31: what a tile does with a sweep is one function of its entries; an answer keeps what it answers, so that
every other byte of the cell passes as it came. -/
theorem sweepsPassATile : Obligations.SweepsPassATile := by
  intro s p lanes c hs hshape htile hp hlink hup hc hkind hlost hslot q leaves
  have hexec := receiveSlot_sweep htile hp hlink hup hc hkind hlost hslot
  have hleaves := sweptOn_leaves (c := c) hshape hp
  have hbody : c.body.length = 240 := by simp_all [Cell.wf]
  refine ⟨⟨_, hexec, _, hleaves, rfl, fun k hk => sweepWork_blocks hbody hk⟩, ?_⟩
  intro e hlen hturn hb ht hk ho hst hl hv passes d fast held full
  have hwork := sweepWork_one (s := s) (p := p) hlen hturn hb (serviceEntry_serviceBytes ht hk ho hst hl hv) hv
  have hpasses (as : List (Nat × ServiceEntry)) (ds : List Deferred) (e' : ServiceEntry)
      (hw : s.sweepWork p c = (as, ds)) (hcell : answeredCell c as = { c with body := padTo 240 (serviceBytes e') }) :
      passes e' ds (owedFor p c ds) := by
    rw [hw, hcell] at hleaves
    refine ⟨_, hexec, hleaves, ?_⟩
    simp only [State.sweptOn, hw]
  have hsilent (o : Option Deferred) (hentry : s.sweepEntry p c [] 1 s.hid.link.deferred.length e 1 = (none, o)) :
      passes e o.toList (owedFor p c o.toList) := by
    refine hpasses [] _ e (by rw [hwork, hentry]; rfl) ?_
    rw [answeredCell_nil hbody, ← hb]
  have hanswer (x : ServiceEntry) (o : Option Deferred) (hx : x.value.length ≤ 8)
      (hentry : s.sweepEntry p c [] 1 s.hid.link.deferred.length e 1 = (some x, o)) :
      passes x o.toList (owedFor p c o.toList) :=
    hpasses [(1, x)] _ x (by rw [hwork, hentry]; rfl) (answeredCell_one hv hx hb)
  refine ⟨fun hnot hcast => hsilent none ?_, fun hcast => ⟨fun hdrop => hsilent none ?_, fun hfree hroom => ?_⟩,
    fun hown hcast hunset => ?_⟩
  · rw [sweepEntry_unicast hcast, passingStatus_none hnot]
  · rw [sweepEntry_broadcast hcast, if_pos]
    simpa [held, full, or_assoc, or_comm, or_left_comm] using hdrop
  · have hentry : s.sweepEntry p c [] 1 s.hid.link.deferred.length e 1 = (none, some d) := by
      rw [sweepEntry_broadcast hcast, if_neg]
      · rfl
      · simpa [held, full, and_assoc] using And.intro (Nat.not_le.mp hroom) hfree
    have howed : owedFor p c [d] = [] := by simp [owedFor, d, hcast]
    exact howed ▸ hsilent (some d) hentry
  · have hunicast := sweepEntry_unicast (s := s) (p := p) (c := c) (i := 1) (w := s.hid.link.deferred.length) (n := 1) hcast
    rw [passingStatus_own hown hunset] at hunicast
    have howed : owedFor p c [d] = [⟨p, c.queue % 512, c.src, c.fromEnd, 1, [], c.seq⟩] := by simp [owedFor, d, hcast]
    have hnot {b : Bool} (hb : b = false) : ¬ b = true := Bool.eq_false_iff.mp hb
    refine ⟨fun hheld => hanswer _ none hv.le ?_, fun hfree hfull => hanswer _ none hv.le ?_,
      fun hfree hroom hfast => hanswer _ none (length_bytesLE _ _).le ?_, fun hfree hroom hslow => ?_⟩
    · rw [hunicast, if_pos hheld]
      rfl
    · rw [hunicast, if_neg (hnot hfree), if_pos hfull]
      rfl
    · rw [hunicast, if_neg (hnot hfree), if_neg hroom, if_pos hfast]
      rfl
    · refine howed ▸ hanswer _ (some d) hv.le ?_
      rw [hunicast, if_neg (hnot hfree), if_neg hroom, if_neg (hnot hslow)]
      rfl

end Sys2Proof.Machine
end

section
namespace Sys2Proof.Machine

/-! ### Duplicates of a QUEUE cell and the digests kept (O37)

What the model keeps of a copy is its digest, with the copy's END above it at bit 32 (`recordDigest`). The statement quantifies
over every entry of the digest table, and compares the low 32 bits only. Nothing in `State.sound` keeps an entry below 2^33:
of a larger one `compareDuplicate` adds the part above the digest into the word of 2101h.08, where it carries into bit 59. -/

/-- A one-cell message of queue 0. -/
def copiedCell : Cell := ⟨1, false, false, false, false, 0, 0, 0, true, true, 0, 0, zeroBytes 240, 0⟩

/-- What is kept of the copy that was taken before: another digest, and 2 in place of its END. -/
def keptCopy : Nat × Nat × Nat := (0, 0, 2 ^ 33 + (cellDigest copiedCell + 1) % 2 ^ 32)

/-- A tile that has taken sequence number 0 of queue 0 and receives it again. -/
def receivedTwice : State :=
  { State.reset with
    regs := [(0x1100, 6, 0x3F), (0x1001, 1, 3)].foldl (fun r e => setValue .tile r (keyOf e.1 e.2.1) e.2.2) []
    hid := { Hidden.initial with
      link := { LinkState.initial with rx := [(0, copiedCell)] }
      pair := { PairState.initial with windows := [(0, ⟨0, 1⟩)], digests := [keptCopy] } } }

/-- It is a tile in a sound state, and holds the cell and the window of its queue. -/
theorem receivedTwice_receives : receivedTwice.sound = true ∧ receivedTwice.isTile = true ∧
    receivedTwice.takeCell (fun x => x.2.kind == 1) = some ((0, copiedCell), []) ∧
    lookupKey receivedTwice.hid.pair.windows (copiedCell.queue % 512) = some ⟨0, 1⟩ := by decide +kernel

/-- The cell is a duplicate whose digest differs from the one kept, and no divergence is shown yet. -/
theorem receivedTwice_differs : keptCopy.2.2 % 2 ^ 32 ≠ cellDigest copiedCell ∧
    receivedTwice.hid.pair.digests.find? (fun x => x.1 == copiedCell.queue && x.2.1 == copiedCell.seq) = some keptCopy ∧
    receivedTwice.flag 0x2101 8 59 = false := by decide +kernel

/-- The divergence is not shown afterwards. -/
theorem receivedTwice_unmarked :
    Completes .queueCellReceive receivedTwice fun t => t.flag 0x2101 8 59 = false := ⟨_, rfl, by decide +kernel⟩

/-- Refutes O37: a kept copy with 2 above its digest carries out of the bit that marks the divergence. -/
theorem not_queueCellsPassTheirWindow : ¬ Obligations.QueueCellsPassTheirWindow := by
  rintro ⟨-, hduplicates, -⟩
  obtain ⟨hs, htile, htake, hwindow⟩ := receivedTwice_receives
  obtain ⟨hdiffers, hkept, hunmarked⟩ := receivedTwice_differs
  obtain ⟨u, hu, hnot⟩ := receivedTwice_unmarked
  obtain ⟨-, hseen⟩ := hduplicates receivedTwice 0 copiedCell [] ⟨0, 1⟩ hs htile htake hwindow
  obtain ⟨-, -, hdivergent⟩ := hseen (by decide) (by decide) (by decide)
  obtain ⟨t, ht, -, -, -, -, hmark, -⟩ := hdivergent keptCopy hkept hdiffers
  obtain rfl : u = t := Host.Outcome.next.inj (hu.symm.trans ht)
  obtain ⟨hshown, -⟩ := hmark hunmarked (by decide) (by decide)
  exact Bool.false_ne_true (hnot.symm.trans hshown)

end Sys2Proof.Machine
end

section
namespace Sys2Proof.Machine

/-! ### The ALIGN slot that answers an ALIGN slot (O32)

The statement writes the slot that a tile sends on its other port with the hops that the receiving port held before. The
model records the fields of the received slot first (`recordAlign`) and then sends its own (`alignSlot`), so that the hops in
it are counted from those that have just arrived, as R121 asks. -/

/-- Levels give back the bits of which they were made. -/
theorem grayBits_levelsOf : ∀ bits : List Bool, bits.length % 2 = 0 → (levelsOf bits).flatMap grayBits = bits
  | [], _ => rfl
  | [_], h => absurd h (by simp)
  | a :: b :: r, h => by
    have hr : r.length % 2 = 0 := by simp only [List.length_cons] at h; omega
    have hpair : grayBits (grayLevel a b) = [a, b] := by cases a <;> cases b <;> rfl
    rw [levelsOf, List.flatMap_cons, hpair, grayBits_levelsOf r hr]
    rfl

theorem length_blockBits (b : Block) : (blockBits b).length = 146 := by simp [blockBits]

theorem levelsOf_length : ∀ bits : List Bool, (levelsOf bits).length = bits.length / 2
  | [] => rfl
  | [_] => by simp [levelsOf]
  | _ :: _ :: r => by simp only [levelsOf, List.length_cons, levelsOf_length r]; omega

theorem blockLevels_length (b : Block) : (blockLevels b).length = 73 := by
  rw [blockLevels, levelsOf_length, length_blockBits]

/-- Two blocks with the same symbols carry the same codeword. -/
theorem code_eq_of_blockLevels {b c : Block} (h : blockLevels b = blockLevels c) : b.code = c.code := by
  have hbits : blockBits b = blockBits c := by
    have hread := congrArg (List.flatMap grayBits) h
    rwa [blockLevels, blockLevels, grayBits_levelsOf _ (by rw [length_blockBits]),
      grayBits_levelsOf _ (by rw [length_blockBits])] at hread
  have hcode := (List.append_inj hbits (by simp)).2
  refine BitVec.eq_of_getLsbD_eq fun i hi => ?_
  have hbit := List.map_inj_left.mp hcode i (List.mem_range.mpr hi)
  simpa [bitAt, BitVec.getLsbD, Nat.testBit_eq_decide_div_mod_eq] using hbit

/-- The first block of a slot can be read off its lanes. -/
theorem blockLevels_of_slotLanes {a b : List Block} (h : slotLanes a = slotLanes b) :
    blockLevels (a.getD 0 ⟨0, 0⟩) = blockLevels (b.getD 0 ⟨0, 0⟩) := by
  have hlane := congrArg (fun l => (l.getD 0 []).take 73) h
  simpa [slotLanes, List.range_succ, List.take_append, blockLevels_length] using hlane

/-- Two ALIGN slots with the same symbols carry the same bytes on lane 0. -/
theorem lane_eq_of_slotLanes {f g : Nat → List Byte} (h : slotLanes (alignSlotBlocks f) = slotLanes (alignSlotBlocks g))
    (hf : (f 0).length = 16) (hg : (g 0).length = 16) : f 0 = g 0 := by
  have hcode : encodeWord (f 0) = encodeWord (g 0) := code_eq_of_blockLevels (blockLevels_of_slotLanes h)
  have hread := decodeWord_encodeWord hf
  rw [hcode, decodeWord_encodeWord hg] at hread
  exact (congrArg Prod.fst hread).symm

/-- The hops that a tile's ALIGN slot carries in byte 4. -/
theorem alignLane_hops {s : State} {p seed lane : Nat} (h : s.isSender = false) : (s.alignLane p seed lane).getD 4 0 =
    BitVec.ofNat 8 (if (s.port (opposite p)).hops = 0x3F then 0x3F else min 0x3E ((s.port (opposite p)).hops + 1)) := by
  simp [State.alignLane, h, bytesLE]

theorem alignLane_length (s : State) (p seed lane : Nat) : (s.alignLane p seed lane).length = 16 := by
  simp [State.alignLane, length_bytesLE]

/-- The blocks of an ALIGN slot from a tile that is the first of its chain. -/
def firstOfChain (lane : Nat) : List Byte := [0xA7] ++ bytesLE 1 lane ++ [1, 1, 0] ++ zeroBytes 11

/-- The slot as it arrives. -/
@[irreducible] def alignArriving : List (List Level) := slotLanes (alignSlotBlocks firstOfChain)

/-- A tile with both ports UP, which knows no hops yet. -/
@[irreducible] def hopsUnknown : State :=
  { State.reset with
    regs := [(0x1100, 6, 0x3F), (0x1001, 1, 3), (0x2000, 2, 6), (0x2001, 2, 6)].foldl
      (fun r e => setValue .tile r (keyOf e.1 e.2.1) e.2.2) [] }

theorem hopsUnknown_up : hopsUnknown.sound = true ∧ hopsUnknown.shaped = true ∧ hopsUnknown.portLive 0 = true ∧
    hopsUnknown.portUp 0 = true ∧ hopsUnknown.portUp (1 - 0) = true ∧ hopsUnknown.isTile = true := by decide +kernel

theorem alignArriving_blocks :
    alignBlocks (hopsUnknown.slotIn 0 alignArriving) = some ((List.range 4).map firstOfChain) := by decide +kernel

/-- The tile once the slot's blocks are counted and its fields recorded. -/
@[irreducible] def hopsRecorded : State := (recordAlign 0 ((List.range 4).map firstOfChain)).run
  ((countBlocks 0 (decodeSlot 0b10 (hopsUnknown.slotIn 0 alignArriving))).run hopsUnknown)

theorem hopsRecorded_hops : hopsRecorded.isTile = true ∧ hopsRecorded.portUp (opposite 0) = true ∧
    hopsRecorded.outputs = hopsUnknown.outputs ∧ hopsRecorded.isSender = false ∧ (hopsRecorded.port 0).hops = 0 ∧
    hopsUnknown.isSender = false ∧ (hopsUnknown.port 0).hops = 0x3F := by decide +kernel

/-- A slot on a port in UP. -/
theorem exec_receiveSlot_up {s : State} {p : Nat} {lanes : List (List Level)} (hlive : s.portLive p = true)
    (hup : s.portUp p = true) : exec (.receiveSlot p lanes) s = .next ((upSlot p (s.slotIn p lanes)).run s) := by
  have hsix : s.link p = 6 := by simpa [State.portUp] using hup
  show perform _ _ = _
  rw [perform_eq, hlive, Effect.run_when_true, hsix]
  rfl

/-- What a port sends as its own ALIGN slot. -/
theorem sendAlign_outputs (s : State) (p : Nat) : ((sendAlign p).run s).outputs = s.outputs ++
    [.slot p (slotLanes (alignSlotBlocks fun l => s.alignLane p ((laneSeeds (s.freeValue 232)).getD l 0) l))] := rfl

/-- An ALIGN slot on a port of a tile whose other port is UP once the slot is recorded. -/
theorem upSlot_align {s t : State} {p : Nat} {raw : List Block} {bs : List (List Byte)} (h : alignBlocks raw = some bs)
    (ht : (recordAlign p bs).run ((countBlocks p (decodeSlot 0b10 raw)).run s) = t) (htile : t.isTile = true)
    (hup : t.portUp (opposite p) = true) : (upSlot p raw).run s = (sendAlign (opposite p)).run t := by
  rw [upSlot, Effect.run_look, if_pos (by rw [h]; rfl), alignSlot, h]
  simp only [Effect.run_all_cons, Effect.run_all_nil, Effect.run_look, ht, htile, hup, Bool.and_self, Effect.run_when_true]

/-- What the tile sends carries the hops recorded. -/
theorem hopsUnknown_answers : Completes (.receiveSlot 0 alignArriving) hopsUnknown fun t => ∃ seeds : List Nat,
    t.outputs = hopsUnknown.outputs ++
      [.slot 1 (slotLanes (alignSlotBlocks fun l => hopsRecorded.alignLane 1 (seeds.getD l 0) l))] := by
  obtain ⟨htile, hup, hout, -⟩ := hopsRecorded_hops
  obtain ⟨-, -, hlive, hlink, -⟩ := hopsUnknown_up
  have hrecorded : (recordAlign 0 ((List.range 4).map firstOfChain)).run
      ((countBlocks 0 (decodeSlot 0b10 (hopsUnknown.slotIn 0 alignArriving))).run hopsUnknown) = hopsRecorded := by
    rw [hopsRecorded]
  exact ⟨_, (exec_receiveSlot_up hlive hlink).trans (congrArg _ (upSlot_align alignArriving_blocks hrecorded htile hup)),
    laneSeeds (hopsRecorded.freeValue 232), hout ▸ sendAlign_outputs hopsRecorded _⟩

/-- Refutes O32: a tile that knew no hops receives the ALIGN slot of the first tile of its chain, and answers with 1 hop where
the statement has 3Fh. -/
theorem not_cellsGoWhereTheyAreTaken : ¬ Obligations.CellsGoWhereTheyAreTaken := by
  rintro ⟨-, hslots, -⟩
  obtain ⟨hs, hshape, hlive, hup, hfar, htile⟩ := hopsUnknown_up
  obtain ⟨-, -, -, hafter, hrecorded, hbefore, hunknown⟩ := hopsRecorded_hops
  obtain ⟨u, hu, seeds, hsent⟩ := hopsUnknown_answers
  obtain ⟨hinUp, -⟩ := hslots hopsUnknown 0 alignArriving hs hshape hlive
  obtain ⟨halign, -⟩ := hinUp hup
  obtain ⟨t, ht, -, -, hout, -⟩ := halign _ alignArriving_blocks
  obtain rfl : u = t := Host.Outcome.next.inj (hu.symm.trans ht)
  have hslot := hsent.symm.trans (hout htile)
  rw [if_pos hfar, List.append_cancel_left_eq, List.singleton_inj, Output.slot.injEq] at hslot
  have hlane := lane_eq_of_slotLanes hslot.2 (alignLane_length ..) (alignLane_length ..)
  have hbyte := congrArg (fun l => l.getD 4 0) hlane
  simp only [alignLane_hops hafter, alignLane_hops hbefore] at hbyte
  rw [show opposite 1 = 0 from rfl, hrecorded, hunknown] at hbyte
  exact absurd hbyte (by decide)

end Sys2Proof.Machine
end

section
namespace Sys2Proof.Machine

/-! ### The erase of an update session (O58)

The statement says of every byte up to the declared length, in whole sectors, that it reads erased after SESSION_ERASE_DONE.
SESSION_OPEN takes lengths to 24 MiB only (`State.openStatus`, R461), but nothing in `State.sound` or `State.shaped` bounds the
length kept of a session that is open. A longer one reaches past the flash, where memory at rest reads 0. -/

/-- A length that reaches over the next space of memory. -/
abbrev lengthPastFlash : Nat := 2 ^ 57

/-- A tile in ERASING with that length declared. -/
def erasingPastFlash : State :=
  { State.reset with
    regs := [(0x1100, 6, 0x3F), (0x1001, 1, 3), (0x1500, 2, 1)].foldl
      (fun r e => setValue .tile r (keyOf e.1 e.2.1) e.2.2) []
    hid := { Hidden.initial with update := { UpdateState.initial with dlen := lengthPastFlash } } }

theorem erasingPastFlash_erases : erasingPastFlash.sound = true ∧ erasingPastFlash.shaped = true ∧
    erasingPastFlash.session = 1 ∧ erasingPastFlash.sessionFlash = true := by decide +kernel

/-- The byte 2^56 bytes into the delta lies inside the length. -/
theorem inside_lengthPastFlash : 2 ^ 56 < ceilDiv erasingPastFlash.hid.update.dlen 65536 * 65536 := by decide +kernel

/-- That byte lies in no flash, and reads 0 after the erase. -/
theorem erasingPastFlash_zero : Completes .sessionEraseDone erasingPastFlash fun t =>
    t.byte (Space.flash.at (Flash.delta + 2 ^ 56)) = 0 := ⟨_, rfl, by decide +kernel⟩

/-- Refutes O58: an erase over a length that reaches past the flash leaves bytes that read 0. -/
theorem not_updateSessionsRun : ¬ Obligations.UpdateSessionsRun := by
  rintro ⟨-, hrun⟩
  obtain ⟨hs, hshape, herasing, hflash⟩ := erasingPastFlash_erases
  obtain ⟨u, hu, hzero⟩ := erasingPastFlash_zero
  obtain ⟨herase, -⟩ := hrun erasingPastFlash hs hshape
  obtain ⟨t, ht, -, herased, -⟩ := herase herasing hflash
  obtain rfl : u = t := Host.Outcome.next.inj (hu.symm.trans ht)
  exact absurd (hzero.symm.trans (herased _ inside_lengthPastFlash)) (by decide)

end Sys2Proof.Machine
end

section
namespace Sys2Proof.Machine

/-! ### Bits and fields of a value, and of an entry

What a bit or a field reads after `withBit`, `withoutBit` and `withField`, and with it after the changes of the state that are
made of them. -/

theorem bitAt_eq_testBit (v i : Nat) : bitAt v i = v.testBit i := by
  rw [bitAt, Nat.testBit_eq_decide_div_mod_eq, beq_eq_decide]

theorem withBit_eq_or (v i : Nat) : withBit v i = v ||| 2 ^ i := by
  refine Nat.eq_of_testBit_eq fun j => ?_
  rw [withBit, bitAt_eq_testBit, Nat.testBit_or, Nat.testBit_two_pow]
  cases hi : v.testBit i with
  | true =>
    rw [if_pos rfl]
    by_cases hj : i = j
    · subst hj; simp [hi]
    · simp [hj]
  | false =>
    rw [if_neg Bool.false_ne_true, Nat.add_comm]
    rcases Nat.lt_trichotomy j i with hj | rfl | hj
    · rw [Nat.testBit_two_pow_add_gt hj]; simp [hj.ne']
    · simp [Nat.testBit_two_pow_add_eq, hi]
    · have hdiv : (2 ^ i + v) / 2 ^ j = v / 2 ^ j := by
        have hlow : v / 2 ^ i % 2 = 0 := by
          rw [Nat.testBit_eq_decide_div_mod_eq, decide_eq_false_iff_not] at hi
          omega
        obtain ⟨d, rfl⟩ := Nat.exists_eq_add_of_lt hj
        rw [show i + d + 1 = i + (1 + d) by omega, Nat.pow_add, ← Nat.div_div_eq_div_mul, ← Nat.div_div_eq_div_mul,
          Nat.add_div_left _ (by positivity), Nat.pow_add, ← Nat.div_div_eq_div_mul, ← Nat.div_div_eq_div_mul]
        congr 1
        omega
      simp [Nat.testBit_eq_decide_div_mod_eq, hdiv, hj.ne]

theorem bitAt_withBit (v i j : Nat) : bitAt (withBit v i) j = (bitAt v j || decide (i = j)) := by
  simp [bitAt_eq_testBit, withBit_eq_or, Nat.testBit_or, Nat.testBit_two_pow]

theorem withoutBit_xor (v i : Nat) : withoutBit v i = if bitAt v i then v ^^^ 2 ^ i else v := by
  rw [withoutBit]
  cases h : bitAt v i with
  | false => rfl
  | true =>
    have hor : (v ^^^ 2 ^ i) + 2 ^ i = v := by
      have hbit : bitAt (v ^^^ 2 ^ i) i = false := by
        rw [bitAt_eq_testBit] at h ⊢
        simp [Nat.testBit_xor, h]
      have hset := withBit_eq_or (v ^^^ 2 ^ i) i
      rw [withBit, hbit, if_neg Bool.false_ne_true] at hset
      rw [hset]
      refine Nat.eq_of_testBit_eq fun j => ?_
      rw [bitAt_eq_testBit] at h
      by_cases hj : i = j
      · subst hj; simp [h]
      · simp [Nat.testBit_or, Nat.testBit_xor, hj]
    simp only [if_true]
    omega

theorem bitAt_withoutBit (v i j : Nat) : bitAt (withoutBit v i) j = (bitAt v j && decide (i ≠ j)) := by
  rw [withoutBit_xor]
  cases h : bitAt v i with
  | false =>
    by_cases hj : i = j
    · subst hj; simp [h]
    · simp [hj]
  | true =>
    rw [bitAt_eq_testBit] at h
    by_cases hj : i = j
    · subst hj; simp [bitAt_eq_testBit, h]
    · simp [bitAt_eq_testBit, hj]

theorem withBit_lt {v i w : Nat} (hv : v < 2 ^ w) (hi : i < w) : withBit v i < 2 ^ w := by
  rw [withBit_eq_or]
  exact Nat.or_lt_two_pow hv (Nat.pow_lt_pow_right (by decide) hi)

theorem withoutBit_le (v i : Nat) : withoutBit v i ≤ v := by
  rw [withoutBit]
  split_ifs
  · exact Nat.sub_le ..
  · exact le_rfl

/-- A value in three parts: above a field, the field, and below it. -/
theorem field_parts (v : Nat) {hi lo : Nat} (h : lo ≤ hi) :
    v = v / 2 ^ (hi + 1) * 2 ^ (hi + 1) + field v hi lo * 2 ^ lo + v % 2 ^ lo := by
  have hpow : 2 ^ (hi + 1) = 2 ^ lo * 2 ^ (hi - lo + 1) := by rw [← Nat.pow_add]; congr 1; omega
  have hlow := Nat.div_add_mod v (2 ^ lo)
  have hhigh := Nat.div_add_mod (v / 2 ^ lo) (2 ^ (hi - lo + 1))
  rw [field, hpow, ← Nat.div_div_eq_div_mul]
  calc v = 2 ^ lo * (v / 2 ^ lo) + v % 2 ^ lo := hlow.symm
    _ = 2 ^ lo * (2 ^ (hi - lo + 1) * (v / 2 ^ lo / 2 ^ (hi - lo + 1)) + v / 2 ^ lo % 2 ^ (hi - lo + 1)) + v % 2 ^ lo := by
      rw [hhigh]
    _ = _ := by ring

theorem withField_parts (v x : Nat) {hi lo : Nat} (h : lo ≤ hi) : withField v hi lo x =
    v / 2 ^ (hi + 1) * 2 ^ (hi + 1) + x % 2 ^ (hi - lo + 1) * 2 ^ lo + v % 2 ^ lo := by
  have hparts := field_parts v h
  rw [withField]
  omega

/-- Below a field that is replaced, and above it, a value is as before. -/
theorem withField_mod (v x : Nat) {hi lo : Nat} (h : lo ≤ hi) : withField v hi lo x % 2 ^ lo = v % 2 ^ lo := by
  have hpow : 2 ^ (hi + 1) = 2 ^ (hi - lo + 1) * 2 ^ lo := by rw [← Nat.pow_add]; congr 1; omega
  rw [withField_parts v x h, hpow, ← Nat.mul_assoc, ← Nat.add_mul, Nat.mul_add_mod_self_right, Nat.mod_mod]

theorem withField_div (v x : Nat) {hi lo : Nat} (h : lo ≤ hi) :
    withField v hi lo x / 2 ^ lo = v / 2 ^ (hi + 1) * 2 ^ (hi - lo + 1) + x % 2 ^ (hi - lo + 1) := by
  have hpow : 2 ^ (hi + 1) = 2 ^ (hi - lo + 1) * 2 ^ lo := by rw [← Nat.pow_add]; congr 1; omega
  rw [withField_parts v x h, hpow, ← Nat.mul_assoc, ← Nat.add_mul, Nat.add_comm, Nat.add_mul_div_right _ _ (by positivity),
    Nat.div_eq_of_lt (Nat.mod_lt _ (by positivity)), Nat.zero_add]

theorem field_withField_self (v x : Nat) {hi lo : Nat} (h : lo ≤ hi) :
    field (withField v hi lo x) hi lo = x % 2 ^ (hi - lo + 1) := by
  rw [field, withField_div v x h, Nat.mul_add_mod_self_right, Nat.mod_mod]

theorem field_withField_above (v x : Nat) {hi lo hi' lo' : Nat} (h : lo ≤ hi) (ha : hi < lo') :
    field (withField v hi lo x) hi' lo' = field v hi' lo' := by
  have hdiv : withField v hi lo x / 2 ^ (hi + 1) = v / 2 ^ (hi + 1) := by
    have hpow : 2 ^ (hi + 1) = 2 ^ lo * 2 ^ (hi - lo + 1) := by rw [← Nat.pow_add]; congr 1; omega
    rw [hpow, ← Nat.div_div_eq_div_mul, withField_div v x h, Nat.add_comm, Nat.add_mul_div_right _ _ (by positivity),
      Nat.div_eq_of_lt (Nat.mod_lt _ (by positivity)), Nat.zero_add, hpow]
  have hpow : 2 ^ lo' = 2 ^ (hi + 1) * 2 ^ (lo' - (hi + 1)) := by rw [← Nat.pow_add]; congr 1; omega
  rw [field, field, hpow, ← Nat.div_div_eq_div_mul, ← Nat.div_div_eq_div_mul, hdiv]

theorem field_withField_below (v x : Nat) {hi lo hi' lo' : Nat} (h : lo ≤ hi) (hb : hi' < lo) (h' : lo' ≤ hi') :
    field (withField v hi lo x) hi' lo' = field v hi' lo' := by
  have hcut (u : Nat) : field u hi' lo' = field (u % 2 ^ lo) hi' lo' := by
    have hpow : 2 ^ lo = 2 ^ lo' * 2 ^ (lo - lo') := by rw [← Nat.pow_add]; congr 1; omega
    rw [field, field, hpow, Nat.mod_mul_right_div_self, Nat.mod_mod_of_dvd _ (Nat.pow_dvd_pow _ (by omega))]
  rw [hcut, withField_mod v x h, ← hcut]

theorem bitAt_eq_field (v i : Nat) : bitAt v i = (field v i i == 1) := by simp [bitAt, field]

theorem field_lt (v hi lo : Nat) : field v hi lo < 2 ^ (hi - lo + 1) := Nat.mod_lt _ (by positivity)

theorem withField_lt {v x w hi lo : Nat} (h : lo ≤ hi) (hw : hi < w) (hv : v < 2 ^ w) : withField v hi lo x < 2 ^ w := by
  obtain ⟨d, rfl⟩ := Nat.exists_eq_add_of_lt hw
  have hx := Nat.mod_lt x (show 0 < 2 ^ (hi - lo + 1) by positivity)
  have hr := Nat.mod_lt v (show 0 < 2 ^ lo by positivity)
  have hhigh : v / 2 ^ (hi + 1) < 2 ^ d := by
    rw [Nat.div_lt_iff_lt_mul (by positivity), ← Nat.pow_add]
    rwa [show d + (hi + 1) = hi + d + 1 by omega]
  have hpow : 2 ^ (hi + 1) = 2 ^ (hi - lo + 1) * 2 ^ lo := by rw [← Nat.pow_add]; congr 1; omega
  have hall : 2 ^ (hi + d + 1) = 2 ^ d * 2 ^ (hi + 1) := by rw [← Nat.pow_add]; congr 1; omega
  rw [withField_parts v x h, hall]
  calc v / 2 ^ (hi + 1) * 2 ^ (hi + 1) + x % 2 ^ (hi - lo + 1) * 2 ^ lo + v % 2 ^ lo
      < v / 2 ^ (hi + 1) * 2 ^ (hi + 1) + (x % 2 ^ (hi - lo + 1) + 1) * 2 ^ lo := by rw [Nat.add_mul]; omega
    _ ≤ v / 2 ^ (hi + 1) * 2 ^ (hi + 1) + 2 ^ (hi + 1) := by
      rw [hpow]
      exact Nat.add_le_add_left (Nat.mul_le_mul_right _ hx) _
    _ = (v / 2 ^ (hi + 1) + 1) * 2 ^ (hi + 1) := by ring
    _ ≤ 2 ^ d * 2 ^ (hi + 1) := Nat.mul_le_mul_right _ hhigh

theorem satAdd_lt (w v n : Nat) : satAdd w v n < 2 ^ w := by
  have := Nat.two_pow_pos w
  rw [satAdd]
  omega

/-! #### Entries -/

theorem State.entry_lt {s : State} {k : Key} {w : Nat} (hs : s.sound = true) (h : settable s.pers k w = true) :
    s.entry k < 2 ^ w := by
  obtain ⟨r, hr, hprop⟩ := (Option.any_eq_true _ _).mp h
  obtain ⟨-, rfl⟩ : r.acc ≠ .konst ∧ r.ty.width = w := by simpa using hprop
  exact valueOf_lt ((State.sound_iff s).mp hs).2 hr

theorem set_entry {s : State} {i sub v w : Nat} (hs : s.sound = true) (h : settable s.pers (keyOf i sub) w = true) :
    ((set i sub v).run s).entry (keyOf i sub) = v % 2 ^ w := by
  rw [set_run, State.entry_set_mod hs h, if_pos rfl]

theorem addTo_entry {s : State} {i sub w n : Nat} (hs : s.sound = true) (h : settable s.pers (keyOf i sub) w = true) :
    ((addTo w i sub n).run s).entry (keyOf i sub) = satAdd w (s.entry (keyOf i sub)) n :=
  State.entry_set_of_settable hs h (satAdd_lt ..)

theorem count_entry {s : State} {i sub w : Nat} (hs : s.sound = true) (h : settable s.pers (keyOf i sub) w = true) :
    ((count w i sub).run s).entry (keyOf i sub) = satAdd w (s.entry (keyOf i sub)) 1 := addTo_entry hs h

theorem setField_entry {s : State} {i sub hi lo v w : Nat} (hs : s.sound = true)
    (h : settable s.pers (keyOf i sub) w = true) (hlo : lo ≤ hi) (hw : hi < w) :
    ((setField i sub hi lo v).run s).entry (keyOf i sub) = withField (s.entry (keyOf i sub)) hi lo v :=
  State.entry_set_of_settable hs h (withField_lt hlo hw (State.entry_lt hs h))

theorem addField_entry {s : State} {i sub hi lo n w : Nat} (hs : s.sound = true)
    (h : settable s.pers (keyOf i sub) w = true) (hlo : lo ≤ hi) (hw : hi < w) :
    ((addField i sub hi lo n).run s).entry (keyOf i sub) = withField (s.entry (keyOf i sub)) hi lo
      (satAdd (hi - lo + 1) (field (s.entry (keyOf i sub)) hi lo) n) :=
  setField_entry hs h hlo hw

theorem addField_field {s : State} {i sub hi lo n w : Nat} (hs : s.sound = true)
    (h : settable s.pers (keyOf i sub) w = true) (hlo : lo ≤ hi) (hw : hi < w) :
    field (((addField i sub hi lo n).run s).entry (keyOf i sub)) hi lo =
      satAdd (hi - lo + 1) (field (s.entry (keyOf i sub)) hi lo) n := by
  rw [addField_entry hs h hlo hw, field_withField_self _ _ hlo, Nat.mod_eq_of_lt (satAdd_lt ..)]

theorem setBit_entry {s : State} {i sub b w : Nat} {on : Bool} (hs : s.sound = true)
    (h : settable s.pers (keyOf i sub) w = true) (hb : b < w) : ((setBit i sub b on).run s).entry (keyOf i sub) =
      if on then withBit (s.entry (keyOf i sub)) b else withoutBit (s.entry (keyOf i sub)) b := by
  have hlt := State.entry_lt hs h
  refine State.entry_set_of_settable hs h ?_
  cases on
  · exact (withoutBit_le _ _).trans_lt hlt
  · exact withBit_lt hlt hb

/-- A bit of the entry after one of its bits is set or cleared. -/
theorem bitAt_setBit {s : State} {i sub b w : Nat} {on : Bool} (hs : s.sound = true)
    (h : settable s.pers (keyOf i sub) w = true) (hb : b < w) (j : Nat) :
    bitAt (((setBit i sub b on).run s).entry (keyOf i sub)) j = if j = b then on else bitAt (s.entry (keyOf i sub)) j := by
  rw [setBit_entry hs h hb]
  rw [apply_ite (bitAt · j), bitAt_withBit, bitAt_withoutBit]
  by_cases hj : j = b
  · subst hj; cases on <;> simp
  · cases on <;> simp [hj, Ne.symm hj]

end Sys2Proof.Machine
end

section
namespace Sys2Proof.Machine

/-! ### Entries through a row of acts, and values at a door

What an entry reads after the acts that concern no entry, the form in which `simp` computes it after those that do, and the
write of a value to an entry with a behaviour of its own. -/

theorem State.isSender_iff {s : State} : s.isSender = true ↔ s.pers = .sender := by simp [State.isSender]
theorem State.isTile_iff {s : State} : s.isTile = true ↔ s.pers = .tile := by simp [State.isTile]

@[simp] theorem Act.hid_entry (s : State) (f : Hidden → Hidden) (k : Key) : ((Act.hid f).apply s).entry k = s.entry k := rfl
@[simp] theorem Act.out_entry (s : State) (o : Output) (k : Key) : ((Act.out o).apply s).entry k = s.entry k := rfl
@[simp] theorem Act.store_entry (s : State) (a : Nat) (bs : List Byte) (k : Key) :
    ((Act.store a bs).apply s).entry k = s.entry k := rfl

/-- An entry of a personality after it is set, in any sound state of that personality. -/
theorem reg_entry_of {p : Personality} {k : Key} {w : Nat} (h : settable p k w = true) (u : State) (hu : u.sound = true)
    (hp : u.pers = p) (v : Nat) (q : Key) : ((Act.reg k v).apply u).entry q = if q = k then v % 2 ^ w else u.entry q :=
  State.entry_set_mod hu (hp ▸ h)

theorem keyOf_eq_keyOf (i a b : Nat) : keyOf i a = keyOf i b ↔ a = b := by simp [keyOf]

/-- Entries of an object that are set one after the other, each once, read as what each was set to. -/
theorem sets_entry {i w : Nat} {f : Nat → Nat} {l : List Nat} {s : State} (hs : s.sound = true)
    (hset : ∀ a ∈ l, settable s.pers (keyOf i a) w = true) (hl : l.Nodup) :
    ∀ a ∈ l, ((Effect.each (fun a => set i a (f a)) l).run s).entry (keyOf i a) = f a % 2 ^ w := by
  induction l generalizing s with
  | nil => simp
  | cons b l ih =>
    intro a ha
    obtain ⟨hb, hl⟩ := List.nodup_cons.mp hl
    have hu : ((set i b (f b)).run s).sound = true := Effect.run_sound _ hs
    rw [Effect.run_each_cons]
    rcases List.mem_cons.mp ha with rfl | ha
    · have hrest : (Effect.each (fun a => set i a (f a)) l).Writes (· ≠ keyOf i a) := by
        rw [Effect.writes_each]
        intro c hc h
        exact hb ((keyOf_eq_keyOf i c a).mp h ▸ hc)
      exact ((hrest.keeps (fun h => h rfl) hu).2).trans (set_entry hs (hset a ha))
    · exact ih hu (fun c hc => hset c (List.mem_cons_of_mem b hc)) hl a ha

theorem satAdd_mod (w v n : Nat) : satAdd w v n % 2 ^ w = satAdd w v n := Nat.mod_eq_of_lt (satAdd_lt ..)

/-- Nothing but the almanac's engine and the door's marks stands between two states that agree beside the dictionary. -/
theorem SameBeside.of_eq {s t u : State} (h : t.hid = s.hid) (h' : SameBeside t u) : SameBeside s u := by
  rw [SameBeside, h'] at *
  rw [h]

/-- A write entry of a personality that takes every value. -/
def takesAll (p : Personality) (k : Key) (size : Nat) : Bool :=
  (rowAt p k).any fun r => (r.acc == .wo || r.acc == .rw) && r.ty.size == size && r.range == .any &&
    [Ty.u8, .u16, .lt32].contains r.ty

/-- A value written at a door to an entry with a behaviour of its own does what the entry does; only the door's marks come
after it. -/
theorem valueAt_completes {s : State} {c : Instr} {d : Door} {k : Key} {n v st : Nat} {e : Effect} (hs : s.sound = true)
    (hd : s.hears d = true) (hv : s.served k = true) (hc : exec c s = perform (valueAt d k v) s)
    (hrow : takesAll s.pers k n = true) (hlt : v < 256 ^ n) (hcmd : s.command (mailboxGo 8) d k v = some (st, e)) :
    Completes c s fun t => Answered d st [] t ∧ Only doorMarks (e.run s) t ∧ SameBeside (e.run s) t := by
  obtain ⟨r, hr, hprop⟩ := (Option.any_eq_true _ _).mp hrow
  simp only [Bool.and_eq_true, Bool.or_eq_true, beq_iff_eq, List.contains_iff_mem, List.mem_cons, List.not_mem_nil,
    or_false] at hprop
  obtain ⟨⟨⟨hacc, rfl⟩, hrange⟩, hty⟩ := hprop
  have hsize : 1 ≤ r.ty.size := by rcases hty with h | h | h <;> rw [h] <;> decide
  have hvalue : entryValue r.ty (bytesLE r.ty.size v) = v := by
    rw [entryValue_eq, natLE_bytesLE hlt]
  obtain ⟨m, hwrites, hstore, hbeside, hrun⟩ := writeAt_run (bs := bytesLE r.ty.size v) hd
    (State.absent_none hv hr) hr (by rcases hacc with h | h <;> simp [h]) (by rcases hacc with h | h <;> simp [h])
    (by rcases hty with h | h | h <;> simp [h]) (by rcases hty with h | h | h <;> simp [h, lengthOk, length_bytesLE])
    (by rcases hty with h | h | h <;> simp [Row.takes, hrange, h, Rng.holds])
    (by rcases hacc with h | h <;> simp [State.stageFull, h]) (by rwa [hvalue])
  refine ⟨_, (hc.trans (congrArg Host.Outcome.next (valueAt_run hr hsize hlt))).trans (congrArg Host.Outcome.next hrun),
    by simp [Answered], ⟨hwrites.frame (Effect.run_sound _ hs), hstore.frame⟩, hbeside _⟩

/-- What a command at a door does, where its behaviour keeps memory and every entry but those of a list. -/
theorem Acts.of {c : Instr} {d : Door} {st : Nat} {ks : List Key} {s : State} {e : Effect} {more : State → Prop}
    (h : Completes c s fun t => Answered d st [] t ∧ Only doorMarks (e.run s) t ∧ SameBeside (e.run s) t)
    (hs : s.sound = true) (hw : e.Writes (· ∈ ks)) (hn : e.NoStore)
    (hmore : ∀ t, (∀ k, k ∉ doorMarks → t.entry k = (e.run s).entry k) → SameBeside (e.run s) t → more t) :
    Acts c d st ks s more := by
  obtain ⟨t, hexec, hans, honly, hbeside⟩ := h
  exact ⟨t, hexec, hans, Only.trans ⟨hw.frame hs, hn.frame⟩ honly, hmore t honly.1.2 hbeside⟩

/-! #### Lists with a changed element, and bytes stored -/

theorem updateAt_eq_setAt {α : Type} (f : α → α) (d : α) : ∀ {l : List α} {i : Nat}, i < l.length →
    updateAt l i f = setAt l i (f (l.getD i d))
  | _ :: _, 0, _ => rfl
  | _ :: r, _ + 1, h => congrArg (_ :: ·) (updateAt_eq_setAt f d (l := r) (Nat.lt_of_succ_lt_succ h))

theorem updateAt_updateAt {α : Type} (f g : α → α) : ∀ (l : List α) (i : Nat),
    updateAt (updateAt l i f) i g = updateAt l i fun x => g (f x)
  | [], _ => rfl
  | _ :: _, 0 => rfl
  | x :: r, i + 1 => congrArg (x :: ·) (updateAt_updateAt f g r i)

theorem store_bytes {s : State} (hs : s.sound = true) (a : Nat) (bs : List Byte) :
    ((Act.store a bs).apply s).bytes a bs.length = bs := memRead_memWrite ((State.sound_iff s).mp hs).1

theorem store_sameMemoryBut {s : State} (hs : s.sound = true) (a : Nat) (bs : List Byte) :
    SameMemoryBut a bs.length s ((Act.store a bs).apply s) := fun x hx => by
  show memGet (memWrite s.mem a bs) x = memGet s.mem x
  rw [memGet_memWrite ((State.sound_iff s).mp hs).1, dif_neg (by omega)]

/-- A state with the memory of another reads the bytes that the other reads. -/
theorem State.bytes_of_mem {s t : State} (h : t.mem = s.mem) (a n : Nat) : t.bytes a n = s.bytes a n := by
  rw [State.bytes, h, State.bytes]

end Sys2Proof.Machine
end

section
namespace Sys2Proof.Machine

/-! ### Effects that send nothing out -/

/-- An effect sends nothing to the outside. -/
def Effect.Silent : Effect → Prop
  | .nothing => True
  | .act (.out _) => False
  | .act _ => True
  | .seq a b => a.Silent ∧ b.Silent
  | .look f => ∀ s, (f s).Silent

theorem Effect.Silent.outputs : ∀ {e : Effect} {s : State}, e.Silent → (e.run s).outputs = s.outputs
  | .nothing, _, _ => rfl
  | .act (.reg _ _), _, _ => rfl
  | .act (.resetRegs _ _), _, _ => rfl
  | .act (.store _ _), _, _ => rfl
  | .act (.erase _ _), _, _ => rfl
  | .act (.hid _), _, _ => rfl
  | .act (.out _), _, h => h.elim
  | .act .fresh, _, _ => rfl
  | .seq _ _, _, h => (Effect.Silent.outputs h.2).trans (Effect.Silent.outputs h.1)
  | .look f, s, h => Effect.Silent.outputs (e := f s) (h s)

@[simp] theorem Effect.silent_nothing : Effect.nothing.Silent := trivial
@[simp] theorem Effect.silent_seq (a b : Effect) : (Effect.seq a b).Silent ↔ a.Silent ∧ b.Silent := Iff.rfl
@[simp] theorem Effect.silent_look (f : State → Effect) : (Effect.look f).Silent ↔ ∀ s, (f s).Silent := Iff.rfl
@[simp] theorem Effect.silent_all_nil : (Effect.all []).Silent := trivial
@[simp] theorem Effect.silent_all_cons (e : Effect) (es : List Effect) :
    (Effect.all (e :: es)).Silent ↔ e.Silent ∧ (Effect.all es).Silent := by
  cases es <;> simp [Effect.all]
@[simp] theorem Effect.silent_each {α : Type} (f : α → Effect) (l : List α) :
    (Effect.each f l).Silent ↔ ∀ x ∈ l, (f x).Silent := by
  induction l <;> simp_all [Effect.each]
@[simp] theorem Effect.silent_when (c : Bool) (e : Effect) : (Effect.when c e).Silent ↔ (c = true → e.Silent) := by
  cases c <;> simp [Effect.when]
@[simp] theorem Effect.silent_ofOption {α : Type} (o : Option α) (f : α → Effect) (e : Effect) :
    (Effect.ofOption o f e).Silent ↔ (∀ x, o = some x → (f x).Silent) ∧ (o = none → e.Silent) := by
  cases o <;> simp [Effect.ofOption]
@[simp] theorem set_silent (i sub v : Nat) : (set i sub v).Silent := trivial
@[simp] theorem setBy_silent (i sub : Nat) (f : State → Nat) : (setBy i sub f).Silent := fun _ => trivial
@[simp] theorem addTo_silent (w i sub n : Nat) : (addTo w i sub n).Silent := fun _ => trivial
@[simp] theorem count_silent (w i sub : Nat) : (count w i sub).Silent := fun _ => trivial
@[simp] theorem setField_silent (i sub hi lo v : Nat) : (setField i sub hi lo v).Silent := fun _ => trivial
@[simp] theorem addField_silent (i sub hi lo n : Nat) : (addField i sub hi lo n).Silent := fun _ => trivial
@[simp] theorem countField_silent (i sub hi lo : Nat) : (countField i sub hi lo).Silent := fun _ => trivial
@[simp] theorem setBit_silent (i sub b : Nat) (on : Bool) : (setBit i sub b on).Silent := fun _ => trivial
@[simp] theorem storeAt_silent (a : Nat) (bs : List Byte) : (storeAt a bs).Silent := trivial
@[simp] theorem eraseAt_silent (a n : Nat) : (eraseAt a n).Silent := trivial
@[simp] theorem hidden_silent (f : Hidden → Hidden) : (hidden f).Silent := trivial

/-! An effect that is one change beside the dictionary is silent whatever part of it changes. -/

@[simp] theorem onTime_silent (f : TimeState → TimeState) : (onTime f).Silent := trivial
@[simp] theorem onDoors_silent (f : DoorState → DoorState) : (onDoors f).Silent := trivial
@[simp] theorem onAlmanac_silent (f : AlmanacState → AlmanacState) : (onAlmanac f).Silent := trivial
@[simp] theorem onCounts_silent (f : TickCounts → TickCounts) : (onCounts f).Silent := trivial
@[simp] theorem onIngest_silent (f : IngestState → IngestState) : (onIngest f).Silent := trivial
@[simp] theorem onCompose_silent (f : ComposeState → ComposeState) : (onCompose f).Silent := trivial
@[simp] theorem onScan_silent (f : ScanState → ScanState) : (onScan f).Silent := trivial
@[simp] theorem onMemory_silent (f : MemoryState → MemoryState) : (onMemory f).Silent := trivial
@[simp] theorem onHeat_silent (f : HeatState → HeatState) : (onHeat f).Silent := trivial

theorem almanacCount_silent (h b n : Nat) : (almanacCount h b n).Silent := by
  rw [almanacCount, Effect.silent_look]
  intro s
  dsimp only
  split_ifs <;> try simp [loseEvents]
  split <;> simp

theorem almanac_silent (h b : Nat) : (almanac h b).Silent := almanacCount_silent h b 1

/-! ### Events of a TG -/

/-- Event e of TG r is marked in 4000h+r.09, the marks of the others stay, and it is counted in 4000h+r.0F. -/
def TgMarked (r e : Nat) (s t : State) : Prop :=
  bitAt (t.entry (keyOf (0x4000 + r) 9)) e = true ∧
  (∀ b, b ≠ e → b < 4 → bitAt (t.entry (keyOf (0x4000 + r) 9)) b = bitAt (s.entry (keyOf (0x4000 + r) 9)) b) ∧
  field (t.entry (keyOf (0x4000 + r) 0x0F)) (16 * e + 15) (16 * e) =
    satAdd 16 (field (s.entry (keyOf (0x4000 + r) 0x0F)) (16 * e + 15) (16 * e)) 1

theorem tgEvent_settable (p : Personality) : ∀ r < 4, (p = .sender → r < 2) →
    settable p (keyOf (0x4000 + r) 9) 8 = true ∧ settable p (keyOf (0x4000 + r) 0x0F) 64 = true := by
  cases p <;> decide +kernel

/-- A TG that runs is one of the personality's. -/
theorem State.tgRuns_lt {s : State} {r : Nat} (h : s.tgRuns r = true) : r < 4 ∧ (s.isSender = true → r < 2) := by
  simp only [State.tgRuns, State.tgs, Bool.and_eq_true, List.contains_iff_mem, List.mem_range] at h
  obtain ⟨⟨-, hr⟩, -⟩ := h
  split_ifs at hr with hsend
  · exact ⟨by omega, fun _ => hr⟩
  · exact ⟨hr, fun hs => absurd hs hsend⟩

theorem tgEvent_writes (r e : Nat) :
    (tgEvent r e).Writes (· ∈ [keyOf (0x4000 + r) 9, keyOf (0x4000 + r) 0x0F, keyOf 0x1400 8]) := by
  simp [tgEvent, almanac_writes]

theorem tgEvent_noStore (r e : Nat) : (tgEvent r e).NoStore := by simp [tgEvent, almanac_noStore]

theorem tgEvent_silent (r e : Nat) : (tgEvent r e).Silent := by simp [tgEvent, almanac_silent]

theorem tgEvent_beside {R : Hidden → Hidden → Prop} (hR : ∀ h f, R h { h with almanac := f }) (r e : Nat) :
    (tgEvent r e).Beside R := by simp [tgEvent, almanac_beside hR]

/-- An event of a TG that runs is marked and counted. -/
theorem tgEvent_marks {s : State} {r e : Nat} (hs : s.sound = true) (hruns : s.tgRuns r = true)
    (he : e < 4) : TgMarked r e s ((tgEvent r e).run s) := by
  obtain ⟨hr, hr2⟩ := State.tgRuns_lt hruns
  obtain ⟨h9, hF⟩ := tgEvent_settable s.pers r hr fun h => hr2 (State.isSender_iff.mpr h)
  let u := (setBit (0x4000 + r) 9 e true).run s
  let w := (countField (0x4000 + r) 0x0F (16 * e + 15) (16 * e)).run u
  have hu : u.sound = true := Effect.run_sound _ hs
  have hw : w.sound = true := Effect.run_sound _ hu
  have hne : keyOf (0x4000 + r) 9 ≠ keyOf (0x4000 + r) 0x0F := by simp [keyOf]
  let tail := Effect.when (s.flag (0x4000 + r) 8 e) (almanac 1 7)
  have hrun : (tgEvent r e).run s = tail.run w := by
    simp only [tgEvent, Effect.run_look, hruns, Effect.run_when_true, Effect.run_all_cons, Effect.run_all_nil, tail, w, u]
  have htail : tail.Writes (· ∈ [keyOf 0x1400 8]) := by simp [tail, almanac_writes]
  have hkeep (sub : Nat) : (tail.run w).entry (keyOf (0x4000 + r) sub) = w.entry (keyOf (0x4000 + r) sub) :=
    (htail.keeps (fun h => keyOf_ne_of_lt (by omega) (by decide) (List.mem_singleton.mp h).symm) hw).2
  have h9w : w.entry (keyOf (0x4000 + r) 9) = u.entry (keyOf (0x4000 + r) 9) := State.entry_set_of_ne hu hne
  have hFu : u.entry (keyOf (0x4000 + r) 0x0F) = s.entry (keyOf (0x4000 + r) 0x0F) := State.entry_set_of_ne hs (Ne.symm hne)
  have hbit : ∀ b, bitAt (w.entry (keyOf (0x4000 + r) 9)) b =
      if b = e then true else bitAt (s.entry (keyOf (0x4000 + r) 9)) b := fun b => by
    rw [h9w]; exact bitAt_setBit hs h9 (by omega) b
  rw [hrun]
  refine ⟨?_, fun b hb _ => ?_, ?_⟩
  · rw [hkeep, hbit, if_pos rfl]
  · rw [hkeep, hbit, if_neg hb]
  · have hfield := addField_field (n := 1) hu (w := 64) (hi := 16 * e + 15) (lo := 16 * e) hF (by omega) (by omega)
    rw [show 16 * e + 15 - 16 * e + 1 = 16 by omega, hFu] at hfield
    rw [hkeep]
    exact hfield

end Sys2Proof.Machine
end

section
namespace Sys2Proof.Machine

/-! ### Preview builds -/

theorem preview_settable : ∀ o < 2, settable .sender (keyOf (0x6300 + o) 0x0F) 64 = true ∧
    settable .sender (keyOf (0x6300 + o) 0x0B) 8 = true ∧ settable .sender (keyOf (0x6300 + o) 0x0C) 32 = true ∧
    settable .sender (keyOf (0x6300 + o) 0x0D) 32 = true ∧ settable .sender (keyOf (0x4000 + o) 0x0A) 32 = true ∧
    settable .sender (keyOf (0x4000 + o) 9) 8 = true ∧
    settable .sender (keyOf (0x4000 + o) 0x0F) 64 = true := by decide +kernel

theorem builds_settable : settable .sender (keyOf 0x6302 5) 32 = true ∧ settable .sender (keyOf 0x6302 6) 32 = true ∧
    settable .sender (keyOf 0x6302 7) 8 = true := by decide +kernel

/-- What ends a build, done or given up: the output's state changes, the build is counted, and 6302h.07 shows whether one is
still in progress. -/
def endsBuild (o sub : Nat) (f : PreviewState → PreviewState) : Effect := .all [
  onPreview o f,
  count 32 0x6302 sub,
  .look fun t => set 0x6302 7 (if t.hid.ingest.previews.any fun p => p.building.isSome then 1 else 0)]

theorem length_previews {s : State} (h : s.shaped = true) : s.hid.ingest.previews.length = 2 := by
  simp only [State.shaped, Bool.and_eq_true, beq_iff_eq] at h
  tauto

theorem preview_updateAt_self {s : State} (h : s.shaped = true) {o : Nat} (ho : o < 2) (f : PreviewState → PreviewState) :
    (updateAt s.hid.ingest.previews o f).getD o PreviewState.initial = f (s.preview o) :=
  getD_updateAt_self (by rwa [length_previews h])

/-- No build is in progress where neither output has one. -/
theorem builds_none {l : List PreviewState} (hl : l.length = 2)
    (h : ∀ q < 2, (l.getD q PreviewState.initial).building = none) : (l.any fun p => p.building.isSome) = false := by
  obtain ⟨a, b, rfl⟩ := List.length_eq_two.mp hl
  have ha : a.building = none := h 0 (by decide)
  have hb : b.building = none := h 1 (by decide)
  simp [ha, hb]

theorem endsBuild_run {s : State} {o sub : Nat} {f : PreviewState → PreviewState} (hs : s.sound = true)
    (hshape : s.shaped = true) (hsend : s.isSender = true) (ho : o < 2) (hsub : sub = 5 ∨ sub = 6)
    (hf : (f (s.preview o)).building = none) :
    let t := (endsBuild o sub f).run s
    t.preview o = f (s.preview o) ∧ (∀ q, q ≠ o → t.preview q = s.preview q) ∧
    t.entry (keyOf 0x6302 sub) = satAdd 32 (s.entry (keyOf 0x6302 sub)) 1 ∧
    ((∀ q, q ≠ o → q < 2 → (s.preview q).building = none) → t.entry (keyOf 0x6302 7) = 0) ∧
    t.hid = { s.hid with ingest := { s.hid.ingest with previews := t.hid.ingest.previews } } ∧ t.outputs = s.outputs ∧
    Only [keyOf 0x6302 sub, keyOf 0x6302 7] s t := by
  have hp := State.isSender_iff.mp hsend
  have hset : settable s.pers (keyOf 0x6302 sub) 32 = true := by
    rw [hp]; rcases hsub with rfl | rfl <;> decide +kernel
  have hown : (updateAt s.hid.ingest.previews o f).getD o PreviewState.initial = f (s.preview o) :=
    preview_updateAt_self hshape ho f
  have hother : ∀ q, q ≠ o → (updateAt s.hid.ingest.previews o f).getD q PreviewState.initial = s.preview q :=
    fun q hq => getD_updateAt_of_ne (Ne.symm hq)
  have hcount : ((endsBuild o sub f).run s).entry (keyOf 0x6302 sub) = satAdd 32 (s.entry (keyOf 0x6302 sub)) 1 := by
    have hne : keyOf 0x6302 sub ≠ keyOf 0x6302 7 := by rcases hsub with rfl | rfl <;> decide
    have hs1 := Effect.run_sound (onPreview o f) hs
    have hs2 := Effect.run_sound (count 32 0x6302 sub) hs1
    exact (State.entry_set_of_ne hs2 hne).trans (count_entry hs1 hset)
  refine ⟨hown, hother, hcount, fun hall => ?_, rfl, rfl, ?_, ?_⟩
  · have hnone : ((updateAt s.hid.ingest.previews o f).any fun p => p.building.isSome) = false :=
      builds_none (by simp [length_previews hshape]) fun q hq => by
        by_cases hqo : q = o
        · rw [hqo, hown, hf]
        · rw [hother q hqo, hall q hqo hq]
    have hrun : (endsBuild o sub f).run s =
        (set 0x6302 7 0).run ((count 32 0x6302 sub).run ((onPreview o f).run s)) := by
      simp only [endsBuild, Effect.run_all_cons, Effect.run_all_nil, Effect.run_look]
      simp only [onPreview, onIngest_run, count, addTo, setBy_run, Act.reg_hid, Act.hid_hid, hnone]
      rfl
    rw [hrun]
    exact set_entry (Effect.run_sound _ (Effect.run_sound _ hs)) (hp ▸ builds_settable.2.2)
  · exact Effect.Writes.frame (by simp [endsBuild, onPreview]) hs
  · exact Effect.NoStore.frame (by simp [endsBuild, onPreview])

/-- PREVIEW_BUILD ends the build with its image in the other bank, and shows its tick. -/
theorem previewBuild_completes {s : State} {o n : Nat} (hs : s.sound = true) (hshape : s.shaped = true)
    (hsend : s.isSender = true) (hup : s.up .pipe = true) (ho : o < 2) (hb : (s.preview o).building = some n)
    (hmode : s.mode ∈ [Mode.run, Mode.derate, Mode.hold, Mode.bringup]) : Completes (.previewBuild o) s fun t =>
      t.preview o = { s.preview o with
        building := none
        built := true
        banks := setAt (s.preview o).banks (1 - (s.preview o).bank) (s.previewImage o true) } ∧
      t.entry (keyOf (0x6300 + o) 0x0F) = n % 2 ^ 64 ∧
      t.entry (keyOf 0x6302 5) = satAdd 32 (s.entry (keyOf 0x6302 5)) 1 ∧
      (((∀ q, q ≠ o → q < 2 → (s.preview q).building = none) → t.entry (keyOf 0x6302 7) = 0) ∧
        (∀ q, q ≠ o → t.preview q = s.preview q) ∧
        t.hid = { s.hid with ingest := { s.hid.ingest with previews := t.hid.ingest.previews } } ∧ t.outputs = s.outputs) ∧
      Only [keyOf (0x6300 + o) 0x0F, keyOf 0x6302 5, keyOf 0x6302 7] s t := by
  have hp := State.isSender_iff.mp hsend
  have hbuilds : s.previewBuilds = true := List.contains_iff_mem.mpr hmode
  let u := (set (previewIndex o) 0x0F n).run s
  have hu : u.sound = true := Effect.run_sound _ hs
  have hne : keyOf (0x6300 + o) 0x0F ∉ [keyOf 0x6302 5, keyOf 0x6302 7] := by interval_cases o <;> decide
  have hfive : keyOf 0x6302 5 ∉ [keyOf (0x6300 + o) 0x0F] := by interval_cases o <;> decide
  have hshow : u.entry (keyOf (0x6300 + o) 0x0F) = n % 2 ^ 64 := set_entry hs (hp ▸ (preview_settable o ho).1)
  have honly : Only [keyOf (0x6300 + o) 0x0F] s u := ⟨Effect.Writes.frame (by simp) hs, Effect.NoStore.frame (by simp)⟩
  obtain ⟨hown, hother, hcount, hseven, hhid, hout, hends⟩ := endsBuild_run (s := u) (sub := 5)
    (f := fun p => { p with building := none, built := true, banks := setAt p.banks (1 - p.bank) (s.previewImage o true) })
    hu hshape hsend ho (.inl rfl) rfl
  refine ⟨(endsBuild o 5 _).run u, ?_, hown, ?_, ?_, ⟨hseven, hother, hhid, hout⟩, ?_⟩
  · show execPreviewBuild o s = _
    simp only [execPreviewBuild, hsend, hup, hbuilds, hb, Bool.and_self, perform_eq, Effect.run_when_true,
      Effect.run_ofOption_some]
    rfl
  · rw [hends.1.2 _ hne, hshow]
  · rw [hcount, honly.1.2 _ hfive]
  · exact Only.trans honly hends

/-- PREVIEW_BUILD_ABANDON gives the build up; the output waits for one again. -/
theorem previewBuildAbandon_completes {s : State} {o n : Nat} (hs : s.sound = true) (hshape : s.shaped = true)
    (hsend : s.isSender = true) (hup : s.up .pipe = true) (ho : o < 2) (hb : (s.preview o).building = some n) :
    Completes (.previewBuildAbandon o) s fun t => t.preview o = { s.preview o with building := none, fresh := true } ∧
      t.entry (keyOf 0x6302 6) = satAdd 32 (s.entry (keyOf 0x6302 6)) 1 ∧
      (((∀ q, q ≠ o → q < 2 → (s.preview q).building = none) → t.entry (keyOf 0x6302 7) = 0) ∧
        (∀ q, q ≠ o → t.preview q = s.preview q) ∧
        t.hid = { s.hid with ingest := { s.hid.ingest with previews := t.hid.ingest.previews } } ∧ t.outputs = s.outputs) ∧
      Only [keyOf 0x6302 6, keyOf 0x6302 7] s t := by
  obtain ⟨hown, hother, hcount, hseven, hhid, hout, honly⟩ := endsBuild_run (sub := 6)
    (f := fun p => { p with building := none, fresh := true }) hs hshape hsend ho (.inr rfl) rfl
  refine ⟨(endsBuild o 6 _).run s, ?_, hown, hcount, ⟨hseven, hother, hhid, hout⟩, honly⟩
  show execPreviewBuildAbandon o s = _
  simp only [execPreviewBuildAbandon, abandonBuild, hsend, hup, hb, Bool.and_self, perform_eq, Effect.run_when_true,
    Effect.run_look, Option.isSome_some]
  rfl

end Sys2Proof.Machine
end

section
namespace Sys2Proof.Machine

/-! ### Frames of the preview outputs -/

/-- The EDID that is read from a sink, none without one. -/
def edidOf (sink : Option PreviewSink) : List Byte := (sink.map fun k => k.edid.take 512).getD []

/-- What an output does at the start of a frame, while it is enabled, with what its sink's state comes to. -/
def frameOf (o st : Nat) (sink : Option PreviewSink) : Effect := .all [
  onPreview o fun p => { p with fresh := true, bank := if p.built then 1 - p.bank else p.bank, built := false },
  Effect.ofOption sink (readEdid o) (onPreview o fun p => { p with edid := 0 }),
  set (previewIndex o) 0x0B st,
  Effect.when (st == 3) (.seq (count 32 (previewIndex o) 0x0C) (.look fun t => emit (.pixels o (t.previewFrame o))))]

/-- Reading a sink's EDID stores it and keeps its length. -/
theorem readSink_run (o : Nat) (sink : Option PreviewSink) (s : State) :
    (Effect.ofOption sink (readEdid o) (onPreview o fun p => { p with edid := 0 })).run s =
      (onPreview o fun p => { p with edid := (edidOf sink).length }).run
        ((Act.store (domainBase (keyOf (previewIndex o) 0x0E)) (edidOf sink)).apply s) := by
  cases sink with
  | none => rfl
  | some k =>
    have hlen : (edidOf (some k)).length = min 512 k.edid.length := List.length_take
    rw [Effect.run_ofOption_some, readEdid, Effect.run_seq, hlen]
    rfl

/-- The state of an output with the bank that is read from a frame on, and the EDID of its sink. -/
def PreviewState.started (p : PreviewState) (edid : Nat) : PreviewState :=
  { p with fresh := true, bank := if p.built then 1 - p.bank else p.bank, built := false, edid := edid }

/-- The states of the outputs once a frame of output o has started. -/
theorem previews_started {l : List PreviewState} {o edid : Nat} (ho : o < l.length) :
    updateAt (updateAt l o fun p => { p with fresh := true, bank := if p.built then 1 - p.bank else p.bank, built := false }) o
      (fun p => { p with edid := edid }) = setAt l o ((l.getD o PreviewState.initial).started edid) := by
  rw [updateAt_updateAt, updateAt_eq_setAt _ PreviewState.initial ho]
  rfl

theorem frameOf_writes (o st : Nat) (sink : Option PreviewSink) :
    (frameOf o st sink).Writes (· ∈ [keyOf (previewIndex o) 0x0B, keyOf (previewIndex o) 0x0C]) := by
  simp [frameOf, onPreview, readEdid, storeContent]

/-- The state before the frame is sent: the output reads on, the EDID is stored, and the state of the sink shows. -/
def State.readsOn (s : State) (o st : Nat) (sink : Option PreviewSink) : State :=
  (set (previewIndex o) 0x0B st).run ((Effect.ofOption sink (readEdid o) (onPreview o fun p => { p with edid := 0 })).run
    ((onPreview o fun p => { p with fresh := true, bank := if p.built then 1 - p.bank else p.bank, built := false }).run s))

theorem State.readsOn_facts {s : State} {o st : Nat} {sink : Option PreviewSink} (hs : s.sound = true)
    (hshape : s.shaped = true) (hsend : s.isSender = true) (ho : o < 2) (hst : st < 256) :
    let u := s.readsOn o st sink
    u.sound = true ∧ u.entry (keyOf (0x6300 + o) 0x0B) = st ∧
    (∀ k, k ≠ keyOf (0x6300 + o) 0x0B → u.entry k = s.entry k) ∧
    u.hid = { s.hid with ingest := { s.hid.ingest with
      previews := setAt s.hid.ingest.previews o ((s.preview o).started (edidOf sink).length) } } ∧
    u.outputs = s.outputs ∧ u.pers = s.pers ∧
    u.bytes (domainBase (keyOf (0x6300 + o) 0x0E)) (edidOf sink).length = edidOf sink ∧
    SameMemoryBut (domainBase (keyOf (0x6300 + o) 0x0E)) (edidOf sink).length s u := by
  have hset : settable s.pers (keyOf (0x6300 + o) 0x0B) 8 = true :=
    State.isSender_iff.mp hsend ▸ (preview_settable o ho).2.1
  have hprev := previews_started (edid := (edidOf sink).length) (by rwa [length_previews hshape] : o < s.hid.ingest.previews.length)
  let w := (Act.store (domainBase (keyOf (0x6300 + o) 0x0E)) (edidOf sink)).apply s
  have hw : w.sound = true := Act.keeps_sound _ _ hs
  have hu : s.readsOn o st sink = (set (previewIndex o) 0x0B st).run ((Act.hid fun h => { h with ingest := { h.ingest with
      previews := setAt s.hid.ingest.previews o ((s.preview o).started (edidOf sink).length) } }).apply w) := by
    rw [State.readsOn, readSink_run]
    simp only [onPreview, onIngest_run, State.preview, ← hprev]
    rfl
  have hsound := Act.keeps_sound (.hid fun h => { h with ingest := { h.ingest with
      previews := setAt s.hid.ingest.previews o ((s.preview o).started (edidOf sink).length) } }) w hw
  simp only [hu]
  refine ⟨Effect.run_sound _ hsound, ?_, fun k hk => ?_, rfl, rfl, rfl, store_bytes hs _ _, store_sameMemoryBut hs _ _⟩
  · exact (set_entry hsound hset).trans (Nat.mod_eq_of_lt hst)
  · exact State.entry_set_of_ne hsound hk

/-- The state once the frame has been sent, if the sink's link is active. -/
def State.sendsFrame (s : State) (o st : Nat) (sink : Option PreviewSink) : State :=
  let u := s.readsOn o st sink
  if st = 3 then
    let v := (count 32 (previewIndex o) 0x0C).run u
    (Act.out (.pixels o (v.previewFrame o))).apply v
  else u

theorem frameOf_run (o st : Nat) (sink : Option PreviewSink) (s : State) :
    (frameOf o st sink).run s = s.sendsFrame o st sink := by
  by_cases hst : st = 3
  · subst hst
    rfl
  · simp only [frameOf, Effect.run_all_cons, Effect.run_all_nil, State.sendsFrame, if_neg hst, Effect.run_when, beq_iff_eq,
      State.readsOn]

theorem previewFrame_out (s : State) (x : Output) (o : Nat) :
    ((Act.out x).apply s).previewFrame o = s.previewFrame o := rfl

theorem State.sendsFrame_facts {s : State} {o st : Nat} {sink : Option PreviewSink} (hs : s.sound = true)
    (hshape : s.shaped = true) (hsend : s.isSender = true) (ho : o < 2) (hst : st < 256) :
    let t := s.sendsFrame o st sink
    t.entry (keyOf (0x6300 + o) 0x0B) = st ∧
    t.entry (keyOf (0x6300 + o) 0x0C) = satAdd 32 (s.entry (keyOf (0x6300 + o) 0x0C)) (if st = 3 then 1 else 0) ∧
    (∀ k, k ≠ keyOf (0x6300 + o) 0x0B → k ≠ keyOf (0x6300 + o) 0x0C → t.entry k = s.entry k) ∧
    t.hid = { s.hid with ingest := { s.hid.ingest with
      previews := setAt s.hid.ingest.previews o ((s.preview o).started (edidOf sink).length) } } ∧
    t.outputs = (if st = 3 then s.outputs ++ [.pixels o (t.previewFrame o)] else s.outputs) ∧ t.pers = s.pers ∧
    t.bytes (domainBase (keyOf (0x6300 + o) 0x0E)) (edidOf sink).length = edidOf sink ∧
    SameMemoryBut (domainBase (keyOf (0x6300 + o) 0x0E)) (edidOf sink).length s t := by
  have hset : settable s.pers (keyOf (0x6300 + o) 0x0C) 32 = true :=
    State.isSender_iff.mp hsend ▸ (preview_settable o ho).2.2.1
  have hne : keyOf (0x6300 + o) 0x0C ≠ keyOf (0x6300 + o) 0x0B := by interval_cases o <;> decide
  obtain ⟨hu, hstate, hkeep, hhid, hout, hpers, hbytes, hmem⟩ := State.readsOn_facts (sink := sink) hs hshape hsend ho hst
  simp only [State.sendsFrame]
  generalize s.readsOn o st sink = u at *
  by_cases h3 : st = 3
  · simp only [if_pos h3, Act.out_entry, Act.out_hid, Act.out_outputs, Act.out_pers, previewFrame_out]
    let v := (count 32 (previewIndex o) 0x0C).run u
    have hother : ∀ k, k ≠ keyOf (0x6300 + o) 0x0C → v.entry k = u.entry k :=
      fun k hk => State.entry_set_of_ne hu hk
    refine ⟨(hother _ (Ne.symm hne)).trans hstate, ?_, fun k hb hc => (hother k hc).trans (hkeep k hb), hhid, ?_, hpers, hbytes,
      hmem⟩
    · exact (count_entry hu (hpers ▸ hset)).trans (by rw [hkeep _ hne])
    · exact congrArg (· ++ [Output.pixels o (v.previewFrame o)]) hout
  · simp only [if_neg h3]
    refine ⟨hstate, ?_, fun k hb _ => hkeep k hb, hhid, hout, hpers, hbytes, hmem⟩
    have hlt := State.entry_lt hs hset
    rw [hkeep _ hne, satAdd]
    omega

/-- What an output sends is black in FREEZE, and its bank in the modes that are neither it nor DARK or FAULTDARK. -/
theorem previewFrame_mode (s : State) (o : Nat) :
    (s.mode ∉ [Mode.freeze, Mode.dark, Mode.faultdark] →
      s.previewFrame o = (s.preview o).banks.getD (s.preview o).bank []) ∧
    (s.mode = Mode.freeze → ∀ b ∈ s.previewFrame o, b = 0) := by
  refine ⟨fun h => ?_, fun h b hb => ?_⟩
  · simp only [List.mem_cons, List.not_mem_nil, or_false, not_or] at h
    simp [State.previewFrame, h]
  · rw [State.previewFrame, if_pos h, zeroBytes] at hb
    exact (List.mem_replicate.mp hb).2

/-- The state that PREVIEW_FRAME_START begins from: the frame is counted and its cycle marked. -/
def State.frameCounted (s : State) (o : Nat) : State :=
  (onScan fun x => { x with frameAt := setAt x.frameAt o s.hid.time.cycles }).run ((count 32 (0x4000 + o) 0x0A).run s)

theorem State.frameCounted_facts {s : State} {o : Nat} (hs : s.sound = true) (hsend : s.isSender = true) (ho : o < 2) :
    (s.frameCounted o).sound = true ∧
    (s.frameCounted o).entry (keyOf (0x4000 + o) 0x0A) = satAdd 32 (s.entry (keyOf (0x4000 + o) 0x0A)) 1 ∧
    ∀ k, k ≠ keyOf (0x4000 + o) 0x0A → (s.frameCounted o).entry k = s.entry k :=
  ⟨Effect.run_sound _ (Effect.run_sound _ hs),
    count_entry hs (State.isSender_iff.mp hsend ▸ (preview_settable o ho).2.2.2.2.1), fun _ hk => State.entry_set_of_ne hs hk⟩

theorem previewFrameStart_exec {s : State} {o : Nat} (sink : Option PreviewSink) (hsend : s.isSender = true) (ho : o < 2)
    (hruns : s.tgRuns o = true) : exec (.previewFrameStart ⟨o, sink⟩) s =
      .next (if s.entry (keyOf (0x6300 + o) 1) = 1 then (s.frameCounted o).sendsFrame o (s.sinkState o sink) sink
        else s.frameCounted o) := by
  show execPreviewFrameStart ⟨o, sink⟩ s = _
  simp only [execPreviewFrameStart, hsend, ho, hruns, decide_true, Bool.and_self, perform_eq, Effect.run_when_true,
    Effect.run_all_cons, Effect.run_all_nil, State.frameCounted, ← frameOf_run]
  rw [Effect.run_when]
  simp only [State.reg_eq_entry, beq_iff_eq]
  rfl

theorem sinkState_eq (s : State) (o : Nat) (sink : Option PreviewSink) : s.sinkState o sink = match sink with
    | none => 1
    | some k => if s.entry (keyOf (0x6300 + o) 0x0B) ≤ 1 ∨ s.linkCarries o k = false then 2 else 3 := by
  cases sink with
  | none => rfl
  | some k =>
    simp only [State.sinkState, State.reg_eq_entry]
    by_cases h : s.entry (keyOf (0x6300 + o) 0x0B) ≤ 1 <;> simp [h]

theorem sinkState_lt (s : State) (o : Nat) (sink : Option PreviewSink) : s.sinkState o sink < 256 := by
  rw [sinkState_eq]
  cases sink with
  | none => simp
  | some k => dsimp only; split_ifs <;> decide

end Sys2Proof.Machine
end

section
namespace Sys2Proof.Machine

/-! ### SYNC outputs and the slot planner -/

theorem sync_settable : ∀ k < 8, settable .sender (keyOf (0x4330 + k) 7) 32 = true ∧
    settable .sender (keyOf (0x4330 + k) 8) 8 = true ∧ settable .sender (keyOf (0x4330 + k) 9) 32 = true ∧
    takesAll .sender (keyOf (0x4330 + k) 7) 4 = true := by decide +kernel

theorem syncTime_command {s : State} {d : Door} {k v : Nat} (hk : k < 8) :
    s.command (mailboxGo 8) d (keyOf (0x4330 + k) 7) v = some (Status.ok, writeStartTime k v) := by
  interval_cases k <;> rfl

/-- Local time runs on to an instant in 1/64 cc, if that lies ahead. -/
theorem advanceToStep_now (e : Int) (s : State) :
    ((advanceToStep e).run s).hid.time.now = max s.hid.time.now (e.toNat * 4096) := by
  show s.hid.time.now + (e.toNat * 4096 - s.hid.time.now) = _
  omega

/-- A SYNC_EDGE moves local time to the edge, marks it as the last one, counts it and drives the ball. -/
theorem syncEdge_completes {s : State} {k : Nat} {e : Int} (hs : s.sound = true) (hk : k < 8) (hruns : s.syncRuns k = true)
    (hnext : s.nextEdge k s.step64 = some e) : Completes (.syncEdge k) s fun t =>
      t.hid.time.now = max s.hid.time.now (e.toNat * 4096) ∧
      t.outputs = s.outputs ++ [.pulse k (s.entry (keyOf (0x4330 + k) 6) == 0) e (s.entry (keyOf (0x4330 + k) 5))] ∧
      t.entry (keyOf (0x4330 + k) 9) = satAdd 32 (s.entry (keyOf (0x4330 + k) 9)) 1 ∧
      t.hid = { s.hid with
        time := t.hid.time
        ingest := { s.hid.ingest with edges := insertKey s.hid.ingest.edges k e } } ∧
      Only [keyOf (0x4330 + k) 9] s t := by
  have hsend : s.isSender = true := by
    simp only [State.syncRuns, Bool.and_eq_true] at hruns
    exact hruns.1.1.1.1
  let u := (onIngest fun i => { i with edges := insertKey i.edges k e }).run ((advanceToStep e).run s)
  let w := (count 32 (syncIndex k) 9).run u
  refine ⟨(Act.out (.pulse k (s.reg (syncIndex k) 6 == 0) e (s.reg (syncIndex k) 5))).apply w, ?_, advanceToStep_now e s, rfl, ?_,
    rfl, ⟨rfl, fun q hq => ?_⟩, fun _ => rfl⟩
  · show execSyncEdge k s = _
    simp only [execSyncEdge, hruns, hnext, perform_eq, Effect.run_when_true, Effect.run_ofOption_some]
    rfl
  · exact count_entry (s := u) (Effect.run_sound _ (Effect.run_sound _ hs))
      (State.isSender_iff.mp hsend ▸ (sync_settable k hk).2.2.1)
  · exact State.entry_set_of_ne (s := u) (Effect.run_sound _ (Effect.run_sound _ hs)) (by simpa using hq)

/-- SYNC_START of an output that waits makes it run. -/
theorem syncStart_completes {s : State} {k : Nat} {e : Int} (hs : s.sound = true) (hk : k < 8) (hsend : s.isSender = true)
    (hstep : s.stepped = true) (hmode : s.syncMode = true) (hon : s.entry (keyOf (0x4330 + k) 1) = 2)
    (hwait : s.entry (keyOf (0x4330 + k) 8) = Status.pending)
    (hnext : s.nextEdge k (max (80 * ((s.ns : Int) + lt32Diff (s.entry (keyOf (0x4330 + k) 7)) s.lt32)) s.step64) = some e) :
    Completes (.syncStart k) s fun t => t.hid.time.now = max s.hid.time.now (e.toNat * 4096) ∧
      t.entry (keyOf (0x4330 + k) 8) = Status.applied ∧ t.outputs = s.outputs ∧
      t.hid = { s.hid with time := t.hid.time } ∧ Only [keyOf (0x4330 + k) 8] s t := by
  let u := (advanceToStep e).run s
  have hu : u.sound = true := Effect.run_sound _ hs
  refine ⟨(set (syncIndex k) 8 Status.applied).run u, ?_, advanceToStep_now e s, ?_, rfl, rfl, ⟨rfl, fun q hq => ?_⟩,
    fun _ => rfl⟩
  · show execSyncStart k s = _
    simp only [execSyncStart, hsend, hk, hstep, hmode, State.reg_eq_entry, hon, hwait, hnext, decide_true, Bool.and_self,
      beq_self_eq_true, perform_eq, Effect.run_when_true, Effect.run_ofOption_some]
    rfl
  · exact (set_entry hu (State.isSender_iff.mp hsend ▸ (sync_settable k hk).2.1)).trans (by decide)
  · exact State.entry_set_of_ne hu (by simpa using hq)

/-- SYNC_START_TIME_WRITE: the start time is kept, and the output waits with it. -/
theorem syncStartTimeWrite_acts {s : State} {d : Door} {k lt : Nat} (hs : s.sound = true) (hk : k < 8)
    (hsend : s.isSender = true) (hsv : s.servesAt d = true) (hlt : lt < 2 ^ 32) :
    Acts (.syncStartTimeWrite d k lt) d Status.ok [keyOf (0x4330 + k) 7, keyOf (0x4330 + k) 8] s fun t =>
      t.entry (keyOf (0x4330 + k) 7) = lt ∧
      t.entry (keyOf (0x4330 + k) 8) = (if lt32Diff lt s.lt32 ≤ 0 then Status.late else Status.pending) ∧ SameBeside s t := by
  have hp := State.isSender_iff.mp hsend
  obtain ⟨h7, h8, -, htakes⟩ := sync_settable k hk
  have hserved : s.served (keyOf (0x4330 + k) 7) = true := by
    simp only [State.servesAt, Bool.and_eq_true] at hsv
    exact State.served_of_serves hsv.2 _
  have hexec : exec (.syncStartTimeWrite d k lt) s = perform (valueAt d (keyOf (0x4330 + k) 7) lt) s := by
    show execSyncStartTimeWrite d k lt s = _
    simp only [execSyncStartTimeWrite, hk, decide_true]
    rfl
  refine Acts.of (valueAt_completes hs (State.hears_of_servesAt hsv) hserved hexec (hp ▸ htakes) hlt (syncTime_command hk)) hs
    (by simp [writeStartTime]) (by simp [writeStartTime]) fun t hkeep hbeside => ⟨?_, ?_, hbeside⟩
  · rw [hkeep _ (by interval_cases k <;> decide)]
    refine (State.entry_set_of_ne (Effect.run_sound (set (0x4330 + k) 7 lt) hs) (by simp [keyOf])).trans ?_
    exact (set_entry hs (hp ▸ h7)).trans (Nat.mod_eq_of_lt hlt)
  · rw [hkeep _ (by interval_cases k <;> decide)]
    refine (set_entry (Effect.run_sound (set (0x4330 + k) 7 lt) hs) (hp ▸ h8)).trans (Nat.mod_eq_of_lt ?_)
    split_ifs <;> decide

/-! #### The planner -/

/-- A number written digit by digit to the base 16 has those digits. -/
theorem digits_of_foldl (d : Nat → Nat) (hd : ∀ j, d j < 16) : ∀ n : Nat,
    let v := (List.range n).foldl (fun m j => m + d j * 16 ^ j) 0
    v < 16 ^ n ∧ ∀ j < n, v / 16 ^ j % 16 = d j
  | 0 => by simp
  | n + 1 => by
    obtain ⟨hlt, hdigits⟩ := digits_of_foldl d hd n
    simp only [List.range_succ, List.foldl_append, List.foldl_cons, List.foldl_nil]
    generalize (List.range n).foldl (fun m j => m + d j * 16 ^ j) 0 = v at *
    refine ⟨?_, fun j hj => ?_⟩
    · have h1 : (d n + 1) * 16 ^ n ≤ 16 * 16 ^ n := Nat.mul_le_mul_right _ (hd n)
      rw [pow_succ]
      linarith
    · rcases Nat.lt_succ_iff_lt_or_eq.mp hj with hj | rfl
      · have hsplit : d n * 16 ^ n = 16 ^ j * (16 * (d n * 16 ^ (n - j - 1))) := by
          have : 16 ^ n = 16 ^ j * (16 * 16 ^ (n - j - 1)) := by
            rw [← pow_succ', ← pow_add]
            congr 1
            omega
          rw [this]
          ring
        rw [hsplit, Nat.add_mul_div_left _ _ (by positivity), Nat.add_mul_mod_self_left, hdigits j hj]
      · rw [Nat.add_mul_div_right _ _ (by positivity), Nat.div_eq_of_lt hlt, zero_add, Nat.mod_eq_of_lt (hd j)]

/-- The nibble that the planner writes for slot k of a profile. -/
def State.plannedSlot (c : State) (b : Bool) (k : Nat) : Nat :=
  if k < c.slotsIn b then (c.plannedView b k).headD (c.entry (keyOf 0x4320 7)) else 0

theorem plannedMap_eq (c : State) (b : Bool) (from' : Nat) : c.plannedMap b from' =
    (List.range 16).foldl (fun m j => m + c.plannedSlot b (from' + j) * 16 ^ j) 0 := by
  rw [State.plannedMap]
  congr 1
  funext m j
  dsimp only
  rw [State.plannedSlot]
  split_ifs
  · rfl
  · simp

theorem plannedSlot_lt {c : State} (hviews : ∀ q < 8, c.entry (keyOf (0x4310 + q) 2) < 16)
    (hrest : c.entry (keyOf 0x4320 7) < 16) (b : Bool) (k : Nat) : c.plannedSlot b k < 16 := by
  rw [State.plannedSlot]
  split_ifs
  · cases h : c.plannedView b k with
    | nil => exact hrest
    | cons v vs =>
      have hv : v ∈ c.plannedView b k := by rw [h]; exact List.mem_cons_self
      rw [State.plannedView, List.mem_eraseDups, List.mem_map] at hv
      obtain ⟨q, hq, rfl⟩ := hv
      exact hviews q (List.mem_range.mp (List.mem_filter.mp hq).1)
  · decide

/-- Sixteen slots of a planned map fit in its entry, and read back as they were planned. -/
theorem plannedMap_facts {c : State} (hviews : ∀ q < 8, c.entry (keyOf (0x4310 + q) 2) < 16)
    (hrest : c.entry (keyOf 0x4320 7) < 16) (b : Bool) (from' : Nat) : c.plannedMap b from' < 2 ^ 64 ∧
      ∀ j < 16, field (c.plannedMap b from') (4 * j + 3) (4 * j) = c.plannedSlot b (from' + j) := by
  obtain ⟨hlt, hdigits⟩ := digits_of_foldl (fun j => c.plannedSlot b (from' + j))
    (fun j => plannedSlot_lt hviews hrest b _) 16
  rw [plannedMap_eq]
  refine ⟨hlt, fun j hj => ?_⟩
  rw [field, ← hdigits j hj, show 4 * j + 3 - 4 * j + 1 = 4 by omega, pow_mul]
  norm_num

/-- Two views want one slot of a profile. -/
def State.plansClash (c : State) : Bool :=
  [false, true].any fun b => (List.range (c.slotsIn b)).any fun k => decide (1 < (c.plannedView b k).length)

theorem plan_settable : isCommand .sender (keyOf 0x4320 1) 1 = true ∧ settable .sender (keyOf 0x4320 2) 8 = true ∧
    ∀ sub ∈ [3, 4, 5, 6], settable .sender (keyOf 0x4320 sub) 64 = true := by decide +kernel

theorem planSlots_run_clash {s : State} (h : s.planConfig.plansClash = true) :
    planSlots.run s = (set 0x4320 2 Status.consistency).run s := by
  have hor : (((List.range (s.planConfig.slotsIn false)).any fun k => decide (1 < (s.planConfig.plannedView false k).length)) ||
      (List.range (s.planConfig.slotsIn true)).any fun k => decide (1 < (s.planConfig.plannedView true k).length)) = true := by
    simpa [State.plansClash] using h
  rw [planSlots, Effect.run_look]
  exact congrArg (fun e : Effect => e.run s) (if_pos hor)

/-- The map that a plan writes into entry 4320h.sub. -/
def State.plannedEntry (c : State) (sub : Nat) : Nat := c.plannedMap (decide (5 ≤ sub)) (16 * ((sub - 3) % 2))

theorem planSlots_run_ok {s : State} (h : s.planConfig.plansClash = false) : planSlots.run s =
    (Effect.each (fun sub => set 0x4320 sub (s.planConfig.plannedEntry sub)) [3, 4, 5, 6]).run
      ((set 0x4320 2 Status.ok).run s) := by
  have hor : (((List.range (s.planConfig.slotsIn false)).any fun k => decide (1 < (s.planConfig.plannedView false k).length)) ||
      (List.range (s.planConfig.slotsIn true)).any fun k => decide (1 < (s.planConfig.plannedView true k).length)) = false := by
    simpa [State.plansClash, Bool.or_eq_false_iff] using h
  rw [planSlots, Effect.run_look]
  exact congrArg (fun e : Effect => e.run s) (if_neg (ne_true_of_eq_false hor))

theorem planSlots_writes : planSlots.Writes (· ∈ [2, 3, 4, 5, 6].map (keyOf 0x4320)) := by simp [planSlots]
theorem planSlots_noStore : planSlots.NoStore := by simp [planSlots]
theorem planSlots_sameBeside (s : State) : SameBeside s (planSlots.run s) :=
  SameBeside.of (by simp [planSlots])

/-- The entries that a plan without a clash leaves. -/
theorem planSlots_entries {s : State} (hs : s.sound = true) (hsend : s.isSender = true)
    (h : s.planConfig.plansClash = false) : (planSlots.run s).entry (keyOf 0x4320 2) = Status.ok ∧
      ∀ sub ∈ [3, 4, 5, 6], (planSlots.run s).entry (keyOf 0x4320 sub) = s.planConfig.plannedEntry sub % 2 ^ 64 := by
  have hp := State.isSender_iff.mp hsend
  obtain ⟨-, hstatus, hmaps⟩ := plan_settable
  have hu : ((set 0x4320 2 Status.ok).run s).sound = true := Effect.run_sound _ hs
  rw [planSlots_run_ok h]
  refine ⟨?_, sets_entry hu (hp ▸ hmaps) (by decide)⟩
  have hrest : (Effect.each (fun sub => set 0x4320 sub (s.planConfig.plannedEntry sub)) [3, 4, 5, 6]).Writes
      (· ∈ [3, 4, 5, 6].map (keyOf 0x4320)) := by simp
  exact (hrest.keeps (by decide) hu).2.trans ((set_entry hs (hp ▸ hstatus)).trans (by decide))

/-- PLAN writes the maps, or shows CONSISTENCY. -/
theorem plan_acts {s : State} {d : Door} (hs : s.sound = true) (hsend : s.isSender = true) (hsv : s.servesAt d = true) :
    let c := s.planConfig
    (c.plansClash = true → Acts (.plan d) d Status.ok [keyOf 0x4320 2] s fun t =>
      t.entry (keyOf 0x4320 2) = Status.consistency ∧ SameBeside s t) ∧
    (c.plansClash = false → Acts (.plan d) d Status.ok ([2, 3, 4, 5, 6].map (keyOf 0x4320)) s fun t =>
      t.entry (keyOf 0x4320 2) = Status.ok ∧ SameBeside s t ∧
      ((∀ q < 8, c.entry (keyOf (0x4310 + q) 2) < 16) → c.entry (keyOf 0x4320 7) < 16 → ∀ b : Bool, ∀ k < 32,
        field (t.entry (keyOf 0x4320 ((if b then 5 else 3) + k / 16))) (4 * (k % 16) + 3) (4 * (k % 16)) =
          c.plannedSlot b k)) := by
  have hp := State.isSender_iff.mp hsend
  obtain ⟨hcmd, hstatus, -⟩ := plan_settable
  have hdone := commandAt_completes (c := .plan d) (st := Status.ok) (e := planSlots) hs hsv rfl (hp ▸ hcmd) (by decide) rfl
  refine ⟨fun h => ?_, fun h => ?_⟩
  · obtain ⟨t, hexec, hans, honly, hbeside⟩ := hdone
    rw [planSlots_run_clash h] at honly hbeside
    refine ⟨t, hexec, hans, Only.trans ⟨Effect.Writes.frame (by simp) hs, Effect.NoStore.frame (by simp)⟩ honly, ?_, hbeside⟩
    rw [honly.1.2 _ (by decide)]
    exact (set_entry hs (hp ▸ hstatus)).trans (by decide)
  · refine Acts.of hdone hs planSlots_writes planSlots_noStore fun t hkeep hbeside =>
      ⟨?_, (planSlots_sameBeside s).trans hbeside, fun hviews hrest b k hk => ?_⟩
    · rw [hkeep _ (by decide)]
      exact (planSlots_entries hs hsend h).1
    · obtain ⟨hfits, hread⟩ := plannedMap_facts hviews hrest b (16 * (k / 16))
      have hsub : (if b then 5 else 3) + k / 16 ∈ [3, 4, 5, 6] := by
        have : k / 16 < 2 := by omega
        generalize k / 16 = j at this
        interval_cases j <;> (cases b <;> decide)
      have hmap : s.planConfig.plannedEntry ((if b then 5 else 3) + k / 16) = s.planConfig.plannedMap b (16 * (k / 16)) := by
        have : k / 16 < 2 := by omega
        generalize k / 16 = j at this
        interval_cases j <;> (cases b <;> rfl)
      have hmark : keyOf 0x4320 ((if b then 5 else 3) + k / 16) ∉ doorMarks := by
        generalize (if b then 5 else 3) + k / 16 = sub at hsub
        revert sub
        decide
      rw [hkeep _ hmark, (planSlots_entries hs hsend h).2 _ hsub, hmap, Nat.mod_eq_of_lt hfits,
        hread _ (Nat.mod_lt _ (by decide)), Nat.div_add_mod]

end Sys2Proof.Machine
end

section
namespace Sys2Proof.Machine

/-! ### O51 PreviewsAndSyncOutputsRun -/

/-- The state of a sink at the start of a frame, in the words of the statement. -/
theorem sinkState_carries (s : State) (o : Nat) (sink : Option PreviewSink) : s.sinkState o sink = match sink with
    | none => 1
    | some k => if s.entry (keyOf (0x6300 + o) 0x0B) ≤ 1 ∨
        decide (s.entry (keyOf (0x4000 + o) 5) * 3 * s.entry (keyOf (0x6300 + o) 8) ≤
          min k.lanes (s.entry (keyOf (0x6300 + o) 0x0A)) * 9697000) = false then 2 else 3 := sinkState_eq s o sink

/-- PREVIEW_FRAME_START of an output that is enabled. -/
theorem previewFrameStart_enabled {s : State} {o : Nat} (sink : Option PreviewSink) (hs : s.sound = true)
    (hshape : s.shaped = true) (hsend : s.isSender = true) (ho : o < 2) (hruns : s.tgRuns o = true)
    (hon : s.entry (keyOf (0x6300 + o) 1) = 1) : Completes (.previewFrameStart ⟨o, sink⟩) s fun t =>
      t.entry (keyOf (0x4000 + o) 0x0A) = satAdd 32 (s.entry (keyOf (0x4000 + o) 0x0A)) 1 ∧
      t.entry (keyOf (0x6300 + o) 0x0B) = s.sinkState o sink ∧
      t.hid = { s.hid with
        scan := { s.hid.scan with frameAt := setAt s.hid.scan.frameAt o s.hid.time.cycles }
        ingest := { s.hid.ingest with
          previews := setAt s.hid.ingest.previews o ((s.preview o).started (edidOf sink).length) } } ∧
      t.outputs = (if s.sinkState o sink = 3 then s.outputs ++ [.pixels o (t.previewFrame o)] else s.outputs) ∧
      (s.mode ∉ [Mode.freeze, Mode.dark, Mode.faultdark] →
        t.previewFrame o = (t.preview o).banks.getD (t.preview o).bank []) ∧
      (s.mode = Mode.freeze → ∀ b ∈ t.previewFrame o, b = 0) ∧
      t.entry (keyOf (0x6300 + o) 0x0C) =
        satAdd 32 (s.entry (keyOf (0x6300 + o) 0x0C)) (if s.sinkState o sink = 3 then 1 else 0) ∧
      t.bytes (domainBase (keyOf (0x6300 + o) 0x0E)) (edidOf sink).length = edidOf sink ∧
      SameMemoryBut (domainBase (keyOf (0x6300 + o) 0x0E)) (edidOf sink).length s t ∧
      SameEntriesBut [keyOf (0x6300 + o) 0x0B, keyOf (0x6300 + o) 0x0C, keyOf (0x4000 + o) 0x0A] s t := by
  obtain ⟨hu, hframes, hkeep⟩ := State.frameCounted_facts hs hsend ho
  have hp : (s.frameCounted o).pers = s.pers := rfl
  have hhid : (s.frameCounted o).hid = { s.hid with
    scan := { s.hid.scan with frameAt := setAt s.hid.scan.frameAt o s.hid.time.cycles } } := rfl
  have hout : (s.frameCounted o).outputs = s.outputs := rfl
  have hmem : (s.frameCounted o).mem = s.mem := rfl
  have hexec := previewFrameStart_exec sink hsend ho hruns
  rw [if_pos hon] at hexec
  have hprev : (s.frameCounted o).preview o = s.preview o := rfl
  have hshape' : (s.frameCounted o).shaped = true := hshape
  have hsend' : (s.frameCounted o).isSender = true := hsend
  obtain ⟨hstate, hcount, hrest, hhid', hout', hpers', hbytes, hmem'⟩ :=
    State.sendsFrame_facts (sink := sink) hu hshape' hsend' ho (sinkState_lt s o sink)
  generalize (s.frameCounted o).sendsFrame o (s.sinkState o sink) sink = t at *
  generalize s.frameCounted o = u at *
  have hbyte : ∀ x, u.byte x = s.byte x := fun x => by rw [State.byte, hmem, State.byte]
  have hmode : t.mode = s.mode := by
    have h1 := hkeep (keyOf 0x1001 1) (by interval_cases o <;> decide)
    exact (hrest _ (by interval_cases o <;> decide) (by interval_cases o <;> decide)).trans h1
  obtain ⟨hbank, hblack⟩ := previewFrame_mode t o
  rw [hmode] at hbank hblack
  refine ⟨t, hexec, ?_, hstate, ?_, ?_, hbank, hblack, ?_, hbytes, fun x hx => (hmem' x hx).trans (hbyte x), ?_, fun k hk => ?_⟩
  · rw [hrest _ (by interval_cases o <;> decide) (by interval_cases o <;> decide), hframes]
  · rw [hhid', hhid, hprev]
  · rw [hout', hout]
  · rw [hcount, hkeep _ (by interval_cases o <;> decide)]
  · rw [hpers', hp]
  · simp only [List.mem_cons, List.not_mem_nil, or_false, not_or] at hk
    rw [hrest k hk.1 hk.2.1, hkeep k hk.2.2]

/-- Whether a TG runs depends on nothing above the objects of the TGs. -/
theorem State.tgRuns_of_agree {s u : State} {r : Nat} (hr : r < 4) (hhid : u.hid = s.hid) (hpers : u.pers = s.pers)
    (h : ∀ i < 0x6300, ∀ sub < 256, u.reg i sub = s.reg i sub) : u.tgRuns r = s.tgRuns r := by
  have hindex : s.tgIndex (s.isTile && s.profileB) r < 0x6300 := by
    rw [State.tgIndex]
    split_ifs <;> omega
  have hprofile : u.profileB = s.profileB := by rw [State.profileB, h _ (by decide) _ (by decide), State.profileB]
  have htile : u.isTile = s.isTile := by rw [State.isTile, hpers, State.isTile]
  have hindexes : u.tgIndex (u.isTile && u.profileB) r = s.tgIndex (s.isTile && s.profileB) r := by
    rw [hprofile, htile, State.tgIndex, htile, State.tgIndex]
  simp only [State.tgRuns, State.scanRuns, State.up, State.flag, State.scanModeAt, State.modeAt, State.mode, State.tick,
    State.throttled, State.tgs, State.isSender, State.tgOn, hindexes, hhid, hpers, h _ (by decide : 0x1100 < 0x6300) 6 (by decide),
    h _ (by decide : 0x1001 < 0x6300) 1 (by decide), h _ (by decide : 0x1001 < 0x6300) 3 (by decide),
    h _ (by decide : 0x1001 < 0x6300) 5 (by decide), h _ (by decide : 0x1210 < 0x6300) 2 (by decide),
    h _ (by decide : 0x1200 < 0x6300) 4 (by decide), h _ (by decide : 0x1210 < 0x6300) 1 (by decide), h _ hindex 1 (by decide)]
  rfl

/-- PREVIEW_LINE_UNDERRUN counts and marks the event. -/
theorem previewLineUnderrun_completes {s : State} {o : Nat} (hs : s.sound = true) (hsend : s.isSender = true) (ho : o < 2)
    (hruns : s.tgRuns o = true) (hon : s.entry (keyOf (0x6300 + o) 1) = 1) : Completes (.previewLineUnderrun o) s fun t =>
      t.entry (keyOf (0x6300 + o) 0x0D) = satAdd 32 (s.entry (keyOf (0x6300 + o) 0x0D)) 1 ∧
      bitAt (t.entry (keyOf (0x4000 + o) 9)) TgEvent.underrun = true ∧ SameBeside s t ∧ t.outputs = s.outputs ∧
      Only [keyOf (0x6300 + o) 0x0D, keyOf (0x4000 + o) 9, keyOf (0x4000 + o) 0x0F, keyOf 0x1400 8] s t := by
  let u := (count 32 (previewIndex o) 0x0D).run s
  have hu : u.sound = true := Effect.run_sound _ hs
  have hruns' : u.tgRuns o = true := (State.tgRuns_of_agree (s := s) (u := u) (by omega) rfl rfl fun i hi sub hsub =>
    State.entry_set_of_ne hs (keyOf_ne_of_lt (Nat.lt_of_lt_of_le hi (Nat.le_add_right _ _)) hsub)).trans hruns
  have hset : settable s.pers (keyOf (0x6300 + o) 0x0D) 32 = true :=
    State.isSender_iff.mp hsend ▸ (preview_settable o ho).2.2.2.1
  refine ⟨(tgEvent o TgEvent.underrun).run u, ?_, ?_, ?_, ?_, (tgEvent_silent _ _).outputs, ?_⟩
  · show execPreviewLineUnderrun o s = _
    simp only [execPreviewLineUnderrun, hsend, ho, State.reg_eq_entry, hon, hruns, decide_true, Bool.and_self, beq_self_eq_true,
      perform_eq, Effect.run_when_true, Effect.run_seq]
    rfl
  · rw [((tgEvent_writes o TgEvent.underrun).keeps (by interval_cases o <;> decide) hu).2]
    exact count_entry hs hset
  · exact (tgEvent_marks hu hruns' (by decide)).1
  · exact SameBeside.trans (show SameBeside s u from rfl) (SameBeside.of (tgEvent_beside (fun _ _ => rfl) _ _))
  · exact Only.trans (ks := [keyOf (0x6300 + o) 0x0D]) ⟨Effect.Writes.frame (by simp) hs, Effect.NoStore.frame (by simp)⟩
      ⟨(tgEvent_writes _ _).frame hu, (tgEvent_noStore _ _).frame⟩

/-- Settles O51, command by command: a build ends alike done or given up; a frame's start counts it and, where the output is
enabled, reads on, takes the sink's EDID and sends; a planned map is a number written digit by digit. -/
theorem previewsAndSyncOutputsRun : Obligations.PreviewsAndSyncOutputsRun := by
  unfold Obligations.PreviewsAndSyncOutputsRun
  refine ⟨fun s o n hs hshape hsend hup ho hb => ⟨previewBuild_completes hs hshape hsend hup ho hb,
    previewBuildAbandon_completes hs hshape hsend hup ho hb⟩, fun s o sink hs hshape hsend ho hruns => ⟨fun hon => ⟨?_,
    previewLineUnderrun_completes hs hsend ho hruns hon⟩, fun hoff => ?_⟩, fun s k e hs hk => ⟨syncEdge_completes hs hk,
    fun hsend hstep hmode hon hwait hnext => syncStart_completes hs hk hsend hstep hmode hon hwait hnext,
    fun d lt hsend hsv hlt => syncStartTimeWrite_acts hs hk hsend hsv hlt⟩, fun s d hs hsend hsv => plan_acts hs hsend hsv⟩
  · have hdone := previewFrameStart_enabled sink hs hshape hsend ho hruns hon
    rw [sinkState_carries] at hdone
    exact hdone
  · obtain ⟨-, hframes, hkeep⟩ := State.frameCounted_facts hs hsend ho
    have hexec := previewFrameStart_exec sink hsend ho hruns
    rw [if_neg hoff] at hexec
    exact ⟨_, hexec, hframes, rfl, rfl, ⟨rfl, fun k hk => hkeep k (by simpa using hk)⟩, fun _ => rfl⟩

end Sys2Proof.Machine
end

section
namespace Sys2Proof.Machine

/-! ### Bytes that lie apart from those stored, and the fences -/

/-- A state whose bytes agree with another's on a range reads the same bytes from it. -/
theorem State.bytes_congr {s t : State} {a n : Nat} (h : ∀ i < n, t.byte (a + i) = s.byte (a + i)) :
    t.bytes a n = s.bytes a n := by
  refine List.ext_getElem (by simp [State.bytes, memRead]) fun i h1 h2 => ?_
  have hi : i < n := by simpa [State.bytes, memRead] using h2
  simpa [State.bytes, memRead, Sparse.getAll, State.byte, memGet] using h i hi

theorem SameMemoryBut.bytes {a n : Nat} {s t : State} (h : SameMemoryBut a n s t) {b m : Nat}
    (hb : b + m ≤ a ∨ a + n ≤ b) : t.bytes b m = s.bytes b m :=
  State.bytes_congr fun i hi => h _ (by omega)

theorem SameMemoryBut.trans {a n : Nat} {s t u : State} (h : SameMemoryBut a n s t) (h' : SameMemoryBut a n t u) :
    SameMemoryBut a n s u := fun x hx => (h' x hx).trans (h x hx)

theorem SameMemoryBut.mono {a n b m : Nat} {s t : State} (h : SameMemoryBut a n s t) (hb : b ≤ a) (hm : a + n ≤ b + m) :
    SameMemoryBut b m s t := fun x hx => h x (by omega)

theorem SameMemory.but {s t : State} (h : SameMemory s t) (a n : Nat) : SameMemoryBut a n s t := fun x _ => h x

/-- Where the values of fence f stand. -/
def fenceBase (f : Nat) : Nat := domainBase (keyOf 0x6031 1) + 16 * f

/-- The surface table lies below the fences. -/
theorem surfaceTable_below (f : Nat) {o : Nat} (ho : o ≤ 4096) : domainBase (keyOf 0x6030 1) + o ≤ fenceBase f := by
  have : domainBase (keyOf 0x6030 1) + 2 ^ 36 = domainBase (keyOf 0x6031 1) := by decide +kernel
  rw [fenceBase]
  omega

/-- A change of a fence leaves the surface sets alone. -/
theorem SameMemoryBut.surfaceSet {f n : Nat} {s t : State} (h : SameMemoryBut (fenceBase f) n s t) :
    ∀ i < 64, t.surfaceSet i = s.surfaceSet i := by
  intro i hi
  have hword : ∀ o n, o + n ≤ 48 → t.contentWord 0x6030 1 (48 * i + o) n = s.contentWord 0x6030 1 (48 * i + o) n := by
    intro o n ho
    have := surfaceTable_below f (o := 48 * i + o + n) (by omega)
    rw [State.contentWord, State.content, h.bytes (.inl (by omega)), State.contentWord, State.content]
  simp only [State.surfaceSet, hword _ _ (by decide : 0 + 8 ≤ 48), hword _ _ (by decide : 8 + 8 ≤ 48),
    hword _ _ (by decide : 16 + 4 ≤ 48), hword _ _ (by decide : 20 + 4 ≤ 48), hword _ _ (by decide : 24 + 2 ≤ 48),
    hword _ _ (by decide : 26 + 2 ≤ 48), hword _ _ (by decide : 28 + 1 ≤ 48), hword _ _ (by decide : 29 + 1 ≤ 48),
    hword _ _ (by decide : 30 + 1 ≤ 48), hword _ _ (by decide : 31 + 1 ≤ 48), hword _ _ (by decide : 32 + 1 ≤ 48)]

theorem setFence_run (f v : Nat) (s : State) : (setFence f v).run s = (Act.store (fenceBase f) (bytesLE 8 v)).apply s := rfl

theorem setEffective_run (f v : Nat) (s : State) :
    (setEffective f v).run s = (Act.store (fenceBase f + 8) (bytesLE 8 v)).apply s := by
  rw [setEffective, storeContent, storeAt_run, fenceBase, Nat.add_assoc]

theorem State.fence_eq (s : State) (f : Nat) : s.fence f = natLE (s.bytes (fenceBase f) 8) := rfl

theorem State.effective_eq (s : State) (f : Nat) : s.effective f = natLE (s.bytes (fenceBase f + 8) 8) := by
  rw [State.effective, State.contentWord, State.content, fenceBase, Nat.add_assoc]

/-- A fence is set: its effective value stays. -/
theorem setFence_facts {s : State} {f v : Nat} (hs : s.sound = true) (hv : v < 256 ^ 8) :
    let t := (setFence f v).run s
    t.fence f = v ∧ t.effective f = s.effective f ∧ SameMemoryBut (fenceBase f) 8 s t := by
  rw [setFence_run]
  have hlen : (bytesLE 8 v).length = 8 := length_bytesLE ..
  have hmem := store_sameMemoryBut hs (fenceBase f) (bytesLE 8 v)
  have hbytes := store_bytes hs (fenceBase f) (bytesLE 8 v)
  rw [hlen] at hmem hbytes
  exact ⟨by rw [State.fence_eq, hbytes, natLE_bytesLE hv],
    by rw [State.effective_eq, hmem.bytes (.inr (le_refl _)), State.effective_eq], hmem⟩

/-- An effective value is set: the fence stays. -/
theorem setEffective_facts {s : State} {f v : Nat} (hs : s.sound = true) (hv : v < 256 ^ 8) :
    let t := (setEffective f v).run s
    t.effective f = v ∧ t.fence f = s.fence f ∧ SameMemoryBut (fenceBase f + 8) 8 s t := by
  rw [setEffective_run]
  have hlen : (bytesLE 8 v).length = 8 := length_bytesLE ..
  have hmem := store_sameMemoryBut hs (fenceBase f + 8) (bytesLE 8 v)
  have hbytes := store_bytes hs (fenceBase f + 8) (bytesLE 8 v)
  rw [hlen] at hmem hbytes
  exact ⟨by rw [State.effective_eq, hbytes, natLE_bytesLE hv],
    by rw [State.fence_eq, hmem.bytes (.inl (le_refl _)), State.fence_eq], hmem⟩

/-! #### The link shows once it is used -/

/-- A state that differs from another at most in 6020h.01 and in the free values used. -/
def LinkShown (s u : State) : Prop :=
  u.sound = true ∧ u.pers = s.pers ∧ u.hid = s.hid ∧ u.outputs = s.outputs ∧ u.mem = s.mem ∧
  ∀ k, k ≠ keyOf 0x6020 1 → u.entry k = s.entry k

theorem trainPcie_shows {s : State} (hs : s.sound = true) : LinkShown s (trainPcie.run s) := by
  have hw : trainPcie.Writes (· ∈ [keyOf 0x6020 1]) := by simp [trainPcie]
  have hn : trainPcie.NoStore := by simp [trainPcie]
  have hh : trainPcie.Beside fun a b => b = a := by simp [trainPcie]
  have ho : trainPcie.Silent := by simp [trainPcie, useFree, Effect.Silent]
  exact ⟨Effect.run_sound _ hs, hw.pers, hh.eq, ho.outputs, hn.mem,
    fun k hk => (hw.keeps (by simpa using hk) hs).2⟩

theorem LinkShown.only {s u : State} (h : LinkShown s u) : Only [keyOf 0x6020 1] s u := by
  obtain ⟨-, hpers, -, -, hmem, hkeep⟩ := h
  exact ⟨⟨hpers, fun k hk => hkeep k (by simpa using hk)⟩, fun a => by rw [State.byte, hmem, State.byte]⟩

theorem LinkShown.bytes {s u : State} (h : LinkShown s u) (a n : Nat) : u.bytes a n = s.bytes a n :=
  State.bytes_of_mem h.2.2.2.2.1 a n

/-- An access that only counts in an entry, once the link shows. -/
theorem LinkShown.counts {s u : State} (h : LinkShown s u) {i sub : Nat} (hset : settable s.pers (keyOf i sub) 32 = true)
    (hne : keyOf i sub ≠ keyOf 0x6020 1) :
    let t := (count 32 i sub).run u
    t.hid = s.hid ∧ t.outputs = s.outputs ∧ t.entry (keyOf i sub) = satAdd 32 (s.entry (keyOf i sub)) 1 ∧
    Only [keyOf i sub, keyOf 0x6020 1] s t := by
  have honly := h.only
  obtain ⟨hu, hpers, hhid, hout, -, hkeep⟩ := h
  refine ⟨hhid, hout, ?_, ?_⟩
  · rw [count_entry hu (hpers ▸ hset), hkeep _ hne]
  · refine Only.mono (Only.trans honly ⟨Effect.Writes.frame (ks := [keyOf i sub]) (by simp) hu, Effect.NoStore.frame (by simp)⟩) ?_
    simp

theorem pcieCounts_settable : ∀ k ∈ [keyOf 0x1644 0x0A, keyOf 0x6020 2, keyOf 0x6020 3, keyOf 0x3000 6, keyOf 0x6104 4],
    settable .sender k 32 = true := by decide +kernel

end Sys2Proof.Machine
end

section
namespace Sys2Proof.Machine

/-! ### Frames of the compressor -/

/-- A frame of the compressor moves on: it stays the same frame, and what has started stays started. -/
def CompressJob.MovesOn (a b : CompressJob) : Prop :=
  b.source = a.source ∧ b.number = a.number ∧ b.frame = a.frame ∧ (a.started = true → b.started = true)

theorem CompressJob.MovesOn.refl (a : CompressJob) : a.MovesOn a := ⟨rfl, rfl, rfl, id⟩

theorem CompressJob.MovesOn.trans {a b c : CompressJob} (h : a.MovesOn b) (h' : b.MovesOn c) : a.MovesOn c := by
  obtain ⟨hs, hn, hf, hst⟩ := h
  obtain ⟨hs', hn', hf', hst'⟩ := h'
  exact ⟨hs'.trans hs, hn'.trans hn, hf'.trans hf, hst' ∘ hst⟩

theorem CompressJob.hand_movesOn (a : CompressJob) (start : Nat) : a.MovesOn (a.hand start) := ⟨rfl, rfl, rfl, fun _ => rfl⟩

/-- The frames of one list are those of another, moved on. -/
abbrev JobsMoveOn : List CompressJob → List CompressJob → Prop := List.Forall₂ CompressJob.MovesOn

theorem JobsMoveOn.refl (l : List CompressJob) : JobsMoveOn l l :=
  List.forall₂_same.mpr fun a _ => CompressJob.MovesOn.refl a

theorem JobsMoveOn.trans {l m n : List CompressJob} (h : JobsMoveOn l m) (h' : JobsMoveOn m n) : JobsMoveOn l n := by
  induction h generalizing n with
  | nil => exact h'
  | cons ha _ ih =>
    cases h' with
    | cons hb hrest => exact .cons (ha.trans hb) (ih hrest)

theorem JobsMoveOn.map {f : CompressJob → CompressJob} (hf : ∀ a : CompressJob, a.MovesOn (f a)) : ∀ l, JobsMoveOn l (l.map f)
  | [] => .nil
  | a :: l => .cons (hf a) (JobsMoveOn.map hf l)

theorem JobsMoveOn.updateAt {f : CompressJob → CompressJob} (hf : ∀ a : CompressJob, a.MovesOn (f a)) :
    ∀ (l : List CompressJob) (i : Nat), JobsMoveOn l (Machine.updateAt l i f)
  | [], _ => .nil
  | a :: l, 0 => .cons (hf a) (JobsMoveOn.refl l)
  | a :: l, i + 1 => .cons (CompressJob.MovesOn.refl a) (JobsMoveOn.updateAt hf l i)

/-- The frame that a frame has moved on from. -/
theorem JobsMoveOn.of_mem {l m : List CompressJob} (h : JobsMoveOn l m) {b : CompressJob} (hb : b ∈ m) :
    ∃ a ∈ l, a.MovesOn b := by
  induction h with
  | nil => exact absurd hb List.not_mem_nil
  | cons ha _ ih =>
    rcases List.mem_cons.mp hb with rfl | hb
    · exact ⟨_, List.mem_cons_self, ha⟩
    · obtain ⟨a, hmem, hmove⟩ := ih hb
      exact ⟨a, List.mem_cons_of_mem _ hmem, hmove⟩

/-- What a frame has moved on to. -/
theorem JobsMoveOn.mem {l m : List CompressJob} (h : JobsMoveOn l m) {a : CompressJob} (ha : a ∈ l) :
    ∃ b ∈ m, a.MovesOn b := by
  induction h with
  | nil => exact absurd ha List.not_mem_nil
  | cons hb _ ih =>
    rcases List.mem_cons.mp ha with rfl | ha
    · exact ⟨_, List.mem_cons_self, hb⟩
    · obtain ⟨b, hmem, hmove⟩ := ih ha
      exact ⟨b, List.mem_cons_of_mem _ hmem, hmove⟩

theorem Effect.Beside.mono {R R' : Hidden → Hidden → Prop} (hR : ∀ a b, R a b → R' a b) :
    ∀ {e : Effect}, e.Beside R → e.Beside R'
  | .nothing, _ => trivial
  | .act (.hid _), h => fun a => hR _ _ (h a)
  | .act (.reg _ _), _ => trivial
  | .act (.resetRegs _ _), _ => trivial
  | .act (.store _ _), _ => trivial
  | .act (.erase _ _), _ => trivial
  | .act (.out _), _ => trivial
  | .act .fresh, _ => trivial
  | .seq _ _, h => ⟨h.1.mono hR, h.2.mono hR⟩
  | .look _, h => fun s => (h s).mono hR

/-- Of the ingest state only the frames for the compressor and the engines differ. -/
def OnlyCompressor (a b : IngestState) : Prop := b = { a with jobs := b.jobs, engines := b.engines }

theorem OnlyCompressor.trans {a b c : IngestState} (h : OnlyCompressor a b) (h' : OnlyCompressor b c) : OnlyCompressor a c := by
  rw [OnlyCompressor] at *
  rw [h', h]

/-- Handing out bands moves frames on and engages engines, and does nothing else. -/
theorem handBands_moves (i : IngestState) (limit : Option Nat) : ∀ n : Nat,
    JobsMoveOn i.jobs (i.handBands limit n).jobs ∧ OnlyCompressor i (i.handBands limit n)
  | 0 => ⟨JobsMoveOn.refl _, rfl⟩
  | n + 1 => by
    obtain ⟨hjobs, honly⟩ := handBands_moves i limit n
    rw [IngestState.handBands]
    generalize i.handBands limit n = j at hjobs honly
    dsimp only
    cases j.jobs.findIdx? fun x => x.ready.isSome && !x.bands.isEmpty with
    | none => exact ⟨hjobs, honly⟩
    | some k =>
      dsimp only
      split_ifs
      · exact ⟨hjobs.trans (JobsMoveOn.updateAt (fun a => a.hand_movesOn _) _ _), honly.trans rfl⟩
      · exact ⟨hjobs, honly⟩

/-- The compressor moves on: of what stands beside the dictionary only its frames and engines, and those only forward. -/
def CompressorRuns (a b : Hidden) : Prop :=
  JobsMoveOn a.ingest.jobs b.ingest.jobs ∧ b = { a with ingest := b.ingest } ∧ OnlyCompressor a.ingest b.ingest

theorem CompressorRuns.trans {a b c : Hidden} (h : CompressorRuns a b) (h' : CompressorRuns b c) : CompressorRuns a c :=
  ⟨h.1.trans h'.1, by rw [h'.2.1, h.2.1], h.2.2.trans h'.2.2⟩

theorem runEngines_runs : runEngines.Beside CompressorRuns := by
  simp only [runEngines, Effect.beside_look, onIngest_beside]
  exact fun s a => ⟨(handBands_moves a.ingest _ _).1, rfl, (handBands_moves a.ingest _ _).2⟩

theorem startCompressing_runs : startCompressing.Beside CompressorRuns := by
  simp only [startCompressing, Effect.beside_all_cons, Effect.beside_all_nil, Effect.beside_look, onIngest_beside, and_true]
  refine ⟨runEngines_runs, fun s a => ⟨JobsMoveOn.map (fun j => ?_) _, rfl, rfl⟩, runEngines_runs⟩
  split_ifs
  · exact ⟨rfl, rfl, rfl, id⟩
  · exact CompressJob.MovesOn.refl j

theorem runs_of_beside {e : Effect} (h : e.Beside CompressorRuns) (s : State) : CompressorRuns s.hid (e.run s).hid :=
  Effect.Beside.hid (R := CompressorRuns) (fun a => ⟨JobsMoveOn.refl _, rfl, rfl⟩) CompressorRuns.trans h

/-- The frame that joins the compressor's. -/
def newJob (source number w h : Nat) (frame : Option Frame) : CompressJob := ⟨source, number, frame, bandsOf w h, false, none, 0⟩

/-- The frames once a frame has taken the place of the one of its source that waits. -/
def joinJobs (l : List CompressJob) (j : CompressJob) : List CompressJob :=
  (l.filter fun k => !(k.source == j.source && !k.started)) ++ [j]

/-- Beside the frames and the engines nothing changes. -/
theorem queueFrame_beside (source number w h : Nat) (frame : Option Frame) :
    (queueFrame source number w h frame).Beside fun a b => b = { a with ingest := b.ingest } ∧ OnlyCompressor a.ingest b.ingest := by
  have hmono : ∀ {e : Effect}, e.Beside CompressorRuns →
      e.Beside fun a b => b = { a with ingest := b.ingest } ∧ OnlyCompressor a.ingest b.ingest :=
    fun {e} h => Effect.Beside.mono (fun _ _ h => h.2) h
  simp only [queueFrame, Effect.beside_seq, Effect.beside_look, Effect.beside_all_cons, Effect.beside_all_nil, onIngest_beside,
    Effect.beside_when, count_beside, and_true]
  exact ⟨hmono runEngines_runs, fun s => ⟨fun _ => trivial, fun a => ⟨trivial, rfl⟩, hmono startCompressing_runs⟩⟩

/-- A frame becomes due: it waits, whatever of its source has not started has gone, and that counts at most once. -/
theorem queueFrame_facts {s : State} {source number w h : Nat} (hs : s.sound = true)
    (hset : settable s.pers (keyOf 0x6104 4) 32 = true) :
    let t := (queueFrame source number w h none).run s
    (∃ j ∈ t.hid.ingest.jobs, j.source = source ∧ j.number = number ∧ j.frame = none) ∧
    (∀ j ∈ t.hid.ingest.jobs, j.source = source → j.number ≠ number → j.started = true) ∧
    t.entry (keyOf 0x6104 4) ∈ [s.entry (keyOf 0x6104 4), satAdd 32 (s.entry (keyOf 0x6104 4)) 1] := by
  let u := runEngines.run s
  have hu : u.sound = true := Effect.run_sound _ hs
  obtain ⟨hmoved, -, -⟩ := runs_of_beside runEngines_runs s
  let full : Bool := decide (0x40 ≤ source) && u.hid.ingest.jobs.any fun k => k.source == source && !k.started
  let v := (Effect.when full (count 32 0x6104 4)).run u
  have hv : v.hid = u.hid := by
    show ((Effect.when full (count 32 0x6104 4)).run u).hid = u.hid
    rw [Effect.run_when]
    split_ifs <;> rfl
  let x := (onIngest fun i => { i with jobs := joinJobs i.jobs (newJob source number w h none) }).run v
  have hx : x.hid.ingest.jobs = joinJobs u.hid.ingest.jobs (newJob source number w h none) := by
    show joinJobs v.hid.ingest.jobs _ = _
    rw [hv]
  have hrun : (queueFrame source number w h none).run s = startCompressing.run x := by
    simp only [queueFrame, Effect.run_seq, Effect.run_look, Effect.run_all_cons, Effect.run_all_nil]
    rfl
  obtain ⟨hjobs, -, -⟩ := runs_of_beside startCompressing_runs x
  rw [hx] at hjobs
  rw [hrun]
  refine ⟨?_, fun j hj hsource hnumber => ?_, ?_⟩
  · obtain ⟨j, hmem, hsource, hnumber, hframe, -⟩ := hjobs.mem (a := newJob source number w h none) (by simp [joinJobs])
    exact ⟨j, hmem, hsource, hnumber, hframe⟩
  · obtain ⟨a, ha, hsource', hnumber', -, hstarted⟩ := hjobs.of_mem hj
    rcases List.mem_append.mp ha with ha | ha
    · have hkept := (List.mem_filter.mp ha).2
      have : a.source = source := hsource'.symm.trans hsource
      refine hstarted ?_
      simpa [newJob, this] using hkept
    · obtain rfl := List.mem_singleton.mp ha
      exact absurd hnumber' hnumber
  · have hstart : startCompressing.Writes (fun _ => False) := by simp [startCompressing, runEngines]
    have hrunw : runEngines.Writes (fun _ => False) := by simp [runEngines]
    have hxs : x.sound = true := Effect.run_sound _ (Effect.run_sound _ hu)
    have hpers : u.pers = s.pers := hrunw.pers
    have hentry : u.entry (keyOf 0x6104 4) = s.entry (keyOf 0x6104 4) := (hrunw.keeps id hs).2
    rw [(hstart.keeps id hxs).2]
    show v.entry (keyOf 0x6104 4) ∈ _
    simp only [v, Effect.run_when]
    split_ifs
    · rw [count_entry hu (hpers ▸ hset), hentry]
      simp
    · rw [hentry]
      simp

end Sys2Proof.Machine
end

section
namespace Sys2Proof.Machine

/-! ### Writes of a fence -/

/-- Of a list of effects of which one acts, while something holds that it keeps, only that one counts. -/
theorem Effect.run_each_single {α : Type} {P : State → Prop} {f : α → Effect} {a : α} {l : List α} {s : State}
    (ha : a ∈ l) (hl : l.Nodup) (hrest : ∀ y ∈ l, y ≠ a → ∀ t, P t → (f y).run t = t) (hs : P s) (hPa : P ((f a).run s)) :
    (Effect.each f l).run s = (f a).run s := by
  induction l with
  | nil => exact absurd ha List.not_mem_nil
  | cons x l ih =>
    obtain ⟨hx, hl⟩ := List.nodup_cons.mp hl
    rw [Effect.run_each_cons]
    by_cases hxa : x = a
    · subst hxa
      exact Effect.run_each_of_run_eq fun y hy => hrest y (List.mem_cons_of_mem x hy) (fun h => hx (h ▸ hy)) _ hPa
    · rw [hrest x List.mem_cons_self hxa s hs]
      exact ih ((List.mem_cons.mp ha).resolve_left (Ne.symm hxa)) hl fun y hy => hrest y (List.mem_cons_of_mem x hy)

/-- The surface sets are those of another state. -/
def SameSets (s t : State) : Prop := ∀ i < 64, t.surfaceSet i = s.surfaceSet i

/-- A set that is off, or whose effective value has come up with its fence, leaves the fence alone. -/
theorem followFence_rests {t : State} {i : Nat}
    (h : (t.surfaceSet i).on = false ∨ t.fence (t.surfaceSet i).fence ≤ t.effective (t.surfaceSet i).fence) :
    (followFence i).run t = t := by
  rw [followFence, Effect.run_look, Effect.run_when, if_neg]
  rcases h with h | h <;> simp [h]

/-- A set in a compressed format follows its fence at once. -/
theorem followFence_compressed {t : State} {i : Nat} (hon : (t.surfaceSet i).on = true)
    (hlt : t.effective (t.surfaceSet i).fence < t.fence (t.surfaceSet i).fence) (hraw : (t.surfaceSet i).raw = false) :
    (followFence i).run t = (setEffective (t.surfaceSet i).fence (t.fence (t.surfaceSet i).fence)).run t := by
  simp only [followFence, Effect.run_look, hon, hlt, hraw, decide_true, Bool.and_self, Effect.run_when_true,
    Bool.false_eq_true, if_false]

/-- A raw set has a newer frame for the compressor. -/
theorem followFence_raw {t : State} {i : Nat} (hon : (t.surfaceSet i).on = true)
    (hlt : t.effective (t.surfaceSet i).fence < t.fence (t.surfaceSet i).fence) (hraw : (t.surfaceSet i).raw = true)
    (hnew : ∀ j ∈ t.hid.ingest.jobs, j.source = 0x40 + i → j.number < t.fence (t.surfaceSet i).fence) :
    (followFence i).run t = (queueFrame (0x40 + i) (t.fence (t.surfaceSet i).fence) (t.surfaceSet i).width
      (t.surfaceSet i).height none).run t := by
  have hknown : (t.hid.ingest.jobs.any fun j => j.source == 0x40 + i && t.fence (t.surfaceSet i).fence ≤ j.number) = false := by
    rw [List.any_eq_false]
    intro j hj hboth
    simp only [Bool.and_eq_true, beq_iff_eq, decide_eq_true_eq] at hboth
    have := hnew j hj hboth.1
    omega
  simp only [followFence, Effect.run_look, hon, hlt, hraw, hknown, decide_true, Bool.and_self, Effect.run_when_true,
    Bool.not_false, if_true]

/-- A fence goes up: its value is stored, and the sets that name it follow. -/
theorem writeFence_up {u : State} {f v : Nat} (hfree : u.frozen 3 = false) (hlt : u.fence f < v) :
    (writeFence f v).run u =
      (Effect.each (fun i => Effect.when ((u.surfaceSet i).fence == f) (followFence i)) (List.range 64)).run
        ((setFence f v).run u) := by
  rw [writeFence, Effect.run_look, hfree, if_neg Bool.false_ne_true, if_neg (not_le.mpr hlt), Effect.run_seq]

section
variable {u : State} {f v : Nat} (hu : u.sound = true) (hfree : u.frozen 3 = false) (hlt : u.fence f < v)
  (hv : v < 256 ^ 8)
include hu hfree hlt hv

/-- No set follows: only the fence changes. -/
theorem writeFence_alone (hrest : (∀ i < 64, (u.surfaceSet i).fence ≠ f ∨ (u.surfaceSet i).on = false) ∨ v ≤ u.effective f) :
    (writeFence f v).run u = (setFence f v).run u := by
  obtain ⟨hfence, heff, hmem⟩ := setFence_facts hu hv (f := f)
  have hsets := hmem.surfaceSet
  rw [writeFence_up hfree hlt]
  refine Effect.run_each_of_run_eq fun i hi => ?_
  have hi := List.mem_range.mp hi
  rw [Effect.run_when]
  split_ifs with hf
  · have hf : (u.surfaceSet i).fence = f := by simpa using hf
    refine followFence_rests ?_
    rw [hsets i hi, hf, hfence, heff]
    exact hrest.imp (fun h => (h i hi).resolve_left (not_not_intro hf)) id
  · rfl

variable {i : Nat} (hi : i < 64) (hf : (u.surfaceSet i).fence = f)
  (hothers : ∀ j < 64, j ≠ i → (u.surfaceSet j).fence ≠ f ∨ (u.surfaceSet j).on = false)
include hi hf hothers

/-- One set follows, in a way that leaves the surface sets alone. -/
theorem writeFence_single (hkeep : SameSets u ((followFence i).run ((setFence f v).run u))) :
    (writeFence f v).run u = (followFence i).run ((setFence f v).run u) := by
  obtain ⟨-, -, hmem⟩ := setFence_facts hu hv (f := f)
  have hact : (Effect.when ((u.surfaceSet i).fence == f) (followFence i)) = followFence i := by simp [hf, Effect.when]
  rw [writeFence_up hfree hlt, Effect.run_each_single (P := SameSets u) (List.mem_range.mpr hi) List.nodup_range
    (fun j hj hji t ht => ?_) hmem.surfaceSet (by rwa [hact]), hact]
  have hj := List.mem_range.mp hj
  rw [Effect.run_when]
  split_ifs with hfj
  · have hfj : (u.surfaceSet j).fence = f := by simpa using hfj
    exact followFence_rests (.inl (by rw [ht j hj]; exact (hothers j hj hji).resolve_left (not_not_intro hfj)))
  · rfl

variable (hon : (u.surfaceSet i).on = true) (heff : u.effective f < v)
include hon heff

/-- The effective value of a compressed set follows at once. -/
theorem writeFence_compressed (hraw : (u.surfaceSet i).raw = false) :
    let t := (writeFence f v).run u
    t.fence f = v ∧ t.effective f = v ∧ SameMemoryBut (fenceBase f) 16 u t ∧ t.hid = u.hid ∧ t.outputs = u.outputs ∧
    t.pers = u.pers ∧ ∀ k, t.entry k = u.entry k := by
  obtain ⟨hfence, heff', hmem⟩ := setFence_facts hu hv (f := f)
  let w := (setFence f v).run u
  have hw : w.sound = true := Effect.run_sound _ hu
  have hset : w.surfaceSet i = u.surfaceSet i := hmem.surfaceSet i hi
  have hrun : (followFence i).run w = (setEffective f v).run w := by
    rw [followFence_compressed] <;> simp only [hset, hf]
    · rw [hfence]
    · exact hon
    · rw [hfence, heff']
      exact heff
    · exact hraw
  obtain ⟨heffective, hkept, hmem'⟩ := setEffective_facts hw hv (f := f)
  have hboth : SameMemoryBut (fenceBase f) 16 u ((setEffective f v).run w) :=
    (hmem.mono le_rfl (by omega)).trans (hmem'.mono (by omega) (by omega))
  rw [writeFence_single hu hfree hlt hv hi hf hothers (by rw [hrun]; exact hboth.surfaceSet), hrun]
  have hsame : ((setEffective f v).run w).hid = w.hid ∧ ((setEffective f v).run w).outputs = w.outputs ∧
      ((setEffective f v).run w).pers = w.pers ∧ ∀ k, ((setEffective f v).run w).entry k = w.entry k :=
    ⟨rfl, rfl, rfl, fun _ => rfl⟩
  exact ⟨hkept.trans hfence, heffective, hboth, hsame⟩

/-- A raw set has a frame for the compressor, and its effective value waits. -/
theorem writeFence_raw (hp : u.isSender = true) (hraw : (u.surfaceSet i).raw = true)
    (hnew : ∀ j ∈ u.hid.ingest.jobs, j.source = 0x40 + i → j.number < v) :
    let t := (writeFence f v).run u
    t.fence f = v ∧ t.effective f = u.effective f ∧ SameMemoryBut (fenceBase f) 8 u t ∧
    (∃ j ∈ t.hid.ingest.jobs, j.source = 0x40 + i ∧ j.number = v ∧ j.frame = none) ∧
    (∀ j ∈ t.hid.ingest.jobs, j.source = 0x40 + i → j.number ≠ v → j.started = true) ∧
    t.entry (keyOf 0x6104 4) ∈ [u.entry (keyOf 0x6104 4), satAdd 32 (u.entry (keyOf 0x6104 4)) 1] ∧
    t.hid = { u.hid with ingest := { u.hid.ingest with
      jobs := t.hid.ingest.jobs
      engines := t.hid.ingest.engines } } ∧
    t.outputs = u.outputs ∧ t.pers = u.pers ∧ ∀ k, k ≠ keyOf 0x6104 4 → t.entry k = u.entry k := by
  obtain ⟨hfence, heff', hmem⟩ := setFence_facts hu hv (f := f)
  let w := (setFence f v).run u
  have hw : w.sound = true := Effect.run_sound _ hu
  have hset : w.surfaceSet i = u.surfaceSet i := hmem.surfaceSet i hi
  let q := queueFrame (0x40 + i) v (u.surfaceSet i).width (u.surfaceSet i).height none
  have hrun : (followFence i).run w = q.run w := by
    rw [followFence_raw] <;> simp only [hset, hf]
    · rw [hfence]
    · exact hon
    · rw [hfence, heff']
      exact heff
    · exact hraw
    · rw [hfence]
      exact hnew
  have hq : q.NoStore := by simp [q, queueFrame, startCompressing, runEngines]
  have hwrites : q.Writes (· ∈ [keyOf 0x6104 4]) := by simp [q, queueFrame, startCompressing, runEngines]
  have hsilent : q.Silent := by simp [q, queueFrame, startCompressing, runEngines]
  have hbytes : ∀ a n, (q.run w).bytes a n = w.bytes a n := State.bytes_of_mem hq.mem
  have hboth : SameMemoryBut (fenceBase f) 8 u (q.run w) := hmem.trans (hq.frame.but _ _)
  have hset4 : settable w.pers (keyOf 0x6104 4) 32 = true :=
    (State.isSender_iff.mp hp : w.pers = .sender) ▸ pcieCounts_settable _ (by simp)
  obtain ⟨hjoin, hstarted, hcount⟩ := queueFrame_facts (s := w) (source := 0x40 + i) (number := v)
    (w := (u.surfaceSet i).width) (h := (u.surfaceSet i).height) hw hset4
  have hhid : (q.run w).hid = { w.hid with ingest := (q.run w).hid.ingest } ∧
      OnlyCompressor w.hid.ingest (q.run w).hid.ingest :=
    Effect.Beside.hid (R := fun a b => b = { a with ingest := b.ingest } ∧ OnlyCompressor a.ingest b.ingest)
      (fun _ => ⟨rfl, rfl⟩) (fun h h' => ⟨by rw [h'.1, h.1], h.2.trans h'.2⟩) (queueFrame_beside _ _ _ _ _)
  rw [writeFence_single hu hfree hlt hv hi hf hothers (by rw [hrun]; exact hboth.surfaceSet), hrun]
  refine ⟨?_, ?_, hboth, hjoin, hstarted, hcount, ?_, hsilent.outputs, hwrites.pers, fun k hk =>
    (hwrites.keeps (by simpa using hk) hw).2⟩
  · rw [State.fence_eq, hbytes]
    exact hfence
  · rw [State.effective_eq, hbytes]
    exact heff'
  · have honly := hhid.2
    rw [OnlyCompressor] at honly
    exact hhid.1.trans (by rw [honly]; rfl)

end

end Sys2Proof.Machine
end

section
namespace Sys2Proof.Machine

/-! ### O46 FencesAndTheWindowOfMemory -/

section
variable {s u : State} (h : LinkShown s u)
include h

theorem LinkShown.frozen (m : Nat) : u.frozen m = s.frozen m := by
  show bitAt (u.entry (keyOf 0x1644 1)) m = bitAt (s.entry (keyOf 0x1644 1)) m
  rw [h.2.2.2.2.2 _ (by decide)]

theorem LinkShown.fence (f : Nat) : u.fence f = s.fence f := by rw [State.fence_eq, h.bytes, State.fence_eq]

theorem LinkShown.effective (f : Nat) : u.effective f = s.effective f := by
  rw [State.effective_eq, h.bytes, State.effective_eq]

theorem LinkShown.surfaceSet (i : Nat) : u.surfaceSet i = s.surfaceSet i := by
  simp only [State.surfaceSet, State.contentWord, State.content, h.bytes]

/-- What changes entries of a list once the link shows. -/
theorem LinkShown.entries {t : State} {ks : List Key} (hpers : t.pers = u.pers) (hkeep : ∀ k, k ∉ ks → t.entry k = u.entry k) :
    SameEntriesBut (keyOf 0x6020 1 :: ks) s t := by
  refine ⟨hpers.trans h.2.1, fun k hk => ?_⟩
  obtain ⟨hne, hk⟩ := not_or.mp (List.mem_cons.not.mp hk)
  rw [hkeep k hk, h.2.2.2.2.2 k hne]

theorem LinkShown.memory {t : State} {a n : Nat} (hmem : SameMemoryBut a n u t) : SameMemoryBut a n s t := fun x hx => by
  rw [hmem x hx, State.byte, h.2.2.2.2.1, State.byte]

/-- What is answered once the link shows. -/
theorem LinkShown.answers (bs : List Byte) (poison : Bool) :
    let t := (emit (.completion bs poison)).run u
    t.hid = s.hid ∧ t.outputs = s.outputs ++ [.completion bs poison] ∧ Only [keyOf 0x6020 1] s t :=
  ⟨h.2.2.1, congrArg (· ++ [Output.completion bs poison]) h.2.2.2.1, h.only⟩

end

/-- A write of a fence at BAR4. -/
theorem fenceWrite_exec {s : State} {f n : Nat} {bs : List Byte} (hsend : s.isSender = true) (hcore : s.up .core = true)
    (hf : f < 256) (hbs : bs.length = 8) :
    exec (.fenceWrite ⟨true, 8 * f, n⟩ bs) s = .next ((writeFence f (natLE bs)).run (trainPcie.run s)) := by
  have hcond : (s.up .core && bs.length == 8 && 8 * f % 8 == 0 && decide (8 * f < 0x800)) = true := by
    simp [hcore, hbs]
    omega
  show execFenceWrite ⟨true, 8 * f, n⟩ bs s = _
  simp only [execFenceWrite, hsend, hcond, perform_eq, Effect.run_when_true, Effect.run_seq, if_true,
    Nat.mul_div_cancel_left f (by decide : 0 < 8)]

/-- A read of BAR4. -/
theorem fenceRead_exec {s : State} {a n : Nat} {bs : List Byte} (hsend : s.isSender = true) :
    exec (.fenceWrite ⟨false, a, n⟩ bs) s =
      .next ((emit (.completion (s.bar4Read a n) false)).run (trainPcie.run s)) := by
  show execFenceWrite ⟨false, a, n⟩ bs s = _
  simp only [execFenceWrite, hsend, perform_eq, Effect.run_when_true, Effect.run_seq, Bool.false_eq_true, if_false]

theorem bar4Read_fence {s : State} (hcore : s.up .core = true) {f : Nat} (hf : f < 256) :
    s.bar4Read (8 * f) 8 = bytesLE 8 (s.fence f) := by
  have hlt : 8 * f < 0x800 := by omega
  simp [State.bar4Read, hcore, hlt]

theorem bar4Read_shown {s : State} (hcore : s.up .core = true) {g : Nat} (hg : g < 64) :
    s.bar4Read (0x800 + 8 * g) 8 = bytesLE 8 (s.shown g) := by
  have h0 : (0x800 + 8 * g) % 8 = 0 := by omega
  have h1 : ¬ 0x800 + 8 * g < 0x800 := by omega
  have h2 : 0x800 + 8 * g < 0xA00 := by omega
  have h3 : (0x800 + 8 * g - 0x800) / 8 = g := by omega
  simp only [State.bar4Read, hcore, h0, if_neg h1, if_pos h2, h3]
  rfl

theorem bar4Read_zero {s : State} (hcore : s.up .core = true) {a n : Nat} (h : n ≠ 8 ∨ a % 8 ≠ 0 ∨ 0xA00 ≤ a) :
    s.bar4Read a n = zeroBytes n := by
  by_cases hbad : n ≠ 8 ∨ a % 8 ≠ 0
  · simp [State.bar4Read, hcore, hbad]
  · obtain ⟨rfl, h8⟩ : n = 8 ∧ a % 8 = 0 := by omega
    have h1 : ¬ a < 0x800 := by omega
    have h2 : ¬ a < 0xA00 := by omega
    simp [State.bar4Read, hcore, h8, h1, h2]

/-- BAR2 writes and reads behind the training of the link. -/
theorem bar2Write_exec {s : State} {a n : Nat} {bs : List Byte} (hsend : s.isSender = true) (hup : s.up .pipe = true) :
    exec (.bar2Access true a n bs) s = .next (
      (if s.frozen 3 then count 32 0x1644 0x0A
      else if hostArea < a + bs.length then count 32 0x6020 2
      else if a + bs.length ≤ hostArea ∧ s.allMapped a bs.length = false then count 32 0x3000 6
      else Effect.when (s.reg 0x3000 3 == 2) (storePayload a bs)).run (trainPcie.run s)) := by
  show execBar2Access true a n bs s = _
  simp only [execBar2Access, hsend, hup, perform_eq, Effect.run_when_true, Effect.run_seq, if_true, Bool.and_eq_true,
    decide_eq_true_eq, Bool.not_eq_true']

theorem bar2Read_exec {s : State} {a n : Nat} {bs : List Byte} (hsend : s.isSender = true) :
    exec (.bar2Access false a n bs) s = .next (
      (if a + n ≤ hostArea ∧ s.allMapped a n = false then
        .seq (count 32 0x3000 6) (emit (.completion (List.replicate n 0xFF) false))
      else if (s.mode ≠ Mode.freeze ∧ s.entry (keyOf 0x3000 3) = 2) ∧ a + n ≤ hostArea then
        emit (.completion (s.bytes (Space.payload.at a) n)
          ((List.range (n / 16 + 2)).any fun i => decide (a / 16 * 16 + 16 * i < a + n) && s.poisoned (a / 16 * 16 + 16 * i)))
      else emit (.completion (List.replicate n 0xFF) false)).run (trainPcie.run s)) := by
  show execBar2Access false a n bs s = _
  simp only [execBar2Access, hsend, perform_eq, Effect.run_when_true, Effect.run_seq, Bool.false_eq_true, if_false,
    Bool.and_eq_true, decide_eq_true_eq, Bool.not_eq_true', bne_iff_ne, beq_iff_eq, State.reg_eq_entry]

/-- Bytes stored at a payload address, with what that does to the poison. -/
theorem storePayload_facts {s : State} (hs : s.sound = true) (a : Nat) (bs : List Byte) :
    let t := (storePayload a bs).run s
    t.bytes (Space.payload.at a) bs.length = bs ∧ SameMemoryBut (Space.payload.at a) bs.length s t ∧
    (∀ k, t.entry k = s.entry k) ∧ t.pers = s.pers ∧ t.outputs = s.outputs ∧
    t.hid = { s.hid with memory := { s.hid.memory with poison := t.hid.memory.poison } } := by
  let w := (Act.store (Space.payload.at a) bs).apply s
  have hw : w.sound = true := Act.keeps_sound _ _ hs
  let e := clearPoison a bs.length
  have hn : e.NoStore := by simp [e, clearPoison]
  have hwr : e.Writes (fun _ => False) := by simp [e, clearPoison]
  have hsi : e.Silent := by simp [e, clearPoison]
  have hbe : e.Beside fun a b => b = { a with memory := { a.memory with poison := b.memory.poison } } := by
    simp [e, clearPoison]
  refine ⟨(State.bytes_of_mem hn.mem _ _).trans (store_bytes hs _ _), (store_sameMemoryBut hs _ _).trans (hn.frame.but _ _),
    fun k => (hwr.keeps id hw).2, hwr.pers, hsi.outputs, ?_⟩
  exact Effect.Beside.hid (R := fun a b => b = { a with memory := { a.memory with poison := b.memory.poison } })
    (fun _ => rfl) (fun h h' => by rw [h', h]) (s := w) hbe

/-- Beside memory nothing changes when the values of a fence are set. -/
theorem setFence_keeps (f v : Nat) (s : State) : ((setFence f v).run s).hid = s.hid ∧ ((setFence f v).run s).pers = s.pers ∧
    ∀ k, ((setFence f v).run s).entry k = s.entry k := by
  simp [setFence_run]

theorem setEffective_keeps (f v : Nat) (s : State) : ((setEffective f v).run s).hid = s.hid ∧
    ((setEffective f v).run s).pers = s.pers ∧ ∀ k, ((setEffective f v).run s).entry k = s.entry k := by
  simp [setEffective_run]

/-- The frames of a fence's surface sets leave the compressor. -/
def dropJobs (s : State) (f : Nat) : Effect := onIngest fun i => { i with jobs := i.jobs.filter fun j =>
  !(0x40 ≤ j.source && (s.surfaceSet (j.source - 0x40)).fence == f) }

theorem resetFence_run (s : State) (f : Nat) : (resetFence f).run s =
    (dropJobs s f).run ((setEffective f 0).run ((setFence f 0).run s)) := by
  simp only [resetFence, Effect.run_look, Effect.run_all_cons, Effect.run_all_nil, dropJobs]

/-- A fence goes back to 0, with its effective value and its frames. -/
theorem resetFence_facts {s : State} (hs : s.sound = true) (f : Nat) :
    let t := (resetFence f).run s
    t.fence f = 0 ∧ t.effective f = 0 ∧
    t.hid = { s.hid with ingest := { s.hid.ingest with
      jobs := s.hid.ingest.jobs.filter fun j => !(0x40 ≤ j.source && (s.surfaceSet (j.source - 0x40)).fence == f) } } ∧
    t.pers = s.pers ∧ (∀ k, t.entry k = s.entry k) ∧ SameMemoryBut (fenceBase f) 16 s t := by
  have hu : ((setFence f 0).run s).sound = true := Effect.run_sound _ hs
  obtain ⟨hfence, -, hmem⟩ := setFence_facts hs (Nat.pow_pos (by decide) : 0 < 256 ^ 8) (f := f)
  obtain ⟨heff, hkept, hmem'⟩ := setEffective_facts hu (Nat.pow_pos (by decide) : 0 < 256 ^ 8) (f := f)
  obtain ⟨hhid, hpers, hentries⟩ := setFence_keeps f 0 s
  obtain ⟨hhid', hpers', hentries'⟩ := setEffective_keeps f 0 ((setFence f 0).run s)
  rw [resetFence_run]
  generalize (setFence f 0).run s = u at *
  generalize (setEffective f 0).run u = w at *
  refine ⟨hkept.trans hfence, heff, ?_, hpers'.trans hpers, fun k => (hentries' k).trans (hentries k),
    (hmem.mono le_rfl (by omega)).trans (hmem'.mono (by omega) (by omega))⟩
  rw [dropJobs, onIngest_run, Act.hid_hid, hhid', hhid]

/-- FENCE_RESET. -/
theorem fenceReset_completes {s : State} {d : Door} {f : Nat} (hs : s.sound = true) (hsend : s.isSender = true)
    (hsv : s.servesAt d = true) (hf : f < 256) : Completes (.fenceReset d f) s fun t => Answered d Status.ok [] t ∧
      t.fence f = 0 ∧ t.effective f = 0 ∧
      t.hid = { s.hid with
        almanac := t.hid.almanac
        ingest := { s.hid.ingest with jobs := s.hid.ingest.jobs.filter fun j =>
          !(0x40 ≤ j.source && (s.surfaceSet (j.source - 0x40)).fence == f) } } ∧
      SameEntriesBut doorMarks s t ∧ SameMemoryBut (fenceBase f) 16 s t := by
  have hrow : takesAll s.pers (keyOf 0x6031 2) 1 = true := State.isSender_iff.mp hsend ▸ (by decide +kernel)
  have hserved : s.served (keyOf 0x6031 2) = true := by
    simp only [State.servesAt, Bool.and_eq_true] at hsv
    exact State.served_of_serves hsv.2 _
  have hexec : exec (.fenceReset d f) s = perform (valueAt d (keyOf 0x6031 2) f) s := rfl
  have hcmd : s.command (mailboxGo 8) d (keyOf 0x6031 2) f = some (Status.ok, resetFence f) := rfl
  obtain ⟨t, hexec, hans, ⟨⟨hpers, hkeep⟩, hmemory⟩, hbeside⟩ :=
    valueAt_completes hs (State.hears_of_servesAt hsv) hserved hexec hrow (by simpa using hf) hcmd
  obtain ⟨hfence, heff, hhid, hpers', hkeep', hmemory'⟩ := resetFence_facts hs f
  generalize (resetFence f).run s = w at *
  have hbytes : ∀ a n, t.bytes a n = w.bytes a n := fun a n => State.bytes_congr fun i _ => hmemory _
  refine ⟨t, hexec, hans, ?_, ?_, ?_, ⟨hpers.trans hpers', fun k hk => (hkeep k hk).trans (hkeep' k)⟩,
    fun x hx => (hmemory x).trans (hmemory' x hx)⟩
  · rw [State.fence_eq, hbytes, ← State.fence_eq, hfence]
  · rw [State.effective_eq, hbytes, ← State.effective_eq, heff]
  · rw [SameBeside, hhid] at hbeside
    exact hbeside

/-- An access that only counts. -/
theorem LinkShown.completes_counts {s u : State} (h : LinkShown s u) (hsend : s.isSender = true) {c : Instr} {i sub : Nat}
    (hmem : keyOf i sub ∈ [keyOf 0x1644 0x0A, keyOf 0x6020 2, keyOf 0x6020 3, keyOf 0x3000 6, keyOf 0x6104 4])
    (hexec : exec c s = .next ((count 32 i sub).run u)) : Completes c s fun t => t.hid = s.hid ∧ t.outputs = s.outputs ∧
      t.entry (keyOf i sub) = satAdd 32 (s.entry (keyOf i sub)) 1 ∧ Only [keyOf i sub, keyOf 0x6020 1] s t := by
  have hne : keyOf i sub ≠ keyOf 0x6020 1 := by
    generalize keyOf i sub = k at hmem
    revert k
    decide
  exact ⟨_, hexec, h.counts (State.isSender_iff.mp hsend ▸ pcieCounts_settable _ hmem) hne⟩

/-- A write of BAR4 by what it finds. -/
theorem fenceWrite_counts {s : State} {f n : Nat} {bs : List Byte} (hs : s.sound = true) (hsend : s.isSender = true)
    (hcore : s.up .core = true) (hf : f < 256) (hbs : bs.length = 8) {i sub : Nat}
    (hwhich : s.frozen 3 = true ∧ (i, sub) = (0x1644, 0x0A) ∨ s.frozen 3 = false ∧ natLE bs ≤ s.fence f ∧ (i, sub) = (0x6020, 3)) :
    Completes (.fenceWrite ⟨true, 8 * f, n⟩ bs) s fun t => t.hid = s.hid ∧ t.outputs = s.outputs ∧
      t.entry (keyOf i sub) = satAdd 32 (s.entry (keyOf i sub)) 1 ∧ Only [keyOf i sub, keyOf 0x6020 1] s t := by
  have hshows := trainPcie_shows hs
  have hexec := fenceWrite_exec (n := n) hsend hcore hf hbs
  rw [writeFence, Effect.run_look, hshows.frozen, hshows.fence] at hexec
  rcases hwhich with ⟨hfrozen, h⟩ | ⟨hfree, hle, h⟩
  · obtain ⟨rfl, rfl⟩ := Prod.mk.inj h
    rw [if_pos hfrozen] at hexec
    exact hshows.completes_counts hsend (by simp) hexec
  · obtain ⟨rfl, rfl⟩ := Prod.mk.inj h
    rw [hfree, if_neg Bool.false_ne_true, if_pos hle] at hexec
    exact hshows.completes_counts hsend (by simp) hexec

/-- BAR2 writes. -/
theorem bar2Write_completes {s : State} {a n : Nat} {bs : List Byte} (hs : s.sound = true) (hsend : s.isSender = true)
    (hup : s.up .pipe = true) :
    let c : Instr := .bar2Access true a n bs
    let counts (k : Key) : Prop := Completes c s fun t => t.hid = s.hid ∧ t.outputs = s.outputs ∧
      t.entry k = satAdd 32 (s.entry k) 1 ∧ Only [k, keyOf 0x6020 1] s t
    (s.frozen 3 = true → counts (keyOf 0x1644 0x0A)) ∧
    (s.frozen 3 = false → (hostArea < a + bs.length → counts (keyOf 0x6020 2)) ∧
      (a + bs.length ≤ hostArea → s.allMapped a bs.length = false → counts (keyOf 0x3000 6)) ∧
      (a + bs.length ≤ hostArea → s.allMapped a bs.length = true → s.entry (keyOf 0x3000 3) = 2 →
        Completes c s fun t => t.bytes (Space.payload.at a) bs.length = bs ∧
          SameMemoryBut (Space.payload.at a) bs.length s t ∧ SameEntriesBut [keyOf 0x6020 1] s t ∧ t.outputs = s.outputs ∧
          t.hid = { s.hid with memory := { s.hid.memory with poison := t.hid.memory.poison } })) := by
  have hshows := trainPcie_shows hs
  have hexec := bar2Write_exec (a := a) (n := n) (bs := bs) hsend hup
  generalize trainPcie.run s = u at hshows hexec
  refine ⟨fun hfrozen => ?_, fun hfree => ⟨fun hbeyond => ?_, fun hin hmap => ?_, fun hin hmap hready => ?_⟩⟩
  · rw [if_pos hfrozen] at hexec
    exact hshows.completes_counts hsend (by simp) hexec
  · rw [hfree, if_neg Bool.false_ne_true, if_pos hbeyond] at hexec
    exact hshows.completes_counts hsend (by simp) hexec
  · rw [hfree, if_neg Bool.false_ne_true, if_neg (not_lt.mpr hin), if_pos ⟨hin, hmap⟩] at hexec
    exact hshows.completes_counts hsend (by simp) hexec
  · have hmapped : ¬ (a + bs.length ≤ hostArea ∧ s.allMapped a bs.length = false) := by simp [hmap]
    rw [hfree, if_neg Bool.false_ne_true, if_neg (not_lt.mpr hin), if_neg hmapped, State.reg_eq_entry, hready] at hexec
    obtain ⟨hbytes, hmem, hentries, hpers, hout, hhid⟩ := storePayload_facts hshows.1 a bs
    have hmem' := hshows.memory hmem
    have hentries' : SameEntriesBut [keyOf 0x6020 1] s ((storePayload a bs).run u) :=
      hshows.entries hpers fun k _ => hentries k
    obtain ⟨-, -, hhidu, houtu, -⟩ := hshows
    exact ⟨_, hexec, hbytes, hmem', hentries', hout.trans houtu, by rw [hhidu] at hhid; exact hhid⟩

/-- BAR2 reads. -/
theorem bar2Read_completes {s : State} {a n : Nat} {bs : List Byte} (hs : s.sound = true) (hsend : s.isSender = true) :
    let c : Instr := .bar2Access false a n bs
    let reads : Prop := s.mode ≠ Mode.freeze ∧ s.entry (keyOf 0x3000 3) = 2 ∧ a + n ≤ hostArea
    let answers (bs : List Byte) (poison : Bool) : Prop := Completes c s fun t => t.hid = s.hid ∧
      t.outputs = s.outputs ++ [.completion bs poison] ∧ Only [keyOf 0x6020 1] s t
    (a + n ≤ hostArea → s.allMapped a n = false → Completes c s fun t =>
      t.outputs = s.outputs ++ [.completion (List.replicate n 0xFF) false] ∧
      t.entry (keyOf 0x3000 6) = satAdd 32 (s.entry (keyOf 0x3000 6)) 1 ∧ t.hid = s.hid ∧
      Only [keyOf 0x3000 6, keyOf 0x6020 1] s t) ∧
    (s.allMapped a n = true → reads → answers (s.bytes (Space.payload.at a) n)
      ((List.range (n / 16 + 2)).any fun i => decide (a / 16 * 16 + 16 * i < a + n) && s.poisoned (a / 16 * 16 + 16 * i))) ∧
    (s.allMapped a n = true ∨ hostArea < a + n → ¬reads → answers (List.replicate n 0xFF) false) := by
  have hshows := trainPcie_shows hs
  have hexec := bar2Read_exec (a := a) (n := n) (bs := bs) hsend
  generalize trainPcie.run s = u at hshows hexec
  refine ⟨fun hin hmap => ?_, fun hmap hreads => ?_, fun hwhich hreads => ?_⟩
  · rw [if_pos ⟨hin, hmap⟩] at hexec
    obtain ⟨hhid, hout, hcount, honly⟩ := hshows.counts (i := 0x3000) (sub := 6)
      (State.isSender_iff.mp hsend ▸ pcieCounts_settable _ (by simp)) (by decide)
    exact ⟨_, hexec, congrArg (· ++ [Output.completion (List.replicate n 0xFF) false]) hout, hcount, hhid, honly⟩
  · obtain ⟨hmode, hready, hin⟩ := hreads
    have hmapped : ¬ (a + n ≤ hostArea ∧ s.allMapped a n = false) := by simp [hmap]
    rw [if_neg hmapped, if_pos ⟨⟨hmode, hready⟩, hin⟩] at hexec
    exact ⟨_, hexec, hshows.answers _ _⟩
  · have hmapped : ¬ (a + n ≤ hostArea ∧ s.allMapped a n = false) := by
      rintro ⟨hin, hmap⟩
      rcases hwhich with h | h
      · simp [hmap] at h
      · omega
    have hreads' : ¬ ((s.mode ≠ Mode.freeze ∧ s.entry (keyOf 0x3000 3) = 2) ∧ a + n ≤ hostArea) := fun h =>
      hreads ⟨h.1.1, h.1.2, h.2⟩
    rw [if_neg hmapped, if_neg hreads'] at hexec
    exact ⟨_, hexec, hshows.answers _ _⟩

/-- Settles O46, access by access: a write of a fence stores it and the one set that names it follows, with a change of memory
or of the compressor that leaves the surface table alone; the rest count, store or answer behind the training of the link. -/
theorem fencesAndTheWindowOfMemory : Obligations.FencesAndTheWindowOfMemory := by
  unfold Obligations.FencesAndTheWindowOfMemory
  refine ⟨fun s f n bs hs hsend hcore hf hbs => ⟨fun hfrozen => ?_, fun hfree hle => ?_, fun hfree hlt => ?_⟩,
    fun s a n bs hs hsend hcore => ?_, fun s d f hs hsend hsv hf => fenceReset_completes hs hsend hsv hf,
    fun s a n bs hs hsend hup _ => bar2Write_completes hs hsend hup, fun s a n bs hs hsend _ => bar2Read_completes hs hsend⟩
  · exact fenceWrite_counts hs hsend hcore hf hbs (.inl ⟨hfrozen, rfl⟩)
  · exact fenceWrite_counts hs hsend hcore hf hbs (.inr ⟨hfree, hle, rfl⟩)
  · have hv : natLE bs < 256 ^ 8 := hbs ▸ natLE_lt bs
    have hshows := trainPcie_shows hs
    have hexec := fenceWrite_exec (n := n) hsend hcore hf hbs
    generalize trainPcie.run s = u at hshows hexec
    obtain ⟨hu, hpersu, hhidu, houtu, hmemu, hkeepu⟩ := id hshows
    have hfreeu : u.frozen 3 = false := (hshows.frozen 3).trans hfree
    have hltu : u.fence f < natLE bs := by rwa [hshows.fence]
    have hsendu : u.isSender = true := by rw [State.isSender, hpersu]; exact hsend
    refine ⟨fun hrest => ?_, fun i hi hset hon hothers heff => ⟨fun hraw => ?_, fun hraw hnew => ?_⟩⟩
    · rw [writeFence_alone hu hfreeu hltu hv (by simpa only [hshows.surfaceSet, hshows.effective] using hrest)] at hexec
      obtain ⟨hfence, heff, hmem⟩ := setFence_facts hu hv (f := f)
      obtain ⟨hhid, hpers, hentries⟩ := setFence_keeps f (natLE bs) u
      have hout : ((setFence f (natLE bs)).run u).outputs = u.outputs := by rw [setFence_run, Act.store_outputs]
      exact ⟨_, hexec, hfence, hshows.entries hpers fun k _ => hentries k, hshows.memory hmem, hout.trans houtu,
        heff.trans (hshows.effective f), hhid.trans hhidu⟩
    · obtain ⟨hfence, heff', hmem, hhid, hout, hpers, hentries⟩ := writeFence_compressed hu hfreeu hltu hv hi
        (by rwa [hshows.surfaceSet]) (by simpa only [hshows.surfaceSet] using hothers) (by rwa [hshows.surfaceSet])
        (by rwa [hshows.effective]) (by rwa [hshows.surfaceSet])
      exact ⟨_, hexec, hfence, hshows.entries hpers fun k _ => hentries k, hshows.memory hmem, hout.trans houtu, heff',
        hhid.trans hhidu⟩
    · obtain ⟨hfence, heff', hmem, hjoin, hstarted, hcount, hhid, hout, hpers, hentries⟩ := writeFence_raw hu hfreeu hltu hv hi
        (by rwa [hshows.surfaceSet]) (by simpa only [hshows.surfaceSet] using hothers) (by rwa [hshows.surfaceSet])
        (by rwa [hshows.effective]) hsendu (by rwa [hshows.surfaceSet]) (by rwa [hhidu])
      rw [hkeepu _ (by decide)] at hcount
      rw [hhidu] at hhid
      exact ⟨_, hexec, hfence, hshows.entries hpers fun k hk => hentries k (by simpa using hk), hshows.memory hmem,
        hout.trans houtu, heff'.trans (hshows.effective f), hjoin, hstarted, hcount, hhid⟩
  · have hshows := trainPcie_shows hs
    have hexec := fenceRead_exec (a := a) (n := n) (bs := bs) hsend
    refine ⟨fun f hf ha hn => ?_, fun g hg ha hn => ?_, fun hbad => ?_⟩
    · rw [ha, hn, bar4Read_fence hcore hf] at hexec
      exact ⟨_, ha ▸ hn ▸ hexec, hshows.answers _ _⟩
    · rw [ha, hn, bar4Read_shown hcore hg] at hexec
      exact ⟨_, ha ▸ hn ▸ hexec, hshows.answers _ _⟩
    · rw [bar4Read_zero hcore hbad] at hexec
      exact ⟨_, hexec, hshows.answers _ _⟩

end Sys2Proof.Machine
end

section
namespace Sys2Proof.Machine

/-! ### What a lane sends, and its state -/

theorem length_lanes {s : State} (h : s.shaped = true) : s.hid.scan.lanes.length = 32 := by
  simp only [State.shaped, Bool.and_eq_true, beq_iff_eq] at h
  tauto

theorem length_margins {s : State} (h : s.shaped = true) : s.hid.scan.margins.length = 4 := by
  simp only [State.shaped, Bool.and_eq_true, beq_iff_eq] at h
  tauto

theorem lane_settable : ∀ l < 32, settable .tile (keyOf (0x5110 + l) 3) 32 = true ∧
    settable .tile (keyOf (0x5110 + l) 4) 64 = true := by decide +kernel

theorem tg_settable : ∀ r < 4, settable .tile (keyOf (0x4000 + r) 0x0A) 32 = true ∧
    settable .tile (keyOf (0x4000 + r) 0x0E) 32 = true ∧ settable .tile (keyOf (0x4000 + r) 0x10) 32 = true ∧
    settable .tile (keyOf (0x4000 + r) 0x11) 64 = true ∧ settable .tile (keyOf (0x4000 + r) 0x12) 32 = true := by decide +kernel

/-- Blocks that leave on a lane are the last thing that has gone out. -/
def LaneSends (lane : Nat) (blocks : List LaneBlock) (s t : State) : Prop :=
  ∃ b, t.outputs = s.outputs ++ [.lane lane b (laneWords b blocks)]

theorem sendLane_sends (lane : Nat) (blocks : List LaneBlock) (s : State) : LaneSends lane blocks s ((sendLane lane blocks).run s) :=
  ⟨s.freeValue 58, rfl⟩

theorem sendLane_keeps (lane : Nat) (blocks : List LaneBlock) (s : State) : ((sendLane lane blocks).run s).hid = s.hid ∧
    ((sendLane lane blocks).run s).pers = s.pers ∧ ∀ k, ((sendLane lane blocks).run s).entry k = s.entry k :=
  ⟨rfl, rfl, fun _ => rfl⟩

theorem sendLane_writes (lane : Nat) (blocks : List LaneBlock) {K : Key → Prop} : (sendLane lane blocks).Writes K := by
  simp [sendLane]

theorem sendLane_noStore (lane : Nat) (blocks : List LaneBlock) : (sendLane lane blocks).NoStore := by simp [sendLane]

theorem onLane_run (lane : Nat) (f : LaneState → LaneState) (s : State) : (onLane lane f).run s =
    (Act.hid fun h => { h with scan := { h.scan with lanes := updateAt h.scan.lanes lane f } }).apply s := rfl

/-- The states of the lanes after one of them has changed. -/
theorem laneState_updateAt {s t : State} {lane : Nat} {f : LaneState → LaneState} (hshape : s.shaped = true) (hlane : lane < 32)
    (h : t.hid.scan.lanes = updateAt s.hid.scan.lanes lane f) :
    t.laneState lane = f (s.laneState lane) ∧ ∀ l, l ≠ lane → t.laneState l = s.laneState l := by
  rw [State.laneState, h]
  refine ⟨getD_updateAt_self (by rwa [length_lanes hshape]), fun l hl => ?_⟩
  rw [State.laneState, h]
  exact getD_updateAt_of_ne (Ne.symm hl)

theorem laneRuns_lt {s : State} {lane : Nat} (hshape : s.shaped = true) (h : (s.laneState lane).started = true) : lane < 32 := by
  by_contra hge
  rw [State.laneState, List.getD_eq_default _ _ (by rw [length_lanes hshape]; omega)] at h
  exact absurd h (by decide)

/-! #### The frame of a lane -/

theorem arraysOn_le (s : State) (lane : Nat) : s.arraysOn lane ≤ 4 := Nat.min_le_left _ _

/-- LANE_FRAME_START sends the START block. -/
theorem laneFrameStart_completes {s : State} {lane : Nat} (hs : s.sound = true) (hshape : s.shaped = true)
    (htile : s.isTile = true) (hruns : s.scanRuns = true) (hlane : lane < 32) (hslot : s.hid.scan.slot ≠ 255)
    (hstart : (s.laneState lane).started = false) (hnew : s.latchKind lane s.nextSlot.1 s.nextSlot.2 = 0) :
    let n := s.nextSlot.1
    let k := s.nextSlot.2
    let c := s.scanAt n
    let r := c.lane lane
    let x := s.laneState lane
    let v := c.slotView c.profileB k
    let f := (x.frame + 1) % 32
    Completes (.laneFrameStart lane) s fun t =>
      t.laneState lane = { x with
        frame := f, started := true, ended := false, rows := 0, blocks := 0, data := [], view := v, slot := k, dark := false } ∧
      LaneSends lane [⟨true, f * 2 ^ 59 + c.arraysOn lane % 8 * 2 ^ 56 +
        r.w * c.lambda % 2 ^ 16 * 2 ^ 40 + r.w * r.h * c.lambda % 2 ^ 16 * 2 ^ 24 + v * 2 ^ 16 + k * 2 ^ 8 + 0x33⟩] s t ∧
      t.hid = { s.hid with
        almanac := t.hid.almanac
        scan := { s.hid.scan with lanes := t.hid.scan.lanes } } ∧
      (∀ l, l ≠ lane → t.laneState l = s.laneState l) ∧
      field (t.entry (keyOf (0x5110 + lane) 3)) 23 20 = c.arraysOn lane ∧ Only [keyOf (0x5110 + lane) 3] s t := by
  intro n k c r x v f
  let send := sendControl lane (f * 2 ^ 59 + c.arraysOn lane % 8 * 2 ^ 56 + r.w * c.lambda % 2 ^ 16 * 2 ^ 40 +
    r.w * r.h * c.lambda % 2 ^ 16 * 2 ^ 24 + v * 2 ^ 16 + k * 2 ^ 8 + 0x33)
  let start := onLane lane fun x => { x with
    frame := f, started := true, ended := false, rows := 0, blocks := 0, data := [], view := v, slot := k, dark := false }
  let shows := setField (0x5110 + lane) 3 23 20 (c.arraysOn lane)
  have hcond : (s.isTile && s.scanRuns && s.hid.scan.slot != 255 && decide (lane < 32) && !x.started &&
      s.latchKind lane n k == 0) = true := by
    simp [htile, hruns, hslot, hlane, x, hstart, n, k, hnew]
  have hexec : exec (.laneFrameStart lane) s = .next ((Effect.all [send, start, shows]).run s) := by
    show perform (Effect.when (s.isTile && s.scanRuns && s.hid.scan.slot != 255 && decide (lane < 32) && !x.started &&
      s.latchKind lane n k == 0) (.all [send, start, shows])) s = _
    rw [hcond, perform_eq, Effect.run_when_true]
  obtain ⟨hthis, hothers⟩ := laneState_updateAt (t := (Effect.all [send, start, shows]).run s) hshape hlane rfl
  refine ⟨_, hexec, hthis, ⟨s.freeValue 58, rfl⟩, rfl, hothers, ?_, Effect.Writes.frame ?_ hs, Effect.NoStore.frame ?_⟩
  · have hu : (start.run (send.run s)).sound = true := Effect.run_sound _ (Effect.run_sound _ hs)
    have hset : settable (start.run (send.run s)).pers (keyOf (0x5110 + lane) 3) 32 = true :=
      (State.isTile_iff.mp htile : (start.run (send.run s)).pers = .tile) ▸ (lane_settable lane hlane).1
    have hle := arraysOn_le c lane
    show field ((shows.run (start.run (send.run s))).entry (keyOf (0x5110 + lane) 3)) 23 20 = _
    rw [setField_entry hu hset (by decide) (by decide), field_withField_self _ _ (by decide), Nat.mod_eq_of_lt]
    exact Nat.lt_of_le_of_lt hle (by decide)
  · simp [send, start, shows, sendControl, sendLane, onLane]
  · simp [send, start, shows, sendControl, sendLane, onLane]

/-- Of what stands beside the dictionary only the counts of clipped lamps differ. -/
def ClippedCount (a b : Hidden) : Prop := b = { a with scan := { a.scan with clipped := b.scan.clipped } }

theorem ClippedCount.of_beside {e : Effect} {s : State} (h : e.Beside ClippedCount) : ClippedCount s.hid (e.run s).hid :=
  Effect.Beside.hid (R := ClippedCount) (fun _ => rfl)
    (fun {a b c} h h' => by rw [ClippedCount] at *; rw [h', h]) h

/-- LANE_ROW_SEND sends the next row. -/
theorem laneRowSend_completes {s : State} {lane row : Nat} (hs : s.sound = true) (hshape : s.shaped = true)
    (htile : s.isTile = true) (hruns : s.scanRuns = true) (hlane : lane < 32) (hstart : (s.laneState lane).started = true)
    (hend : (s.laneState lane).ended = false) (hrow : (s.laneState lane).rows = row)
    (hlt : row < ((s.scanAt s.nextSlot.1).lane lane).h) :
    let n := s.nextSlot.1
    let k := s.nextSlot.2
    let c := s.scanAt n
    let x := s.laneState lane
    Completes (.laneRowSend lane row) s fun t =>
      let payload := rowPayload ((s.rowCodes c lane row n k).map (min (c.laneTmax lane)))
      LaneSends lane ((List.range (payload.length / 8)).map fun i => ⟨false, natLE (slice payload (8 * i) 8)⟩) s t ∧
      t.hid = { s.hid with
        almanac := t.hid.almanac
        scan := { s.hid.scan with lanes := t.hid.scan.lanes, clipped := t.hid.scan.clipped } } ∧
      (∀ l, l ≠ lane → t.laneState l = s.laneState l) ∧
      t.laneState lane = { x with rows := row + 1, blocks := x.blocks + payload.length / 8, data := x.data ++ payload } ∧
      Only [] s t := by
  intro n k c x
  let codes := s.rowCodes c lane row n k
  let payload := rowPayload (codes.map (min (c.laneTmax lane)))
  let send := sendLane lane ((List.range (payload.length / 8)).map fun i => ⟨false, natLE (slice payload (8 * i) 8)⟩)
  let clip := Effect.ofOption (c.tgOfLane c.profileB lane) fun r => onScan fun y => { y with
    clipped := updateAt y.clipped r (· + (codes.filter (c.laneTmax lane < ·)).length) }
  let uses := Effect.when (s.patterned n && s.reg 0x7020 1 == 5 && c.regionW ≤ 1) useFree
  let moves := onLane lane fun x => { x with
    rows := row + 1, blocks := x.blocks + payload.length / 8, data := x.data ++ payload }
  have hcond : (s.isTile && s.scanRuns && x.started && !x.ended && x.rows == row && decide (row < (c.lane lane).h)) = true := by
    simp [htile, hruns, x, hstart, hend, hrow, c, n, hlt]
  have hexec : exec (.laneRowSend lane row) s = .next ((Effect.all [send, clip, uses, moves]).run s) := by
    show perform (Effect.when (s.isTile && s.scanRuns && x.started && !x.ended && x.rows == row &&
      decide (row < (c.lane lane).h)) (.all [send, clip, uses, moves])) s = _
    rw [hcond, perform_eq, Effect.run_when_true]
  let before := (Effect.all [clip, uses]).run (send.run s)
  have hrun : (Effect.all [send, clip, uses, moves]).run s = moves.run before := rfl
  have hsilent : (Effect.all [clip, uses]).Silent := by simp [clip, uses, useFree, Effect.Silent]
  have hclip : (Effect.all [clip, uses]).Beside ClippedCount := by simp [clip, uses, ClippedCount]
  have hbefore : ClippedCount s.hid before.hid := ClippedCount.of_beside (s := send.run s) hclip
  obtain ⟨hthis, hothers⟩ := laneState_updateAt (s := s) (t := moves.run before) (lane := lane)
    (f := fun x => { x with rows := row + 1, blocks := x.blocks + payload.length / 8, data := x.data ++ payload }) hshape hlane (by
      rw [show s.hid.scan.lanes = before.hid.scan.lanes by rw [hbefore]]; rfl)
  rw [hrun] at hexec
  refine ⟨_, hexec, ⟨s.freeValue 58, hsilent.outputs (s := send.run s)⟩, ?_, hothers, hthis, ?_⟩
  · rw [onLane_run, Act.hid_hid]
    generalize before = u at hbefore
    rw [hbefore]
  · rw [← hrun]
    exact ⟨Effect.Writes.frame (by simp [send, clip, uses, moves, sendLane, onLane]) hs,
      Effect.NoStore.frame (by simp [send, clip, uses, moves, sendLane, onLane])⟩

end Sys2Proof.Machine
end

section
namespace Sys2Proof.Machine

/-! ### The end of a lane's frame, and its latch -/

/-- The END block of a lane's frame. -/
def endWord (x : LaneState) : Nat := x.frame * 2 ^ 59 + x.blocks % 2 ^ 16 * 2 ^ 40 + crc32 x.data * 2 ^ 8 + 0x55

theorem sendEnd_sends (lane : Nat) (s : State) :
    LaneSends lane [⟨true, endWord (s.laneState lane)⟩] s ((sendEnd lane).run s) := ⟨s.freeValue 58, rfl⟩

theorem sendEnd_run (lane : Nat) (s : State) : (sendEnd lane).run s = (onLane lane fun x => { x with ended := true }).run
    ((sendLane lane [⟨true, endWord (s.laneState lane)⟩]).run s) := rfl

theorem foldl_min_le : ∀ {l : List Nat} {a : Nat}, l.foldl min a ≤ a ∧ ∀ x ∈ l, l.foldl min a ≤ x
  | [], a => ⟨le_rfl, fun _ h => absurd h List.not_mem_nil⟩
  | y :: l, a => by
    obtain ⟨hstart, hall⟩ := foldl_min_le (l := l) (a := min a y)
    refine ⟨hstart.trans (min_le_left a y), fun x hx => ?_⟩
    rcases List.mem_cons.mp hx with rfl | hx
    · exact hstart.trans (min_le_right a x)
    · exact hall x hx

/-- The TG of a lane is one of the tile's. -/
theorem tgOfLane_lt {s : State} (htile : s.isTile = true) {b : Bool} {lane g : Nat} (h : s.tgOfLane b lane = some g) : g < 4 := by
  have hmem := List.mem_of_find?_eq_some h
  have hsend : s.isSender = false := by simp [State.isSender, State.isTile_iff.mp htile]
  simpa [State.tgs, hsend] using hmem

/-- The shift margins of a lane's TG with the newest one, and the least of them shown. -/
def showMargin (r : Nat) (all : List Nat) : Effect := .seq (onScan fun y => { y with margins := setAt y.margins r all })
  (set (0x4000 + r) 0x0E (all.foldl min (2 ^ 32 - 1)))

/-- Of what stands beside the dictionary only the margins differ. -/
def MarginShown (a b : Hidden) : Prop := b = { a with scan := { a.scan with margins := b.scan.margins } }

theorem MarginShown.of_beside {e : Effect} {s : State} (h : e.Beside MarginShown) : MarginShown s.hid (e.run s).hid :=
  Effect.Beside.hid (R := MarginShown) (fun _ => rfl)
    (fun {a b c} h h' => by rw [MarginShown] at *; rw [h', h]) h

/-- LANE_FRAME_END sends the END block of a whole frame. -/
theorem laneFrameEnd_completes {s : State} {lane : Nat} (hs : s.sound = true) (hshape : s.shaped = true)
    (htile : s.isTile = true) (hruns : s.scanRuns = true) (hlane : lane < 32) (hstart : (s.laneState lane).started = true)
    (hend : (s.laneState lane).ended = false)
    (hrows : (s.laneState lane).rows = ((s.scanAt s.nextSlot.1).lane lane).h) :
    let x := s.laneState lane
    Completes (.laneFrameEnd lane) s fun t =>
      LaneSends lane [⟨true, endWord x⟩] s t ∧ t.laneState lane = { x with ended := true } ∧
      t.hid = { s.hid with
        almanac := t.hid.almanac
        scan := { s.hid.scan with lanes := t.hid.scan.lanes, margins := t.hid.scan.margins } } ∧
      (∀ l, l ≠ lane → t.laneState l = s.laneState l) ∧
      field (t.entry (keyOf (0x5110 + lane) 4)) 63 32 = satAdd 32 (field (s.entry (keyOf (0x5110 + lane) 4)) 63 32) 1 ∧
      (∀ g, s.tgOfLane s.profileB lane = some g → t.entry (keyOf (0x4000 + g) 0x0E) ≤ (s.toSync g).toNat) ∧
      Only (keyOf (0x5110 + lane) 4 :: (List.range 4).map (fun g => keyOf (0x4000 + g) 0x0E)) s t := by
  intro x
  let margins (r : Nat) : List Nat := (s.hid.scan.margins.getD r [] ++ [(s.toSync r).toNat]).drop
    ((s.hid.scan.margins.getD r []).length - 255)
  let counts := countField (0x5110 + lane) 4 63 32
  let shows := Effect.ofOption (s.tgOfLane s.profileB lane) fun r => showMargin r (margins r)
  have hcond : (s.isTile && s.scanRuns && x.started && !x.ended && x.rows == ((s.scanAt s.nextSlot.1).lane lane).h) = true := by
    simp [htile, hruns, x, hstart, hend, hrows]
  have hexec : exec (.laneFrameEnd lane) s = .next ((Effect.all [sendEnd lane, counts, shows]).run s) := by
    show perform (Effect.when (s.isTile && s.scanRuns && x.started && !x.ended &&
      x.rows == ((s.scanAt s.nextSlot.1).lane lane).h) (.all [sendEnd lane, counts, shows])) s = _
    rw [hcond, perform_eq, Effect.run_when_true]
  let u := (sendEnd lane).run s
  have hu : u.sound = true := Effect.run_sound _ hs
  let w := counts.run u
  have hw : w.sound = true := Effect.run_sound _ hu
  have hrun : (Effect.all [sendEnd lane, counts, shows]).run s = shows.run w := rfl
  have hp : u.pers = .tile := State.isTile_iff.mp htile
  have hg : ∀ g, s.tgOfLane s.profileB lane = some g → g < 4 := fun g h => tgOfLane_lt htile h
  have hwrites : shows.Writes (· ∈ (List.range 4).map fun g => keyOf (0x4000 + g) 0x0E) := by
    simp only [shows, showMargin, Effect.writes_ofOption, Effect.writes_seq, onScan_writes, set_writes, true_and,
      Effect.writes_nothing, implies_true, and_true]
    exact fun g h => List.mem_map_of_mem (List.mem_range.mpr (hg g h))
  have hstore : shows.NoStore := by simp [shows, showMargin]
  have hsilent : shows.Silent := by simp [shows, showMargin]
  have hbeside : shows.Beside MarginShown := by simp [shows, showMargin, MarginShown]
  have hshown : MarginShown w.hid (shows.run w).hid := MarginShown.of_beside hbeside
  have hlanes : (shows.run w).hid.scan.lanes = updateAt s.hid.scan.lanes lane fun x => { x with ended := true } := by
    rw [hshown]; rfl
  obtain ⟨hthis, hothers⟩ := laneState_updateAt hshape hlane hlanes
  obtain ⟨b, hb⟩ := sendEnd_sends lane s
  rw [hrun] at hexec
  refine ⟨_, hexec, ⟨b, hsilent.outputs.trans hb⟩, hthis, ?_, hothers, ?_, fun g hsome => ?_, ?_⟩
  · have hwh : w.hid = { s.hid with scan := { s.hid.scan with lanes := w.hid.scan.lanes } } := rfl
    generalize (shows.run w).hid = y at *
    rw [hshown, hwh]
  · rw [(hwrites.keeps (fun h => ?_) hw).2]
    · exact addField_field (n := 1) (w := 64) (hi := 63) (lo := 32) hu (hp ▸ (lane_settable lane hlane).2) (by decide) (by decide)
    · obtain ⟨g, hg, h⟩ := List.mem_map.mp h
      exact keyOf_ne_of_lt (by have := List.mem_range.mp hg; omega) (by decide) h
  · have hlast : (s.toSync g).toNat ∈ margins g := by
      have hle : (s.hid.scan.margins.getD g []).length - 255 ≤ (s.hid.scan.margins.getD g []).length := Nat.sub_le _ _
      simp only [margins, List.drop_append_of_le_length hle]
      simp
    have hset : settable w.pers (keyOf (0x4000 + g) 0x0E) 32 = true :=
      (State.isTile_iff.mp htile : w.pers = .tile) ▸ (tg_settable g (hg g hsome)).2.1
    have hval : (shows.run w).entry (keyOf (0x4000 + g) 0x0E) = (margins g).foldl min (2 ^ 32 - 1) % 2 ^ 32 := by
      simp only [shows, hsome, Effect.run_ofOption_some]
      exact set_entry (s := (onScan fun y => { y with margins := setAt y.margins g (margins g) }).run w)
        (Effect.run_sound _ hw) hset
    rw [hval]
    exact (Nat.mod_le _ _).trans (foldl_min_le.2 _ hlast)
  · rw [← hrun]
    refine ⟨Effect.Writes.frame ?_ hs, Effect.NoStore.frame ?_⟩
    · simp only [Effect.writes_all_cons, Effect.writes_all_nil, and_true]
      refine ⟨by simp [sendEnd, sendControl, sendLane, onLane], by simp [counts], hwrites.mono fun k hk => ?_⟩
      exact List.mem_cons_of_mem _ hk
    · simp only [Effect.noStore_all_cons, Effect.noStore_all_nil, and_true]
      exact ⟨by simp [sendEnd, sendControl, sendLane, onLane], by simp [counts], hstore⟩

/-! #### The latch of a lane -/

theorem latchKind_le (s : State) (lane n k : Nat) : s.latchKind lane n k ≤ 2 := by
  rw [State.latchKind]
  split_ifs <;> decide

/-- What a part shows of a latch in the status of the lane. -/
def showLatch (lane kind view : Nat) : Effect := .all [
  setField (0x5110 + lane) 3 7 6 kind,
  Effect.when (kind == 0) (setField (0x5110 + lane) 3 15 12 view),
  setField (0x5110 + lane) 3 0 0 1]

theorem field_withField_lt (v : Nat) {x hi lo w : Nat} (h : lo ≤ hi) (hw : 2 ^ (hi - lo + 1) = w) (hx : x < w) :
    field (withField v hi lo x) hi lo = x := by
  rw [field_withField_self _ _ h, hw, Nat.mod_eq_of_lt hx]

theorem showLatch_fields {s : State} {lane kind view : Nat} (hs : s.sound = true) (htile : s.isTile = true)
    (hlane : lane < 32) (hkind : kind < 4) :
    let a := ((showLatch lane kind view).run s).entry (keyOf (0x5110 + lane) 3)
    field a 7 6 = kind ∧ bitAt a 0 = true ∧ (kind = 0 → view < 16 → field a 15 12 = view) := by
  have hset : settable s.pers (keyOf (0x5110 + lane) 3) 32 = true := State.isTile_iff.mp htile ▸ (lane_settable lane hlane).1
  let u := (setField (0x5110 + lane) 3 7 6 kind).run s
  have hu : u.sound = true := Effect.run_sound _ hs
  let w := (Effect.when (kind == 0) (setField (0x5110 + lane) 3 15 12 view)).run u
  have hw : w.sound = true := Effect.run_sound _ hu
  have hwp : w.pers = s.pers := (show (Effect.when (kind == 0) (setField (0x5110 + lane) 3 15 12 view)).Writes (fun _ => True) by
    simp).pers
  have hwv : w.entry (keyOf (0x5110 + lane) 3) = if kind = 0 then withField (u.entry (keyOf (0x5110 + lane) 3)) 15 12 view
      else u.entry (keyOf (0x5110 + lane) 3) := by
    simp only [w, Effect.run_when, beq_iff_eq]
    split_ifs
    · exact setField_entry hu hset (by decide) (by decide)
    · rfl
  have huv : u.entry (keyOf (0x5110 + lane) 3) = withField (s.entry (keyOf (0x5110 + lane) 3)) 7 6 kind :=
    setField_entry hs hset (by decide) (by decide)
  have hend : ((showLatch lane kind view).run s).entry (keyOf (0x5110 + lane) 3) =
      withField (w.entry (keyOf (0x5110 + lane) 3)) 0 0 1 := setField_entry hw (hwp ▸ hset) (by decide) (by decide)
  intro a
  have ha : a = withField (w.entry (keyOf (0x5110 + lane) 3)) 0 0 1 := hend
  rw [ha]
  refine ⟨?_, ?_, fun hzero hview => ?_⟩
  · rw [field_withField_above _ _ (by decide) (by decide), hwv]
    split_ifs
    · rw [field_withField_below _ _ (by decide) (by decide) (by decide), huv, field_withField_lt _ (by decide) (by decide) hkind]
    · rw [huv, field_withField_lt _ (by decide) (by decide) hkind]
  · rw [bitAt_eq_field, field_withField_self _ _ (by decide)]
    rfl
  · rw [field_withField_above _ _ (by decide) (by decide), hwv, if_pos hzero, field_withField_lt _ (by decide) (by decide) hview]

/-- The LATCH block of a kind, with its mark. -/
def latchWord (c : State) (k mark kind : Nat) : Nat :=
  k * 2 ^ 56 + c.latchStep % 2 ^ 32 * 2 ^ 24 + mark * 2 ^ 16 + kind * 2 ^ 8 + 0x78

/-- The state once a lane's LATCH block is sent and its kind kept. -/
def State.latchSent (s : State) (lane kind : Nat) : State :=
  (onScan fun y => { y with kinds := setAt y.kinds lane kind }).run (useFree.run ((sendControl lane
    (latchWord (s.scanAt s.nextSlot.1) s.nextSlot.2 (s.freeValue 7 % 66) kind)).run s))

theorem sendLatch_run (lane kind : Nat) (s : State) : (sendLatch lane kind).run s =
    (onLane lane fun x => { x with started := false, ended := false, dark := false }).run
      ((showLatch lane kind (s.laneState lane).view).run (s.latchSent lane kind)) := by
  simp only [sendLatch, Effect.run_look, Effect.run_all_cons, Effect.run_all_nil, showLatch]
  rfl

theorem latchSent_facts (s : State) (lane kind : Nat) :
    (s.latchSent lane kind).hid = { s.hid with scan := { s.hid.scan with kinds := setAt s.hid.scan.kinds lane kind } } ∧
    (s.latchSent lane kind).pers = s.pers ∧ (s.latchSent lane kind).mem = s.mem ∧
    (∀ q, (s.latchSent lane kind).entry q = s.entry q) ∧
    LaneSends lane [⟨true, latchWord (s.scanAt s.nextSlot.1) s.nextSlot.2 (s.freeValue 7 % 66) kind⟩] s (s.latchSent lane kind) :=
  ⟨rfl, rfl, rfl, fun _ => rfl, s.freeValue 58, rfl⟩

theorem showLatch_keeps (lane kind view : Nat) (s : State) : ((showLatch lane kind view).run s).hid = s.hid ∧
    ((showLatch lane kind view).run s).outputs = s.outputs ∧ ((showLatch lane kind view).run s).mem = s.mem :=
  ⟨(show (showLatch lane kind view).Beside fun a b => b = a by simp [showLatch]).eq,
    (show (showLatch lane kind view).Silent by simp [showLatch]).outputs,
    (show (showLatch lane kind view).NoStore by simp [showLatch]).mem⟩

/-- A lane's LATCH of a kind. -/
theorem sendLatch_facts {s : State} {lane kind : Nat} (hs : s.sound = true) (hshape : s.shaped = true)
    (htile : s.isTile = true) (hlane : lane < 32) (hkind : kind < 4) :
    let x := s.laneState lane
    let t := (sendLatch lane kind).run s
    (∃ mark < 66, LaneSends lane [⟨true, latchWord (s.scanAt s.nextSlot.1) s.nextSlot.2 mark kind⟩] s t) ∧
    t.laneState lane = { x with started := false, ended := false, dark := false } ∧
    (∀ l, l ≠ lane → t.laneState l = s.laneState l) ∧
    t.hid = { s.hid with
      almanac := t.hid.almanac
      scan := { s.hid.scan with lanes := t.hid.scan.lanes, kinds := setAt s.hid.scan.kinds lane kind } } ∧
    (let a := t.entry (keyOf (0x5110 + lane) 3)
     field a 7 6 = kind ∧ bitAt a 0 = true ∧ (kind = 0 → x.view < 16 → field a 15 12 = x.view)) ∧
    Only [keyOf (0x5110 + lane) 3] s t := by
  obtain ⟨huh, hup, hum, hue, b, hub⟩ := latchSent_facts s lane kind
  have hu : (s.latchSent lane kind).sound = true := Effect.run_sound _ (Effect.run_sound _ (Effect.run_sound _ hs))
  have htileu : (s.latchSent lane kind).isTile = true := by rw [State.isTile, hup]; exact htile
  simp only [sendLatch_run]
  generalize s.latchSent lane kind = u at *
  obtain ⟨hwh, hwo, hwm⟩ := showLatch_keeps lane kind (s.laneState lane).view u
  have hfields := showLatch_fields (view := (s.laneState lane).view) hu htileu hlane hkind
  have hwrites : (showLatch lane kind (s.laneState lane).view).Writes (· ∈ [keyOf (0x5110 + lane) 3]) := by simp [showLatch]
  obtain ⟨hwp, hwe⟩ := hwrites.frame hu
  generalize (showLatch lane kind (s.laneState lane).view).run u = w at *
  have hlanes : w.hid.scan.lanes = s.hid.scan.lanes := by rw [hwh, huh]
  obtain ⟨hthis, hothers⟩ := laneState_updateAt (s := s)
    (t := (onLane lane fun x => { x with started := false, ended := false, dark := false }).run w) (lane := lane)
    (f := fun x => { x with started := false, ended := false, dark := false }) hshape hlane (by rw [← hlanes]; rfl)
  refine ⟨⟨s.freeValue 7 % 66, Nat.mod_lt _ (by decide), b, hwo.trans hub⟩, hthis, hothers, ?_, hfields,
    ⟨hwp.trans hup, fun k hk => (hwe k hk).trans (hue k)⟩, fun a => ?_⟩
  · rw [onLane_run, Act.hid_hid, hwh, huh]
  · show memGet w.mem a = memGet s.mem a
    rw [hwm, hum]

/-- LATCH sends the block of the kind that the slot asks for. -/
theorem latch_exec {s : State} {lane : Nat} (htile : s.isTile = true) (hruns : s.scanRuns = true) (hlane : lane < 32)
    (hslot : s.hid.scan.slot ≠ 255) (hon : s.laneOn lane = true ∨ (s.scanAt s.nextSlot.1).laneOn lane = true) :
    let n := s.nextSlot.1
    let k := s.nextSlot.2
    let x := s.laneState lane
    let want := s.latchKind lane n k
    exec (.latch lane) s = .next ((sendLatch lane
      (if want = 0 ∧ !(x.ended && !x.dark && x.slot == k) then 2 else want)).run s) := by
  intro n k x want
  have hcond : (s.isTile && s.scanRuns && s.hid.scan.slot != 255 && decide (lane < 32) &&
      (s.laneOn lane || (s.scanAt n).laneOn lane)) = true := by
    rcases hon with h | h
    · simp [htile, hruns, hslot, hlane, h]
    · simp [htile, hruns, hslot, hlane, n, h]
  have hkind : (if (decide (want = 0) && !(x.ended && !x.dark && x.slot == k)) = true then 2 else want) =
      if want = 0 ∧ !(x.ended && !x.dark && x.slot == k) then 2 else want := by
    simp only [Bool.and_eq_true, decide_eq_true_eq]
  show perform (Effect.when (s.isTile && s.scanRuns && s.hid.scan.slot != 255 && decide (lane < 32) &&
    (s.laneOn lane || (s.scanAt n).laneOn lane)) (sendLatch lane
      (if (decide (want = 0) && !(x.ended && !x.dark && x.slot == k)) = true then 2 else want))) s = _
  rw [hcond, hkind, perform_eq, Effect.run_when_true]

theorem latchedKind_lt (s : State) (lane n k : Nat) (whole : Bool) :
    (if s.latchKind lane n k = 0 ∧ !whole then 2 else s.latchKind lane n k) < 4 := by
  have := latchKind_le s lane n k
  split_ifs <;> omega

end Sys2Proof.Machine
end

section
namespace Sys2Proof.Machine

/-! ### The diagnostic results that were held -/

/-- Of what stands beside the dictionary a result changes the queue, the suspects and what was bypassed of late. -/
def ResultTaken (a b : Hidden) : Prop := b = { a with
  almanac := b.almanac
  scan := { a.scan with queue := b.scan.queue, recent := b.scan.recent, suspects := b.scan.suspects } }

theorem ResultTaken.of_beside {e : Effect} {s : State} (h : e.Beside ResultTaken) : ResultTaken s.hid (e.run s).hid :=
  Effect.Beside.hid (R := ResultTaken) (fun _ => rfl)
    (fun {a b c} h h' => by rw [ResultTaken] at *; rw [h', h]) h

/-- The entries in which a result shows. -/
def resultEntries : List Key := keyOf 0x1400 8 :: [6, 7, 0x0A, 0x0B, 0x0C, 0x0D, 0x10, 0x11].map (keyOf 0x5200)

theorem takeResult_writes (q : Locate) (d : Nat) : (takeResult q d).Writes (· ∈ resultEntries) := by
  have hbypass : ∀ o whole, (bypassString q o whole).Writes (· ∈ resultEntries) := fun o whole => by
    cases whole <;>
      simp [bypassString, bypassLamp, logBypass, mapChanged, recordLocate, almanacCount_writes, resultEntries, -decide_eq_true_eq]
  have hqueue : ∀ p : Locate, (queueString p).Writes (· ∈ resultEntries) := fun p => by
    simp [queueString, showDiagnosis, resultEntries]
  simp only [takeResult, Effect.writes_look, Effect.writes_ite]
  refine fun s => ⟨fun _ => ⟨fun _ => trivial, fun _ => ⟨fun _ => hqueue _, fun _ => ?_⟩⟩,
    fun _ => ⟨fun _ => hbypass _ _, fun _ => hbypass _ _⟩⟩
  simp [recordLocate, almanac_writes, resultEntries]

theorem takeResult_beside (q : Locate) (d : Nat) : (takeResult q d).Beside ResultTaken := by
  have hbypass : ∀ o whole, (bypassString q o whole).Beside ResultTaken := fun o whole => by
    cases whole <;>
      simp [bypassString, bypassLamp, logBypass, mapChanged, recordLocate, almanacCount_beside (R := ResultTaken) (fun _ _ => rfl), ResultTaken]
  have hqueue : ∀ p : Locate, (queueString p).Beside ResultTaken := fun p => by
    simp [queueString, showDiagnosis, ResultTaken]
  simp only [takeResult, Effect.beside_look, Effect.beside_ite]
  refine fun s => ⟨fun _ => ⟨fun _ => trivial, fun _ => ⟨fun _ => hqueue _, fun _ => ?_⟩⟩,
    fun _ => ⟨fun _ => hbypass _ _, fun _ => hbypass _ _⟩⟩
  simp [recordLocate, almanac_beside (R := ResultTaken) (fun _ _ => rfl), ResultTaken, ScanState.suspect]

/-! #### Where a result stores -/

/-- The lamps of a sound tile are numbered far below the room of the lamp map. -/
theorem laneLamp_lt {s : State} (hs : s.sound = true) (htile : s.isTile = true) {lane q l : Nat}
    (h : s.laneLamp lane q = some l) : l < 2 ^ 42 := by
  have hset : settable .tile (keyOf 0x4200 1) 8 = true := by decide +kernel
  have hlambda : s.lambda < 2 ^ 8 := State.entry_lt hs (State.isTile_iff.mp htile ▸ hset)
  have hw : s.regionW < 2 ^ 16 := field_lt _ _ _
  have hx : (s.lane lane).x < 2 ^ 16 := field_lt _ _ _
  have hy : (s.lane lane).y < 2 ^ 16 := field_lt _ _ _
  have hlw : (s.lane lane).w < 2 ^ 16 := field_lt _ _ _
  have hlh : (s.lane lane).h < 2 ^ 16 := field_lt _ _ _
  simp only [State.laneLamp] at h
  split_ifs at h with hq
  obtain rfl := Option.some.inj h
  generalize s.lambda = m at *
  generalize s.regionW = w at *
  generalize (s.lane lane).x = x at *
  generalize (s.lane lane).y = y at *
  generalize (s.lane lane).w = lw at *
  generalize (s.lane lane).h = lh at *
  have hp : q / max 1 m ≤ lw * lh := by
    rcases Nat.eq_zero_or_pos m with rfl | hm
    · simp at hq
    · rw [Nat.max_eq_right hm]
      exact (Nat.div_lt_iff_lt_mul hm).mpr hq |>.le
  have hrow : q / max 1 m / max 1 lw ≤ lh := by
    rcases Nat.eq_zero_or_pos lw with rfl | hlw0
    · simp at hq
    · rw [Nat.max_eq_right hlw0]
      exact Nat.div_le_of_le_mul hp
  have hcol : q / max 1 m % max 1 lw < 2 ^ 16 := (Nat.mod_lt _ (by omega)).trans_le (by omega)
  have hlast : q % max 1 m < 2 ^ 8 := (Nat.mod_lt _ (by omega)).trans_le (by omega)
  have h1 : w * (y + q / max 1 m / max 1 lw) ≤ 2 ^ 16 * 2 ^ 17 := Nat.mul_le_mul (by omega) (by omega)
  have h2 : m * (w * (y + q / max 1 m / max 1 lw) + (x + q / max 1 m % max 1 lw)) ≤ 2 ^ 8 * (2 ^ 16 * 2 ^ 17 + 2 ^ 17) :=
    Nat.mul_le_mul hlambda.le (by omega)
  omega

/-- The lamp map, among the ranges of memory. -/
def mapRanges : List (Nat × Nat) := [Space.lampMap.range]

theorem mapStore {o : Nat} {bs : List Byte} (h : o + bs.length ≤ 2 ^ 56) :
    (storeAt (Space.lampMap.at o) bs).Stores (InRanges mapRanges) :=
  storeAt_stores (r := Space.lampMap.range) (by simp [mapRanges])
    (by simp only [Space.range, Space.at]; omega) (by simp only [Space.range, Space.at]; omega)

theorem bypassLamp_stores {l : Nat} (hl : l < 2 ^ 42) : (bypassLamp l).Stores (InRanges mapRanges) := fun s =>
  mapStore (by simp only [List.length_cons, List.length_nil]; omega)

theorem logBypass_stores (lamp cause attempts : Nat) (td : Int) : (logBypass lamp cause attempts td).Stores (InRanges mapRanges) := by
  intro s
  dsimp only
  split_ifs with hn
  · exact fun _ => trivial
  · refine ⟨mapStore ?_, mapStore ?_⟩
    · simp only [List.length_append, length_bytesLE]
      omega
    · rw [length_bytesLE]
      omega

theorem mapChanged_stores : mapChanged.Stores (InRanges mapRanges) := fun s =>
  ⟨mapStore (by rw [length_bytesLE]; decide), mapStore (by rw [length_bytesLE]; decide),
    Effect.NoStore.stores (e := .all [set 0x5200 6 s.mapCount, set 0x5200 0x0D s.stringsOff, setBit 0x5200 7 7 true]) (by simp)⟩

theorem Effect.stores_each {α : Type} {A : Nat → Prop} {f : α → Effect} : ∀ {l : List α}, (∀ x ∈ l, (f x).Stores A) →
    (Effect.each f l).Stores A
  | [], _ => trivial
  | x :: l, h => ⟨h x List.mem_cons_self, Effect.stores_each (l := l) fun y hy => h y (List.mem_cons_of_mem x hy)⟩

/-- What a result bypasses is stored in the lamp map. -/
theorem bypassString_memory {s : State} (hs : s.sound = true) (htile : s.isTile = true) (q : Locate) (o : Nat) (whole : Bool) :
    SameMemoryOutside mapRanges s ((bypassString q o whole).run s) := by
  let lamps := ((List.range 32).filter (bitAt o)).filterMap (s.stringLamp q.lane q.array q.string)
  let new' := lamps.filter fun l => !(s.bypassed l)
  let log := if whole then Effect.ofOption (s.stringLamp q.lane q.array q.string 0) fun l =>
      logBypass (2 ^ 31 + l) 3 q.attempts (s.lampTd l)
    else Effect.each (fun l => logBypass l (if q.sweep then 4 else 1) q.attempts (s.lampTd l)) new'
  let rest := Effect.all [addField 0x5200 0x0B 31 16 new'.length, almanacCount 5 2 new'.length,
    onScan fun x => { x with recent := insertKey x.recent (stringKey q.lane q.array q.string) 4 },
    recordLocate (if whole then 3 else 1) q ((List.range 32).findIdx (bitAt o))]
  have hnew : ∀ l ∈ new', l < 2 ^ 42 := fun l hl => by
    obtain ⟨m, -, hm⟩ := List.mem_filterMap.mp (List.mem_filter.mp hl).1
    exact laneLamp_lt hs htile hm
  have hfirst : ∀ x : Option Nat, (Effect.ofOption x fun l => logBypass (2 ^ 31 + l) 3 q.attempts (s.lampTd l)).Stores
      (InRanges mapRanges) := by
    rintro (_ | l)
    · exact trivial
    · exact logBypass_stores _ _ _ _
  have hlog : log.Stores (InRanges mapRanges) := by
    cases whole with
    | true => exact hfirst _
    | false => exact Effect.stores_each fun l _ => logBypass_stores _ _ _ _
  have hrest : rest.Stores (InRanges mapRanges) :=
    Effect.NoStore.stores (by simp [rest, almanacCount_noStore, recordLocate])
  have hrun : (bypassString q o whole).run s = (Effect.all [Effect.each bypassLamp new', log, rest, mapChanged,
      raise 355 (if whole then 3 else 1)]).run s := rfl
  rw [hrun]
  refine Effect.Stores.outside (Effect.stores_all ?_) hs
  intro e he
  simp only [List.mem_cons, List.not_mem_nil, or_false] at he
  rcases he with rfl | rfl | rfl | rfl | rfl
  · exact Effect.stores_each fun l hl => bypassLamp_stores (hnew l hl)
  · exact hlog
  · exact hrest
  · exact mapChanged_stores
  · exact trivial

theorem takeResult_memory {s : State} (hs : s.sound = true) (htile : s.isTile = true) (q : Locate) (d : Nat) :
    SameMemoryOutside mapRanges s ((takeResult q d).run s) := by
  have hqueue : ∀ p : Locate, (queueString p).NoStore := fun p => by simp [queueString, showDiagnosis]
  rw [takeResult, Effect.run_look]
  dsimp only
  split_ifs
  · exact fun _ _ => rfl
  · exact fun a _ => (hqueue _).frame a
  · exact fun a _ => Effect.NoStore.frame (by simp [recordLocate, almanac_noStore]) a
  · exact bypassString_memory hs htile _ _ _
  · exact bypassString_memory hs htile _ _ _

/-- The results held are taken, outside FREEZE. -/
theorem takeHeld_facts {s : State} (hs : s.sound = true) (htile : s.isTile = true) :
    let t := takeHeld.run s
    let held : Bool := !s.hid.scan.results.isEmpty && s.mode != Mode.freeze
    t.hid = { s.hid with
      almanac := t.hid.almanac
      scan := { s.hid.scan with
        queue := t.hid.scan.queue
        recent := t.hid.scan.recent
        suspects := t.hid.scan.suspects
        results := if s.mode = Mode.freeze then s.hid.scan.results else [] } } ∧
    t.pers = s.pers ∧ (∀ k, k ∉ (if held then resultEntries else []) → t.entry k = s.entry k) ∧
    (∃ more, t.outputs = s.outputs ++ more ∧ (held = false → more = [])) ∧ (held = false → SameMemory s t) ∧
    SameMemoryOutside mapRanges s t := by
  intro t held
  by_cases hmode : s.mode = Mode.freeze
  · have ht : t = s := by
      simp only [t, takeHeld, Effect.run_look, hmode, bne_self_eq_false, Effect.run_when_false]
    rw [ht, if_pos hmode]
    exact ⟨rfl, rfl, fun _ _ => rfl, ⟨[], by simp, fun _ => rfl⟩, fun _ _ => rfl, fun _ _ => rfl⟩
  · let u := (onScan fun x => { x with results := [] }).run s
    have hu : u.sound = true := Effect.run_sound _ hs
    let each := Effect.each (fun r : Locate × Nat => takeResult r.1 r.2) s.hid.scan.results
    have ht : t = each.run u := by
      have : (s.mode != Mode.freeze) = true := by simpa using hmode
      simp only [t, takeHeld, Effect.run_look, this, Effect.run_when_true, Effect.run_seq, each, u]
    have hwrites : each.Writes (· ∈ resultEntries) := by
      simp only [each, Effect.writes_each]
      exact fun r _ => takeResult_writes _ _
    have hbeside : each.Beside ResultTaken := by
      simp only [each, Effect.beside_each]
      exact fun r _ => takeResult_beside _ _
    have hmemory : SameMemoryOutside mapRanges u (each.run u) := by
      have hkeeps := Effect.run_each_keeps (P := fun v => v.sound = true ∧ v.isTile = true ∧ SameMemoryOutside mapRanges u v)
        (f := fun r : Locate × Nat => takeResult r.1 r.2) (l := s.hid.scan.results) (s := u) ?_ ⟨hu, htile, fun _ _ => rfl⟩
      · exact hkeeps.2.2
      · rintro r - v ⟨hv, hvt, hvm⟩
        refine ⟨Effect.run_sound _ hv, ?_, fun a ha => (takeResult_memory hv hvt _ _ a ha).trans (hvm a ha)⟩
        rw [State.isTile, (takeResult_writes r.1 r.2).pers]
        exact hvt
    have hhid : ResultTaken u.hid (each.run u).hid := ResultTaken.of_beside hbeside
    have hprefix := Effect.run_outputs each u
    obtain ⟨more, hmore⟩ := hprefix
    have hempty : held = false → s.hid.scan.results = [] := fun h => by
      simpa [held, hmode] using h
    have hnone : held = false → each.run u = u := fun h => by
      simp only [each, hempty h]
      rfl
    rw [ht, if_neg hmode]
    refine ⟨?_, hwrites.pers, fun k hk => ?_, ⟨more, hmore.symm, fun h => ?_⟩, fun h => ?_, fun a ha => hmemory a ha⟩
    · generalize (each.run u).hid = x at hhid
      rw [hhid]
      rfl
    · cases hheld : held with
      | true =>
        rw [hheld] at hk
        exact (hwrites.keeps (by simpa using hk) hu).2
      | false =>
        rw [hnone hheld]
        rfl
    · rw [hnone h] at hmore
      simpa using hmore
    · rw [hnone h]
      exact fun _ => rfl

end Sys2Proof.Machine
end

section
namespace Sys2Proof.Machine

/-! ### The parts of a slot's latch -/

/-- What one effect of a list does to an entry that no other of them writes. -/
theorem Effect.each_entry {α : Type} {f : α → Effect} {q : Key} {g : Nat → Nat} {p : Personality} {a : α} {l : List α}
    (ha : a ∈ l) (hl : l.Nodup) (hp : ∀ x ∈ l, (f x).Writes fun _ => True) (hother : ∀ x ∈ l, x ≠ a → (f x).Writes (· ≠ q))
    (hval : ∀ u : State, u.sound = true → u.pers = p → ((f a).run u).entry q = g (u.entry q)) :
    ∀ {s : State}, s.sound = true → s.pers = p → ((Effect.each f l).run s).entry q = g (s.entry q) := by
  induction l with
  | nil => exact absurd ha List.not_mem_nil
  | cons x l ih =>
    intro s hs hpers
    obtain ⟨hx, hl⟩ := List.nodup_cons.mp hl
    have hu : ((f x).run s).sound = true := Effect.run_sound _ hs
    rw [Effect.run_each_cons]
    by_cases hxa : x = a
    · subst hxa
      have hrest : (Effect.each f l).Writes (· ≠ q) := by
        rw [Effect.writes_each]
        exact fun y hy => hother y (List.mem_cons_of_mem x hy) fun h => hx (h ▸ hy)
      exact (hrest.keeps (fun h => h rfl) hu).2.trans (hval s hs hpers)
    · rw [ih ((List.mem_cons.mp ha).resolve_left (Ne.symm hxa)) hl (fun y hy => hp y (List.mem_cons_of_mem x hy))
        (fun y hy => hother y (List.mem_cons_of_mem x hy)) hu ((hp x List.mem_cons_self).pers.trans hpers),
        ((hother x List.mem_cons_self hxa).keeps (fun h => h rfl) hs).2]

theorem satAdd_zero {w v : Nat} (h : v < 2 ^ w) : satAdd w v 0 = v := by
  rw [satAdd]
  omega

/-! #### The slot begins -/

/-- A slot begins: local time has come to its instant, and its number shows. -/
def State.slotBegun (s : State) (n k : Nat) : State :=
  (Effect.all [advanceTo (s.slotAt n k),
    onScan fun x => { x with
      tick := n, slot := k,
      recent := (x.recent.map fun q => (q.1, q.2 - 1)).filter fun q => q.2 != 0 },
    set 0x4300 0x0A k]).run s

theorem slotBegun_facts {s : State} (hs : s.sound = true) (htile : s.isTile = true) (n k : Nat) :
    let u := s.slotBegun n k
    u.sound = true ∧ u.pers = s.pers ∧ u.outputs = s.outputs ∧ u.mem = s.mem ∧ RunsTo (s.slotAt n k) s u ∧
    u.hid = { s.hid with
      time := u.hid.time
      scan := { s.hid.scan with tick := n, slot := k, recent := u.hid.scan.recent } } ∧
    u.entry (keyOf 0x4300 0x0A) = k % 2 ^ 8 ∧ ∀ q, q ≠ keyOf 0x4300 0x0A → u.entry q = s.entry q := by
  have hset : settable .tile (keyOf 0x4300 0x0A) 8 = true := by decide +kernel
  have hu : ((onScan fun x => { x with
      tick := n, slot := k,
      recent := (x.recent.map fun q => (q.1, q.2 - 1)).filter fun q => q.2 != 0 }).run ((advanceTo (s.slotAt n k)).run s)).sound =
      true := Effect.run_sound _ (Effect.run_sound _ hs)
  refine ⟨Effect.run_sound _ hs, rfl, rfl, rfl, ?_, rfl, ?_, fun q hq => State.entry_set_of_ne hu hq⟩
  · show s.hid.time.now + ((s.slotAt n k).toNat * unitsPerNs - s.hid.time.now) = _
    omega
  · exact set_entry hu (State.isTile_iff.mp htile ▸ hset)

/-! #### The factors and the clipped lamps show at the start of a tick -/

/-- What shows at the latch of S0. -/
def showTick (n k : Nat) : Effect := Effect.when (k == 0) (.seq (showDerate n) showClipped)

def tickEntries : List Key := [keyOf 0x5000 8, keyOf 0x1400 8] ++ (List.range 4).map fun r => keyOf (0x4000 + r) 0x12

theorem showTick_writes (n k : Nat) : (showTick n k).Writes (· ∈ tickEntries) := by
  have hclipped : showClipped.Writes (· ∈ tickEntries) := by
    simp only [showClipped, Effect.writes_look, Effect.writes_all_cons, Effect.writes_all_nil, Effect.writes_each, set_writes,
      Effect.writes_when, onScan_writes, and_true]
    exact fun s => ⟨fun r hr => List.mem_append_right _ (List.mem_map_of_mem hr),
      fun _ => almanac_writes (by simp [tickEntries]) _ _⟩
  simp [showTick, showDerate, tickEntries] at hclipped ⊢
  exact fun _ => hclipped

theorem showTick_noStore (n k : Nat) : (showTick n k).NoStore := by
  simp [showTick, showDerate, showClipped, almanac_noStore]

theorem showTick_silent (n k : Nat) : (showTick n k).Silent := by
  simp [showTick, showDerate, showClipped, almanac_silent]

theorem showTick_hid (n k : Nat) (s : State) : ((showTick n k).run s).hid = { s.hid with
    almanac := ((showTick n k).run s).hid.almanac
    scan := { s.hid.scan with clipped := if k = 0 then List.replicate 4 0 else s.hid.scan.clipped } } := by
  by_cases hk : k = 0
  · subst hk
    let before := Effect.all [showDerate n,
      .look fun s => .seq (Effect.each (fun r => set (0x4000 + r) 0x12 (s.hid.scan.clipped.getD r 0)) (List.range 4))
        (Effect.when (s.hid.scan.clipped.any (· != 0)) (almanac 5 7))]
    have hbefore : SameBeside s (before.run s) :=
      SameBeside.of (by simp [before, showDerate,
        almanac_beside (R := fun a b => b = { a with almanac := b.almanac }) (fun _ _ => rfl)])
    have hrun : (showTick n 0).run s = (onScan fun x => { x with clipped := List.replicate 4 0 }).run (before.run s) := by
      simp only [showTick, showClipped, before, beq_self_eq_true, Effect.run_when_true, Effect.run_seq, Effect.run_all_cons,
        Effect.run_all_nil, Effect.run_look]
    rw [hrun, if_pos rfl, onScan_run, Act.hid_hid]
    generalize before.run s = u at hbefore
    rw [SameBeside] at hbefore
    rw [hbefore]
  · have hrun : (showTick n k).run s = s := by
      simp only [showTick, beq_eq_false_iff_ne.mpr hk, Effect.run_when_false]
    rw [hrun, if_neg hk]

/-! #### The frames of the TGs -/

/-- The frame of each TG that is on is counted. -/
def countFrames (s : State) : Effect :=
  Effect.each (fun r => Effect.when (s.tgOn s.profileB r) (count 32 (0x4000 + r) 0x0A)) (List.range 4)

theorem countFrames_writes (s : State) : (countFrames s).Writes (· ∈ (List.range 4).map fun r => keyOf (0x4000 + r) 0x0A) := by
  simp only [countFrames, Effect.writes_each, Effect.writes_when, count_writes]
  exact fun r hr _ => List.mem_map_of_mem hr

theorem countFrames_noStore (s : State) : (countFrames s).NoStore := by simp [countFrames]
theorem countFrames_silent (s : State) : (countFrames s).Silent := by simp [countFrames]
theorem countFrames_hid (s u : State) : ((countFrames s).run u).hid = u.hid :=
  Effect.Beside.eq (by simp [countFrames])

theorem countFrames_entry {s u : State} (hu : u.sound = true) (htile : u.pers = .tile) :
    ∀ r < 4, ((countFrames s).run u).entry (keyOf (0x4000 + r) 0x0A) =
      if s.tgOn s.profileB r then satAdd 32 (u.entry (keyOf (0x4000 + r) 0x0A)) 1 else u.entry (keyOf (0x4000 + r) 0x0A) := by
  intro r hr
  refine Effect.each_entry (g := fun v => if s.tgOn s.profileB r then satAdd 32 v 1 else v) (p := .tile)
    (List.mem_range.mpr hr) List.nodup_range (fun x _ => by simp) (fun x _ hx => ?_) (fun w hw hp => ?_) hu htile
  · simp only [Effect.writes_when, count_writes]
    exact fun _ h => hx (by
      have h' : 256 * (0x4000 + x) + 0x0A = 256 * (0x4000 + r) + 0x0A := by simpa only [keyOf, Nat.mul_comm] using h
      omega)
  · rw [Effect.run_when]
    split_ifs
    · exact count_entry hw (hp ▸ (tg_settable r hr).1)
    · rfl

/-! #### The bandgap value -/

theorem bandgap_settable : settable .tile (keyOf 0x1220 4) 64 = true := by decide +kernel

/-- A bandgap value that waits, where TG0 latches. -/
def bandgapWaits (s : State) : Option Nat := s.hid.heat.bandgapNext.filter fun _ => s.tgOn s.profileB 0

theorem takeBandgap_facts {s u : State} (hu : u.sound = true) (htile : u.pers = .tile) (hheat : u.hid.heat = s.hid.heat) :
    let t := (Effect.when (s.tgOn s.profileB 0) takeBandgap).run u
    field (t.entry (keyOf 0x1220 4)) 31 16 = ((bandgapWaits s).map (· % 2 ^ 16)).getD (field (u.entry (keyOf 0x1220 4)) 31 16) ∧
    t.hid = { u.hid with heat := if (bandgapWaits s).isSome then { s.hid.heat with
      bandgapNext := none, bandgapAt := t.hid.heat.bandgapAt } else s.hid.heat } := by
  intro t
  have hidle : bandgapWaits s = none → t = u → field (t.entry (keyOf 0x1220 4)) 31 16 =
      ((bandgapWaits s).map (· % 2 ^ 16)).getD (field (u.entry (keyOf 0x1220 4)) 31 16) ∧
    t.hid = { u.hid with heat := if (bandgapWaits s).isSome then { s.hid.heat with
      bandgapNext := none, bandgapAt := t.hid.heat.bandgapAt } else s.hid.heat } := fun hw ht => by
    rw [hw, ht, ← hheat]
    exact ⟨rfl, rfl⟩
  cases hon : s.tgOn s.profileB 0 with
  | false => exact hidle (by simp [bandgapWaits, hon]) (by simp only [t, hon, Effect.run_when_false])
  | true =>
    cases hnext : s.hid.heat.bandgapNext with
    | none =>
      refine hidle (by simp [bandgapWaits, hnext]) ?_
      simp only [t, hon, Effect.run_when_true, takeBandgap, Effect.run_look, hheat, hnext, Effect.run_ofOption_none,
        Effect.run_nothing]
    | some x =>
      have hw : bandgapWaits s = some x := by simp [bandgapWaits, hnext, hon, Option.filter]
      let v := (setField 0x1220 4 31 16 x).run u
      have ht : t = (onHeat fun h => { h with bandgapNext := none, bandgapAt := u.uptime }).run v := by
        simp only [t, hon, Effect.run_when_true, takeBandgap, Effect.run_look, hheat, hnext, Effect.run_ofOption_some,
          Effect.run_seq, v]
      have hentry : t.entry (keyOf 0x1220 4) = withField (u.entry (keyOf 0x1220 4)) 31 16 x := by
        rw [ht]
        exact setField_entry hu (htile ▸ bandgap_settable) (by decide) (by decide)
      have hvh : v.hid = u.hid := rfl
      rw [hw, hentry]
      refine ⟨field_withField_self _ _ (by decide), ?_⟩
      rw [ht, onHeat_run, Act.hid_hid, hvh, hheat]
      rfl

theorem takeBandgap_writes (c : Bool) : (Effect.when c takeBandgap).Writes (· ∈ [keyOf 0x1220 4]) := by simp [takeBandgap]
theorem takeBandgap_noStore (c : Bool) : (Effect.when c takeBandgap).NoStore := by simp [takeBandgap]
theorem takeBandgap_silent (c : Bool) : (Effect.when c takeBandgap).Silent := by simp [takeBandgap]

/-! #### LAMP_EN -/

/-- Every lane of a slot is dark. -/
def slotDark (s : State) (lanes : List Nat) : Bool := !lanes.isEmpty && lanes.all fun l => s.hid.scan.kinds.getD l 3 == 2

/-- The dark slots in a row, with this one. -/
def darkRunOf (s : State) (lanes : List Nat) : Nat := if slotDark s lanes then s.hid.scan.darkRun + 1 else 0

/-- The level of LAMP_EN from a latch on. -/
def lampLevel (s : State) (n : Nat) (lanes : List Nat) : Bool :=
  if s.mode = Mode.freeze ∨ s.mode = Mode.boot then s.hid.lampEn
  else if s.lampAllowed n = false then false else s.hid.lampEn || decide (2 ≤ darkRunOf s lanes)

theorem setLampEn_facts (on : Bool) (s : State) : ((setLampEn on).run s).hid = { s.hid with lampEn := on } ∧
    ((setLampEn on).run s).outputs = s.outputs ++ if on = s.hid.lampEn then [] else [.pin 349 0 on] := by
  simp only [setLampEn, Effect.run_look, Effect.run_when]
  by_cases h : s.hid.lampEn = on
  · subst h
    simp
  · rw [if_pos (by simpa using h), if_neg (Ne.symm h)]
    exact ⟨rfl, rfl⟩

theorem lampEnAt_facts (n : Nat) (lanes : List Nat) (s : State) :
    let t := (lampEnAt n lanes).run s
    t.hid = { s.hid with
      lampEn := lampLevel s n lanes
      scan := { s.hid.scan with darkRun := darkRunOf s lanes } } ∧
    t.outputs = s.outputs ++ if lampLevel s n lanes = s.hid.lampEn then [] else [.pin 349 0 (lampLevel s n lanes)] := by
  intro t
  let u := (onScan fun x => { x with darkRun := darkRunOf s lanes }).run s
  have huh : u.hid = { s.hid with scan := { s.hid.scan with darkRun := darkRunOf s lanes } } := rfl
  have huo : u.outputs = s.outputs := rfl
  let sets := if (decide (s.mode = Mode.freeze) || decide (s.mode = Mode.boot)) = true then .nothing
    else if (!s.lampAllowed n) = true then setLampEn false
    else Effect.when (decide (2 ≤ darkRunOf s lanes)) (setLampEn true)
  have ht : t = sets.run u := rfl
  have hlevel : (sets.run u).hid = { u.hid with lampEn := lampLevel s n lanes } ∧
      (sets.run u).outputs = u.outputs ++ if lampLevel s n lanes = u.hid.lampEn then [] else [.pin 349 0 (lampLevel s n lanes)] := by
    have hul : u.hid.lampEn = s.hid.lampEn := rfl
    by_cases hmode : s.mode = Mode.freeze ∨ s.mode = Mode.boot
    · have hl : lampLevel s n lanes = s.hid.lampEn := by rw [lampLevel, if_pos hmode]
      have hs : sets = .nothing := if_pos (by simpa using hmode)
      rw [hs, hl, ← hul]
      simp
    · have hmode' : ¬ ((decide (s.mode = Mode.freeze) || decide (s.mode = Mode.boot)) = true) := by simpa using hmode
      cases hallowed : s.lampAllowed n with
      | false =>
        have hl : lampLevel s n lanes = false := by rw [lampLevel, if_neg hmode, if_pos hallowed]
        have hs : sets = setLampEn false := by simp only [sets, if_neg hmode', hallowed, Bool.not_false, if_true]
        rw [hs, hl]
        exact setLampEn_facts false u
      | true =>
        have hl : lampLevel s n lanes = (s.hid.lampEn || decide (2 ≤ darkRunOf s lanes)) := by
          rw [lampLevel, if_neg hmode, hallowed, if_neg (by decide)]
        have hs : sets = Effect.when (decide (2 ≤ darkRunOf s lanes)) (setLampEn true) := by
          simp only [sets, if_neg hmode', hallowed, Bool.not_true, Bool.false_eq_true, if_false]
        rw [hs, hl]
        cases decide (2 ≤ darkRunOf s lanes) with
        | true =>
          rw [Bool.or_true, Effect.run_when_true]
          exact setLampEn_facts true u
        | false =>
          rw [Bool.or_false, ← hul, Effect.run_when_false]
          simp
  rw [ht]
  exact ⟨hlevel.1.trans (by rw [huh]), hlevel.2⟩

theorem lampEnAt_writes (n : Nat) (lanes : List Nat) : (lampEnAt n lanes).Writes (· ∈ [keyOf 0x5000 1]) := by
  simp [lampEnAt, setLampEn]

theorem lampEnAt_noStore (n : Nat) (lanes : List Nat) : (lampEnAt n lanes).NoStore := by simp [lampEnAt, setLampEn]

end Sys2Proof.Machine
end

section
namespace Sys2Proof.Machine

/-! ### SLOT_LATCH -/

/-! #### The references -/

/-- The references of a view, of the channels and of CRS. -/
def State.references (s : State) (v : Nat) : List Nat := (List.range 64).map (s.current v) ++ [s.spareCurrent v]

/-- What the references depend on. -/
def referenceEntries : List Key := [keyOf 0x5000 7, keyOf 0x1600 6] ++ (List.range 64).map fun c => keyOf 0x5001 (c + 1)

theorem State.references_congr {s t : State} {v : Nat} (hcodes : t.hid.scan.codes = s.hid.scan.codes)
    (htick : t.hid.scan.tick = s.hid.scan.tick) (hfactors : t.factorsFor t.hid.scan.tick = s.factorsFor s.hid.scan.tick)
    (hrun : t.hid.heat.run = s.hid.heat.run) (h : ∀ q ∈ referenceEntries, t.entry q = s.entry q) :
    t.references v = s.references v := by
  have hregion : t.regionOf = s.regionOf := funext fun l => by
    rw [State.regionOf, State.regionOf]
    exact congrArg (field · _ _) (h (keyOf 0x5000 7) (by decide))
  have hcurrent : ∀ c < 64, t.current v c = s.current v c := fun c hc => by
    have hscale : t.reg 0x5001 (c + 1) = s.reg 0x5001 (c + 1) :=
      h _ (List.mem_append_right _ (List.mem_map_of_mem (List.mem_range.mpr hc)))
    rw [State.current, State.current, hscale, hcodes, hfactors, hregion]
  have hitem : t.reg 0x1600 6 = s.reg 0x1600 6 := h (keyOf 0x1600 6) (by decide)
  have hspare : t.spareCurrent v = s.spareCurrent v := by
    rw [State.spareCurrent, State.spareCurrent, hrun, hitem]
    cases s.hid.heat.run with
    | none => rfl
    | some r =>
      dsimp only
      by_cases hr : r.item < 64
      · rw [hcurrent _ hr]
      · simp [hr]
  rw [State.references, State.references, hspare,
    List.map_congr_left fun c hc => hcurrent c (List.mem_range.mp hc)]

theorem latchCurrents_facts (v : Nat) (s : State) :
    let t := (latchCurrents v).run s
    let clamped := s.hid.clamped && !(s.hid.scan.kinds.contains 0)
    t.hid = { s.hid with
      clamped := clamped
      scan := { s.hid.scan with refs := if clamped = false ∧ v < 8 then s.references v else s.hid.scan.refs } } ∧
    t.outputs = s.outputs ∧ t.mem = s.mem ∧ t.pers = s.pers ∧ t.regs = s.regs := by
  intro t clamped
  let u := (Effect.when (s.hid.clamped && s.hid.scan.kinds.contains 0) (hidden fun h => { h with clamped := false })).run s
  have hu : u = { s with hid := { s.hid with clamped := clamped } } := by
    simp only [u, clamped]
    cases hc : s.hid.clamped with
    | false =>
      rw [Bool.false_and, Bool.false_and, Effect.run_when_false, ← hc]
    | true =>
      cases s.hid.scan.kinds.contains 0 with
      | false => rw [Bool.and_false, Effect.run_when_false, Bool.not_false, Bool.and_true, ← hc]
      | true => rfl
  have ht : t = (Effect.when (!clamped && v < 8) (onScan fun x => { x with refs := u.references v })).run u := by
    have : u.hid.clamped = clamped := by rw [hu]
    rw [← this]
    rfl
  have hrefs : u.references v = s.references v := by
    refine State.references_congr ?_ ?_ ?_ ?_ fun q _ => ?_ <;> rw [hu]
    · rfl
    · rfl
  rw [ht, hrefs, hu, Effect.run_when]
  have hcond : (!clamped && decide (v < 8)) = true ↔ clamped = false ∧ v < 8 := by simp
  by_cases h : clamped = false ∧ v < 8
  · rw [if_pos (hcond.mpr h), if_pos h]
    exact ⟨rfl, rfl, rfl, rfl, rfl⟩
  · rw [if_neg (hcond.not.mpr h), if_neg h]
    exact ⟨rfl, rfl, rfl, rfl, rfl⟩

/-! #### The lanes that are idle -/

theorem idleLanes_facts {s : State} (hs : s.sound = true) (htile : s.pers = .tile) (lanes : List Nat) :
    let t := (idleLanes lanes).run s
    t.hid = { s.hid with scan := { s.hid.scan with
      queue := t.hid.scan.queue
      testing := s.hid.scan.testing.filter fun q => lanes.contains q.lane } } ∧
    t.outputs = s.outputs ∧ t.mem = s.mem ∧ (∀ l < 32, l ∉ lanes → bitAt (t.entry (keyOf (0x5110 + l) 3)) 0 = false) ∧
    t.pers = s.pers ∧
    ∀ q, q ∉ keyOf 0x5200 0x10 :: (List.range 32).map (fun l => keyOf (0x5110 + l) 3) → t.entry q = s.entry q := by
  intro t
  let idle := (List.range 32).filter fun l => !(lanes.contains l)
  let shown := Effect.each (fun l => setField (0x5110 + l) 3 0 0 0) idle
  let filters := onScan fun x => { x with
    queue := x.queue.filter fun q => lanes.contains q.lane
    testing := x.testing.filter fun q => lanes.contains q.lane }
  let counts := setBy 0x5200 0x10 fun s => s.hid.scan.queue.length
  have hrun : t = counts.run (filters.run (shown.run s)) := rfl
  have hshown : (shown.run s).hid = s.hid := Effect.Beside.eq (by simp [shown])
  have hu : (shown.run s).sound = true := Effect.run_sound _ hs
  have hsilent : (idleLanes lanes).Silent := by simp [idleLanes]
  have hstore : (idleLanes lanes).NoStore := by simp [idleLanes]
  have hwrites : (idleLanes lanes).Writes (· ∈ keyOf 0x5200 0x10 :: (List.range 32).map (fun l => keyOf (0x5110 + l) 3)) := by
    simp only [idleLanes, Effect.writes_seq, Effect.writes_each, setField_writes, onScan_writes, setBy_writes, true_and]
    exact ⟨fun l hl => List.mem_cons_of_mem _ (List.mem_map_of_mem (List.mem_filter.mp hl).1), List.mem_cons_self⟩
  refine ⟨?_, hsilent.outputs, hstore.mem, fun l hl hout => ?_, hwrites.pers, fun q hq => (hwrites.keeps hq hs).2⟩
  · have : t.hid = { (shown.run s).hid with scan := { (shown.run s).hid.scan with
        queue := (shown.run s).hid.scan.queue.filter fun q => lanes.contains q.lane
        testing := (shown.run s).hid.scan.testing.filter fun q => lanes.contains q.lane } } := by
      rw [hrun]
      rfl
    rw [this, hshown]
  · have hkey : keyOf (0x5110 + l) 3 ≠ keyOf 0x5200 0x10 := fun h => by
      have h' : (0x5110 + l) * 256 + 3 = 0x5200 * 256 + 0x10 := h
      omega
    have hkeep : t.entry (keyOf (0x5110 + l) 3) = (shown.run s).entry (keyOf (0x5110 + l) 3) :=
      (Effect.Writes.keeps (K := (· = keyOf 0x5200 0x10)) hkey (by simp) hu).2
    have hvalue : (shown.run s).entry (keyOf (0x5110 + l) 3) = withField (s.entry (keyOf (0x5110 + l) 3)) 0 0 0 := by
      refine Effect.each_entry (g := fun v => withField v 0 0 0) (p := .tile) (a := l)
        (List.mem_filter.mpr ⟨List.mem_range.mpr hl, by simpa using hout⟩) (List.nodup_range.filter _) (fun x _ => by simp)
        (fun x _ hx => ?_) (fun w hw hp => ?_) hs htile
      · simp only [setField_writes]
        exact fun h => hx (by
          have h' : 256 * (0x5110 + x) + 3 = 256 * (0x5110 + l) + 3 := by simpa only [keyOf, Nat.mul_comm] using h
          omega)
      · exact setField_entry hw (hp ▸ (lane_settable l hl).1) (by decide) (by decide)
    rw [hkeep, hvalue, bitAt_eq_field, field_withField_self _ _ le_rfl]
    rfl

end Sys2Proof.Machine
end

section
namespace Sys2Proof.Machine

/-! #### The parts of a latch, in their order -/

/-- The first part of a latch: the slot begins, what shows at the start of a tick shows, frames are counted and a bandgap value
that waits is taken. -/
def State.slotCounted (s : State) (n k : Nat) : State :=
  (Effect.when (s.tgOn s.profileB 0) takeBandgap).run ((countFrames s).run ((showTick n k).run (s.slotBegun n k)))

/-- The entries of the first part. -/
def countedEntries : List Key := keyOf 0x4300 0x0A :: keyOf 0x1220 4 :: tickEntries ++ (List.range 4).map fun r => keyOf (0x4000 + r) 0x0A

theorem slotCounted_facts {s : State} (hs : s.sound = true) (htile : s.isTile = true) (n k : Nat) :
    let u := s.slotCounted n k
    u.sound = true ∧ u.pers = s.pers ∧ u.outputs = s.outputs ∧ u.mem = s.mem ∧ RunsTo (s.slotAt n k) s u ∧
    u.hid = { s.hid with
      almanac := u.hid.almanac
      time := u.hid.time
      heat := if (bandgapWaits s).isSome then { s.hid.heat with bandgapNext := none, bandgapAt := u.hid.heat.bandgapAt }
        else s.hid.heat
      scan := { s.hid.scan with
        tick := n
        slot := k
        recent := u.hid.scan.recent
        clipped := if k = 0 then List.replicate 4 0 else s.hid.scan.clipped } } ∧
    u.entry (keyOf 0x4300 0x0A) = k % 2 ^ 8 ∧
    (∀ r < 4, u.entry (keyOf (0x4000 + r) 0x0A) = if s.tgOn s.profileB r then satAdd 32 (s.entry (keyOf (0x4000 + r) 0x0A)) 1
      else s.entry (keyOf (0x4000 + r) 0x0A)) ∧
    field (u.entry (keyOf 0x1220 4)) 31 16 =
      ((bandgapWaits s).map (· % 2 ^ 16)).getD (field (s.entry (keyOf 0x1220 4)) 31 16) ∧
    ∀ q, q ∉ countedEntries → u.entry q = s.entry q := by
  intro u
  let a := s.slotBegun n k
  let b := (showTick n k).run a
  let c := (countFrames s).run b
  obtain ⟨ha, hap, hao, ham, hat, hah, hak, hakeep⟩ := slotBegun_facts hs htile n k
  have hb : b.sound = true := Effect.run_sound _ ha
  have hc : c.sound = true := Effect.run_sound _ hb
  have hbp : b.pers = s.pers := (showTick_writes n k).pers.trans hap
  have hcp : c.pers = s.pers := (countFrames_writes s).pers.trans hbp
  have hbh : b.hid = _ := showTick_hid n k a
  have hch : c.hid = b.hid := countFrames_hid s b
  have haheat : a.hid.heat = s.hid.heat := by
    have h := congrArg Hidden.heat hah
    exact h
  have hcheat : c.hid.heat = s.hid.heat := by rw [hch, hbh, ← haheat]
  obtain ⟨hvalue, huh⟩ := takeBandgap_facts (s := s) hc (hcp.trans (State.isTile_iff.mp htile)) hcheat
  have hbkeep : ∀ q, q ∉ tickEntries → b.entry q = a.entry q := fun q hq => ((showTick_writes n k).keeps hq ha).2
  have hckeep : ∀ q, q ∉ ((List.range 4).map fun r => keyOf (0x4000 + r) 0x0A) → c.entry q = b.entry q := fun q hq =>
    ((countFrames_writes s).keeps hq hb).2
  have hukeep : ∀ q, q ∉ [keyOf 0x1220 4] → u.entry q = c.entry q := fun q hq => ((takeBandgap_writes _).keeps hq hc).2
  refine ⟨Effect.run_sound _ hc, (takeBandgap_writes _).pers.trans hcp, ?_, ?_, ?_, ?_, ?_, fun r hr => ?_, ?_, fun q hq => ?_⟩
  · exact ((takeBandgap_silent _).outputs.trans (countFrames_silent s).outputs).trans ((showTick_silent n k).outputs.trans hao)
  · exact ((takeBandgap_noStore _).mem.trans (countFrames_noStore s).mem).trans ((showTick_noStore n k).mem.trans ham)
  · have htime : u.hid.time = a.hid.time := by
      show (State.slotCounted s n k).hid.time = _
      rw [State.slotCounted, huh, hch, hbh]
    rw [RunsTo, htime]
    exact hat
  · obtain ⟨time, recent, ha'⟩ : ∃ time recent, a.hid = { s.hid with
        time := time
        scan := { s.hid.scan with tick := n, slot := k, recent := recent } } := ⟨_, _, hah⟩
    obtain ⟨almanac, hb'⟩ : ∃ almanac, b.hid = { a.hid with
        almanac := almanac
        scan := { a.hid.scan with clipped := if k = 0 then List.replicate 4 0 else a.hid.scan.clipped } } := ⟨_, hbh⟩
    obtain ⟨at', hu'⟩ : ∃ at', u.hid = { c.hid with heat := if (bandgapWaits s).isSome then { s.hid.heat with
        bandgapNext := none, bandgapAt := at' } else s.hid.heat } := ⟨_, huh⟩
    rw [hch, hb', ha'] at hu'
    rw [hu']
    cases (bandgapWaits s).isSome <;> rfl
  · rw [hukeep _ (by decide), hckeep _ (by decide), hbkeep _ (by decide), hak]
  · rw [hukeep _ (by interval_cases r <;> decide), countFrames_entry hb (hbp.trans (State.isTile_iff.mp htile)) r hr,
      hbkeep _ (by interval_cases r <;> decide), hakeep _ (by interval_cases r <;> decide)]
  · rw [hckeep _ (by decide), hbkeep _ (by decide), hakeep _ (by decide)] at hvalue
    exact hvalue
  · simp only [countedEntries, List.cons_append, List.mem_cons, List.mem_append, not_or] at hq
    obtain ⟨h1, h2, h3, h4⟩ := hq
    rw [hukeep q (by simpa using h2), hckeep q h4, hbkeep q h3, hakeep q h1]

end Sys2Proof.Machine
end

section
namespace Sys2Proof.Machine

/-- The entries that say whether LAMP_EN may be high. -/
def allowedEntries : List Key :=
  [keyOf 0x1001 1, keyOf 0x1001 3, keyOf 0x1200 4, keyOf 0x1210 1, keyOf 0x1210 2, keyOf 0x5000 0x0B]

/-- LAMP_EN may be high by the modes, the lamp map and the entries. -/
theorem State.lampAllowed_congr {s t : State} {n : Nat} (hmode : t.hid.mode = s.hid.mode) (hreset : t.hid.reset = s.hid.reset)
    (hmap : t.hid.scan.mapLoaded = s.hid.scan.mapLoaded)
    (h : ∀ q ∈ allowedEntries, t.entry q = s.entry q) : t.lampAllowed n = s.lampAllowed n := by
  have hreg : ∀ {i sub}, keyOf i sub ∈ allowedEntries → t.reg i sub = s.reg i sub := fun hq => h _ hq
  simp only [State.lampAllowed, State.scanModeAt, State.modeAt, State.throttled, State.flag, State.mode, hmode, hreset, hmap,
    hreg (i := 0x1001) (sub := 1) (by decide), hreg (i := 0x1001) (sub := 3) (by decide),
    hreg (i := 0x1200) (sub := 4) (by decide), hreg (i := 0x1210) (sub := 1) (by decide),
    hreg (i := 0x1210) (sub := 2) (by decide), hreg (i := 0x5000) (sub := 0x0B) (by decide)] <;>
  rfl

/-- The second part of a latch: LAMP_EN, the references and the lanes that are idle. -/
def State.slotLit (s : State) (n : Nat) (lanes : List Nat) (v : Nat) : State :=
  (idleLanes lanes).run ((latchCurrents v).run ((lampEnAt n lanes).run s))

/-- The entries of the second part. -/
def litEntries : List Key := keyOf 0x5000 1 :: keyOf 0x5200 0x10 :: (List.range 32).map fun l => keyOf (0x5110 + l) 3

theorem slotLit_facts {s : State} (hs : s.sound = true) (htile : s.pers = .tile) (n : Nat) (lanes : List Nat) (v : Nat) :
    let t := s.slotLit n lanes v
    let clamped := s.hid.clamped && !(s.hid.scan.kinds.contains 0)
    t.sound = true ∧ t.pers = s.pers ∧ t.mem = s.mem ∧
    t.hid = { s.hid with
      lampEn := lampLevel s n lanes
      clamped := clamped
      scan := { s.hid.scan with
        darkRun := darkRunOf s lanes
        refs := if clamped = false ∧ v < 8 then s.references v else s.hid.scan.refs
        queue := t.hid.scan.queue
        testing := s.hid.scan.testing.filter fun q => lanes.contains q.lane } } ∧
    t.outputs = s.outputs ++ (if lampLevel s n lanes = s.hid.lampEn then [] else [.pin 349 0 (lampLevel s n lanes)]) ∧
    (∀ l < 32, l ∉ lanes → bitAt (t.entry (keyOf (0x5110 + l) 3)) 0 = false) ∧
    ∀ q, q ∉ litEntries → t.entry q = s.entry q := by
  intro t clamped
  let a := (lampEnAt n lanes).run s
  let b := (latchCurrents v).run a
  have ha : a.sound = true := Effect.run_sound _ hs
  have hb : b.sound = true := Effect.run_sound _ ha
  obtain ⟨hah, hao⟩ := lampEnAt_facts n lanes s
  obtain ⟨hbh, hbo, hbm, hbp, hbr⟩ := latchCurrents_facts v a
  have hap : a.pers = s.pers := (lampEnAt_writes n lanes).pers
  obtain ⟨hth, hto, htm, hidle, htp, htkeep⟩ := idleLanes_facts hb (hbp.trans (hap.trans htile)) lanes
  have hakeep : ∀ q, q ≠ keyOf 0x5000 1 → a.entry q = s.entry q := fun q hq =>
    ((lampEnAt_writes n lanes).keeps (by simpa using hq) hs).2
  have hbkeep : ∀ q, b.entry q = a.entry q := fun q => by rw [State.entry, State.entry, hbr, hbp]
  have hrefs : a.references v = s.references v := by
    have hah' : a.hid = _ := hah
    refine State.references_congr ?_ ?_ ?_ ?_ fun q hq => hakeep q fun h => ?_
    · rw [hah']
    · rw [hah']
    · simp only [State.factorsFor, hah']
    · rw [hah']
    · subst h
      revert hq
      decide
  refine ⟨Effect.run_sound _ hb, htp.trans (hbp.trans hap), htm.trans (hbm.trans (lampEnAt_noStore n lanes).mem), ?_,
    hto.trans (hbo.trans hao), hidle, fun q hq => ?_⟩
  · obtain ⟨queue, ht'⟩ : ∃ queue, t.hid = { b.hid with scan := { b.hid.scan with
      queue := queue
      testing := b.hid.scan.testing.filter fun q => lanes.contains q.lane } } := ⟨_, hth⟩
    have hb' : b.hid = _ := hbh
    have ha' : a.hid = _ := hah
    rw [hb', hrefs, ha'] at ht'
    rw [ht']
  · simp only [litEntries, List.mem_cons, not_or] at hq
    obtain ⟨h1, h2, h3⟩ := hq
    exact (htkeep q (by simpa only [List.mem_cons, not_or] using ⟨h2, h3⟩)).trans ((hbkeep q).trans (hakeep q h1))

end Sys2Proof.Machine
end

section
namespace Sys2Proof.Machine

/-- The entries that a latch may change, on top of those of the results that were held. -/
def latchEntries : List Key := [keyOf 0x4300 0x0A, keyOf 0x5000 1, keyOf 0x5000 8, keyOf 0x5200 0x10, keyOf 0x1400 8, keyOf 0x1220 4]

theorem counted_notMem_allowed : ∀ q ∈ allowedEntries, q ∉ countedEntries := by decide

theorem lit_notMem_reference : ∀ q ∈ referenceEntries, q ∉ litEntries := by decide +kernel

theorem result_notMem_reference : ∀ q ∈ referenceEntries, q ∉ resultEntries := by decide +kernel

theorem result_notMem_lane : ∀ l < 32, keyOf (0x5110 + l) 3 ∉ resultEntries := by decide

theorem latchSlot_run {s : State} (htile : s.isTile = true) (n k : Nat) : (latchSlot n k).run s =
    (s.slotCounted n k).slotLit n ((s.scanAt n).lanesOn (s.scanAt n).profileB) ((s.scanAt n).slotView (s.scanAt n).profileB k) := by
  have hsend : s.isSender = false := by simp [State.isSender, State.isTile_iff.mp htile]
  have htgs : s.tgs = List.range 4 := by simp [State.tgs, hsend]
  simp only [latchSlot, Effect.run_look, htgs, Effect.run_all_cons, Effect.run_all_nil, State.slotLit, State.slotCounted,
    State.slotBegun, showTick, countFrames]

/-- What a slot's latch leaves, but for the results that were held. -/
theorem latchSlot_facts {s : State} (hs : s.sound = true) (htile : s.isTile = true) (n k v : Nat) (lanes : List Nat) :
    let g := (s.slotCounted n k).slotLit n lanes v
    let clamped := s.hid.clamped && !(s.hid.scan.kinds.contains 0)
    g.sound = true ∧ g.pers = s.pers ∧ g.mem = s.mem ∧ RunsTo (s.slotAt n k) s g ∧
    g.hid = { s.hid with
      almanac := g.hid.almanac
      time := g.hid.time
      lampEn := lampLevel s n lanes
      clamped := clamped
      heat := if (bandgapWaits s).isSome then { s.hid.heat with bandgapNext := none, bandgapAt := g.hid.heat.bandgapAt }
        else s.hid.heat
      scan := { s.hid.scan with
        tick := n
        slot := k
        recent := g.hid.scan.recent
        clipped := if k = 0 then List.replicate 4 0 else s.hid.scan.clipped
        darkRun := darkRunOf s lanes
        refs := if clamped = false ∧ v < 8 then g.references v else s.hid.scan.refs
        queue := g.hid.scan.queue
        testing := s.hid.scan.testing.filter fun q => lanes.contains q.lane } } ∧
    g.outputs = s.outputs ++ (if lampLevel s n lanes = s.hid.lampEn then [] else [.pin 349 0 (lampLevel s n lanes)]) ∧
    (∀ l < 32, l ∉ lanes → bitAt (g.entry (keyOf (0x5110 + l) 3)) 0 = false) ∧
    g.entry (keyOf 0x4300 0x0A) = k % 2 ^ 8 ∧
    (∀ r < 4, g.entry (keyOf (0x4000 + r) 0x0A) = if s.tgOn s.profileB r then satAdd 32 (s.entry (keyOf (0x4000 + r) 0x0A)) 1
      else s.entry (keyOf (0x4000 + r) 0x0A)) ∧
    field (g.entry (keyOf 0x1220 4)) 31 16 =
      ((bandgapWaits s).map (· % 2 ^ 16)).getD (field (s.entry (keyOf 0x1220 4)) 31 16) ∧
    ∀ q, q ∉ countedEntries → q ∉ litEntries → g.entry q = s.entry q := by
  intro g clamped
  let d := s.slotCounted n k
  obtain ⟨hd, hdp, hdo, hdm, hdt, hdh, hdslot, hdframes, hdgap, hdkeep⟩ := slotCounted_facts hs htile n k
  have hdtile : d.pers = .tile := hdp.trans (State.isTile_iff.mp htile)
  obtain ⟨hg, hgp, hgm, hgh, hgo, hgidle, hgkeep⟩ := slotLit_facts hd hdtile n lanes v
  obtain ⟨time, almanac, at', recent, hd'⟩ : ∃ time almanac at' recent, d.hid = { s.hid with
      almanac := almanac
      time := time
      heat := if (bandgapWaits s).isSome then { s.hid.heat with bandgapNext := none, bandgapAt := at' } else s.hid.heat
      scan := { s.hid.scan with
        tick := n
        slot := k
        recent := recent
        clipped := if k = 0 then List.replicate 4 0 else s.hid.scan.clipped } } := ⟨_, _, _, _, hdh⟩
  have hdark : darkRunOf d lanes = darkRunOf s lanes := by
    have hslots : slotDark d lanes = slotDark s lanes := by simp only [slotDark, hd']
    have hrun : d.hid.scan.darkRun = s.hid.scan.darkRun := by rw [hd']
    rw [darkRunOf, hslots, hrun, darkRunOf]
  have hdmode : d.mode = s.mode := hdkeep (keyOf 0x1001 1) (by decide)
  have hlevel : lampLevel d n lanes = lampLevel s n lanes := by
    have hallowed : d.lampAllowed n = s.lampAllowed n := State.lampAllowed_congr (by rw [hd']) (by rw [hd']) (by rw [hd'])
      fun q hq => hdkeep q (counted_notMem_allowed q hq)
    have hlamp : d.hid.lampEn = s.hid.lampEn := by rw [hd']
    simp only [lampLevel, hallowed, hdmode, hdark, hlamp]
  obtain ⟨queue, hg'⟩ : ∃ queue, g.hid = { d.hid with
      lampEn := lampLevel d n lanes
      clamped := d.hid.clamped && !(d.hid.scan.kinds.contains 0)
      scan := { d.hid.scan with
        darkRun := darkRunOf d lanes
        refs := if (d.hid.clamped && !(d.hid.scan.kinds.contains 0)) = false ∧ v < 8 then d.references v
          else d.hid.scan.refs
        queue := queue
        testing := d.hid.scan.testing.filter fun q => lanes.contains q.lane } } := ⟨_, hgh⟩
  rw [hdark, hlevel, hd'] at hg'
  have hlamp : d.hid.lampEn = s.hid.lampEn := by rw [hd']
  have hgh' : g.hid = _ := hg'
  have hrefs : g.references v = d.references v := by
    refine State.references_congr ?_ ?_ ?_ ?_ fun q hq => hgkeep q (lit_notMem_reference q hq)
    · rw [hgh', hd']
    · rw [hgh', hd']
    · simp only [State.factorsFor, hgh', hd']
    · rw [hgh', hd']
  refine ⟨hg, hgp.trans hdp, hgm.trans hdm, ?_, ?_, ?_, hgidle, ?_, fun r hr => ?_, ?_, fun q hq hq' => ?_⟩
  · have htime : g.hid.time = d.hid.time := by rw [hgh', hd']
    rw [RunsTo, htime]
    exact hdt
  · rw [hrefs, hgh']
    cases (bandgapWaits s).isSome <;> rfl
  · rw [← hdo, ← hlamp, ← hlevel]
    exact hgo
  · exact (hgkeep _ (by decide)).trans hdslot
  · exact (hgkeep _ (by interval_cases r <;> decide)).trans (hdframes r hr)
  · rw [← hdgap]
    exact congrArg (field · 31 16) (hgkeep _ (by decide))
  · exact (hgkeep q hq').trans (hdkeep q hq)

theorem notMem_result {q : Key} (h : q ∉ latchEntries) (h' : q ∉ [6, 7, 0x0A, 0x0B, 0x0C, 0x0D, 0x11].map (keyOf 0x5200)) :
    q ∉ resultEntries := by
  simp only [latchEntries, resultEntries, List.map_cons, List.map_nil, List.mem_cons, List.not_mem_nil, or_false] at *
  tauto

theorem notMem_counted {q : Key} (h : q ∉ latchEntries)
    (h' : q ∉ (List.range 4).flatMap fun r => [keyOf (0x4000 + r) 0x0A, keyOf (0x4000 + r) 0x12]) : q ∉ countedEntries := by
  have hall : ∀ q ∈ countedEntries, q ∈ latchEntries ++
      (List.range 4).flatMap fun r => [keyOf (0x4000 + r) 0x0A, keyOf (0x4000 + r) 0x12] := by decide
  exact fun hq => (List.mem_append.mp (hall q hq)).elim h h'

theorem notMem_lit {q : Key} (h : q ∉ latchEntries) (h' : q ∉ (List.range 32).map fun l => keyOf (0x5110 + l) 3) :
    q ∉ litEntries := by
  simp only [latchEntries, litEntries, List.mem_cons, List.not_mem_nil, or_false] at *
  tauto

/-- SLOT_LATCH of a slot. -/
theorem slotLatch_completes {s : State} {k : Nat} (hs : s.sound = true) (htile : s.isTile = true) (hstep : s.stepped = true)
    (hruns : s.scanRuns = true) (hslot : s.latchedSlot = some k) : Completes .slotLatch s fun t =>
      let n := s.tick
      let c := s.scanAt n
      let lanes := c.lanesOn c.profileB
      let v := c.slotView c.profileB k
      let held : Bool := !s.hid.scan.results.isEmpty && s.mode != Mode.freeze
      RunsTo (s.slotAt n k) s t ∧ t.hid.scan.tick = n ∧ t.hid.scan.slot = k ∧ t.entry (keyOf 0x4300 0x0A) = k % 2 ^ 8 ∧
      (∀ r < 4, t.entry (keyOf (0x4000 + r) 0x0A) = if s.tgOn s.profileB r then satAdd 32 (s.entry (keyOf (0x4000 + r) 0x0A)) 1
        else s.entry (keyOf (0x4000 + r) 0x0A)) ∧
      t.hid.scan.darkRun = darkRunOf s lanes ∧ t.hid.lampEn = lampLevel s n lanes ∧
      t.hid.clamped = (s.hid.clamped && !(s.hid.scan.kinds.contains 0)) ∧
      t.hid.scan.refs = (if t.hid.clamped = false ∧ v < 8 then t.references v else s.hid.scan.refs) ∧
      (∀ l < 32, l ∉ lanes → bitAt (t.entry (keyOf (0x5110 + l) 3)) 0 = false) ∧
      (∃ more, t.outputs = s.outputs ++ (if t.hid.lampEn = s.hid.lampEn then [] else [.pin 349 0 t.hid.lampEn]) ++ more ∧
        (held = false → more = [] ∧ SameMemory s t)) ∧
      field (t.entry (keyOf 0x1220 4)) 31 16 =
        ((bandgapWaits s).map (· % 2 ^ 16)).getD (field (s.entry (keyOf 0x1220 4)) 31 16) ∧
      t.hid = { s.hid with
        almanac := t.hid.almanac
        time := t.hid.time
        lampEn := t.hid.lampEn
        clamped := t.hid.clamped
        heat := if (bandgapWaits s).isSome then { s.hid.heat with bandgapNext := none, bandgapAt := t.hid.heat.bandgapAt }
          else s.hid.heat
        scan := { s.hid.scan with
          tick := n
          slot := k
          recent := t.hid.scan.recent
          clipped := if k = 0 then List.replicate 4 0 else s.hid.scan.clipped
          darkRun := t.hid.scan.darkRun
          refs := t.hid.scan.refs
          queue := t.hid.scan.queue
          testing := s.hid.scan.testing.filter fun q => lanes.contains q.lane
          results := if s.mode = Mode.freeze then s.hid.scan.results else []
          suspects := t.hid.scan.suspects } } ∧
      SameMemoryOutside [Space.lampMap.range] s t ∧
      SameEntriesBut (latchEntries ++
        (if held then [6, 7, 0x0A, 0x0B, 0x0C, 0x0D, 0x11].map (keyOf 0x5200) else []) ++
        (List.range 4).flatMap (fun r => [keyOf (0x4000 + r) 0x0A, keyOf (0x4000 + r) 0x12]) ++
        (List.range 32).map (fun l => keyOf (0x5110 + l) 3)) s t := by
  let n := s.tick
  let c := s.scanAt n
  let lanes := c.lanesOn c.profileB
  let v := c.slotView c.profileB k
  let g := (s.slotCounted n k).slotLit n lanes v
  let t := takeHeld.run g
  have hexec : exec .slotLatch s = .next t := by
    show execSlotLatch s = _
    simp only [execSlotLatch, perform, htile, hstep, hruns, hslot, Bool.and_self, Effect.run_when_true, Effect.run_ofOption_some,
      Effect.run_seq, latchSlot_run htile, t, g, v, lanes, c, n]
  obtain ⟨hg, hgp, hgm, hgt, hgh, hgo, hgidle, hgslot, hgframes, hggap, hgkeep⟩ := latchSlot_facts hs htile n k v lanes
  have hgtile : g.isTile = true := by
    rw [State.isTile, hgp]
    exact htile
  obtain ⟨hth, htp, htkeep, ⟨more, hmore, hnone⟩, hsame, houtside⟩ := takeHeld_facts hg hgtile
  obtain ⟨time, almanac, at', recent, queue, hg'⟩ : ∃ time almanac at' recent queue, g.hid = { s.hid with
      almanac := almanac
      time := time
      lampEn := lampLevel s n lanes
      clamped := s.hid.clamped && !(s.hid.scan.kinds.contains 0)
      heat := if (bandgapWaits s).isSome then { s.hid.heat with bandgapNext := none, bandgapAt := at' } else s.hid.heat
      scan := { s.hid.scan with
        tick := n
        slot := k
        recent := recent
        clipped := if k = 0 then List.replicate 4 0 else s.hid.scan.clipped
        darkRun := darkRunOf s lanes
        refs := if (s.hid.clamped && !(s.hid.scan.kinds.contains 0)) = false ∧ v < 8 then g.references v
          else s.hid.scan.refs
        queue := queue
        testing := s.hid.scan.testing.filter fun q => lanes.contains q.lane } } := ⟨_, _, _, _, _, hgh⟩
  have hmode : g.mode = s.mode := hgkeep (keyOf 0x1001 1) (by decide) (by decide)
  have hresults : g.hid.scan.results = s.hid.scan.results := by rw [hg']
  rw [hresults, hmode] at htkeep hnone hsame
  have hexcept : ∀ q, q ∉ resultEntries → t.entry q = g.entry q := fun q hq => htkeep q (by
    split_ifs
    · exact hq
    · exact List.not_mem_nil)
  obtain ⟨almanac', queue', recent', suspects', ht'⟩ : ∃ almanac queue recent suspects, t.hid = { g.hid with
      almanac := almanac
      scan := { g.hid.scan with
        queue := queue
        recent := recent
        suspects := suspects
        results := if g.mode = Mode.freeze then g.hid.scan.results else [] } } := ⟨_, _, _, _, hth⟩
  have hrefs : t.references v = g.references v := by
    refine State.references_congr ?_ ?_ ?_ ?_ fun q hq => hexcept q (result_notMem_reference q hq)
    · rw [ht']
    · rw [ht']
    · simp only [State.factorsFor, ht']
    · rw [ht']
  rw [hmode, hg'] at ht'
  have hmem : ∀ x, g.byte x = s.byte x := fun x => by rw [State.byte, hgm, State.byte]
  have hlamp : t.hid.lampEn = lampLevel s n lanes := by rw [ht']
  refine ⟨t, hexec, ?_, by rw [ht'], by rw [ht'], ?_, fun r hr => ?_, by rw [ht'], hlamp, by rw [ht'], ?_, fun l hl hout => ?_,
    ⟨more, ?_, fun hheld => ⟨hnone hheld, fun x => (hsame hheld x).trans (hmem x)⟩⟩, ?_, ?_,
    fun x hx => (houtside x hx).trans (hmem x), htp.trans hgp, fun q hq => ?_⟩
  · have htime : t.hid.time = g.hid.time := by rw [ht', hg']
    rw [RunsTo, htime]
    exact hgt
  · exact (hexcept _ (by decide)).trans hgslot
  · exact (hexcept _ (by interval_cases r <;> decide)).trans (hgframes r hr)
  · rw [hrefs, ht']
  · exact (congrArg (bitAt · 0) (hexcept _ (result_notMem_lane l hl))).trans (hgidle l hl hout)
  · rw [hlamp, ← hgo]
    exact hmore
  · exact (congrArg (field · 31 16) (hexcept _ (by decide))).trans hggap
  · rw [ht']
    cases (bandgapWaits s).isSome <;> rfl
  · simp only [List.mem_append, not_or] at hq
    obtain ⟨⟨⟨hlatch, hheld⟩, hframes⟩, hlanes⟩ := hq
    have hresult : q ∉ (if (!s.hid.scan.results.isEmpty && s.mode != Mode.freeze) = true then resultEntries else []) := by
      split_ifs at hheld ⊢
      · exact notMem_result hlatch hheld
      · exact List.not_mem_nil
    exact (htkeep q hresult).trans (hgkeep q (notMem_counted hlatch hframes) (notMem_lit hlatch hlanes))

end Sys2Proof.Machine
end

section
namespace Sys2Proof.Machine

/-! ### Events of a TG, and underruns -/

theorem TgMarked.keeps {r e : Nat} {s u t : State} (h : TgMarked r e s u)
    (h9 : t.entry (keyOf (0x4000 + r) 9) = u.entry (keyOf (0x4000 + r) 9))
    (hF : t.entry (keyOf (0x4000 + r) 0x0F) = u.entry (keyOf (0x4000 + r) 0x0F)) : TgMarked r e s t := by
  rw [TgMarked, h9, hF]
  exact h

/-- The Almanac's counts show in one entry. -/
theorem almanac_keeps {s : State} {h b : Nat} {q : Key} (hs : s.sound = true) (hq : q ≠ keyOf 0x1400 8) :
    ((almanac h b).run s).entry q = s.entry q :=
  Effect.Writes.keeps (K := (· = keyOf 0x1400 8)) hq (almanac_writes (K := (· = keyOf 0x1400 8)) rfl h b) hs |>.2

/-- An event of a TG, and what it may change. -/
theorem tgEvent_completes {s : State} {c : Instr} {r e : Nat} (hs : s.sound = true) (hruns : s.tgRuns r = true) (he : e < 4)
    (hexec : exec c s = perform (tgEvent r e) s) : Completes c s fun t => TgMarked r e s t ∧ t.outputs = s.outputs ∧
      SameBeside s t ∧ Only [keyOf (0x4000 + r) 9, keyOf (0x4000 + r) 0x0F, keyOf 0x1400 8] s t :=
  ⟨_, hexec, tgEvent_marks hs hruns he, (tgEvent_silent _ _).outputs, SameBeside.of (tgEvent_beside (fun _ _ => rfl) _ _),
    (tgEvent_writes _ _).frame hs, (tgEvent_noStore _ _).frame⟩

theorem l7LineUnderrun_completes {s : State} {r row : Nat} (hs : s.sound = true) (hruns : s.tgRuns r = true)
    (htile : s.isTile = true) (hlayer : s.layerDirect 7 = true) (hrow : row < s.ver s.profileB r 3) :
    Completes (.l7LineUnderrun r row) s fun t => TgMarked r TgEvent.underrun s t ∧ t.outputs = s.outputs ∧ SameBeside s t ∧
      Only [keyOf (0x4000 + r) 9, keyOf (0x4000 + r) 0x0F, keyOf 0x1400 8] s t := by
  let e := Effect.seq (tgEvent r TgEvent.underrun) (almanac 1 1)
  have hr := (State.tgRuns_lt hruns).1
  have hu : ((tgEvent r TgEvent.underrun).run s).sound = true := Effect.run_sound _ hs
  have hkeep : ∀ q, q ≠ keyOf 0x1400 8 → (e.run s).entry q = ((tgEvent r TgEvent.underrun).run s).entry q := fun q hq =>
    almanac_keeps hu hq
  refine ⟨e.run s, ?_, (tgEvent_marks hs hruns (by decide)).keeps (hkeep _ ?_) (hkeep _ ?_), ?_, SameBeside.of ?_, ?_, ?_⟩
  · show perform _ s = _
    simp only [perform, htile, hlayer, hruns, hrow, decide_true, Bool.and_self, Effect.run_when_true, e]
  · interval_cases r <;> decide
  · interval_cases r <;> decide
  · exact Effect.Silent.outputs ⟨tgEvent_silent _ _, almanac_silent _ _⟩
  · exact ⟨tgEvent_beside (fun _ _ => rfl) _ _, almanac_beside (fun _ _ => rfl) _ _⟩
  · exact Effect.Writes.frame ⟨tgEvent_writes _ _, almanac_writes (by simp) _ _⟩ hs
  · exact Effect.NoStore.frame ⟨tgEvent_noStore _ _, almanac_noStore _ _⟩

/-! #### Lanes that go dark -/

/-- A lane whose frame has ended at once. -/
def LaneState.darkened (x : LaneState) : LaneState := { x with ended := x.ended || x.started, dark := true }

/-- A lane is amid a frame. -/
def LaneState.open' (x : LaneState) : Bool := x.started && !x.ended

/-- What the dark latches of lanes leave. -/
structure DarkLatched (ls : List Nat) (s t : State) : Prop where
  lanes : ∀ l ∈ ls, t.laneState l = (s.laneState l).darkened
  others : ∀ l, l ∉ ls → t.laneState l = s.laneState l
  counts : ∀ l ∈ ls, field (t.entry (keyOf (0x5110 + l) 4)) 31 16 = satAdd 16 (field (s.entry (keyOf (0x5110 + l) 4)) 31 16) 1
  sends : ∃ b : Nat → Nat, t.outputs = s.outputs ++ (ls.filter fun l => (s.laneState l).open').map fun l =>
    .lane l (b l) (laneWords (b l) [⟨true, endWord (s.laneState l)⟩])
  beside : t.hid = { s.hid with
    almanac := t.hid.almanac
    scan := { s.hid.scan with lanes := t.hid.scan.lanes } }
  frame : ∀ q, q ≠ keyOf 0x1400 8 → q ∉ ls.map (fun l => keyOf (0x5110 + l) 4) → t.entry q = s.entry q

theorem darkLatch_writes (l : Nat) : (darkLatch l).Writes (· ∈ [keyOf (0x5110 + l) 4, keyOf 0x1400 8]) := by
  simp [darkLatch, sendEnd, sendControl, sendLane, onLane, almanac_writes]

theorem darkLatch_noStore (l : Nat) : (darkLatch l).NoStore := by
  simp [darkLatch, sendEnd, sendControl, sendLane, onLane, almanac_noStore]

theorem darkLatch_latches {s : State} {l : Nat} (hs : s.sound = true) (hshape : s.shaped = true) (htile : s.pers = .tile)
    (hl : l < 32) : DarkLatched [l] s ((darkLatch l).run s) := by
  let x := s.laneState l
  let a := (Effect.when x.open' (sendEnd l)).run s
  let b := (onLane l fun x => { x with dark := true }).run a
  let c := (countField (0x5110 + l) 4 31 16).run b
  have hrun : (darkLatch l).run s = (almanac 5 5).run c := rfl
  have hends : ∃ w, a.outputs = s.outputs ++ ([l].filter fun l => (s.laneState l).open').map (fun l =>
        .lane l w (laneWords w [⟨true, endWord (s.laneState l)⟩])) ∧
      a.hid = { s.hid with scan := { s.hid.scan with lanes := a.hid.scan.lanes } } ∧ (∀ q, a.entry q = s.entry q) ∧
      b.hid.scan.lanes = updateAt s.hid.scan.lanes l fun y => { y with ended := x.open' || y.ended, dark := true } := by
    cases hopen : x.open' with
    | false =>
      have ha : a = s := by simp only [a, hopen, Effect.run_when_false]
      have hb : b.hid.scan.lanes = updateAt a.hid.scan.lanes l fun y => { y with dark := true } := rfl
      refine ⟨0, ?_, ?_, fun q => ?_, ?_⟩
      · rw [List.filter_singleton, show (s.laneState l).open' = false from hopen, ha]
        simp
      · rw [ha]
      · rw [ha]
      · rw [hb, ha]
        rfl
    | true =>
      obtain ⟨w, hw⟩ := sendEnd_sends l s
      have ha : a = (sendEnd l).run s := by simp only [a, hopen, Effect.run_when_true]
      have hb : b.hid.scan.lanes = updateAt a.hid.scan.lanes l fun y => { y with dark := true } := rfl
      refine ⟨w, ?_, ?_, fun q => ?_, ?_⟩
      · rw [List.filter_singleton, show (s.laneState l).open' = true from hopen, ha]
        exact hw
      · rw [ha]
        rfl
      · rw [ha]
        rfl
      · rw [hb, ha, sendEnd_run, onLane_run, Act.hid_hid]
        exact updateAt_updateAt _ _ _ _
  obtain ⟨w, hao, hah, hae, hlanes⟩ := hends
  have hb : b.sound = true := Effect.run_sound _ (Effect.run_sound _ hs)
  have hc : c.sound = true := Effect.run_sound _ hb
  have hbp : b.pers = .tile := ((Effect.Writes.pers (K := fun _ => True) (by simp [sendEnd, sendControl, sendLane, onLane])).trans
    (Effect.Writes.pers (e := Effect.when x.open' (sendEnd l)) (K := fun _ => True)
      (by simp [sendEnd, sendControl, sendLane, onLane]))).trans htile
  have hbe : ∀ q, b.entry q = s.entry q := hae
  have hth : ((almanac 5 5).run c).hid = { b.hid with almanac := ((almanac 5 5).run c).hid.almanac } :=
    SameBeside.of (almanac_beside (fun _ _ => rfl) 5 5)
  have hthlanes : ((almanac 5 5).run c).hid.scan.lanes = b.hid.scan.lanes := by rw [hth]
  obtain ⟨hthis, hothers⟩ := laneState_updateAt (t := (almanac 5 5).run c) hshape hl (hthlanes.trans hlanes)
  have hkeep : ∀ q, q ≠ keyOf 0x1400 8 → ((almanac 5 5).run c).entry q = c.entry q := fun q hq =>
    almanac_keeps hc hq
  rw [hrun]
  refine ⟨fun y hy => ?_, fun y hy => hothers y (by simpa using hy), fun y hy => ?_, ⟨fun _ => w, ?_⟩, ?_, fun q hq hq' => ?_⟩
  · obtain rfl := List.mem_singleton.mp hy
    rw [hthis, LaneState.darkened]
    congr 1
    rw [LaneState.open']
    cases (s.laneState y).started <;> cases (s.laneState y).ended <;> rfl
  · obtain rfl := List.mem_singleton.mp hy
    rw [hkeep _ (by interval_cases y <;> decide), ← hbe]
    exact addField_field hb (hbp ▸ (lane_settable y hl).2) (by decide) (by decide)
  · exact (almanac_silent 5 5).outputs.trans hao
  · have hbh : b.hid = { a.hid with scan := { a.hid.scan with lanes := b.hid.scan.lanes } } := rfl
    rw [hth, hbh, hah]
  · rw [hkeep q hq, ← hbe]
    exact State.entry_set_of_ne hb (by simpa using hq')

theorem laneCount_inj {l m : Nat} (h : keyOf (0x5110 + l) 4 = keyOf (0x5110 + m) 4) : l = m := by
  have h' : (0x5110 + l) * 256 + 4 = (0x5110 + m) * 256 + 4 := h
  omega

theorem laneCount_ne_almanac (l : Nat) : keyOf (0x5110 + l) 4 ≠ keyOf 0x1400 8 := fun h => by
  have h' : (0x5110 + l) * 256 + 4 = 0x1400 * 256 + 8 := h
  omega

/-- Dark latches of a lane, and then of others. -/
theorem DarkLatched.cons {s u t : State} {l : Nat} {ls : List Nat} (hl : l ∉ ls) (h : DarkLatched [l] s u)
    (h' : DarkLatched ls u t) : DarkLatched (l :: ls) s t := by
  have hsame : ∀ m ∈ ls, u.laneState m = s.laneState m := fun m hm =>
    h.others m fun hml => hl (List.mem_singleton.mp hml ▸ hm)
  obtain ⟨b, hb⟩ := h.sends
  obtain ⟨b', hb'⟩ := h'.sends
  refine ⟨fun m hm => ?_, fun m hm => ?_, fun m hm => ?_, ⟨fun m => if m = l then b l else b' m, ?_⟩, ?_, fun q hq hq' => ?_⟩
  · rcases List.mem_cons.mp hm with rfl | hm
    · rw [h'.others m hl, h.lanes m List.mem_cons_self]
    · rw [h'.lanes m hm, hsame m hm]
  · obtain ⟨hml, hm⟩ := not_or.mp (List.mem_cons.not.mp hm)
    rw [h'.others m hm, h.others m (by simpa using hml)]
  · have hother : ∀ {k : Nat}, k ∉ ls → keyOf (0x5110 + k) 4 ∉ ls.map fun l => keyOf (0x5110 + l) 4 := fun hk hmem => by
      obtain ⟨j, hj, hjk⟩ := List.mem_map.mp hmem
      exact hk (laneCount_inj hjk ▸ hj)
    rcases List.mem_cons.mp hm with rfl | hm
    · rw [h'.frame _ (laneCount_ne_almanac m) (hother hl), h.counts m List.mem_cons_self]
    · have hml : m ≠ l := fun hml => hl (hml ▸ hm)
      have hkey : keyOf (0x5110 + m) 4 ∉ [l].map fun l => keyOf (0x5110 + l) 4 := fun hmem =>
        hml (laneCount_inj (by simpa using hmem))
      rw [h'.counts m hm, h.frame _ (laneCount_ne_almanac m) hkey]
  · have hopen : (ls.filter fun m => (u.laneState m).open') = ls.filter fun m => (s.laneState m).open' :=
      List.filter_congr fun m hm => by rw [hsame m hm]
    have hwords : ∀ m ∈ ls.filter fun m => (s.laneState m).open', Output.lane m (b' m) (laneWords (b' m)
        [⟨true, endWord (u.laneState m)⟩]) = .lane m (if m = l then b l else b' m)
          (laneWords (if m = l then b l else b' m) [⟨true, endWord (s.laneState m)⟩]) := fun m hm => by
      have hm := (List.mem_filter.mp hm).1
      have hml : m ≠ l := fun hml => hl (hml ▸ hm)
      rw [if_neg hml, hsame m hm]
    rw [hb', hb, hopen, List.map_congr_left hwords, List.append_assoc]
    cases hopen : (s.laneState l).open' with
    | false => simp [hopen]
    | true => simp [hopen]
  · rw [h'.beside, h.beside]
  · rw [List.map_cons, List.mem_cons, not_or] at hq'
    rw [h'.frame q hq hq'.2, h.frame q hq (by simpa using hq'.1)]

theorem darkLatches {ls : List Nat} (hnodup : ls.Nodup) (hls : ∀ l ∈ ls, l < 32) : ∀ {s : State}, s.sound = true →
    s.shaped = true → s.pers = .tile → DarkLatched ls s ((Effect.each darkLatch ls).run s) := by
  induction ls with
  | nil =>
    intro s _ _ _
    exact ⟨fun _ h => absurd h List.not_mem_nil, fun _ _ => rfl, fun _ h => absurd h List.not_mem_nil,
      ⟨fun _ => 0, (List.append_nil _).symm⟩, rfl, fun _ _ _ => rfl⟩
  | cons l ls ih =>
    intro s hs hshape htile
    obtain ⟨hl, hnodup⟩ := List.nodup_cons.mp hnodup
    rw [Effect.run_each_cons]
    exact (darkLatch_latches hs hshape htile (hls l List.mem_cons_self)).cons hl
      (ih hnodup (fun m hm => hls m (List.mem_cons_of_mem l hm)) (Effect.run_sound _ hs)
        ((darkLatch_keepsShape l).run hshape) ((darkLatch_writes l).pers.trans htile))

theorem darkLatches_noStore {ls : List Nat} : (Effect.each darkLatch ls).NoStore := by
  rw [Effect.noStore_each]
  exact fun l _ => darkLatch_noStore l

/-! #### UNDERRUN -/

theorem lanesIn_nodup (mask : Nat) : (lanesIn mask).Nodup := List.nodup_range.filter _

theorem lanesIn_lt {mask l : Nat} (h : l ∈ lanesIn mask) : l < 32 := List.mem_range.mp (List.mem_filter.mp h).1

theorem foldl_withBit_lt {w : Nat} {ls : List Nat} (hls : ∀ l ∈ ls, l < w) : ∀ {v : Nat}, v < 2 ^ w →
    ls.foldl withBit v < 2 ^ w := by
  induction ls with
  | nil => exact fun hv => hv
  | cons l ls ih => exact fun hv => ih (fun m hm => hls m (List.mem_cons_of_mem l hm)) (withBit_lt hv (hls l List.mem_cons_self))

/-- The entries that mark an underrun of a TG, and the mask and slot that it shows. -/
def underrunEntries (r : Nat) : List Key :=
  [keyOf (0x4000 + r) 0x10, keyOf (0x4000 + r) 0x11, keyOf 0x1644 0x0B]

/-- The entries that an event of a TG changes. -/
def eventEntries (r : Nat) : List Key := [keyOf (0x4000 + r) 9, keyOf (0x4000 + r) 0x0F, keyOf 0x1400 8]

theorem laneCount_notMem : ∀ r < 4, ∀ l < 32, keyOf (0x5110 + l) 4 ∉ underrunEntries r ∧ keyOf (0x5110 + l) 4 ∉ eventEntries r := by
  decide

theorem underrun_notMem_event : ∀ r < 4, ∀ q ∈ underrunEntries r, q ∉ eventEntries r := by decide

theorem event_notMem_underrun : ∀ r < 4, ∀ q ∈ eventEntries r, q ∉ underrunEntries r := by decide

/-- What UNDERRUN marks and counts, once the lanes are dark. -/
def underrunMarks (r mine mark : Nat) : Effect := .all [
  setBy (0x4000 + r) 0x10 fun t => t.reg (0x4000 + r) 0x10 ||| mine,
  set (0x4000 + r) 0x11 mark,
  count 32 0x1644 0x0B, almanac 1 1,
  onCounts fun t => { t with underruns := t.underruns + 1 }]

theorem underrunMarks_facts {s : State} {r mine mark : Nat} (hs : s.sound = true) (htile : s.pers = .tile) (hr : r < 4)
    (hmine : mine < 2 ^ 32) :
    let t := (underrunMarks r mine mark).run s
    t.outputs = s.outputs ∧ t.mem = s.mem ∧ t.pers = s.pers ∧
    t.hid = { s.hid with
      almanac := t.hid.almanac
      counts := { s.hid.counts with underruns := s.hid.counts.underruns + 1 } } ∧
    t.entry (keyOf (0x4000 + r) 0x10) = s.entry (keyOf (0x4000 + r) 0x10) ||| mine ∧
    t.entry (keyOf (0x4000 + r) 0x11) = mark % 2 ^ 64 ∧
    t.entry (keyOf 0x1644 0x0B) = satAdd 32 (s.entry (keyOf 0x1644 0x0B)) 1 ∧
    ∀ q, q ≠ keyOf 0x1400 8 → q ∉ underrunEntries r → t.entry q = s.entry q := by
  intro t
  let a := (setBy (0x4000 + r) 0x10 fun t => t.reg (0x4000 + r) 0x10 ||| mine).run s
  let b := (set (0x4000 + r) 0x11 mark).run a
  let c := (count 32 0x1644 0x0B).run b
  let d := (almanac 1 1).run c
  have ha : a.sound = true := Effect.run_sound _ hs
  have hb : b.sound = true := Effect.run_sound _ ha
  have hc : c.sound = true := Effect.run_sound _ hb
  have hdh : d.hid = { c.hid with almanac := d.hid.almanac } := SameBeside.of (almanac_beside (fun _ _ => rfl) 1 1)
  have hdt : ∀ q, q ≠ keyOf 0x1400 8 → t.entry q = c.entry q := fun q hq => almanac_keeps (h := 1) (b := 1) hc hq
  obtain ⟨-, -, h10, h11, -⟩ := tg_settable r hr
  have hcount : settable .tile (keyOf 0x1644 0x0B) 32 = true := by decide +kernel
  have hca : ∀ q, q ≠ keyOf 0x1644 0x0B → c.entry q = b.entry q := fun q hq => State.entry_set_of_ne hb hq
  have hba : ∀ q, q ≠ keyOf (0x4000 + r) 0x11 → b.entry q = a.entry q := fun q hq => State.entry_set_of_ne ha hq
  have has : ∀ q, q ≠ keyOf (0x4000 + r) 0x10 → a.entry q = s.entry q := fun q hq => State.entry_set_of_ne hs hq
  refine ⟨(almanac_silent 1 1).outputs, (almanac_noStore 1 1).mem, (almanac_writes (K := fun _ => True) trivial 1 1).pers, ?_, ?_,
    ?_, ?_, fun q hq hq' => ?_⟩
  · obtain ⟨x, hx⟩ : ∃ x, d.hid = { c.hid with almanac := x } := ⟨_, hdh⟩
    have hth : t.hid = { d.hid with counts := { d.hid.counts with underruns := d.hid.counts.underruns + 1 } } := rfl
    rw [hth, hx]
    rfl
  · rw [hdt _ (by interval_cases r <;> decide), hca _ (by interval_cases r <;> decide), hba _ (by interval_cases r <;> decide)]
    refine (set_entry hs (htile ▸ h10)).trans (Nat.mod_eq_of_lt (Nat.or_lt_two_pow ?_ hmine))
    exact State.entry_lt hs (htile ▸ h10)
  · rw [hdt _ (by interval_cases r <;> decide), hca _ (by interval_cases r <;> decide)]
    exact set_entry ha (htile ▸ h11)
  · rw [hdt _ (by decide), ← has _ (by interval_cases r <;> decide), ← hba _ (by interval_cases r <;> decide)]
    exact count_entry hb (htile ▸ hcount)
  · simp only [underrunEntries, List.mem_cons, List.not_mem_nil, or_false, not_or] at hq'
    obtain ⟨hq10, hq11, hq0B⟩ := hq'
    rw [hdt q hq, hca q hq0B, hba q hq11, has q hq10]

theorem underrun_completes {s : State} {r lanes : Nat} (hs : s.sound = true) (hshape : s.shaped = true)
    (hruns : s.tgRuns r = true) (htile : s.isTile = true) :
    let mine := ((lanesIn (lanes &&& s.laneMask s.profileB r)).filter s.unfinished).foldl withBit 0
    mine ≠ 0 → Completes (.underrun r lanes) s fun t => TgMarked r TgEvent.underrun s t ∧
      (∀ l ∈ lanesIn mine, t.laneState l = (s.laneState l).darkened ∧
        field (t.entry (keyOf (0x5110 + l) 4)) 31 16 = satAdd 16 (field (s.entry (keyOf (0x5110 + l) 4)) 31 16) 1) ∧
      (∀ l, l ∉ lanesIn mine → t.laneState l = s.laneState l) ∧
      (∃ b : Nat → Nat, t.outputs = s.outputs ++ ((lanesIn mine).filter fun l => (s.laneState l).open').map fun l =>
        .lane l (b l) (laneWords (b l) [⟨true, endWord (s.laneState l)⟩])) ∧
      t.hid = { s.hid with
        almanac := t.hid.almanac
        counts := { s.hid.counts with underruns := s.hid.counts.underruns + 1 }
        scan := { s.hid.scan with lanes := t.hid.scan.lanes } } ∧
      t.entry (keyOf (0x4000 + r) 0x10) = s.entry (keyOf (0x4000 + r) 0x10) ||| mine ∧
      t.entry (keyOf (0x4000 + r) 0x11) = (s.hid.scan.tick % 2 ^ 56 * 256 + s.hid.scan.slot) % 2 ^ 64 ∧
      t.entry (keyOf 0x1644 0x0B) = satAdd 32 (s.entry (keyOf 0x1644 0x0B)) 1 ∧
      Only (eventEntries r ++ underrunEntries r ++
        (lanesIn mine).map (fun l => keyOf (0x5110 + l) 4)) s t := by
  intro mine hmine
  let mark := s.hid.scan.tick % 2 ^ 56 * 256 + s.hid.scan.slot
  let a := (tgEvent r TgEvent.underrun).run s
  let b := (Effect.each darkLatch (lanesIn mine)).run a
  let t := (underrunMarks r mine mark).run b
  have hexec : exec (.underrun r lanes) s = .next t := by
    show execUnderrun r lanes s = _
    have hne : (mine != 0) = true := by simpa using hmine
    simp only [execUnderrun, perform, htile, hruns, hne, Bool.and_self, Effect.run_when_true, Effect.run_all_cons, t,
      underrunMarks, b, a, mark, mine]
  have hr := (State.tgRuns_lt hruns).1
  have hp : s.pers = .tile := State.isTile_iff.mp htile
  have ha : a.sound = true := Effect.run_sound _ hs
  have hb : b.sound = true := Effect.run_sound _ ha
  have hap : a.pers = s.pers := (tgEvent_writes r TgEvent.underrun).pers
  have hbp : b.pers = a.pers := Effect.Writes.pers (K := fun _ => True) (by
    rw [Effect.writes_each]
    exact fun l _ => (darkLatch_writes l).mono fun _ _ => trivial)
  have hah : a.hid = { s.hid with almanac := a.hid.almanac } := SameBeside.of (tgEvent_beside (fun _ _ => rfl) r TgEvent.underrun)
  have halane : ∀ l, a.laneState l = s.laneState l := fun l => by rw [State.laneState, hah, State.laneState]
  have hashape : a.shaped = true := (tgEvent_keepsShape r TgEvent.underrun).run hshape
  have hakeep : ∀ q, q ∉ eventEntries r → a.entry q = s.entry q := fun q hq =>
    ((tgEvent_writes r TgEvent.underrun).keeps hq hs).2
  obtain ⟨hdark, hothers, hcounts, ⟨words, hwords⟩, hbh, hbkeep⟩ :=
    darkLatches (lanesIn_nodup mine) (fun _ hl => lanesIn_lt hl) ha hashape (hap.trans hp)
  have hlt : mine < 2 ^ 32 :=
    foldl_withBit_lt (fun l hl => lanesIn_lt (List.mem_filter.mp hl).1) (by decide)
  obtain ⟨hto, htm, htp, hth, ht10, ht11, ht0B, htkeep⟩ := underrunMarks_facts (mark := mark) hb (hbp.trans (hap.trans hp)) hr hlt
  have hcount : ∀ q ∈ eventEntries r ++ underrunEntries r, q ∉ (lanesIn mine).map fun l => keyOf (0x5110 + l) 4 := fun q hq hmem => by
    obtain ⟨l, hl, rfl⟩ := List.mem_map.mp hmem
    obtain ⟨hunder, hevent⟩ := laneCount_notMem r hr l (lanesIn_lt hl)
    exact (List.mem_append.mp hq).elim hevent hunder
  have hmarked : ∀ q ∈ eventEntries r, q ≠ keyOf 0x1400 8 → t.entry q = a.entry q := fun q hq hne => by
    rw [htkeep q hne (event_notMem_underrun r hr q hq), hbkeep q hne (hcount q (List.mem_append_left _ hq))]
  have hunder : ∀ q ∈ underrunEntries r, b.entry q = s.entry q := fun q hq => by
    have hevent := underrun_notMem_event r hr q hq
    rw [hbkeep q (fun h => hevent (by simp [eventEntries, h])) (hcount q (List.mem_append_right _ hq)), hakeep q hevent]
  have htlane : ∀ l, t.laneState l = b.laneState l := fun l => by rw [State.laneState, hth, State.laneState]
  refine ⟨t, hexec, (tgEvent_marks hs hruns (by decide)).keeps (hmarked _ (by simp [eventEntries]) (by interval_cases r <;> decide))
      (hmarked _ (by simp [eventEntries]) (by interval_cases r <;> decide)), fun l hl => ⟨?_, ?_⟩,
    fun l hl => ?_, ⟨words, ?_⟩, ?_, ?_, ht11, ?_, ⟨htp.trans (hbp.trans hap), fun q hq => ?_⟩, fun x => ?_⟩
  · rw [htlane, hdark l hl, halane]
  · obtain ⟨hunder, hevent⟩ := laneCount_notMem r hr l (lanesIn_lt hl)
    rw [htkeep _ (laneCount_ne_almanac l) hunder, hcounts l hl, hakeep _ hevent]
  · rw [htlane, hothers l hl, halane]
  · simp only [halane] at hwords
    rw [hto, hwords, (tgEvent_silent r TgEvent.underrun).outputs]
  · obtain ⟨x, hax⟩ : ∃ x, a.hid = { s.hid with almanac := x } := ⟨_, hah⟩
    obtain ⟨y, lanes', hbx⟩ : ∃ y lanes', b.hid = { a.hid with
      almanac := y
      scan := { a.hid.scan with lanes := lanes' } } := ⟨_, _, hbh⟩
    obtain ⟨z, htx⟩ : ∃ z, t.hid = { b.hid with
      almanac := z
      counts := { b.hid.counts with underruns := b.hid.counts.underruns + 1 } } := ⟨_, hth⟩
    rw [htx, hbx, hax]
  · rw [ht10, hunder _ (by simp [underrunEntries])]
  · rw [ht0B, hunder _ (by simp [underrunEntries])]
  · simp only [List.mem_append, not_or] at hq
    obtain ⟨⟨hevent, hunder⟩, hlanes⟩ := hq
    have hne : q ≠ keyOf 0x1400 8 := fun h => hevent (by simp [eventEntries, h])
    rw [htkeep q hne hunder, hbkeep q hne hlanes, hakeep q hevent]
  · rw [State.byte, htm, darkLatches_noStore.mem, (tgEvent_noStore r TgEvent.underrun).mem, State.byte]

end Sys2Proof.Machine
end

section
namespace Sys2Proof.Machine

/-- LATCH of a lane. -/
theorem latch_completes {s : State} {lane : Nat} (hs : s.sound = true) (hshape : s.shaped = true) (htile : s.isTile = true)
    (hruns : s.scanRuns = true) (hlane : lane < 32) (hslot : s.hid.scan.slot ≠ 255)
    (hon : s.laneOn lane = true ∨ (s.scanAt s.nextSlot.1).laneOn lane = true) :
    let k := s.nextSlot.2
    let x := s.laneState lane
    let want := s.latchKind lane s.nextSlot.1 k
    let kind := if want = 0 ∧ !(x.ended && !x.dark && x.slot == k) then 2 else want
    Completes (.latch lane) s fun t =>
      (∃ mark < 66, LaneSends lane [⟨true, latchWord (s.scanAt s.nextSlot.1) k mark kind⟩] s t) ∧
      t.laneState lane = { x with started := false, ended := false, dark := false } ∧
      (∀ l, l ≠ lane → t.laneState l = s.laneState l) ∧
      t.hid = { s.hid with
        almanac := t.hid.almanac
        scan := { s.hid.scan with lanes := t.hid.scan.lanes, kinds := setAt s.hid.scan.kinds lane kind } } ∧
      (let a := t.entry (keyOf (0x5110 + lane) 3)
       field a 7 6 = kind ∧ bitAt a 0 = true ∧ (kind = 0 → x.view < 16 → field a 15 12 = x.view)) ∧
      Only [keyOf (0x5110 + lane) 3] s t :=
  ⟨_, latch_exec htile hruns hlane hslot hon, sendLatch_facts hs hshape htile hlane (latchedKind_lt s lane _ _ _)⟩

/-- Settles O52, command by command: what a lane sends and how its state moves; a latch part by part, in the model's order;
the dark latches of an underrun by induction over the lanes. -/
theorem lanesShiftAndLatch : Obligations.LanesShiftAndLatch := by
  unfold Obligations.LanesShiftAndLatch
  refine ⟨fun s lane hs hshape htile hruns hlane => ⟨fun hslot hstart hnew => ?_, fun row hstart hend hrow hlt => ?_,
    fun hstart hend hrows => ?_, fun hslot hon => ?_⟩, fun s k hs _ htile hstep hruns hslot => ?_,
    fun s r hs hshape hruns => ⟨fun q hq => ?_, fun row htile hlayer hrow => ?_, fun lanes htile hmine => ?_⟩⟩
  · exact laneFrameStart_completes hs hshape htile hruns hlane hslot hstart hnew
  · exact laneRowSend_completes hs hshape htile hruns hlane hstart hend hrow hlt
  · exact laneFrameEnd_completes hs hshape htile hruns hlane hstart hend hrows
  · exact latch_completes hs hshape htile hruns hlane hslot hon
  · obtain ⟨t, hexec, hto, htick, htslot, hshown, hframes, hdark, hlamp, hclamped, hrefs, hidle, hout, hgap, hhid, hmem, hkeep⟩ :=
      slotLatch_completes hs htile hstep hruns hslot
    refine ⟨t, hexec, hto, htick, htslot, hshown, hframes, hdark, ?_, hclamped, hrefs, hidle, hout, hgap, hhid, hmem, hkeep⟩
    rw [hdark]
    exact hlamp
  · simp only [List.mem_cons, List.not_mem_nil, or_false] at hq
    rcases hq with rfl | rfl | rfl
    · exact tgEvent_completes hs hruns (by decide : TgEvent.blank < 4) rfl
    · exact tgEvent_completes hs hruns (by decide : TgEvent.matched < 4) rfl
    · exact tgEvent_completes hs hruns (by decide : TgEvent.done < 4) rfl
  · exact l7LineUnderrun_completes hs hruns htile hlayer hrow
  · exact underrun_completes hs hshape hruns htile hmine

end Sys2Proof.Machine
end

section
namespace Sys2Proof.Machine

/-! ### A tick boundary, up to the supervisor -/

/-- The entries that a tick boundary may change before the supervisor acts. -/
def boundaryEntries : List Key := [keyOf 0x1001 5, keyOf 0x1300 3, keyOf 0x1320 2, keyOf 0x1320 7, keyOf 0x1400 8, keyOf 0x2100 1,
  keyOf 0x2100 2, keyOf 0x2100 3, keyOf 0x2100 6, keyOf 0x2101 6]

/-- The state of the budgets is as it was. -/
abbrev BudgetSame (a b : Hidden) : Prop := b.budget = a.budget

theorem Effect.Beside.budget {e : Effect} {s : State} (h : e.Beside BudgetSame) : (e.run s).hid.budget = s.hid.budget :=
  Effect.Beside.hid (R := BudgetSame) (fun _ => rfl) (fun h h' => h'.trans h) h

/-- What comes before the supervisor changes those entries only, and not the budgets. -/
def Effect.Begins (e : Effect) : Prop := e.Writes (· ∈ boundaryEntries) ∧ e.Beside BudgetSame

theorem almanacSample_begins (l : List (Nat × Int)) : (almanacSample l).Begins := by
  constructor
  · simp only [almanacSample, Effect.writes_look]
    intro s
    split_ifs
    · trivial
    · simp [loseEvents, boundaryEntries]
    · simp [loseEvents, boundaryEntries]
    · split <;> simp
  · simp only [almanacSample, Effect.beside_look]
    intro s
    split_ifs
    · trivial
    · simp [loseEvents]
    · simp [loseEvents]
    · split <;> simp

theorem almanacBoundary_begins : almanacBoundary.Begins := by
  constructor
  · simp only [almanacBoundary, Effect.writes_look]
    intro s
    split
    · split_ifs <;> simp [beginClose]
    · trivial
  · simp only [almanacBoundary, Effect.beside_look]
    intro s
    split
    · split_ifs <;> simp [beginClose]
    · trivial

theorem almanac_begins (h b : Nat) : (almanac h b).Begins :=
  ⟨almanac_writes (by simp [boundaryEntries]) h b, almanac_beside (fun _ _ => rfl) h b⟩

theorem beaconRuns_begins : beaconRuns.Begins := by
  constructor
  · simp [beaconRuns, almanac_writes, boundaryEntries]
  · simp [beaconRuns, almanac_beside (R := BudgetSame) (fun _ _ => rfl)]

theorem pairBoundary_begins : pairBoundary.Begins := by
  constructor <;>
    simp [pairBoundary, senderBoundary, selfBoundary, ageHarvests, dropOldDigests, storeContent, boundaryEntries]

theorem becomeMaster_begins : becomeMaster.Begins := by
  constructor
  · simp [becomeMaster, noteTime, noteSelf, pairSettled, almanac_writes, boundaryEntries]
  · simp [becomeMaster, noteTime, noteSelf, pairSettled, almanac_beside (R := BudgetSame) (fun _ _ => rfl)]

theorem becomeStandby_begins : becomeStandby.Begins := by
  constructor
  · simp [becomeStandby, noteTime, noteSelf, pairSettled, almanac_writes, boundaryEntries]
  · simp [becomeStandby, noteTime, noteSelf, pairSettled, almanac_beside (R := BudgetSame) (fun _ _ => rfl)]

theorem pairChoices_begins : pairChoices.Begins := by
  obtain ⟨hmaster, hmaster'⟩ := becomeMaster_begins
  obtain ⟨hstandby, hstandby'⟩ := becomeStandby_begins
  constructor
  · simp only [pairChoices, Effect.writes_look, Effect.writes_seq, Effect.writes_when, Effect.writes_ite, onPair_writes]
    exact fun _ => ⟨fun _ => ⟨fun _ => hstandby, fun _ => ⟨fun _ => hmaster, fun _ => trivial⟩⟩, fun _ => trivial⟩
  · simp only [pairChoices, Effect.beside_look, Effect.beside_seq, Effect.beside_when, Effect.beside_ite, onPair_beside]
    exact fun _ => ⟨fun _ => ⟨fun _ => hstandby', fun _ => ⟨fun _ => hmaster', fun _ => trivial⟩⟩, fun _ _ => trivial⟩

/-- What a tick boundary does before the supervisor acts. -/
def boundaryBegins (s : State) : Effect := .all [
  advanceTo (s.at (s.tick + 1)),
  almanacSample s.samples,
  Effect.when s.isTile useFree,
  almanacBoundary,
  pairBoundary,
  beaconRuns,
  pairChoices,
  countMissed,
  set 0x1001 5 (s.tick + 1),
  hidden fun h => { h with lastCounts := { h.counts with holdover := s.holdoverSeen }, counts := TickCounts.initial }]

theorem boundaryBegins_begins (s : State) : (boundaryBegins s).Begins := by
  constructor
  · simp [boundaryBegins, advanceTo, almanacSample_begins _ |>.1, almanacBoundary_begins.1, pairBoundary_begins.1,
      beaconRuns_begins.1, pairChoices_begins.1, countMissed, show keyOf 0x1001 5 ∈ boundaryEntries by decide]
  · simp [boundaryBegins, advanceTo, almanacSample_begins _ |>.2, almanacBoundary_begins.2, pairBoundary_begins.2,
      beaconRuns_begins.2, pairChoices_begins.2, countMissed]

theorem tickBoundary_run {s : State} (hlink : s.up .link = true) (hstep : s.stepped = true) :
    exec .tickBoundary s = .next (supervise.run ((boundaryBegins s).run s)) := by
  show execTickBoundary s = _
  simp only [execTickBoundary, perform, hlink, hstep, Bool.and_self, Effect.run_when_true, boundaryBegins, Effect.run_all_cons,
    Effect.run_all_nil]

end Sys2Proof.Machine
end

section
namespace Sys2Proof.Machine

/-! ### What the supervisor does beside the budgets -/

/-- An entry other than 1644h.01 to .05. -/
def Spared (q : Nat) : Prop := q < 0x164401 ∨ 0x164405 < q

theorem spared_keyOf {i a : Nat} (hi : i ≠ 0x1644) (ha : a < 256) : Spared (keyOf i a) := by
  show i * 256 + a < 0x164401 ∨ 0x164405 < i * 256 + a
  omega

/-- The charges and the counts of consecutive overruns are as they were. -/
abbrev ChargesKept (a b : Hidden) : Prop :=
  b.budget.bytes = a.budget.bytes ∧ b.budget.cycles = a.budget.cycles ∧ b.budget.streak = a.budget.streak

/-- An effect leaves 1644h.01 to .05, the charges and the counts of consecutive overruns alone. -/
def Effect.SparesBudget (e : Effect) : Prop := e.Writes Spared ∧ e.Beside ChargesKept

theorem Effect.SparesBudget.entry {e : Effect} {s : State} {sub : Nat} (h : e.SparesBudget) (hs : s.sound = true)
    (hsub : 1 ≤ sub ∧ sub ≤ 5) : (e.run s).entry (keyOf 0x1644 sub) = s.entry (keyOf 0x1644 sub) :=
  (h.1.keeps (by
    show ¬ (0x1644 * 256 + sub < 0x164401 ∨ 0x164405 < 0x1644 * 256 + sub)
    omega) hs).2

theorem Effect.SparesBudget.charges {e : Effect} {s : State} (h : e.SparesBudget) : ChargesKept s.hid (e.run s).hid :=
  Effect.Beside.hid (R := ChargesKept) (fun _ => ⟨rfl, rfl, rfl⟩)
    (fun h h' => ⟨h'.1.trans h.1, h'.2.1.trans h.2.1, h'.2.2.trans h.2.2⟩) h.2

/-! The combinators, and the named changes. -/

@[simp] theorem Effect.spares_nothing : Effect.nothing.SparesBudget := ⟨trivial, trivial⟩
@[simp] theorem Effect.spares_seq (a b : Effect) : (Effect.seq a b).SparesBudget ↔ a.SparesBudget ∧ b.SparesBudget := and_and_and_comm
@[simp] theorem Effect.spares_look (f : State → Effect) : (Effect.look f).SparesBudget ↔ ∀ s, (f s).SparesBudget := forall_and.symm
@[simp] theorem Effect.spares_all_nil : (Effect.all []).SparesBudget := ⟨trivial, trivial⟩
@[simp] theorem Effect.spares_all_cons (e : Effect) (es : List Effect) :
    (Effect.all (e :: es)).SparesBudget ↔ e.SparesBudget ∧ (Effect.all es).SparesBudget := by
  simp only [SparesBudget, writes_all_cons, beside_all_cons]
  exact and_and_and_comm
@[simp] theorem Effect.spares_each {α : Type} (f : α → Effect) (l : List α) :
    (Effect.each f l).SparesBudget ↔ ∀ x ∈ l, (f x).SparesBudget := by
  simp only [SparesBudget, writes_each, beside_each, forall_and]
@[simp] theorem Effect.spares_when (c : Bool) (e : Effect) : (Effect.when c e).SparesBudget ↔ (c = true → e.SparesBudget) := by
  simp only [SparesBudget, writes_when, beside_when, forall_and]
@[simp] theorem Effect.spares_ite (c : Prop) [Decidable c] (a b : Effect) :
    (if c then a else b).SparesBudget ↔ (c → a.SparesBudget) ∧ (¬ c → b.SparesBudget) := by
  by_cases h : c <;> simp [h]
@[simp] theorem Effect.spares_ofOption {α : Type} (o : Option α) (f : α → Effect) :
    (Effect.ofOption o f).SparesBudget ↔ ∀ x, o = some x → (f x).SparesBudget := by
  cases o <;> simp [Effect.ofOption]
@[simp] theorem set_spares (i sub v : Nat) : (set i sub v).SparesBudget ↔ Spared (keyOf i sub) := by simp [Effect.SparesBudget]
@[simp] theorem setBy_spares (i sub : Nat) (f : State → Nat) : (setBy i sub f).SparesBudget ↔ Spared (keyOf i sub) := by
  simp [Effect.SparesBudget]
@[simp] theorem addTo_spares (w i sub n : Nat) : (addTo w i sub n).SparesBudget ↔ Spared (keyOf i sub) := by
  simp [Effect.SparesBudget]
@[simp] theorem count_spares (w i sub : Nat) : (count w i sub).SparesBudget ↔ Spared (keyOf i sub) := by
  simp [Effect.SparesBudget]
@[simp] theorem setField_spares (i sub hi lo v : Nat) : (setField i sub hi lo v).SparesBudget ↔ Spared (keyOf i sub) := by
  simp [Effect.SparesBudget]
@[simp] theorem countField_spares (i sub hi lo : Nat) : (countField i sub hi lo).SparesBudget ↔ Spared (keyOf i sub) := by
  simp [Effect.SparesBudget]
@[simp] theorem setBit_spares (i sub b : Nat) (on : Bool) : (setBit i sub b on).SparesBudget ↔ Spared (keyOf i sub) := by
  simp [Effect.SparesBudget]
@[simp] theorem hidden_spares (f : Hidden → Hidden) : (hidden f).SparesBudget ↔ ∀ h, ChargesKept h (f h) := by
  simp [Effect.SparesBudget]
@[simp] theorem emit_spares (o : Output) : (emit o).SparesBudget := ⟨trivial, trivial⟩
@[simp] theorem raise_spares (r d : Nat) : (raise r d).SparesBudget := ⟨trivial, trivial⟩
@[simp] theorem storeAt_spares (a : Nat) (bs : List Byte) : (storeAt a bs).SparesBudget := ⟨trivial, trivial⟩
@[simp] theorem eraseAt_spares (a n : Nat) : (eraseAt a n).SparesBudget := ⟨trivial, trivial⟩
@[simp] theorem onCommit_spares (f : CommitState → CommitState) : (onCommit f).SparesBudget :=
  ⟨trivial, fun _ => ⟨rfl, rfl, rfl⟩⟩
@[simp] theorem onReset_spares (f : ResetState → ResetState) : (onReset f).SparesBudget :=
  ⟨trivial, fun _ => ⟨rfl, rfl, rfl⟩⟩
@[simp] theorem onMode_spares (f : ModeState → ModeState) : (onMode f).SparesBudget :=
  ⟨trivial, fun _ => ⟨rfl, rfl, rfl⟩⟩
@[simp] theorem onDoors_spares (f : DoorState → DoorState) : (onDoors f).SparesBudget :=
  ⟨trivial, fun _ => ⟨rfl, rfl, rfl⟩⟩
@[simp] theorem onPair_spares (f : PairState → PairState) : (onPair f).SparesBudget :=
  ⟨trivial, fun _ => ⟨rfl, rfl, rfl⟩⟩
@[simp] theorem onIngest_spares (f : IngestState → IngestState) : (onIngest f).SparesBudget :=
  ⟨trivial, fun _ => ⟨rfl, rfl, rfl⟩⟩
@[simp] theorem onScan_spares (f : ScanState → ScanState) : (onScan f).SparesBudget :=
  ⟨trivial, fun _ => ⟨rfl, rfl, rfl⟩⟩
@[simp] theorem onHeat_spares (f : HeatState → HeatState) : (onHeat f).SparesBudget :=
  ⟨trivial, fun _ => ⟨rfl, rfl, rfl⟩⟩
@[simp] theorem onUpdate_spares (f : UpdateState → UpdateState) : (onUpdate f).SparesBudget :=
  ⟨trivial, fun _ => ⟨rfl, rfl, rfl⟩⟩
@[simp] theorem onPort_spares (p : Nat) (f : PortState → PortState) : (onPort p f).SparesBudget :=
  ⟨trivial, fun _ => ⟨rfl, rfl, rfl⟩⟩
@[simp] theorem almanacCount_spares (h b n : Nat) : (almanacCount h b n).SparesBudget :=
  ⟨almanacCount_writes (spared_keyOf (by decide) (by decide)) h b n, almanacCount_beside (fun _ _ => ⟨rfl, rfl, rfl⟩) h b n⟩
@[simp] theorem almanac_spares (h b : Nat) : (almanac h b).SparesBudget := almanacCount_spares h b 1

/-! #### The entry to a mode -/

theorem State.masters_lt {s : State} {m : Nat} (h : m ∈ s.masters) : m < 11 := List.mem_range.mp (List.mem_filter.mp h).1

@[simp] theorem dropByMode_spares : dropByMode.SparesBudget := by
  simp (disch := omega) [dropByMode, dropCommits, endPending, endChecking, spared_keyOf]

@[simp] theorem moveMemory_spares (before after : Nat) : (moveMemory before after).SparesBudget := by
  simp (disch := omega) [moveMemory, spared_keyOf]

@[simp] theorem restDomains_spares : restDomains.SparesBudget := by
  simp (disch := omega) [restDomains, darkOutputs, setLampEn, stopLanes, spared_keyOf, ChargesKept]

@[simp] theorem wakeDomains_spares : wakeDomains.SparesBudget := by simp (disch := omega) [wakeDomains, spared_keyOf]

@[simp] theorem endTests_spares : endTests.SparesBudget := by
  simp (disch := omega) [endTests, spared_keyOf]

@[simp] theorem haltMaster_spares (m : Nat) : (haltMaster m).SparesBudget := by simp (disch := omega) [haltMaster, spared_keyOf]

@[simp] theorem driveHpds_spares : driveHpds.SparesBudget := by
  simp (disch := omega) [driveHpds, driveHpd, spared_keyOf]

@[simp] theorem computeBudgets_spares : computeBudgets.SparesBudget := by
  simp only [computeBudgets, Effect.spares_look, Effect.spares_seq, Effect.spares_each, set_spares]
  exact fun s => ⟨fun m hm => spared_keyOf (by decide) (by have := State.masters_lt hm; omega), trivial,
    fun _ => ⟨rfl, rfl, rfl⟩⟩

@[simp] theorem enterModeAt_spares (tick m cause : Nat) : (enterModeAt tick m cause).SparesBudget := by
  simp (disch := omega) [enterModeAt, spared_keyOf]

end Sys2Proof.Machine
end

section
namespace Sys2Proof.Machine

/-! #### The rest of the supervisor's work -/

@[simp] theorem changeMode_spares (m cause : Nat) : (changeMode m cause).SparesBudget := by
  simp (disch := omega) [changeMode, changeModeAt, spared_keyOf]

@[simp] theorem followThrottle_spares : followThrottle.SparesBudget := by
  simp (disch := omega) [followThrottle, enterMode, spared_keyOf]

theorem returnMode_spares : returnMode.SparesBudget := by simp [returnMode]

theorem countDeferrals_spares : countDeferrals.SparesBudget := by
  simp (disch := omega) [countDeferrals, spared_keyOf]

theorem equinoxBoundary_spares : equinoxBoundary.SparesBudget := by
  simp (disch := omega) [equinoxBoundary, abortRun, storeDac, storeContent, recordResult, clearRun, endActivity, freeToken,
    spared_keyOf]

@[simp] theorem programPage_spares (page : Nat) : (programPage page).SparesBudget := by simp [programPage, program]

@[simp] theorem endSession_spares (result dstate : Nat) : (endSession result dstate).SparesBudget := by
  simp (disch := omega) [endSession, writePointer, program, eraseFlash, spared_keyOf]

theorem sessionOn_spares : sessionOn.SparesBudget := by
  simp [sessionOn, Effect.if', programPages, finishClose]

/-! What a sender's supervisor sends. -/

@[simp] theorem onQueue_spares (q : Nat) (f : QueueContext → QueueContext) : (onQueue q f).SparesBudget := by simp [onQueue]

@[simp] theorem sendMessage_spares (ports : List Nat) (queue : Nat) (timed bcast : Bool) (lt : Nat) (bytes : List Byte)
    (ring : Option Nat) : (sendMessage ports queue timed bcast lt bytes ring).SparesBudget := by
  simp [sendMessage, queueUp]

@[simp] theorem startQueue_spares (q : Nat) : (startQueue q).SparesBudget := by
  simp (disch := omega) [startQueue, runQueue, spared_keyOf]

theorem runQueues_spares : runQueues.SparesBudget := by simp [runQueues]

theorem runLoader_spares : runLoader.SparesBudget := by simp (disch := omega) [runLoader, spared_keyOf]

@[simp] theorem refuseTarget_spares (a : Nat) : (refuseTarget a).SparesBudget := by simp [refuseTarget]
@[simp] theorem targetReady_spares (a : Nat) : (targetReady a).SparesBudget := by simp [targetReady]

/-- The answer to a request of the update broadcast. -/
theorem finishRequest_spares {r : Request} (h : r.asker = .update) (status : Nat) (value : List Byte) :
    (finishRequest r status value).SparesBudget := by
  rw [finishRequest, h]
  simp only [Effect.spares_seq, onDoors_spares, Effect.spares_look, Effect.spares_when, true_and]
  intro s _
  split <;> simp

@[simp] theorem sendRequest_spares (target op key : Nat) (value : List Byte) (stream : Option Nat) :
    (sendRequest .update target op key value stream).SparesBudget := by
  rw [sendRequest, Effect.spares_look]
  intro s
  have hfinish : ∀ tag p status, (finishRequest ⟨tag, p, .update, target, op, key, stream, s.uptime⟩ status []).SparesBudget :=
    fun _ _ _ => finishRequest_spares rfl _ _
  cases s.portTo target with
  | none => exact hfinish 0 0 Status.unreachable
  | some p =>
    cases htag : s.freeTag p with
    | none =>
      simp only [htag]
      exact hfinish 0 0 Status.busy
    | some tag =>
      simp only [htag, Effect.spares_ite, Effect.spares_seq, onDoors_spares, true_and]
      exact ⟨fun _ => hfinish 0 0 Status.length, fun _ => by simp [sendSweep, postCell, queueUp]⟩

@[simp] theorem askTargets_spares (key : Nat) : (askTargets key).SparesBudget := by simp [askTargets]
@[simp] theorem updateStage_spares (n : Nat) : (updateStage n).SparesBudget := by simp [updateStage]

@[simp] theorem endUpdate_spares (status : Nat) : (endUpdate status).SparesBudget := by
  simp (disch := omega) [endUpdate, storeContent, spared_keyOf]

@[simp] theorem sendBlocks_spares (n : Nat) : (sendBlocks n).SparesBudget := by
  induction n with
  | zero => simp [sendBlocks]
  | succ n ih => simp [sendBlocks, ih]

theorem updateOn_spares : updateOn.SparesBudget := by
  simp only [updateOn, Effect.spares_look, Effect.spares_when, Effect.spares_ite]
  have hblocks := sendBlocks_spares 2048
  generalize sendBlocks 2048 = blocks at hblocks
  refine fun s _ => ⟨fun _ => endUpdate_spares _, fun _ => ?_⟩
  split <;> simp only [Effect.spares_when, Effect.spares_seq, Effect.spares_ite, Effect.spares_each, Effect.spares_look,
    Effect.spares_nothing, updateStage_spares, askTargets_spares, refuseTarget_spares, sendRequest_spares, endUpdate_spares,
    hblocks, implies_true, and_self]

/-- What the supervisor does after the budgets, on a sender or not. -/
def superviseRest (sender : Bool) : Effect := .all [
  countDeferrals, equinoxBoundary, returnMode, sessionOn, Effect.when sender (.all [runQueues, runLoader, updateOn])]

theorem superviseRest_spares (sender : Bool) : (superviseRest sender).SparesBudget := by
  simp [superviseRest, countDeferrals_spares, equinoxBoundary_spares, returnMode_spares, sessionOn_spares, runQueues_spares,
    runLoader_spares, updateOn_spares]

end Sys2Proof.Machine
end

section
namespace Sys2Proof.Machine

/-! ### Masters at a tick boundary -/

theorem getD_setAt_self {α : Type} {v d : α} : ∀ {l : List α} {i : Nat}, i < l.length → (setAt l i v).getD i d = v
  | _ :: _, 0, _ => rfl
  | _ :: l, i + 1, h => getD_setAt_self (l := l) (i := i) (Nat.lt_of_succ_lt_succ h)

theorem getD_setAt_of_ne {α : Type} {v d : α} : ∀ {l : List α} {i j : Nat}, j ≠ i → (setAt l i v).getD j d = l.getD j d
  | [], _, _, _ => rfl
  | _ :: _, 0, 0, h => absurd rfl h
  | _ :: _, 0, _ + 1, _ => rfl
  | _ :: _, _ + 1, 0, _ => rfl
  | _ :: l, i + 1, j + 1, h => getD_setAt_of_ne (l := l) (i := i) (j := j) fun hji => h (by rw [hji])

theorem budgetFlags_settable (p : Personality) : settable p (keyOf 0x1644 1) 16 = true ∧
    settable p (keyOf 0x1644 5) 16 = true := by
  cases p <;> decide +kernel

/-- What the boundary decides of a master: frozen, held, and its overruns in a row. -/
structure MasterView where
  frozen : Bool
  held : Bool
  streak : Nat

/-- A master as it stands. -/
def State.masterView (s : State) (m : Nat) : MasterView := ⟨s.frozen m, s.flag 0x1644 5 m, s.hid.budget.streak.getD m 0⟩

/-- The overruns in a row of a master, with the tick that ends. -/
def State.streakNext (s : State) (m : Nat) : Nat :=
  if bitAt s.hid.budget.overran m then s.hid.budget.streak.getD m 0 + 1 else 0

/-- A master after the boundary. -/
def State.masterNext (s : State) (m : Nat) : MasterView :=
  let streak := s.streakNext m
  if s.frozen m = false then ⟨false, s.flag 0x1644 5 m, streak⟩
  else if bitAt s.hid.budget.release m then ⟨false, false, streak⟩
  else if s.flag 0x1644 5 m then ⟨true, true, streak⟩
  else if s.reg 0x1644 4 ≤ streak then ⟨true, true, streak⟩
  else ⟨!s.flag 0x1644 3 m, false, streak⟩

/-- What the boundary reads of the budgets, and each master leaves alone. -/
def BudgetContext (s t : State) : Prop :=
  t.hid.budget.release = s.hid.budget.release ∧ t.hid.budget.overran = s.hid.budget.overran ∧
  t.hid.budget.streak.length = s.hid.budget.streak.length ∧ t.reg 0x1644 3 = s.reg 0x1644 3 ∧ t.reg 0x1644 4 = s.reg 0x1644 4

theorem BudgetContext.trans {s t u : State} (h : BudgetContext s t) (h' : BudgetContext t u) : BudgetContext s u := by
  obtain ⟨h1, h2, h3, h4, h5⟩ := h
  obtain ⟨h1', h2', h3', h4', h5'⟩ := h'
  exact ⟨h1'.trans h1, h2'.trans h2, h3'.trans h3, h4'.trans h4, h5'.trans h5⟩

theorem State.masterNext_congr {s t : State} {m : Nat} (h : BudgetContext s t) (hview : t.masterView m = s.masterView m) :
    t.masterNext m = s.masterNext m := by
  obtain ⟨hrelease, hoverran, -, h3, h4⟩ := h
  obtain ⟨hfrozen, hheld, hstreak⟩ := MasterView.mk.inj hview
  have hnext : t.streakNext m = s.streakNext m := by rw [State.streakNext, hoverran, hstreak, State.streakNext]
  have hsuper : t.flag 0x1644 3 m = s.flag 0x1644 3 m := by rw [State.flag, h3, State.flag]
  rw [State.masterNext, hnext, hfrozen, hrelease, hheld, h4, hsuper, State.masterNext]

/-- A master's bits in 1644h.01 and .05 come to values, and no other master's bits there change. -/
def MasterMoves (m : Nat) (f h : Bool) (s t : State) : Prop := t.frozen m = f ∧ t.flag 0x1644 5 m = h ∧
  ∀ j, j ≠ m → t.frozen j = s.frozen j ∧ t.flag 0x1644 5 j = s.flag 0x1644 5 j

/-- One bit of a master in 1644h.01 or .05 is set or cleared. -/
theorem setMaster_flag {s : State} {i k m : Nat} {on : Bool} (hs : s.sound = true) (hi : i = 1 ∨ i = 5) (hm : m < 16) (j : Nat) :
    ((setBit 0x1644 i m on).run s).flag 0x1644 k j = if k = i ∧ j = m then on else s.flag 0x1644 k j := by
  obtain ⟨h1, h5⟩ := budgetFlags_settable s.pers
  have hset : settable s.pers (keyOf 0x1644 i) 16 = true := by rcases hi with rfl | rfl <;> assumption
  by_cases hk : k = i
  · subst hk
    simp only [true_and]
    exact bitAt_setBit hs hset hm j
  · rw [if_neg fun h => hk h.1]
    exact congrArg (bitAt · j) (State.entry_set_of_ne hs (by rwa [Ne, keyOf_eq_keyOf]))

theorem setFrozen_moves {s : State} {m : Nat} {on : Bool} (hs : s.sound = true) (hm : m < 16) :
    MasterMoves m on (s.flag 0x1644 5 m) s ((setBit 0x1644 1 m on).run s) :=
  ⟨(setMaster_flag hs (.inl rfl) hm m).trans (if_pos ⟨rfl, rfl⟩), (setMaster_flag hs (.inl rfl) hm m).trans (if_neg (by simp)),
    fun j hj => ⟨(setMaster_flag hs (.inl rfl) hm j).trans (if_neg (by simp [hj])),
      (setMaster_flag hs (.inl rfl) hm j).trans (if_neg (by simp))⟩⟩

theorem setHeld_moves {s : State} {m : Nat} {on : Bool} (hs : s.sound = true) (hm : m < 16) :
    MasterMoves m (s.frozen m) on s ((setBit 0x1644 5 m on).run s) :=
  ⟨(setMaster_flag hs (.inr rfl) hm m).trans (if_neg (by simp)), (setMaster_flag hs (.inr rfl) hm m).trans (if_pos ⟨rfl, rfl⟩),
    fun j hj => ⟨(setMaster_flag hs (.inr rfl) hm j).trans (if_neg (by simp)),
      (setMaster_flag hs (.inr rfl) hm j).trans (if_neg (by simp [hj]))⟩⟩

theorem MasterMoves.trans {m : Nat} {f h f' h' : Bool} {s t u : State} (hst : MasterMoves m f h s t)
    (htu : MasterMoves m f' h' t u) : MasterMoves m f' h' s u := by
  obtain ⟨-, -, hother⟩ := hst
  obtain ⟨hf, hh, hother'⟩ := htu
  exact ⟨hf, hh, fun j hj => ⟨(hother' j hj).1.trans (hother j hj).1, (hother' j hj).2.trans (hother j hj).2⟩⟩

/-- What the boundary does to the bits of a master in 1644h.01 and .05, its streak counted. -/
def moveMaster (s : State) (m : Nat) : Effect := Effect.when (s.frozen m)
  (if bitAt s.hid.budget.release m then .seq (setBit 0x1644 1 m false) (setBit 0x1644 5 m false)
    else if s.flag 0x1644 5 m then .nothing
    else if s.reg 0x1644 4 ≤ s.streakNext m then setBit 0x1644 5 m true
    else Effect.when (s.flag 0x1644 3 m) (setBit 0x1644 1 m false))

theorem masterBoundary_run (m : Nat) (s : State) : (masterBoundary m).run s =
    (moveMaster s m).run ((onBudget fun b => { b with streak := setAt b.streak m (s.streakNext m) }).run s) := by
  simp only [masterBoundary, Effect.run_look, Effect.run_seq, moveMaster, State.streakNext, decide_eq_true_eq]
  rfl

/-- Effects that write 1644h.01 and .05 only, and nothing beside the dictionary. -/
theorem moveMaster_keeps (s : State) (m : Nat) {u : State} (hu : u.sound = true) :
    ((moveMaster s m).run u).hid = u.hid ∧ ((moveMaster s m).run u).pers = u.pers ∧
    ∀ k, k ≠ 1 → k ≠ 5 → ((moveMaster s m).run u).reg 0x1644 k = u.reg 0x1644 k := by
  have hwrites : (moveMaster s m).Writes (· ∈ [keyOf 0x1644 1, keyOf 0x1644 5]) := by
    simp only [moveMaster, Effect.writes_when, Effect.writes_ite, Effect.writes_seq, setBit_writes, List.mem_cons, true_or, or_true,
      Effect.writes_nothing, implies_true, and_self]
  have hbeside : (moveMaster s m).Beside fun a b => b = a := by
    simp only [moveMaster, Effect.beside_when, Effect.beside_ite, Effect.beside_seq, setBit_beside, Effect.beside_nothing,
      implies_true, and_self]
  refine ⟨hbeside.eq, hwrites.pers, fun k h1 h5 => (hwrites.keeps ?_ hu).2⟩
  simp only [List.mem_cons, List.not_mem_nil, or_false, keyOf_eq_keyOf]
  exact not_or.mpr ⟨h1, h5⟩

/-- A master moves to what the boundary decides. -/
theorem moveMaster_moves {s u : State} {m : Nat} (hu : u.sound = true) (hm : m < 16)
    (hflags : ∀ k j, u.flag 0x1644 k j = s.flag 0x1644 k j) :
    MasterMoves m (s.masterNext m).frozen (s.masterNext m).held u ((moveMaster s m).run u) := by
  have hfrozen : u.frozen m = s.frozen m := hflags 1 m
  have hstay : MasterMoves m (s.frozen m) (s.flag 0x1644 5 m) u u := ⟨hfrozen, hflags 5 m, fun _ _ => ⟨rfl, rfl⟩⟩
  rw [State.masterNext, moveMaster]
  cases hf : s.frozen m with
  | false =>
    rw [hf] at hstay
    exact hstay
  | true =>
    rw [Effect.run_when_true, if_neg (by decide)]
    by_cases hasked : bitAt s.hid.budget.release m
    · rw [if_pos hasked, if_pos hasked, Effect.run_seq]
      have hreleased := setFrozen_moves (on := false) hu hm
      have hthen := setHeld_moves (on := false) (Effect.run_sound (setBit 0x1644 1 m false) hu) hm
      rw [hreleased.1] at hthen
      exact hreleased.trans hthen
    · rw [if_neg hasked, if_neg hasked]
      by_cases hheld : s.flag 0x1644 5 m
      · rw [if_pos hheld, if_pos hheld]
        rwa [hf, hheld] at hstay
      · rw [if_neg hheld, if_neg hheld]
        rw [Bool.not_eq_true] at hheld
        by_cases hover : s.reg 0x1644 4 ≤ s.streakNext m
        · rw [if_pos hover, if_pos hover]
          have := setHeld_moves (on := true) hu hm
          rwa [hfrozen, hf] at this
        · rw [if_neg hover, if_neg hover]
          cases hsuper : s.flag 0x1644 3 m with
          | false =>
            rw [Effect.run_when_false]
            rwa [hf, hheld] at hstay
          | true =>
            rw [Effect.run_when_true]
            have := setFrozen_moves (on := false) hu hm
            rwa [hflags, hheld] at this

/-- One master at the boundary. -/
theorem masterBoundary_facts {s : State} {m : Nat} (hs : s.sound = true) (hm : m < 11)
    (hlen : s.hid.budget.streak.length = 11) : let t := (masterBoundary m).run s
    BudgetContext s t ∧ t.masterView m = s.masterNext m ∧ (∀ j, j ≠ m → t.masterView j = s.masterView j) ∧
    t.hid = { s.hid with budget := { s.hid.budget with streak := t.hid.budget.streak } } := by
  intro t
  let u := (onBudget fun b => { b with streak := setAt b.streak m (s.streakNext m) }).run s
  have hu : u.sound = true := Effect.run_sound _ hs
  have ht : t = (moveMaster s m).run u := masterBoundary_run m s
  obtain ⟨hhid, -, hkeep⟩ := moveMaster_keeps s m hu
  obtain ⟨hfrozen, hheld, hother⟩ := moveMaster_moves (s := s) (m := m) hu (by omega) fun _ _ => rfl
  rw [← ht] at hhid hkeep hfrozen hheld hother
  have hstreak : t.hid.budget.streak = setAt s.hid.budget.streak m (s.streakNext m) := by
    rw [hhid]
    rfl
  have hnext : (s.masterNext m).streak = s.streakNext m := by
    rw [State.masterNext]
    split_ifs <;> rfl
  refine ⟨⟨by rw [hhid]; rfl, by rw [hhid]; rfl, by rw [hstreak, length_setAt], hkeep 3 (by decide) (by decide),
    hkeep 4 (by decide) (by decide)⟩, ?_, fun j hj => ?_, ?_⟩
  · rw [State.masterView, hfrozen, hheld, hstreak, getD_setAt_self (by rwa [hlen]), ← hnext]
  · obtain ⟨hfj, hhj⟩ := hother j hj
    rw [State.masterView, hfj, hhj, hstreak, getD_setAt_of_ne hj]
    rfl
  · rw [hhid]
    rfl

/-- The masters at the boundary, one after the other. -/
theorem masterBoundaries {ls : List Nat} (hnodup : ls.Nodup) (hls : ∀ m ∈ ls, m < 11) : ∀ {s : State}, s.sound = true →
    s.hid.budget.streak.length = 11 → let t := (Effect.each masterBoundary ls).run s
    BudgetContext s t ∧ (∀ m ∈ ls, t.masterView m = s.masterNext m) ∧ (∀ m, m ∉ ls → t.masterView m = s.masterView m) ∧
    t.hid = { s.hid with budget := { s.hid.budget with streak := t.hid.budget.streak } } := by
  induction ls with
  | nil => exact fun _ _ => ⟨⟨rfl, rfl, rfl, rfl, rfl⟩, fun _ h => absurd h List.not_mem_nil, fun _ _ => rfl, rfl⟩
  | cons l ls ih =>
    intro s hs hlen
    obtain ⟨hl, hnodup⟩ := List.nodup_cons.mp hnodup
    obtain ⟨hcontext, hthis, hothers, hhid⟩ := masterBoundary_facts hs (hls l List.mem_cons_self) hlen
    have hu : ((masterBoundary l).run s).sound = true := Effect.run_sound _ hs
    rw [Effect.run_each_cons]
    generalize (masterBoundary l).run s = u at *
    have hulen : u.hid.budget.streak.length = 11 := hcontext.2.2.1.trans hlen
    obtain ⟨hcontext', hthis', hothers', hhid'⟩ := ih hnodup (fun m hm => hls m (List.mem_cons_of_mem l hm)) hu hulen
    refine ⟨hcontext.trans hcontext', fun m hm => ?_, fun m hm => ?_, ?_⟩
    · rcases List.mem_cons.mp hm with rfl | hm
      · rw [hothers' m hl, hthis]
      · have hml : m ≠ l := fun h => hl (h ▸ hm)
        rw [hthis' m hm, State.masterNext_congr hcontext (hothers m hml)]
    · obtain ⟨hml, hm⟩ := not_or.mp (List.mem_cons.not.mp hm)
      rw [hothers' m hm, hothers m hml]
    · rw [hhid', hhid]

end Sys2Proof.Machine
end

section
namespace Sys2Proof.Machine

/-! ### The release of frozen masters -/

theorem bitAt_or (a b i : Nat) : bitAt (a ||| b) i = (bitAt a i || bitAt b i) := by
  simp only [bitAt_eq_testBit, Nat.testBit_or]

theorem bitAt_and (a b i : Nat) : bitAt (a &&& b) i = (bitAt a i && bitAt b i) := by
  simp only [bitAt_eq_testBit, Nat.testBit_and]

/-- BUDGET_RELEASE asks for the release of the masters of its mask that are frozen. -/
theorem budgetRelease_acts {s : State} {d : Door} {mask : Nat} (hs : s.sound = true) (hd : s.hears d = true)
    (hserved : s.served (keyOf 0x1644 2) = true) (hmask : mask < 2 ^ 16) :
    Acts (.budgetRelease d mask) d Status.ok [] s fun t =>
      t.hid = { s.hid with almanac := t.hid.almanac, budget := { s.hid.budget with
        release := s.hid.budget.release ||| (mask &&& s.reg 0x1644 1) } } ∧
      ∀ m, bitAt mask m = true → s.frozen m = true → bitAt t.hid.budget.release m = true := by
  have htakes : ∀ p, takesAll p (keyOf 0x1644 2) 2 = true := fun p => by cases p <;> decide +kernel
  have hcmd : s.command (mailboxGo 8) d (keyOf 0x1644 2) mask = some (Status.ok, askRelease mask) := rfl
  refine Acts.of (valueAt_completes hs hd hserved rfl (htakes s.pers) hmask hcmd) hs (by simp [askRelease]) (by simp [askRelease])
    fun t _ hbeside => ?_
  have hrun : ((askRelease mask).run s).hid = { s.hid with budget := { s.hid.budget with
      release := s.hid.budget.release ||| (mask &&& s.reg 0x1644 1) } } := rfl
  rw [SameBeside, hrun] at hbeside
  refine ⟨hbeside, fun m hm hfrozen => ?_⟩
  have hfrozen' : bitAt (s.reg 0x1644 1) m = true := hfrozen
  rw [hbeside]
  simp only [bitAt_or, bitAt_and, hm, hfrozen', Bool.and_self, Bool.or_true]

/-- The budgets start over for a tick. -/
def budgetsRestart : Effect := .seq (onBudget fun b => { b with
    bytes := List.replicate 11 0, cycles := List.replicate 11 0, overran := 0, release := 0 })
  (Effect.if' (fun s => s.hid.budget.compute) computeBudgets)

theorem supervise_run {s : State} (hcore : s.up .core = true) : supervise.run s =
    (superviseRest s.isSender).run (budgetsRestart.run ((Effect.each masterBoundary s.masters).run s)) := by
  simp only [supervise, Effect.run_look, hcore, Effect.run_when_true, Effect.run_all_cons, Effect.run_all_nil, budgetBoundary,
    superviseRest, budgetsRestart, Effect.run_seq]

theorem onBudget_entry (f : BudgetState → BudgetState) (s : State) (q : Key) : ((onBudget f).run s).entry q = s.entry q := rfl

/-- The charges after a boundary, and what stays of the masters as the boundary has left them. -/
theorem budgetsRestart_facts {s : State} (hs : s.sound = true) (sender : Bool) :
    let t := (superviseRest sender).run (budgetsRestart.run s)
    t.hid.budget.bytes = List.replicate 11 0 ∧ t.hid.budget.cycles = List.replicate 11 0 ∧
    ∀ m, t.masterView m = s.masterView m := by
  let e := Effect.seq (Effect.if' (fun s => s.hid.budget.compute) computeBudgets) (superviseRest sender)
  have hspares : e.SparesBudget := by simp [e, Effect.if', superviseRest_spares]
  let u := (onBudget fun b => { b with
    bytes := List.replicate 11 0, cycles := List.replicate 11 0, overran := 0, release := 0 }).run s
  have hu : u.sound = true := Effect.run_sound _ hs
  have hrun : (superviseRest sender).run (budgetsRestart.run s) = e.run u := rfl
  have hstreak : u.hid.budget.streak = s.hid.budget.streak := rfl
  have hentry : ∀ q, u.entry q = s.entry q := onBudget_entry _ s
  rw [hrun]
  obtain ⟨hbytes, hcycles, hkept⟩ := hspares.charges (s := u)
  have hflag : ∀ sub, 1 ≤ sub ∧ sub ≤ 5 → (e.run u).reg 0x1644 sub = s.reg 0x1644 sub := fun sub hsub =>
    (hspares.entry hu hsub).trans (hentry _)
  refine ⟨hbytes, hcycles, fun m => ?_⟩
  simp only [State.masterView, State.frozen, State.flag, hflag 1 (by decide), hflag 5 (by decide), hkept, hstreak]

theorem length_streak {s : State} (h : s.shaped = true) : s.hid.budget.streak.length = 11 := by
  simp only [State.shaped, Bool.and_eq_true, beq_iff_eq] at h
  tauto

/-- What comes before the supervisor leaves of the masters, and of what their boundary reads. -/
theorem boundaryBegins_facts {s : State} (hs : s.sound = true) : let a := (boundaryBegins s).run s
    a.sound = true ∧ BudgetContext s a ∧ (∀ m, a.masterView m = s.masterView m) ∧ a.up .core = s.up .core ∧
    a.masters = s.masters := by
  obtain ⟨hwrites, hbeside⟩ := boundaryBegins_begins s
  have hsound := Effect.run_sound (boundaryBegins s) hs
  have hbudget := hbeside.budget (s := s)
  have hkeep : ∀ i sub, keyOf i sub ∉ boundaryEntries → ((boundaryBegins s).run s).reg i sub = s.reg i sub := fun _ _ hq =>
    (hwrites.keeps hq hs).2
  have hpers := hwrites.pers (s := s)
  generalize (boundaryBegins s).run s = a at *
  have h1 := hkeep 0x1644 1 (by decide)
  have h3 := hkeep 0x1644 3 (by decide)
  have h4 := hkeep 0x1644 4 (by decide)
  have h5 := hkeep 0x1644 5 (by decide)
  have hcore := hkeep 0x1100 6 (by decide)
  refine ⟨hsound, ⟨by rw [hbudget], by rw [hbudget], by rw [hbudget], h3, h4⟩, fun m => ?_, ?_, ?_⟩
  · simp only [State.masterView, State.frozen, State.flag, h1, h5, hbudget]
  · simp only [State.up, State.flag, hcore]
  · rw [State.masters, hpers, State.masters]

/-- A master at the boundary of a tick. -/
theorem tickBoundary_master {s : State} {m : Nat} (hs : s.sound = true) (hlink : s.up .link = true) (hcore : s.up .core = true)
    (hstep : s.stepped = true) (hm : m ∈ s.masters) (hshape : s.shaped = true) : Completes .tickBoundary s fun t =>
      t.hid.budget.bytes.getD m 0 = 0 ∧ t.hid.budget.cycles.getD m 0 = 0 ∧ t.masterView m = s.masterNext m := by
  have hzero : (List.replicate 11 0).getD m 0 = 0 := List.getD_replicate _ (State.masters_lt hm)
  have hexec := tickBoundary_run hlink hstep
  obtain ⟨ha, hcontext, hview, hacore, hmasters⟩ := boundaryBegins_facts hs
  generalize (boundaryBegins s).run s = a at *
  rw [supervise_run (hacore.trans hcore)] at hexec
  obtain ⟨-, hall, -, -⟩ := masterBoundaries (ls := a.masters) (List.nodup_range.filter _) (fun _ h => State.masters_lt h) ha
    (hcontext.2.2.1.trans (length_streak hshape))
  obtain ⟨hbytes, hcycles, hviews⟩ := budgetsRestart_facts (Effect.run_sound (Effect.each masterBoundary a.masters) ha) a.isSender
  refine ⟨_, hexec, ?_, ?_, ?_⟩
  · rw [hbytes, hzero]
  · rw [hcycles, hzero]
  · rw [hviews, hall m (hmasters ▸ hm), State.masterNext_congr hcontext (hview m)]

/-- Settles O26: what the boundary decides of a master is a function of what it reads of that master, and the masters come
one after the other without touching each other's bits; nothing else at a boundary touches them. -/
theorem frozenMastersAreReleased : Obligations.FrozenMastersAreReleased := by
  unfold Obligations.FrozenMastersAreReleased
  refine ⟨fun s d mask hs hd hserved hmask => budgetRelease_acts hs hd hserved hmask,
    fun s m hs hlink hcore hstep hm hshape => ?_⟩
  obtain ⟨t, hexec, hbytes, hcycles, hview⟩ := tickBoundary_master hs hlink hcore hstep hm hshape
  have hfrozen : t.frozen m = (s.masterNext m).frozen := congrArg MasterView.frozen hview
  have hheld : t.flag 0x1644 5 m = (s.masterNext m).held := congrArg MasterView.held hview
  have hstreak : t.hid.budget.streak.getD m 0 = s.streakNext m := by
    refine (congrArg MasterView.streak hview).trans ?_
    rw [State.masterNext]
    split_ifs <;> rfl
  rw [State.masterNext] at hfrozen hheld
  refine ⟨t, hexec, hbytes, hcycles, hstreak, fun hf => ?_, fun hf hasked => ?_, fun hf hasked hh => ?_,
    fun hf hasked hh => ⟨fun hover => ?_, fun hover => ?_⟩⟩
  · rw [hfrozen, if_pos hf]
  · rw [hfrozen, hheld, if_neg (by simp [hf]), if_pos hasked]
    exact ⟨rfl, rfl⟩
  · rw [hfrozen, hheld, if_neg (by simp [hf]), if_neg (by simp [hasked]), if_pos hh]
    exact ⟨rfl, rfl⟩
  · have hover : s.reg 0x1644 4 ≤ s.streakNext m := hover
    rw [hfrozen, hheld, if_neg (by simp [hf]), if_neg (by simp [hasked]), if_neg (by simp [hh]), if_pos hover]
    exact ⟨rfl, rfl⟩
  · have hover : ¬ s.reg 0x1644 4 ≤ s.streakNext m := Nat.not_le.mpr hover
    rw [hfrozen, hheld, if_neg (by simp [hf]), if_neg (by simp [hasked]), if_neg (by simp [hh]), if_neg hover]
    exact ⟨rfl, rfl⟩

end Sys2Proof.Machine
end

section
namespace Sys2Proof.Machine

/-! ### The compositor -/

/-! #### Lists by key -/

theorem lookupKey_append {β : Type} (a b : List (Nat × β)) (q : Nat) :
    lookupKey (a ++ b) q = (lookupKey a q).orElse fun _ => lookupKey b q := by
  induction a with
  | nil => rfl
  | cons x a ih =>
    rw [List.cons_append, lookupKey, lookupKey]
    split_ifs
    · rfl
    · exact ih

theorem lookupKey_filter_key {β : Type} (p : Nat → Bool) (q : Nat) (l : List (Nat × β)) :
    lookupKey (l.filter fun x => p x.1) q = if p q then lookupKey l q else none := by
  induction l with
  | nil => simp [lookupKey]
  | cons x l ih =>
    by_cases hxq : x.1 = q
    · subst hxq
      cases hp : p x.1 <;> simp [hp, lookupKey, ih]
    · cases hp : p x.1 <;> simp [hp, lookupKey, ih, hxq]

theorem lookupKey_filterMap {β : Type} (g : Nat → Option β) (q : Nat) (ks : List Nat) :
    lookupKey (ks.filterMap fun k => (g k).map fun u => (k, u)) q = if q ∈ ks then g q else none := by
  induction ks with
  | nil => rfl
  | cons k ks ih =>
    rw [List.filterMap_cons]
    by_cases hkq : k = q
    · subst hkq
      cases hg : g k with
      | none =>
        simp only [Option.map_none, ih, hg, ite_self]
      | some u => simp [lookupKey]
    · cases hg : g k with
      | none => simp [ih, List.mem_cons, Ne.symm hkq]
      | some u => simp [lookupKey, hkq, ih, List.mem_cons, Ne.symm hkq]

/-! #### The bits of layers -/

theorem bitAt_layerBits (x : Nat) (keys : List Nat) : bitAt (layerBits keys) x = keys.any fun k => k / 8 == x := by
  have hfold : ∀ (l : List Nat) (v : Nat), bitAt (l.foldl (fun m k => withBit m (k / 8)) v) x =
      (bitAt v x || l.any fun k => k / 8 == x) := by
    intro l
    induction l with
    | nil => simp
    | cons k l ih =>
      intro v
      rw [List.foldl_cons, ih, bitAt_withBit, List.any_cons, Bool.or_assoc]
      rfl
  rw [layerBits, hfold]
  simp [bitAt]

/-! #### COMPOSE_UNDERRUN, and the commands of the capture ring -/

theorem compose_settable : settable .tile (keyOf 0x4100 6) 8 = true ∧ settable .tile (keyOf 0x4100 7) 8 = true ∧
    settable .tile (keyOf 0x4100 0x0A) 8 = true ∧ settable .tile (keyOf 0x5000 0x0A) 8 = true ∧
    settable .tile (keyOf 0x4180 7) 8 = true ∧ settable .tile (keyOf 0x4180 8) 32 = true ∧
    settable .tile (keyOf 0x4180 9) 32 = true ∧ settable .tile (keyOf 0x4180 0x0B) 8 = true ∧
    settable .tile (keyOf 0x4180 4) 8 = true ∧ settable .tile (keyOf 0x4200 4) 32 = true ∧
    settable .tile (keyOf 0x4200 5) 32 = true ∧ settable .tile (keyOf 0x1644 0x0B) 32 = true := by decide +kernel

theorem captureRing_commands : isCommand .tile (keyOf 0x4180 0x0A) 1 = true ∧ isCommand .tile (keyOf 0x4180 0x0A) 2 = true := by
  decide +kernel

theorem captureRingEmpty_acts {s : State} {d : Door} (hs : s.sound = true) (htile : s.isTile = true)
    (hsv : s.servesAt d = true) : Acts (.captureRingEmpty d) d Status.ok [keyOf 0x4180 7] s fun t =>
      t.entry (keyOf 0x4180 7) = 0 ∧
      t.hid = { s.hid with almanac := t.hid.almanac, compose := { s.hid.compose with captureFull := 0 } } := by
  have hp := State.isTile_iff.mp htile
  have hdone := commandAt_completes (c := .captureRingEmpty d) (st := Status.ok) (e := emptyRing) hs hsv rfl
    (hp ▸ captureRing_commands.1) (by decide) rfl
  have hset : settable s.pers (keyOf 0x4180 7) 8 = true := hp ▸ compose_settable.2.2.2.2.1
  refine Acts.of hdone hs (by simp [emptyRing]) (by simp [emptyRing]) fun t hkeep hbeside => ⟨?_, hbeside⟩
  rw [hkeep _ (by decide)]
  exact set_entry hs hset

theorem captureSlotRelease_acts {s : State} {d : Door} (hs : s.sound = true) (htile : s.isTile = true)
    (hsv : s.servesAt d = true) : Acts (.captureSlotRelease d) d Status.ok [keyOf 0x4180 0x0B] s fun t =>
      t.entry (keyOf 0x4180 0x0B) = 0xFF ∧ SameBeside s t := by
  have hp := State.isTile_iff.mp htile
  have hdone := commandAt_completes (c := .captureSlotRelease d) (st := Status.ok) (e := releaseSlot) hs hsv rfl
    (hp ▸ captureRing_commands.2) (by decide) rfl
  have hset : settable s.pers (keyOf 0x4180 0x0B) 8 = true := hp ▸ compose_settable.2.2.2.2.2.2.2.1
  refine Acts.of hdone hs (by simp [releaseSlot]) (by simp [releaseSlot]) fun t hkeep hbeside => ⟨?_, hbeside⟩
  rw [hkeep _ (by decide)]
  exact (set_entry hs hset).trans (by decide)

theorem composeUnderrun_completes {s : State} {v : Nat} (hs : s.sound = true) (htile : s.isTile = true)
    (hup : s.up .pipe = true) (hv : v ∈ s.hid.compose.todo) : Completes (.composeUnderrun v) s fun t => t.hid = { s.hid with
        almanac := t.hid.almanac
        compose := { s.hid.compose with todo := s.hid.compose.todo.filter (· != v) }
        counts := { s.hid.counts with underruns := s.hid.counts.underruns + 1 } } ∧
      t.entry (keyOf 0x1644 0x0B) = satAdd 32 (s.entry (keyOf 0x1644 0x0B)) 1 ∧
      ((∀ w ∈ s.hid.compose.todo, w = v) → t.entry (keyOf 0x4100 0x0A) = 2) ∧ t.outputs = s.outputs ∧
      Only [keyOf 0x1644 0x0B, keyOf 0x4100 0x0A, keyOf 0x1400 8] s t := by
  have hp := State.isTile_iff.mp htile
  let a := (onCompose fun x => { x with todo := x.todo.filter (· != v) }).run s
  let b := (count 32 0x1644 0x0B).run a
  let c := (almanac 1 1).run b
  let d := (onCounts fun t => { t with underruns := t.underruns + 1 }).run c
  let last : Effect := Effect.when d.hid.compose.todo.isEmpty (set 0x4100 0x0A 2)
  let t := last.run d
  have hexec : exec (.composeUnderrun v) s = .next t := by
    have hmem : s.hid.compose.todo.contains v = true := List.contains_iff_mem.mpr hv
    show execComposeUnderrun v s = _
    simp only [execComposeUnderrun, perform, hup, hmem, Bool.and_self, Effect.run_when_true, abandonView, Effect.run_all_cons,
      Effect.run_all_nil, Effect.run_look, t, last, d, c, b, a]
  have ha : a.sound = true := Effect.run_sound _ hs
  have hb : b.sound = true := Effect.run_sound _ ha
  have hd : d.sound = true := Effect.run_sound _ (Effect.run_sound _ hb)
  have hch : c.hid = { b.hid with almanac := c.hid.almanac } := SameBeside.of (almanac_beside (fun _ _ => rfl) 1 1)
  have hlast : last.Beside fun a b => b = a := by simp [last]
  have hth : t.hid = d.hid := hlast.eq
  have htodo : d.hid.compose.todo = s.hid.compose.todo.filter (· != v) := by
    have : d.hid.compose = c.hid.compose := rfl
    rw [this, hch]
    rfl
  have hdp : d.pers = .tile := ((almanac_writes (K := fun _ => True) trivial 1 1).pers (s := b)).trans hp
  have hdkeep : ∀ q, q ≠ keyOf 0x1400 8 → d.entry q = b.entry q := fun q hq => almanac_keeps (h := 1) (b := 1) hb hq
  have htkeep : ∀ q, q ≠ keyOf 0x4100 0x0A → t.entry q = d.entry q := fun q hq =>
    (Effect.Writes.keeps (K := (· = keyOf 0x4100 0x0A)) hq (by simp [last]) hd).2
  have hlast' : last.NoStore := by simp [last]
  refine ⟨t, hexec, ?_, ?_, fun hall => ?_, ?_, ⟨?_, fun q hq => ?_⟩, fun x => ?_⟩
  · obtain ⟨x, hx⟩ : ∃ x, c.hid = { b.hid with almanac := x } := ⟨_, hch⟩
    have hdh : d.hid = { c.hid with counts := { c.hid.counts with underruns := c.hid.counts.underruns + 1 } } := rfl
    rw [hth, hdh, hx]
    rfl
  · rw [htkeep _ (by decide), hdkeep _ (by decide)]
    exact count_entry ha (hp ▸ compose_settable.2.2.2.2.2.2.2.2.2.2.2)
  · have hempty : d.hid.compose.todo.isEmpty = true := by
      rw [htodo]
      simpa using hall
    have ht : t = (set 0x4100 0x0A 2).run d := by simp only [t, last, hempty, Effect.run_when_true]
    rw [ht]
    exact (set_entry hd (hdp ▸ compose_settable.2.2.1)).trans (by decide)
  · have hsilent : last.Silent := by simp [last]
    exact hsilent.outputs.trans (almanac_silent 1 1).outputs
  · exact (Effect.Writes.pers (K := fun _ => True) (show last.Writes _ by simp [last])).trans (hdp.trans hp.symm)
  · simp only [List.mem_cons, List.not_mem_nil, or_false, not_or] at hq
    obtain ⟨hq1, hq2, hq3⟩ := hq
    rw [htkeep q hq2, hdkeep q hq3]
    exact State.entry_set_of_ne ha hq1
  · rw [State.byte, hlast'.mem]
    show memGet c.mem x = _
    rw [(almanac_noStore 1 1).mem]
    rfl

end Sys2Proof.Machine
end

section
namespace Sys2Proof.Machine

/-! #### Panel temperatures and derating at the deadline -/

/-- The panel temperatures come from the diodes, the bits of the broken ones, and the one that stands in for them. -/
theorem State.panelTemp_congr {s t : State} (hdiodes : t.hid.scan.diodes = s.hid.scan.diodes)
    (hbroken : ∀ i < 4, t.diodeBroken i = s.diodeBroken i) (hrest : t.entry (keyOf 0x5000 6) = s.entry (keyOf 0x5000 6)) :
    (List.range 4).map t.panelTemp = (List.range 4).map s.panelTemp := by
  have hgood : ((List.range 4).filter fun i => !t.diodeBroken i) = (List.range 4).filter fun i => !s.diodeBroken i :=
    List.filter_congr fun i hi => by rw [hbroken i (List.mem_range.mp hi)]
  have hint : t.int 16 0x5000 6 = s.int 16 0x5000 6 := congrArg (toSigned 16) hrest
  refine List.map_congr_left fun d hd => ?_
  rw [State.panelTemp, State.panelTemp, hbroken d (List.mem_range.mp hd), hgood, hint, hdiodes]

/-- What the deadline of tick n leaves of the scan: the temperatures, and the factors of the tick. -/
theorem derateTick_facts {s : State} (hs : s.sound = true) (hp : s.pers = .tile) (n : Nat) :
    let t := (derateTick n).run s
    t.hid = { s.hid with scan := { s.hid.scan with
      tds := (List.range 4).map s.panelTemp
      tdsBefore := s.hid.scan.tds
      tdTick := n
      targets := t.hid.scan.targets
      derateNow := t.hid.scan.derateNow
      derateBefore := s.hid.scan.derateNow } } ∧
    t.outputs = s.outputs ∧ t.mem = s.mem ∧ t.pers = s.pers ∧ (∀ q, q ≠ keyOf 0x5000 0x0A → t.entry q = s.entry q) ∧
    ∀ i < 4, t.diodeBroken i = s.diodeBroken i := by
  intro t
  let targets := ((List.range 4).map s.panelTemp).map (s.configAt n).derateTarget
  let now' := List.zipWith (fun f t => approach f t (s.configAt n).derateStep) s.hid.scan.derateNow targets
  let u := (onScan fun x => { x with
      tds := (List.range 4).map s.panelTemp, tdsBefore := x.tds, tdTick := n, targets := targets, derateNow := now',
      derateBefore := x.derateNow }).run s
  let marks := Effect.each (fun r => setBit 0x5000 0x0A (4 + r) (now'.getD r 0 != targets.getD r 0)) (List.range 4)
  have hu : u.sound = true := Effect.run_sound _ hs
  have ht : t = marks.run u := rfl
  have hbeside : marks.Beside fun a b => b = a := by simp [marks]
  have hwrites : marks.Writes (· = keyOf 0x5000 0x0A) := by simp [marks]
  have hstore : marks.NoStore := by simp [marks]
  have hsilent : marks.Silent := by simp [marks]
  have hth : t.hid = u.hid := ht ▸ hbeside.eq
  refine ⟨?_, ht ▸ hsilent.outputs, ht ▸ hstore.mem, ht ▸ hwrites.pers, fun q hq =>
    ht ▸ (Effect.Writes.keeps (K := (· = keyOf 0x5000 0x0A)) hq hwrites hu).2, fun i hi => ?_⟩
  · rw [hth]
    rfl
  · have hkept := Effect.run_each_keeps
      (P := fun w => w.sound = true ∧ w.pers = .tile ∧ w.diodeBroken i = s.diodeBroken i)
      (f := fun r => setBit 0x5000 0x0A (4 + r) (now'.getD r 0 != targets.getD r 0)) (l := List.range 4) (s := u)
      (fun r hr w hw => ?_) ⟨hu, hp, rfl⟩
    · exact hkept.2.2
    · obtain ⟨hwsound, hwp, hwi⟩ := hw
      have hr := List.mem_range.mp hr
      refine ⟨Effect.run_sound _ hwsound, hwp, ?_⟩
      rw [← hwi]
      exact (bitAt_setBit hwsound (hwp ▸ compose_settable.2.2.2.1) (by omega) i).trans (if_neg (by omega))

/-! #### What the compositor chooses -/

/-- The window taken for tick n under a key. -/
def State.windowFor (s : State) (n key : Nat) : Option (Nat × Surface) :=
  s.hid.compose.fresh.find? fun f => f.1 == key && f.2.tick == n

/-- A window is stale or lost, and not clear. -/
def staleWindow (f : Nat × Surface) : Bool := (descStale f.2.descriptor || descLost f.2.descriptor) && !descClear f.2.descriptor

/-- What a key showed before, if its banks are held. -/
def State.heldFor (s c : State) (key : Nat) : Option Surface :=
  if s.banksReleased c key then none else lookupKey s.hid.compose.current key

/-- What a key shows in tick n. -/
def State.shownFor (s c : State) (n key : Nat) : Option Surface :=
  match s.windowFor n key with
  | some f => some f.2
  | none => (s.heldFor c key).filter (c.repeats (key / 8))

theorem chooseSurface_eq (s c : State) (n key : Nat) : s.chooseSurface c n key =
    ⟨key, s.heldFor c key, s.shownFor c n key, (s.windowFor n key).isNone,
      (s.windowFor n key).isNone || (s.windowFor n key).any staleWindow⟩ := by
  rw [State.chooseSurface, State.shownFor]
  cases h : s.windowFor n key with
  | none =>
    have h' : s.hid.compose.fresh.find? (fun f => f.1 == key && f.2.tick == n) = none := h
    simp only [h']
    rfl
  | some f =>
    have h' : s.hid.compose.fresh.find? (fun f => f.1 == key && f.2.tick == n) = some f := h
    simp only [h']
    rfl

/-- The keys that are late. -/
def State.lateKeys (s c : State) (n : Nat) : List Nat := c.composedKeys.filter fun key => (s.windowFor n key).isNone

/-- The keys that show a stale or lost window. -/
def State.markedKeys (s c : State) (n : Nat) : List Nat :=
  c.composedKeys.filter fun key => (s.windowFor n key).any staleWindow

/-- The choices for the keys of a configuration. -/
def State.choices (s c : State) (n : Nat) : List Chosen := c.composedKeys.map (s.chooseSurface c n)

theorem choices_late (s c : State) (n : Nat) : ((s.choices c n).filter Chosen.late).map Chosen.key = s.lateKeys c n := by
  simp only [State.choices, List.filter_map, List.map_map, State.lateKeys, Function.comp_def, chooseSurface_eq, List.map_id']

theorem choices_marked (s c : State) (n : Nat) :
    ((s.choices c n).filter fun q => q.stale && !q.late).map Chosen.key = s.markedKeys c n := by
  simp only [State.choices, List.filter_map, List.map_map, State.markedKeys, Function.comp_def, chooseSurface_eq, List.map_id']
  refine List.filter_congr fun key _ => ?_
  cases s.windowFor n key <;> simp

theorem choices_stale (s c : State) (n x : Nat) : (((s.choices c n).filter Chosen.stale).map Chosen.key).any (fun k => k / 8 == x) =
    ((s.lateKeys c n).any (fun k => k / 8 == x) || (s.markedKeys c n).any fun k => k / 8 == x) := by
  simp only [State.choices, List.filter_map, List.map_map, State.lateKeys, State.markedKeys, Function.comp_def, chooseSurface_eq,
    List.map_id', List.any_filter]
  rw [Bool.eq_iff_iff]
  simp only [List.any_eq_true, Bool.and_eq_true, Bool.or_eq_true]
  constructor
  · rintro ⟨key, hkey, h | h, hx⟩
    · exact .inl ⟨key, hkey, h, hx⟩
    · exact .inr ⟨key, hkey, h, hx⟩
  · rintro (⟨key, hkey, h, hx⟩ | ⟨key, hkey, h, hx⟩)
    · exact ⟨key, hkey, .inl h, hx⟩
    · exact ⟨key, hkey, .inr h, hx⟩

/-- What the keys show, once the choices stand in place of what they showed. -/
theorem lookup_choices (s c : State) (n : Nat) (l : List (Nat × Surface)) (key : Nat) :
    lookupKey ((l.filter fun q => !((s.choices c n).any fun d => d.key == q.1)) ++
      (s.choices c n).filterMap fun q => q.shown.map fun u => (q.key, u)) key =
      if key ∈ c.composedKeys then s.shownFor c n key else lookupKey l key := by
  have hany : ∀ k, ((s.choices c n).any fun d => d.key == k) = decide (k ∈ c.composedKeys) := fun k => by
    rw [Bool.eq_iff_iff]
    simp [State.choices, chooseSurface_eq]
  have hnew : ((s.choices c n).filterMap fun q => q.shown.map fun u => (q.key, u)) =
      c.composedKeys.filterMap fun k => (s.shownFor c n k).map fun u => (k, u) := by
    simp only [State.choices, List.filterMap_map, Function.comp_def, chooseSurface_eq]
  simp only [hany, hnew]
  rw [lookupKey_append, lookupKey_filter_key (fun k => !decide (k ∈ c.composedKeys)), lookupKey_filterMap]
  by_cases h : key ∈ c.composedKeys
  · simp [h]
  · simp only [h, decide_false, Bool.not_false, if_true, if_false]
    cases lookupKey l key <;> rfl

/-! #### The counts of a tick's layers -/

theorem layer_settable : ∀ x < 8, settable .tile (keyOf (0x4110 + x) 0x11) 64 = true := by decide +kernel

/-- A layer's counts with a tick that is late or marked. -/
def shownCount (late marked : Bool) (v : Nat) : Nat :=
  let w := if late then withField v 63 48 (satAdd 16 (field v 63 48) 1) else v
  if marked then withField w 47 32 (satAdd 16 (field w 47 32) 1) else w

theorem shownCount_fields (late marked : Bool) (v : Nat) :
    field (shownCount late marked v) 63 48 = satAdd 16 (field v 63 48) (if late then 1 else 0) ∧
    field (shownCount late marked v) 47 32 = satAdd 16 (field v 47 32) (if marked then 1 else 0) := by
  have hzero : ∀ u hi lo, hi - lo + 1 = 16 → satAdd 16 (field u hi lo) 0 = field u hi lo := fun u hi lo h =>
    satAdd_zero (h ▸ field_lt u hi lo)
  have hself : ∀ u hi lo, lo ≤ hi → hi - lo + 1 = 16 → ∀ x, field (withField u hi lo (satAdd 16 x 1)) hi lo = satAdd 16 x 1 :=
    fun u hi lo hle hw x => field_withField_lt u hle (congrArg (2 ^ ·) hw) (satAdd_lt 16 x 1)
  cases late <;> cases marked <;> simp only [shownCount, Bool.false_eq_true, if_false, if_true]
  · exact ⟨(hzero v 63 48 rfl).symm, (hzero v 47 32 rfl).symm⟩
  · rw [field_withField_above _ _ (by decide) (by decide), hself _ _ _ (by decide) rfl, hzero _ _ _ rfl]
    exact ⟨rfl, rfl⟩
  · rw [hself _ _ _ (by decide) rfl, field_withField_below _ _ (by decide) (by decide) (by decide), hzero _ _ _ rfl]
    exact ⟨rfl, rfl⟩
  · rw [field_withField_above _ _ (by decide) (by decide), hself _ _ _ (by decide) rfl, hself _ _ _ (by decide) rfl,
      field_withField_below _ _ (by decide) (by decide) (by decide)]
    exact ⟨rfl, rfl⟩

/-- The counts of one layer. -/
def countLayer (late marked x : Nat) : Effect := .seq
  (Effect.when (bitAt late x) (.seq (countField (layerIndex x) 0x11 63 48) (almanac 1 2)))
  (Effect.when (bitAt marked x) (.seq (countField (layerIndex x) 0x11 47 32) (almanac 1 3)))

theorem countLayer_writes (late marked x : Nat) :
    (countLayer late marked x).Writes (· ∈ [keyOf (0x4110 + x) 0x11, keyOf 0x1400 8]) := by
  simp [countLayer, layerIndex, almanac_writes]

theorem countLayer_value {s : State} {late marked x : Nat} (hs : s.sound = true) (hp : s.pers = .tile) (hx : x < 8) :
    ((countLayer late marked x).run s).entry (keyOf (0x4110 + x) 0x11) =
      shownCount (bitAt late x) (bitAt marked x) (s.entry (keyOf (0x4110 + x) 0x11)) := by
  have hne : keyOf (0x4110 + x) 0x11 ≠ keyOf 0x1400 8 := by interval_cases x <;> decide
  have hcount : ∀ {u : State} (hi lo b : Nat), u.sound = true → u.pers = .tile → lo ≤ hi → hi < 64 →
      ((Effect.seq (countField (layerIndex x) 0x11 hi lo) (almanac 1 b)).run u).entry (keyOf (0x4110 + x) 0x11) =
        withField (u.entry (keyOf (0x4110 + x) 0x11)) hi lo (satAdd (hi - lo + 1) (field (u.entry (keyOf (0x4110 + x) 0x11)) hi lo) 1) :=
    fun hi lo b hu hup hle hhi => by
      rw [Effect.run_seq, almanac_keeps (Effect.run_sound _ hu) hne]
      exact addField_entry hu (hup ▸ layer_settable x hx) hle hhi
  let a := (Effect.when (bitAt late x) (.seq (countField (layerIndex x) 0x11 63 48) (almanac 1 2))).run s
  have ha : a.sound = true := Effect.run_sound _ hs
  have hap : a.pers = .tile := (Effect.Writes.pers (K := fun _ => True) (by simp [almanac_writes])).trans hp
  rw [countLayer, Effect.run_seq, shownCount]
  have hfirst : a.entry (keyOf (0x4110 + x) 0x11) = if bitAt late x then withField (s.entry (keyOf (0x4110 + x) 0x11)) 63 48
      (satAdd 16 (field (s.entry (keyOf (0x4110 + x) 0x11)) 63 48) 1) else s.entry (keyOf (0x4110 + x) 0x11) := by
    simp only [a]
    cases bitAt late x with
    | false => rfl
    | true => exact hcount 63 48 2 hs hp (by decide) (by decide)
  rw [← hfirst]
  change ((Effect.when (bitAt marked x) (.seq (countField (layerIndex x) 0x11 47 32) (almanac 1 3))).run a).entry _ = _
  cases bitAt marked x with
  | false => rfl
  | true => exact hcount 47 32 3 ha hap (by decide) (by decide)

theorem countShown_eq (late marked : Nat) : countShown late marked = Effect.each (countLayer late marked) (List.range 8) := rfl

theorem countShown_value {s : State} {late marked x : Nat} (hs : s.sound = true) (hp : s.pers = .tile) (hx : x < 8) :
    ((countShown late marked).run s).entry (keyOf (0x4110 + x) 0x11) =
      shownCount (bitAt late x) (bitAt marked x) (s.entry (keyOf (0x4110 + x) 0x11)) := by
  rw [countShown_eq]
  refine Effect.each_entry (g := shownCount (bitAt late x) (bitAt marked x)) (p := .tile) (List.mem_range.mpr hx)
    List.nodup_range (fun y _ => (countLayer_writes late marked y).mono fun _ _ => trivial) (fun y hy hyx => ?_)
    (fun u hu hup => countLayer_value hu hup hx) hs hp
  refine (countLayer_writes late marked y).mono fun q hq hqx => ?_
  have hy := List.mem_range.mp hy
  simp only [List.mem_cons, List.not_mem_nil, or_false] at hq
  subst hqx
  rcases hq with hq | hq
  · have h' : (0x4110 + x) * 256 + 0x11 = (0x4110 + y) * 256 + 0x11 := hq
    omega
  · have h' : (0x4110 + x) * 256 + 0x11 = 0x1400 * 256 + 8 := hq
    omega

end Sys2Proof.Machine
end

section
namespace Sys2Proof.Machine

/-! #### COMPOSE_DEADLINE -/

/-- The compositor's state as it starts on a tick. -/
def ComposeState.started (x : ComposeState) (n : Nat) (s c : State) : ComposeState := { x with
  tick := some n
  late := s.lateKeys c n
  stale := ((s.choices c n).filter Chosen.stale).map Chosen.key
  todo := c.viewsIn c.profileB
  substituted := []
  previous := (s.choices c n).filterMap fun q => q.before.map fun u => (q.key, u)
  current := (x.current.filter fun q => !((s.choices c n).any fun d => d.key == q.1)) ++
    (s.choices c n).filterMap fun q => q.shown.map fun u => (q.key, u)
  captureFrom := if c.reg 0x4180 1 = 1 then x.captureFrom else none }

/-- The entries of the layers' counts. -/
def layerCounts : List Key := (List.range 8).map fun x => keyOf (0x4110 + x) 0x11

/-- The entries in which a tick that starts shows. -/
def startEntries : List Key := [keyOf 0x4100 6, keyOf 0x4100 7, keyOf 0x4100 0x0A, keyOf 0x1400 8] ++ layerCounts

theorem countShown_writes (late marked : Nat) : (countShown late marked).Writes (· ∈ keyOf 0x1400 8 :: layerCounts) := by
  rw [countShown_eq, Effect.writes_each]
  refine fun x hx => (countLayer_writes late marked x).mono fun q hq => ?_
  simp only [List.mem_cons, List.not_mem_nil, or_false] at hq
  rcases hq with rfl | rfl
  · exact List.mem_cons_of_mem _ (List.mem_map_of_mem hx)
  · exact List.mem_cons_self

theorem bitAt_mod {v w i : Nat} (h : i < w) : bitAt (v % 2 ^ w) i = bitAt v i := by
  rw [bitAt_eq_testBit, bitAt_eq_testBit, Nat.testBit_mod_two_pow, decide_eq_true h, Bool.true_and]

theorem startComposing_facts {u s c : State} (hu : u.sound = true) (hp : u.pers = .tile) (n : Nat) :
    let t := (startComposing n s c).run u
    t.sound = true ∧ t.pers = u.pers ∧ t.mem = u.mem ∧ t.outputs = u.outputs ∧
    t.hid = { u.hid with almanac := t.hid.almanac, compose := u.hid.compose.started n s c } ∧
    (∀ x < 8, let isLate := (s.lateKeys c n).any fun key => key / 8 == x
      let isMarked := (s.markedKeys c n).any fun key => key / 8 == x
      bitAt (t.entry (keyOf 0x4100 6)) x = isLate ∧ bitAt (t.entry (keyOf 0x4100 7)) x = (isLate || isMarked) ∧
      field (t.entry (keyOf (0x4110 + x) 0x11)) 63 48 =
        satAdd 16 (field (u.entry (keyOf (0x4110 + x) 0x11)) 63 48) (if isLate then 1 else 0) ∧
      field (t.entry (keyOf (0x4110 + x) 0x11)) 47 32 =
        satAdd 16 (field (u.entry (keyOf (0x4110 + x) 0x11)) 47 32) (if isMarked then 1 else 0)) ∧
    t.entry (keyOf 0x4100 0x0A) = (if (c.viewsIn c.profileB).isEmpty then 2 else 1) ∧
    ∀ q, q ∉ startEntries → t.entry q = u.entry q := by
  intro t
  let stale := ((s.choices c n).filter Chosen.stale).map Chosen.key
  let a := (onCompose fun x => x.started n s c).run u
  let b := (set 0x4100 6 (layerBits (s.lateKeys c n))).run a
  let d := (set 0x4100 7 (layerBits stale)).run b
  let counts := countShown (layerBits (s.lateKeys c n)) (layerBits (s.markedKeys c n))
  let e := counts.run d
  have ht : t = (set 0x4100 0x0A (if (c.viewsIn c.profileB).isEmpty then 2 else 1)).run e := by
    simp only [t, startComposing, Effect.run_all_cons, Effect.run_all_nil, e, counts, ← choices_marked, d, stale, b, a,
      ← choices_late, ComposeState.started, State.choices]
  have ha : a.sound = true := Effect.run_sound _ hu
  have hb : b.sound = true := Effect.run_sound _ ha
  have hd : d.sound = true := Effect.run_sound _ hb
  have he : e.sound = true := Effect.run_sound _ hd
  have hdp : d.pers = .tile := hp
  have hwrites := countShown_writes (layerBits (s.lateKeys c n)) (layerBits (s.markedKeys c n))
  have hep : e.pers = d.pers := hwrites.pers
  have hekeep : ∀ q, q ∉ keyOf 0x1400 8 :: layerCounts → e.entry q = d.entry q := fun q hq => (hwrites.keeps hq hd).2
  have htkeep : ∀ q, q ≠ keyOf 0x4100 0x0A → t.entry q = e.entry q := fun q hq => by
    rw [ht]
    exact State.entry_set_of_ne he hq
  have hdkeep : ∀ q, q ≠ keyOf 0x4100 7 → d.entry q = b.entry q := fun q hq => State.entry_set_of_ne hb hq
  have hbkeep : ∀ q, q ≠ keyOf 0x4100 6 → b.entry q = u.entry q := fun q hq => State.entry_set_of_ne ha hq
  have hcountstore : counts.NoStore := by
    simp [counts, countShown_eq, countLayer, almanac_noStore]
  have hcountsilent : counts.Silent := by
    simp [counts, countShown_eq, countLayer, almanac_silent]
  have hcountbeside : SameBeside d e := SameBeside.of (by
    simp [counts, countShown_eq, countLayer, almanac_beside (R := fun a b => b = { a with almanac := b.almanac }) (fun _ _ => rfl)])
  obtain ⟨h6, h7, h0A, -⟩ := compose_settable
  refine ⟨ht ▸ Effect.run_sound _ he, ?_, ?_, ?_, ?_, fun x hx => ⟨?_, ?_, ?_, ?_⟩, ?_, fun q hq => ?_⟩
  · rw [ht]
    exact hep
  · rw [ht]
    exact hcountstore.mem
  · rw [ht]
    exact hcountsilent.outputs
  · obtain ⟨almanac, he'⟩ : ∃ almanac, e.hid = { d.hid with almanac := almanac } := ⟨_, hcountbeside⟩
    have hth : t.hid = e.hid := by
      rw [ht]
      rfl
    rw [hth, he']
    rfl
  · rw [htkeep _ (by decide), hekeep _ (by decide), hdkeep _ (by decide), ← bitAt_layerBits]
    exact (congrArg (bitAt · x) (set_entry ha (hp ▸ h6))).trans (bitAt_mod hx)
  · rw [htkeep _ (by decide), hekeep _ (by decide), ← choices_stale, ← bitAt_layerBits]
    exact (congrArg (bitAt · x) (set_entry hb (hp ▸ h7))).trans (bitAt_mod hx)
  · rw [htkeep _ (by interval_cases x <;> decide), countShown_value hd hdp hx, (shownCount_fields _ _ _).1, bitAt_layerBits,
      hdkeep _ (by interval_cases x <;> decide), hbkeep _ (by interval_cases x <;> decide)]
  · rw [htkeep _ (by interval_cases x <;> decide), countShown_value hd hdp hx, (shownCount_fields _ _ _).2, bitAt_layerBits,
      hdkeep _ (by interval_cases x <;> decide), hbkeep _ (by interval_cases x <;> decide)]
  · rw [ht]
    refine (set_entry he ((hep.trans hdp) ▸ h0A)).trans (Nat.mod_eq_of_lt ?_)
    split_ifs <;> decide
  · simp only [startEntries, List.mem_append, List.mem_cons, List.not_mem_nil, or_false, not_or] at hq
    obtain ⟨⟨hq6, hq7, hq0A, hq8⟩, hqc⟩ := hq
    rw [htkeep q hq0A, hekeep q (by simpa using ⟨hq8, hqc⟩), hdkeep q hq7, hbkeep q hq6]

end Sys2Proof.Machine
end

section
namespace Sys2Proof.Machine

theorem advanceTo_facts (x : Int) (s : State) : let a := (advanceTo x).run s
    RunsTo x s a ∧ a.pers = s.pers ∧ a.outputs = s.outputs ∧ a.mem = s.mem ∧ (∀ q, a.entry q = s.entry q) ∧
    a.hid = { s.hid with time := a.hid.time } := by
  refine ⟨?_, rfl, rfl, rfl, fun _ => rfl, rfl⟩
  show s.hid.time.now + (x.toNat * unitsPerNs - s.hid.time.now) = _
  omega

theorem onCompose_facts (f : ComposeState → ComposeState) (s : State) : let t := (onCompose f).run s
    t.hid = { s.hid with compose := f s.hid.compose } ∧ t.pers = s.pers ∧ t.mem = s.mem ∧ t.outputs = s.outputs ∧
    ∀ q, t.entry q = s.entry q := ⟨rfl, rfl, rfl, rfl, fun _ => rfl⟩

/-- The state at the deadline of tick n, once the tick's temperatures are taken and the banks released. -/
def State.deadlineBegun (s : State) (n : Nat) (c : State) : State :=
  (releaseBanks s c).run ((derateTick n).run ((advanceTo ((s.at n : Rat) - s.period).floor).run s))

theorem deadlineBegun_facts {s : State} (hs : s.sound = true) (hp : s.pers = .tile) (n : Nat) (c : State) :
    let u := s.deadlineBegun n c
    u.sound = true ∧ u.pers = s.pers ∧ u.mem = s.mem ∧ u.outputs = s.outputs ∧ RunsTo ((s.at n : Rat) - s.period).floor s u ∧
    u.hid = { s.hid with
      time := u.hid.time
      compose := { s.hid.compose with current := s.hid.compose.current.filter fun q => !s.banksReleased c q.1 }
      scan := { s.hid.scan with
        tds := (List.range 4).map s.panelTemp
        tdsBefore := s.hid.scan.tds
        tdTick := n
        targets := u.hid.scan.targets
        derateNow := u.hid.scan.derateNow
        derateBefore := s.hid.scan.derateNow } } ∧
    (∀ q, q ≠ keyOf 0x5000 0x0A → u.entry q = s.entry q) ∧ ∀ i < 4, u.diodeBroken i = s.diodeBroken i := by
  intro u
  have hu : u = (releaseBanks s c).run ((derateTick n).run ((advanceTo ((s.at n : Rat) - s.period).floor).run s)) := rfl
  clear_value u
  have ha := Effect.run_sound (advanceTo ((s.at n : Rat) - s.period).floor) hs
  obtain ⟨hto, hap, hao, ham, hakeep, hah⟩ := advanceTo_facts ((s.at n : Rat) - s.period).floor s
  generalize (advanceTo ((s.at n : Rat) - s.period).floor).run s = a at *
  have hapanel : (List.range 4).map a.panelTemp = (List.range 4).map s.panelTemp :=
    State.panelTemp_congr (by rw [hah]) (fun i _ => congrArg (bitAt · i) (hakeep _)) (hakeep _)
  obtain ⟨hbh, hbo, hbm, hbp, hbkeep, hbroken⟩ := derateTick_facts ha (hap.trans hp) n
  have habroken : ∀ i, a.diodeBroken i = s.diodeBroken i := fun i => congrArg (bitAt · i) (hakeep _)
  have hsound := Effect.run_sound (derateTick n) ha
  generalize (derateTick n).run a = b at *
  have husound : u.sound = true := hu ▸ Effect.run_sound _ hsound
  obtain ⟨huh, hup, hum, huo, hue⟩ :=
    onCompose_facts (fun x => { x with current := x.current.filter fun q => !s.banksReleased c q.1 }) b
  rw [releaseBanks] at hu
  rw [← hu] at huh hup hum huo hue
  have hubroken : ∀ i, u.diodeBroken i = b.diodeBroken i := fun i => congrArg (bitAt · i) (hue _)
  refine ⟨husound, hup.trans (hbp.trans hap), hum.trans (hbm.trans ham), huo.trans (hbo.trans hao), ?_, ?_,
    fun q hq => (hue q).trans ((hbkeep q hq).trans (hakeep q)),
    fun i hi => (hubroken i).trans ((hbroken i hi).trans (habroken i))⟩
  · have hbtime : b.hid.time = a.hid.time := by rw [hbh]
    have htime : u.hid.time = a.hid.time := by rw [huh, ← hbtime]
    rw [RunsTo, htime]
    exact hto
  · obtain ⟨targets, now', hb'⟩ : ∃ targets now', b.hid = { a.hid with scan := { a.hid.scan with
        tds := (List.range 4).map a.panelTemp
        tdsBefore := a.hid.scan.tds
        tdTick := n
        targets := targets
        derateNow := now'
        derateBefore := a.hid.scan.derateNow } } := ⟨_, _, hbh⟩
    obtain ⟨time, ha'⟩ : ∃ time, a.hid = { s.hid with time := time } := ⟨_, hah⟩
    rw [huh, hb', hapanel, ha']

end Sys2Proof.Machine
end

section
namespace Sys2Proof.Machine

/-- Windows of a tick that has come are dropped. -/
def ComposeState.dropped (x : ComposeState) (s : State) (n : Nat) : ComposeState := { x with
  fresh := x.fresh.filter fun f => n < f.2.tick
  gathering := x.gathering.filter fun g => 64 ≤ g.1 || s.tickOf g.2.lt > n || (g.1 / 8 == 7 && s.layerDirect 7) }

/-- The compositor composes tick n. -/
def State.composes (s : State) (n : Nat) : Bool := composingModes.contains (s.modeAt n) && s.hid.compose.firstAfter.all (· ≤ n)

theorem composeDeadline_exec {s : State} (htile : s.isTile = true) (hstep : s.stepped = true) (hscan : s.up .scan = true)
    (hpipe : s.up .pipe = true) :
    let n := s.tick + 1
    let c := s.configAt n
    exec .composeDeadline s = .next ((onCompose fun x => x.dropped s n).run
      ((if s.composes n then startComposing n s c else set 0x4100 0x0A 0).run (s.deadlineBegun n c))) := by
  intro n c
  have hexec : exec .composeDeadline s = execComposeDeadline s := rfl
  rw [hexec, execComposeDeadline, htile, hstep, hscan, hpipe, perform, Bool.and_self, Bool.and_self, Effect.run_when_true,
    Effect.run_all_cons, Effect.run_all_cons, Effect.run_all_cons, Effect.run_all_nil, Effect.run_when_true, State.deadlineBegun]
  refine congrArg Host.Outcome.next ?_
  generalize (derateTick n).run ((advanceTo ((s.at n : Rat) - s.period).floor).run s) = b
  rw [Effect.run_all_cons, Effect.run_all_cons, Effect.run_all_cons, Effect.run_all_nil]
  rfl

/-- What every deadline does, whether the part composes or not. -/
def DeadlineRan (n : Nat) (c s t : State) (starts : Bool) : Prop :=
  RunsTo ((s.at n : Rat) - s.period).floor s t ∧ t.outputs = s.outputs ∧
  (∀ f, f ∈ t.hid.compose.fresh ↔ f ∈ s.hid.compose.fresh ∧ n < f.2.tick) ∧
  (∀ key, key ∉ c.composedKeys ∨ starts = false → lookupKey t.hid.compose.current key = s.heldFor c key) ∧
  t.hid = { s.hid with
    almanac := t.hid.almanac
    time := t.hid.time
    compose := t.hid.compose
    scan := { s.hid.scan with
      tds := (List.range 4).map t.panelTemp
      tdsBefore := s.hid.scan.tds
      tdTick := n
      targets := t.hid.scan.targets
      derateNow := t.hid.scan.derateNow
      derateBefore := s.hid.scan.derateNow } }

/-- What a deadline does around the start of a tick, or its absence. -/
theorem DeadlineRan.of {s u : State} {e : Effect} (hs : s.sound = true) (hp : s.pers = .tile) {n : Nat} {c : State}
    {starts : Bool}
    (hout : (e.run (s.deadlineBegun n c)).outputs = (s.deadlineBegun n c).outputs)
    (hhid : (e.run (s.deadlineBegun n c)).hid = { (s.deadlineBegun n c).hid with
      almanac := (e.run (s.deadlineBegun n c)).hid.almanac, compose := (e.run (s.deadlineBegun n c)).hid.compose })
    (hfresh : (e.run (s.deadlineBegun n c)).hid.compose.fresh = s.hid.compose.fresh)
    (hcurrent : ∀ key, key ∉ c.composedKeys ∨ starts = false →
      lookupKey (e.run (s.deadlineBegun n c)).hid.compose.current key = s.heldFor c key)
    (hkeep : ∀ q ∈ [keyOf 0x5000 0x0A, keyOf 0x5000 6], (e.run (s.deadlineBegun n c)).entry q = (s.deadlineBegun n c).entry q)
    (heq : u = (onCompose fun x => x.dropped s n).run (e.run (s.deadlineBegun n c))) : DeadlineRan n c s u starts := by
  obtain ⟨-, hbp, -, hbo, hbto, hbh, hbkeep, hbroken⟩ := deadlineBegun_facts hs hp n c
  obtain ⟨huh, -, -, huo, hue⟩ := onCompose_facts (fun x => x.dropped s n) (e.run (s.deadlineBegun n c))
  rw [← heq] at huh huo hue
  generalize e.run (s.deadlineBegun n c) = w at *
  generalize s.deadlineBegun n c = b at *
  obtain ⟨time, targets, now', hb'⟩ : ∃ time targets now', b.hid = { s.hid with
      time := time
      compose := { s.hid.compose with current := s.hid.compose.current.filter fun q => !s.banksReleased c q.1 }
      scan := { s.hid.scan with
        tds := (List.range 4).map s.panelTemp
        tdsBefore := s.hid.scan.tds
        tdTick := n
        targets := targets
        derateNow := now'
        derateBefore := s.hid.scan.derateNow } } := ⟨_, _, _, hbh⟩
  obtain ⟨almanac, compose, hw'⟩ : ∃ almanac compose, w.hid = { b.hid with almanac := almanac, compose := compose } :=
    ⟨_, _, hhid⟩
  have hpanel : (List.range 4).map u.panelTemp = (List.range 4).map s.panelTemp := by
    refine State.panelTemp_congr (by rw [huh, hw', hb']) (fun i hi => ?_) ?_
    · rw [← hbroken i hi]
      exact congrArg (bitAt · i) ((hue _).trans (hkeep _ (by simp)))
    · exact (hue _).trans ((hkeep _ (by simp)).trans (hbkeep _ (by decide)))
  refine ⟨?_, huo.trans (hout.trans hbo), fun f => ?_, fun key hkey => ?_, ?_⟩
  · have htime : u.hid.time = b.hid.time := by rw [huh, hw']
    rw [RunsTo, htime]
    exact hbto
  · rw [huh]
    simp only [ComposeState.dropped, hfresh, List.mem_filter, decide_eq_true_eq]
  · rw [← hcurrent key hkey, huh]
    rfl
  · rw [hpanel, huh, hw', hb']

end Sys2Proof.Machine
end

section
namespace Sys2Proof.Machine

theorem composes_lookups {s : State} (c : State) (key : Nat) :
    lookupKey (s.hid.compose.current.filter fun q => !s.banksReleased c q.1) key = s.heldFor c key := by
  rw [lookupKey_filter_key (fun k => !s.banksReleased c k), State.heldFor]
  cases s.banksReleased c key <;> rfl

/-- COMPOSE_DEADLINE starts a tick. -/
theorem composeDeadline_starts {s : State} (hs : s.sound = true) (htile : s.isTile = true) (hstep : s.stepped = true)
    (hscan : s.up .scan = true) (hpipe : s.up .pipe = true) :
    let n := s.tick + 1
    let c := s.configAt n
    s.composes n = true → Completes .composeDeadline s fun t => DeadlineRan n c s t true ∧ t.hid.compose.tick = some n ∧
      t.hid.compose.todo = c.viewsIn c.profileB ∧ t.hid.compose.late = s.lateKeys c n ∧
      (∀ key ∈ c.composedKeys, lookupKey t.hid.compose.current key = s.shownFor c n key) ∧
      (∀ x < 8, let isLate := (s.lateKeys c n).any fun key => key / 8 == x
        let isMarked := (s.markedKeys c n).any fun key => key / 8 == x
        bitAt (t.entry (keyOf 0x4100 6)) x = isLate ∧ bitAt (t.entry (keyOf 0x4100 7)) x = (isLate || isMarked) ∧
        field (t.entry (keyOf (0x4110 + x) 0x11)) 63 48 =
          satAdd 16 (field (s.entry (keyOf (0x4110 + x) 0x11)) 63 48) (if isLate then 1 else 0) ∧
        field (t.entry (keyOf (0x4110 + x) 0x11)) 47 32 =
          satAdd 16 (field (s.entry (keyOf (0x4110 + x) 0x11)) 47 32) (if isMarked then 1 else 0)) ∧
      t.entry (keyOf 0x4100 0x0A) = (if (c.viewsIn c.profileB).isEmpty then 2 else 1) ∧
      Only ([keyOf 0x4100 6, keyOf 0x4100 7, keyOf 0x4100 0x0A, keyOf 0x5000 0x0A, keyOf 0x1400 8] ++ layerCounts) s t := by
  intro n c hstarts
  have hp := State.isTile_iff.mp htile
  have hexec : exec .composeDeadline s = .next ((onCompose fun x => x.dropped s n).run
      ((if s.composes n then startComposing n s c else set 0x4100 0x0A 0).run (s.deadlineBegun n c))) :=
    composeDeadline_exec htile hstep hscan hpipe
  rw [if_pos hstarts] at hexec
  clear_value n c
  obtain ⟨hb, hbp, hbm, -, -, hbh, hbkeep, -⟩ := deadlineBegun_facts hs hp n c
  obtain ⟨hw, hwp, hwm, hwo, hwh, hshow, hstate, hwkeep⟩ := startComposing_facts (s := s) (c := c) hb (hbp.trans hp) n
  have hcompose : ((startComposing n s c).run (s.deadlineBegun n c)).hid.compose = _ := congrArg Hidden.compose hwh
  have hfresh : ((startComposing n s c).run (s.deadlineBegun n c)).hid.compose.fresh = s.hid.compose.fresh := by
    rw [hcompose, hbh]
    rfl
  have hlookup : ∀ key, lookupKey ((startComposing n s c).run (s.deadlineBegun n c)).hid.compose.current key =
      if key ∈ c.composedKeys then s.shownFor c n key else s.heldFor c key := fun key => by
    rw [hcompose, hbh]
    exact (lookup_choices s c n _ key).trans (by rw [composes_lookups])
  obtain ⟨hth, htp, htm, -, hte⟩ := onCompose_facts (fun x => x.dropped s n) ((startComposing n s c).run (s.deadlineBegun n c))
  have hran : DeadlineRan n c s _ true := DeadlineRan.of hs hp hwo (by rw [hwh]) hfresh
    (fun key hkey => by rw [hlookup, if_neg (hkey.resolve_right (by decide))])
    (fun q hq => hwkeep q (by revert q; decide)) rfl
  generalize (startComposing n s c).run (s.deadlineBegun n c) = w at *
  generalize s.deadlineBegun n c = b at *
  generalize (onCompose fun x => x.dropped s n).run w = t at *
  have htcompose : t.hid.compose = w.hid.compose.dropped s n := by rw [hth]
  rw [hcompose] at htcompose hlookup
  refine ⟨t, hexec, hran, by rw [htcompose]; rfl, by rw [htcompose]; rfl, by rw [htcompose]; rfl, fun key hkey => ?_,
    fun x hx => ?_, (hte _).trans hstate, ⟨htp.trans (hwp.trans hbp), fun q hq => ?_⟩, fun x => ?_⟩
  · rw [htcompose]
    exact (hlookup key).trans (if_pos hkey)
  · obtain ⟨h6, h7, hlate, hmarked⟩ := hshow x hx
    rw [hte, hte, hte, h6, h7, hlate, hmarked, hbkeep _ (by interval_cases x <;> decide)]
    exact ⟨rfl, rfl, rfl, rfl⟩
  · simp only [List.mem_append, List.mem_cons, List.not_mem_nil, or_false, not_or] at hq
    obtain ⟨⟨hq6, hq7, hq0A, hqd, hq8⟩, hqc⟩ := hq
    rw [hte, hwkeep q (by simp [startEntries, hq6, hq7, hq0A, hq8, hqc]), hbkeep q hqd]
  · rw [State.byte, htm, hwm, hbm, State.byte]

theorem set_facts (i sub v : Nat) {s : State} (hs : s.sound = true) : let t := (set i sub v).run s
    t.hid = s.hid ∧ t.pers = s.pers ∧ t.mem = s.mem ∧ t.outputs = s.outputs ∧ ∀ q, q ≠ keyOf i sub → t.entry q = s.entry q :=
  ⟨rfl, rfl, rfl, rfl, fun _ hq => State.entry_set_of_ne hs hq⟩

theorem hid_eq_with {a b : Hidden} (h : a = b) : a = { b with almanac := a.almanac, compose := a.compose } := by
  subst h
  rfl

/-- COMPOSE_DEADLINE of a tick that is not composed. -/
theorem composeDeadline_idles {s : State} (hs : s.sound = true) (htile : s.isTile = true) (hstep : s.stepped = true)
    (hscan : s.up .scan = true) (hpipe : s.up .pipe = true) :
    let n := s.tick + 1
    let c := s.configAt n
    s.composes n = false → Completes .composeDeadline s fun t => DeadlineRan n c s t false ∧
      t.entry (keyOf 0x4100 0x0A) = 0 ∧ t.hid.compose.tick = s.hid.compose.tick ∧ t.hid.compose.todo = s.hid.compose.todo ∧
      Only [keyOf 0x4100 0x0A, keyOf 0x5000 0x0A] s t := by
  intro n c hidle
  have hp := State.isTile_iff.mp htile
  have hexec : exec .composeDeadline s = .next ((onCompose fun x => x.dropped s n).run
      ((if s.composes n then startComposing n s c else set 0x4100 0x0A 0).run (s.deadlineBegun n c))) :=
    composeDeadline_exec htile hstep hscan hpipe
  rw [if_neg (ne_true_of_eq_false hidle)] at hexec
  clear_value n c
  obtain ⟨hb, hbp, hbm, -, -, hbh, hbkeep, -⟩ := deadlineBegun_facts hs hp n c
  have hbcompose : (s.deadlineBegun n c).hid.compose =
      { s.hid.compose with current := s.hid.compose.current.filter fun q => !s.banksReleased c q.1 } := by rw [hbh]
  obtain ⟨hth, htp, htm, -, hte⟩ := onCompose_facts (fun x => x.dropped s n) ((set 0x4100 0x0A 0).run (s.deadlineBegun n c))
  obtain ⟨hwh, hwp, hwm, hwo, hwkeep⟩ := set_facts 0x4100 0x0A 0 hb
  have hran : DeadlineRan n c s _ false := DeadlineRan.of (e := set 0x4100 0x0A 0) hs hp hwo
    (hid_eq_with hwh) (by rw [hwh, hbcompose]) (fun key _ => by rw [hwh, hbcompose, composes_lookups])
    (fun q hq => hwkeep q (by revert q; decide)) rfl
  have hstate : ((set 0x4100 0x0A 0).run (s.deadlineBegun n c)).entry (keyOf 0x4100 0x0A) = 0 :=
    set_entry hb ((hbp.trans hp) ▸ compose_settable.2.2.1)
  generalize (set 0x4100 0x0A 0).run (s.deadlineBegun n c) = w at *
  generalize s.deadlineBegun n c = b at *
  generalize (onCompose fun x => x.dropped s n).run w = t at *
  have htcompose : t.hid.compose = b.hid.compose.dropped s n := by rw [hth, hwh]
  rw [hbcompose] at htcompose
  refine ⟨t, hexec, hran, (hte _).trans hstate, by rw [htcompose]; rfl, by rw [htcompose]; rfl, ⟨htp.trans (hwp.trans hbp),
    fun q hq => ?_⟩, fun x => ?_⟩
  · simp only [List.mem_cons, List.not_mem_nil, or_false, not_or] at hq
    rw [hte, hwkeep q hq.1, hbkeep q hq.2]
  · rw [State.byte, htm, hwm, hbm, State.byte]

end Sys2Proof.Machine
end

section
namespace Sys2Proof.Machine

/-! #### VIEW_COMPOSED -/

/-- Reading blocks changes the windows and the counts of the blocks that were substituted, the poison and the Almanac. -/
def BlocksRead (a b : Hidden) : Prop := b = { a with
  compose := { a.compose with current := b.compose.current, substituted := b.compose.substituted }
  almanac := b.almanac
  memory := { a.memory with poison := b.memory.poison } }

theorem BlocksRead.refl (h : Hidden) : BlocksRead h h := rfl

theorem BlocksRead.trans {a b c : Hidden} (h : BlocksRead a b) (h' : BlocksRead b c) : BlocksRead a c := by
  rw [BlocksRead] at *
  rw [h', h]

/-- The entries in which the blocks of layer x show as they are read. -/
def blockEntries (x : Nat) : List Key :=
  [keyOf (0x4110 + x) 0x11, keyOf 0x4100 0x0B, keyOf 0x4100 0x0C, keyOf 0x1400 8]

theorem recordSubstitution_reads (n x y : Nat) (poisoned : Bool) (u : Surface) (q : Nat × Bool) :
    (recordSubstitution n x y poisoned u q).Writes (· ∈ blockEntries x) ∧
    (recordSubstitution n x y poisoned u q).NoStore ∧ (recordSubstitution n x y poisoned u q).Silent ∧
    (recordSubstitution n x y poisoned u q).Beside BlocksRead := by
  refine ⟨?_, ?_, ?_, ?_⟩ <;> simp [recordSubstitution, blockEntries]

theorem mendKind_reads (c : State) (k offset n : Nat) (K : Key → Prop) :
    (mendKind c k offset n).Writes K ∧ (mendKind c k offset n).NoStore ∧ (mendKind c k offset n).Silent ∧
    (mendKind c k offset n).Beside fun a b => b = { a with memory := { a.memory with poison := b.memory.poison } } := by
  refine ⟨?_, ?_, ?_, ?_⟩ <;> simp [mendKind, clearPoison]

theorem readBlocks_reads (n y x : Nat) : (readBlocks n y x).Writes (· ∈ blockEntries x) ∧ (readBlocks n y x).NoStore ∧
    (readBlocks n y x).Silent ∧ (readBlocks n y x).Beside BlocksRead := by
  have hmend := fun c k offset n => mendKind_reads c k offset n (· ∈ blockEntries x)
  have hmend' : ∀ c k offset n, (mendKind c k offset n).Beside BlocksRead := fun c k offset n =>
    (hmend c k offset n).2.2.2.mono fun a b h => by
      rw [BlocksRead]
      rw [h]
  have hrecord := fun n y p u q => recordSubstitution_reads n x y p u q
  have halmanac : ∀ h b n, (almanacCount h b n).Beside BlocksRead := almanacCount_beside fun _ _ => rfl
  have halmanac' : ∀ h b n, (almanacCount h b n).Writes (· ∈ blockEntries x) :=
    almanacCount_writes (by simp [blockEntries])
  have hlayer : keyOf (layerIndex x) 0x11 ∈ blockEntries x := List.mem_cons_self
  refine ⟨?_, ?_, ?_, ?_⟩
  · simp only [readBlocks, Effect.writes_look, Effect.writes_ofOption, Effect.writes_nothing, implies_true, and_true]
    intro s u _
    split <;> simp [hmend, hrecord, halmanac', hlayer]
  · simp only [readBlocks, Effect.noStore_look, Effect.noStore_ofOption, Effect.noStore_nothing, implies_true, and_true]
    intro s u _
    split <;> simp [hmend, hrecord, almanacCount_noStore]
  · simp only [readBlocks, Effect.silent_look, Effect.silent_ofOption, Effect.silent_nothing, implies_true, and_true]
    intro s u _
    split <;> simp [hmend, hrecord, almanacCount_silent]
  · simp only [readBlocks, Effect.beside_look, Effect.beside_ofOption, Effect.beside_nothing, implies_true, and_true]
    intro s u _
    split <;> simp [hmend', hrecord, halmanac, BlocksRead]

/-- The entries in which the blocks of a tick show. -/
def readEntries : List Key := [keyOf 0x4100 0x0B, keyOf 0x4100 0x0C, keyOf 0x1400 8] ++ layerCounts

theorem blockEntries_subset {x : Nat} (hx : x ∈ List.range 8) : ∀ q ∈ blockEntries x, q ∈ readEntries := by
  intro q hq
  have hlayer : keyOf (0x4110 + x) 0x11 ∈ layerCounts := List.mem_map_of_mem hx
  simp only [blockEntries, List.mem_cons, List.not_mem_nil, or_false] at hq
  rcases hq with rfl | rfl | rfl | rfl <;> simp [readEntries, hlayer]

/-- The state once the blocks of every layer are read for a view. -/
def State.viewRead (s : State) (n v : Nat) : State := (Effect.each (readBlocks n v) (List.range 8)).run s

theorem viewRead_facts {s : State} (hs : s.sound = true) (n v : Nat) : let u := s.viewRead n v
    u.sound = true ∧ u.pers = s.pers ∧ u.mem = s.mem ∧ u.outputs = s.outputs ∧ BlocksRead s.hid u.hid ∧
    ∀ q, q ∉ readEntries → u.entry q = s.entry q := by
  intro u
  have hwrites : (Effect.each (readBlocks n v) (List.range 8)).Writes (· ∈ readEntries) :=
    (Effect.writes_each _ _).mpr fun x hx => (readBlocks_reads n v x).1.mono (blockEntries_subset hx)
  have hstore : (Effect.each (readBlocks n v) (List.range 8)).NoStore :=
    (Effect.noStore_each _ _).mpr fun x _ => (readBlocks_reads n v x).2.1
  have hsilent : (Effect.each (readBlocks n v) (List.range 8)).Silent :=
    (Effect.silent_each _ _).mpr fun x _ => (readBlocks_reads n v x).2.2.1
  have hbeside : (Effect.each (readBlocks n v) (List.range 8)).Beside BlocksRead :=
    (Effect.beside_each _ _).mpr fun x _ => (readBlocks_reads n v x).2.2.2
  exact ⟨Effect.run_sound _ hs, hwrites.pers, hstore.mem, hsilent.outputs,
    Effect.Beside.hid BlocksRead.refl BlocksRead.trans hbeside, fun q hq => (hwrites.keeps hq hs).2⟩

theorem mendKind_facts {s : State} (hs : s.sound = true) (c : State) (k offset n : Nat) :
    let w := (mendKind c k offset n).run s
    w.sound = true ∧ w.pers = s.pers ∧ w.mem = s.mem ∧ w.outputs = s.outputs ∧ (∀ q, w.entry q = s.entry q) ∧
    ∃ poison, w.hid = { s.hid with memory := { s.hid.memory with poison := poison } } := by
  intro w
  obtain ⟨hwrites, hstore, hsilent, hbeside⟩ := mendKind_reads c k offset n fun _ => False
  exact ⟨Effect.run_sound _ hs, hwrites.pers, hstore.mem, hsilent.outputs,
    fun q => (hwrites.keeps (q := q) not_false hs).2, w.hid.memory.poison,
    Effect.Beside.hid (R := fun a b => b = { a with memory := { a.memory with poison := b.memory.poison } }) (fun _ => rfl)
      (fun h h' => by rw [h', h]) hbeside⟩

/-- A view's image goes into the older of its banks, and the image that was the newer is kept as the older. -/
def ComposeState.stored (x : ComposeState) (n v : Nat) (lamps : List Nat) : ComposeState := { x with
  older := match lookupKey x.images v with
    | some o => insertKey x.older v o
    | none => x.older
  images := insertKey x.images v ⟨n, x.olderBank v, lamps⟩
  todo := x.todo.filter (· != v) }

theorem ComposeState.stored_older {x : ComposeState} {v : Nat} {o : Image} (n : Nat) (lamps : List Nat)
    (h : o ∈ lookupKey x.images v) : lookupKey (x.stored n v lamps).older v = some o := by
  have h' : lookupKey x.images v = some o := h
  rw [ComposeState.stored]
  simp only [h']
  exact lookupKey_insertKey_self v o x.older

theorem storeImage_facts {s : State} (hs : s.sound = true) (c : State) (n v : Nat) (lamps : List Nat) :
    let w := (storeImage c n v lamps).run s
    w.sound = true ∧ w.pers = s.pers ∧ w.mem = s.mem ∧ w.outputs = s.outputs ∧ (∀ q, w.entry q = s.entry q) ∧
    ∃ poison, w.hid = { s.hid with
      memory := { s.hid.memory with poison := poison }
      compose := s.hid.compose.stored n v lamps } := by
  obtain ⟨ha, hap, ham, hao, hae, poison, hah⟩ :=
    mendKind_facts hs c 2 (c.imageOffset v (s.hid.compose.olderBank v)) (2 * lamps.length)
  rw [storeImage, Effect.run_seq, Effect.run_look]
  generalize (mendKind c 2 (c.imageOffset v (s.hid.compose.olderBank v)) (2 * lamps.length)).run s = a at *
  have hw : ((onCompose fun x => x.stored n v lamps).run a).sound = true := Effect.run_sound _ ha
  obtain ⟨hwh, hwp, hwm, hwo, hwe⟩ := onCompose_facts (fun x => x.stored n v lamps) a
  refine ⟨hw, hwp.trans hap, hwm.trans ham, hwo.trans hao, fun q => (hwe q).trans (hae q), poison, ?_⟩
  refine hwh.trans ?_
  rw [hah]

/-- The end of a tick shows. -/
theorem composeDone_facts {s : State} (hs : s.sound = true) (hp : s.pers = .tile) (c : State) (n : Nat) :
    let t := (composeDone c n).run s
    t.pers = s.pers ∧ t.mem = s.mem ∧ t.outputs = s.outputs ∧ t.entry (keyOf 0x4100 0x0A) = 2 ∧
    (∀ q, q ∉ [keyOf 0x4100 8, keyOf 0x4100 0x0A] → t.entry q = s.entry q) ∧
    ∃ margins, t.hid = { s.hid with compose := { s.hid.compose with margins := margins } } := by
  intro t
  obtain ⟨margins, least, ht⟩ : ∃ margins least, t = (set 0x4100 0x0A 2).run ((set 0x4100 8 least).run
      ((onCompose fun x => { x with margins := margins }).run s)) := ⟨_, _, rfl⟩
  clear_value t
  obtain ⟨hah, hap, ham, hao, hae⟩ := onCompose_facts (fun x => { x with margins := margins }) s
  have ha : ((onCompose fun x => { x with margins := margins }).run s).sound = true := Effect.run_sound _ hs
  generalize (onCompose fun x => { x with margins := margins }).run s = a at *
  obtain ⟨hbh, hbp, hbm, hbo, hbe⟩ := set_facts 0x4100 8 least ha
  have hb : ((set 0x4100 8 least).run a).sound = true := Effect.run_sound _ ha
  generalize (set 0x4100 8 least).run a = b at *
  obtain ⟨hth, htp, htm, hto, hte⟩ := set_facts 0x4100 0x0A 2 hb
  rw [← ht] at hth htp htm hto hte
  refine ⟨htp.trans (hbp.trans hap), htm.trans (hbm.trans ham), hto.trans (hbo.trans hao), ?_, fun q hq => ?_, margins,
    hth.trans (hbh.trans hah)⟩
  · rw [ht]
    exact set_entry hb ((hbp.trans (hap.trans hp)) ▸ compose_settable.2.2.1)
  · simp only [List.mem_cons, List.not_mem_nil, or_false, not_or] at hq
    rw [hte q hq.2, hbe q hq.1, hae q]

/-- Capturing changes where the ring began and how full it is, and the poison. -/
def RingMoves (a b : Hidden) : Prop := b = { a with
  compose := { a.compose with captureFrom := b.compose.captureFrom, captureFull := b.compose.captureFull }
  memory := { a.memory with poison := b.memory.poison } }

theorem RingMoves.refl (h : Hidden) : RingMoves h h := rfl

theorem RingMoves.trans {a b c : Hidden} (h : RingMoves a b) (h' : RingMoves b c) : RingMoves a c := by
  rw [RingMoves] at *
  rw [h', h]

/-- The next slot of the capture ring. -/
def State.captureNext (s c : State) : Nat := s.entry (keyOf 0x4180 7) % max 1 (c.entry (keyOf 0x4180 4))

/-- A view of a tick goes into the capture ring. -/
def State.captures (s c : State) (n v : Nat) : Bool := c.entry (keyOf 0x4180 1) == 1 && c.entry (keyOf 0x4180 2) == v &&
  (n - s.hid.compose.captureFrom.getD n) % max 1 (c.entry (keyOf 0x4180 3)) == 0 &&
  !(c.entry (keyOf 0x4180 5) == 1 && max 1 (c.entry (keyOf 0x4180 4)) ≤ s.hid.compose.captureFull)

/-- A capture goes into its slot. -/
def fillCapture (c : State) (next : Nat) (image : List Byte) : Effect := .all [
  eraseAt (Space.capture.at (next * c.captureSlot)) c.captureSlot,
  mendKind c 3 (next * c.captureSlot) c.captureSlot,
  storeAt (Space.capture.at (next * c.captureSlot)) image,
  set 0x4180 7 ((next + 1) % max 1 (c.reg 0x4180 4)),
  count 32 0x4180 8,
  onCompose fun x => { x with captureFull := min (max 1 (c.reg 0x4180 4)) (x.captureFull + 1) }]

/-- What a capture that is due does: a slot that a host holds is not filled. -/
def takeCapture (c s : State) (n v : Nat) (lamps : List Nat) : Effect :=
  if s.entry (keyOf 0x4180 0x0B) = s.captureNext c then count 32 0x4180 9
  else fillCapture c (s.captureNext c) (s.captureImage n v lamps (satInc 32 (s.reg 0x4180 8)))

theorem capture_run (c s : State) (n v : Nat) (lamps : List Nat) : ∃ a, RingMoves s.hid a.hid ∧ a.pers = s.pers ∧
    a.mem = s.mem ∧ a.sound = s.sound ∧ (∀ q, a.entry q = s.entry q) ∧
    (capture c n v lamps).run s = if s.captures c n v then (takeCapture c s n v lamps).run a else a := by
  have hrun : (capture c n v lamps).run s = (Effect.when (c.reg 0x4180 1 == 1 && c.reg 0x4180 2 == v) (.seq
    (onCompose fun x => { x with captureFrom := some (s.hid.compose.captureFrom.getD n) })
    (Effect.when ((n - s.hid.compose.captureFrom.getD n) % max 1 (c.reg 0x4180 3) == 0 &&
        !(c.reg 0x4180 5 == 1 && max 1 (c.reg 0x4180 4) ≤ s.hid.compose.captureFull)) (takeCapture c s n v lamps)))).run s := rfl
  rw [hrun]
  simp only [State.reg_eq_entry]
  cases hview : c.entry (keyOf 0x4180 1) == 1 && c.entry (keyOf 0x4180 2) == v with
  | false =>
    have hno : s.captures c n v = false := by rw [State.captures, hview, Bool.false_and, Bool.false_and]
    exact ⟨s, rfl, rfl, rfl, rfl, fun _ => rfl, by rw [hno]; rfl⟩
  | true =>
    have hwhen : s.captures c n v = ((n - s.hid.compose.captureFrom.getD n) % max 1 (c.entry (keyOf 0x4180 3)) == 0 &&
        !(c.entry (keyOf 0x4180 5) == 1 && max 1 (c.entry (keyOf 0x4180 4)) ≤ s.hid.compose.captureFull)) := by
      rw [State.captures, hview, Bool.true_and]
    refine ⟨(onCompose fun x => { x with captureFrom := some (s.hid.compose.captureFrom.getD n) }).run s, rfl, rfl, rfl, rfl,
      fun _ => rfl, ?_⟩
    rw [Effect.run_when_true, Effect.run_seq, Effect.run_when, hwhen]
    rfl

theorem fillCapture_facts {s : State} (hs : s.sound = true) (hp : s.pers = .tile) (c : State) (next : Nat) (image : List Byte)
    (hslots : c.entry (keyOf 0x4180 4) < 2 ^ 8) : let t := (fillCapture c next image).run s
    let base := Space.capture.at (next * c.captureSlot)
    t.bytes base image.length = image ∧ SameMemoryBut base (max c.captureSlot image.length) s t ∧
    t.entry (keyOf 0x4180 8) = satAdd 32 (s.entry (keyOf 0x4180 8)) 1 ∧
    t.entry (keyOf 0x4180 7) = (next + 1) % max 1 (c.entry (keyOf 0x4180 4)) := by
  intro t base
  let a := (eraseAt base c.captureSlot).run s
  let b := (mendKind c 3 (next * c.captureSlot) c.captureSlot).run a
  let d := (storeAt base image).run b
  let e := (set 0x4180 7 ((next + 1) % max 1 (c.reg 0x4180 4))).run d
  let f := (count 32 0x4180 8).run e
  have ht : t = (onCompose fun x => { x with captureFull := min (max 1 (c.reg 0x4180 4)) (x.captureFull + 1) }).run f := by
    simp only [t, fillCapture, Effect.run_all_cons, Effect.run_all_nil, f, e, d, b, a, base]
  have ha : a.sound = true := Effect.run_sound _ hs
  have hamem : SameMemoryBut base c.captureSlot s a := fun x hx => by
    show memGet (Sparse.clearRange base (base + c.captureSlot) s.mem) x = memGet s.mem x
    rw [memGet_memErase ((State.sound_iff s).mp hs).1, if_neg (by omega)]
  obtain ⟨hb, hbp, hbm, -, hbe, -⟩ := mendKind_facts ha c 3 (next * c.captureSlot) c.captureSlot
  have hd : d.sound = true := Effect.run_sound _ hb
  have he : e.sound = true := Effect.run_sound _ hd
  have hdp : d.pers = .tile := hbp.trans hp
  have hdmem : SameMemoryBut base image.length b d := store_sameMemoryBut hb base image
  have htm : t.mem = d.mem := by
    rw [ht]
    rfl
  have hte : ∀ q, t.entry q = f.entry q := fun q => by
    rw [ht]
    rfl
  have hde : ∀ q, d.entry q = s.entry q := fun q => hbe q
  have h7 := compose_settable.2.2.2.2.1
  have h8 := compose_settable.2.2.2.2.2.1
  refine ⟨?_, fun x hx => ?_, ?_, ?_⟩
  · rw [State.bytes_of_mem htm]
    exact store_bytes hb base image
  · have htd : t.byte x = d.byte x := congrArg (memGet · x) htm
    have hba : b.byte x = a.byte x := congrArg (memGet · x) hbm
    rw [htd, hdmem x (by omega), hba, hamem x (by omega)]
  · rw [hte, ← hde (keyOf 0x4180 8)]
    refine (count_entry he (hdp ▸ h8)).trans (congrArg (satAdd 32 · 1) ?_)
    exact State.entry_set_of_ne hd (by decide)
  · rw [hte]
    refine (State.entry_set_of_ne he (by decide)).trans ((set_entry hd (hdp ▸ h7)).trans (Nat.mod_eq_of_lt ?_))
    have hlt := Nat.mod_lt (next + 1) (show 0 < max 1 (c.entry (keyOf 0x4180 4)) by omega)
    show (next + 1) % max 1 (c.entry (keyOf 0x4180 4)) < 2 ^ 8
    omega

/-- What a view that may be captured leaves of the ring, the memory and the poison. -/
theorem capture_facts {s : State} (hs : s.sound = true) (hp : s.pers = .tile) (c : State) (n v : Nat) (lamps : List Nat)
    (hslots : c.entry (keyOf 0x4180 4) < 2 ^ 8) : let t := (capture c n v lamps).run s
    let base := Space.capture.at (s.captureNext c * c.captureSlot)
    let number := satAdd 32 (s.entry (keyOf 0x4180 8)) 1
    let image := s.captureImage n v lamps number
    let free : Bool := s.entry (keyOf 0x4180 0x0B) != s.captureNext c
    t.sound = true ∧ t.pers = s.pers ∧ t.outputs = s.outputs ∧ RingMoves s.hid t.hid ∧
    (∀ q, q ∉ [keyOf 0x4180 7, keyOf 0x4180 8, keyOf 0x4180 9] → t.entry q = s.entry q) ∧
    (s.captures c n v = false → t.mem = s.mem ∧ ∀ q, t.entry q = s.entry q) ∧
    (s.captures c n v = true → free = false → t.mem = s.mem ∧
      t.entry (keyOf 0x4180 9) = satAdd 32 (s.entry (keyOf 0x4180 9)) 1) ∧
    (s.captures c n v = true → free = true → t.bytes base image.length = image ∧
      SameMemoryBut base (max c.captureSlot image.length) s t ∧ t.entry (keyOf 0x4180 8) = number ∧
      t.entry (keyOf 0x4180 7) = (s.captureNext c + 1) % max 1 (c.entry (keyOf 0x4180 4))) := by
  intro t base number image free
  have hmendwrites : ∀ K k offset n, (mendKind c k offset n).Writes K := fun K k offset n => (mendKind_reads c k offset n K).1
  have hmendsilent : ∀ k offset n, (mendKind c k offset n).Silent := fun k offset n =>
    (mendKind_reads c k offset n fun _ => True).2.2.1
  have hmend' : ∀ k offset n, (mendKind c k offset n).Beside RingMoves := fun k offset n =>
    (mendKind_reads c k offset n fun _ => True).2.2.2.mono fun a b h => by
      rw [RingMoves]
      rw [h]
  have hwrites : (capture c n v lamps).Writes (· ∈ [keyOf 0x4180 7, keyOf 0x4180 8, keyOf 0x4180 9]) := by
    simp [capture, hmendwrites]
  have hsilent : (capture c n v lamps).Silent := by
    rw [capture, Effect.silent_look]
    intro s
    dsimp only
    split_ifs <;> simp [hmendsilent]
  have hbeside : (capture c n v lamps).Beside RingMoves := by
    simp [capture, hmend', RingMoves]
  obtain ⟨a, -, hap, ham, has, hae, hrun⟩ := capture_run c s n v lamps
  have ha : a.sound = true := has.trans hs
  have hnumber : satInc 32 (s.reg 0x4180 8) = number := rfl
  refine ⟨Effect.run_sound _ hs, hwrites.pers, hsilent.outputs, Effect.Beside.hid RingMoves.refl RingMoves.trans hbeside,
    fun q hq => (hwrites.keeps hq hs).2, fun hno => ?_, fun hyes hheld => ?_, fun hyes hfree => ?_⟩
  · have ht : t = a := hrun.trans (if_neg (ne_true_of_eq_false hno))
    rw [ht]
    exact ⟨ham, hae⟩
  · have hheld' : s.entry (keyOf 0x4180 0x0B) = s.captureNext c := by simpa [free] using hheld
    have ht : t = (count 32 0x4180 9).run a := by
      refine hrun.trans ?_
      rw [if_pos hyes, takeCapture, if_pos hheld']
    rw [ht, ← hae]
    exact ⟨ham, count_entry ha ((hap.trans hp) ▸ compose_settable.2.2.2.2.2.2.1)⟩
  · have hfree' : s.entry (keyOf 0x4180 0x0B) ≠ s.captureNext c := by simpa [free] using hfree
    have ht : t = (fillCapture c (s.captureNext c) image).run a := by
      refine hrun.trans ?_
      rw [if_pos hyes, takeCapture, if_neg hfree', hnumber]
    obtain ⟨hbytes, hmem, h8, h7⟩ := fillCapture_facts ha (hap.trans hp) c (s.captureNext c) image hslots
    rw [← ht] at hbytes hmem h8 h7
    exact ⟨hbytes, fun x hx => (hmem x hx).trans (congrArg (memGet · x) ham), h8.trans (by rw [hae]), h7⟩

end Sys2Proof.Machine
end

section
namespace Sys2Proof.Machine

/-! The configuration of a tick is sound. -/

theorem setValues_wf {p : Personality} {r : Values} (l : List (Key × Nat)) (h : Values.wf p r = true) :
    Values.wf p (l.foldl (fun r e => setValue p r e.1 e.2) r) = true := by
  induction l generalizing r with
  | nil => exact h
  | cons e l ih => exact ih (setValue_wf e.1 e.2 h)

theorem memWrites_wf {m : List Host.Cell} (l : List (Nat × Byte)) (h : Memory.wf m = true) :
    Memory.wf (l.foldl (fun m b => memWrite m b.1 [b.2]) m) = true := by
  induction l generalizing m with
  | nil => exact h
  | cons b l ih => exact ih (memWrite_wf b.1 [b.2] h)

theorem State.withCommit_sound {s : State} (hs : s.sound = true) (c : Commit) : (s.withCommit c).sound = true := by
  rw [State.sound_iff] at *
  exact ⟨memWrites_wf c.content hs.1, setValues_wf c.entries hs.2⟩

theorem State.setValue_sound {s : State} (hs : s.sound = true) (k : Key) (v : Nat) :
    State.sound { s with regs := setValue s.pers s.regs k v } = true := by
  rw [State.sound_iff] at *
  exact ⟨hs.1, setValue_wf k v hs.2⟩

theorem State.configAt_sound {s : State} (hs : s.sound = true) (n : Nat) :
    (s.configAt n).sound = true ∧ (s.configAt n).pers = s.pers := by
  rw [State.configAt]
  cases s.hid.commit.pend with
  | none => exact ⟨State.setValue_sound hs _ _, rfl⟩
  | some c =>
    by_cases hdue : c.due ≤ n
    · simp only [if_pos hdue]
      exact ⟨State.setValue_sound (State.withCommit_sound hs c) _ _, rfl⟩
    · simp only [if_neg hdue]
      exact ⟨State.setValue_sound hs _ _, trivial⟩

/-! What an image in the capture ring shows. -/

theorem State.lt_congr {s t : State} (htime : t.hid.time = s.hid.time)
    (hgrid : ∀ sub ∈ [1, 2, 3], t.entry (keyOf 0x4300 sub) = s.entry (keyOf 0x4300 sub)) (n : Nat) : t.lt n = s.lt n := by
  simp only [State.lt, State.at, State.grid, htime, State.reg_eq_entry, hgrid 1 (by simp), hgrid 2 (by simp), hgrid 3 (by simp)]

theorem State.captureImage_congr {s t : State} {n : Nat} (hlt : t.lt n = s.lt n)
    (hlate : t.hid.compose.late = s.hid.compose.late) (hstale : t.hid.compose.stale = s.hid.compose.stale)
    (hsub : t.hid.compose.substituted = s.hid.compose.substituted) (v : Nat) (lamps : List Nat) (number : Nat) :
    t.captureImage n v lamps number = s.captureImage n v lamps number := by
  simp only [State.captureImage, hlt, hlate, hstale, hsub]

/-! The phases of VIEW_COMPOSED. -/

/-- The values of a view's lamps from the windows that were read. -/
def State.lampsRead (c u : State) (n v : Nat) : List Rat := c.viewLamps u.hid.compose.current (u.tdsFor n) v

/-- The clip count after a view. -/
def clipCount (ys : List Rat) (before : Nat) : Nat := (ys.filter (1 < ·)).length + before

/-- The peak after a view. -/
def peakValue (ys : List Rat) (before : Int) : Int := ys.foldl (fun m y => max m (roundRat (y * 65536))) before

/-- The effect of a view once its blocks are read: the counts, the image, the capture and the end of the tick. -/
def finishView (c : State) (n v clipped : Nat) (peak : Int) (lamps : List Nat) : Effect := .all [
  set 0x4200 4 clipped,
  setInt 32 0x4200 5 peak,
  storeImage c n v lamps,
  capture c n v lamps,
  .look fun u => Effect.when u.hid.compose.todo.isEmpty (composeDone c n)]

theorem viewComposed_exec {s : State} {n v : Nat} {rest : List Nat} (hup : s.up .pipe = true)
    (htick : s.hid.compose.tick = some n) (htodo : s.hid.compose.todo = v :: rest) :
    let c := s.configAt n
    let first : Bool := s.hid.compose.todo == c.viewsIn c.profileB
    let u := s.viewRead n v
    let ys := State.lampsRead c u n v
    exec (.viewComposed v) s = .next ((finishView c n v (clipCount ys (if first then 0 else u.reg 0x4200 4))
      (peakValue ys (if first then -(2 ^ 31) else u.int 32 0x4200 5)) (ys.map driveOf)).run u) := by
  intro c first u ys
  have hexec : exec (.viewComposed v) s = execViewComposed v s := rfl
  have hhead : (s.hid.compose.todo.head? == some v) = true := by rw [htodo]; simp
  rw [hexec, execViewComposed, htick, hup, hhead, perform, Bool.and_self, Effect.run_ofOption_some, Effect.run_when_true]
  refine congrArg Host.Outcome.next ?_
  have hu : u = (Effect.each (readBlocks n v) (List.range 8)).run s := rfl
  have hc : s.configAt n = c := rfl
  dsimp only
  rw [Effect.run_seq, Effect.run_look, ← hu, hc]
  clear_value u c
  rfl

/-- The end of a tick, if no view is left. -/
theorem tickEnd_facts {s : State} (hs : s.sound = true) (hp : s.pers = .tile) (c : State) (n : Nat) :
    let t := (Effect.when s.hid.compose.todo.isEmpty (composeDone c n)).run s
    t.pers = s.pers ∧ t.mem = s.mem ∧ t.outputs = s.outputs ∧
    (s.hid.compose.todo = [] → t.entry (keyOf 0x4100 0x0A) = 2) ∧
    (∀ q, q ∉ [keyOf 0x4100 8, keyOf 0x4100 0x0A] → t.entry q = s.entry q) ∧
    ∃ margins, t.hid = { s.hid with compose := { s.hid.compose with margins := margins } } := by
  cases htodo : s.hid.compose.todo with
  | nil =>
    obtain ⟨htp, htm, hto, hstate, hte, hth⟩ := composeDone_facts hs hp c n
    exact ⟨htp, htm, hto, fun _ => hstate, hte, hth⟩
  | cons w ws => exact ⟨rfl, rfl, rfl, fun h => absurd h (List.cons_ne_nil w ws), fun _ _ => rfl, _, rfl⟩

end Sys2Proof.Machine
end

section
namespace Sys2Proof.Machine

theorem ofSigned_lt (w : Nat) (i : Int) : ofSigned w i < 2 ^ w := by
  have hlt := Int.emod_lt_of_pos i (show (0 : Int) < 2 ^ w by positivity)
  have hnn := Int.emod_nonneg i (show (2 : Int) ^ w ≠ 0 by positivity)
  rw [ofSigned, Int.toNat_lt hnn]
  exact_mod_cast hlt

/-- What the capture of a view leaves, from the state before the view to the one after it. -/
def ViewCaptured (c s t : State) (n v : Nat) (lamps : List Nat) : Prop :=
  let base := Space.capture.at (s.captureNext c * c.captureSlot)
  let number := satAdd 32 (s.entry (keyOf 0x4180 8)) 1
  let image := t.captureImage n v lamps number
  let free : Bool := s.entry (keyOf 0x4180 0x0B) != s.captureNext c
  (s.captures c n v = false → t.entry (keyOf 0x4180 7) = s.entry (keyOf 0x4180 7) ∧ SameMemory s t ∧
    t.entry (keyOf 0x4180 8) = s.entry (keyOf 0x4180 8) ∧ t.entry (keyOf 0x4180 9) = s.entry (keyOf 0x4180 9)) ∧
  (s.captures c n v = true → free = false → SameMemory s t ∧
    t.entry (keyOf 0x4180 9) = satAdd 32 (s.entry (keyOf 0x4180 9)) 1) ∧
  (s.captures c n v = true → free = true → t.bytes base image.length = image ∧
    t.entry (keyOf 0x4180 8) = number ∧ t.entry (keyOf 0x4180 7) = (s.captureNext c + 1) % max 1 (c.entry (keyOf 0x4180 4)) ∧
    SameMemoryBut base (max c.captureSlot image.length) s t)

/-- The entries in which a view shows once its blocks are read. -/
def viewEntries : List Key := [keyOf 0x4200 4, keyOf 0x4200 5, keyOf 0x4100 8, keyOf 0x4100 0x0A, keyOf 0x4180 7,
  keyOf 0x4180 8, keyOf 0x4180 9]

theorem SameMemory.of_mem {s t : State} (h : t.mem = s.mem) : SameMemory s t := fun x => congrArg (memGet · x) h

/-- A capture whose ring, whose image and whose entries are the same before and after is that of the whole view. -/
theorem ViewCaptured.of {c s w x t : State} {n v : Nat} {lamps : List Nat} (hw : w.sound = true) (hp : w.pers = .tile)
    (hslots : c.entry (keyOf 0x4180 4) < 2 ^ 8) (hx : x = (capture c n v lamps).run w)
    (hwe : ∀ sub ∈ [7, 8, 9, 0x0B], w.entry (keyOf 0x4180 sub) = s.entry (keyOf 0x4180 sub))
    (hfrom : w.hid.compose.captureFrom = s.hid.compose.captureFrom)
    (hfull : w.hid.compose.captureFull = s.hid.compose.captureFull) (hwm : w.mem = s.mem) (htm : t.mem = x.mem)
    (hte : ∀ sub ∈ [7, 8, 9], t.entry (keyOf 0x4180 sub) = x.entry (keyOf 0x4180 sub))
    (himage : ∀ number, w.captureImage n v lamps number = t.captureImage n v lamps number) :
    ViewCaptured c s t n v lamps := by
  obtain ⟨-, -, -, -, -, hno, hheld, hfree⟩ := capture_facts hw hp c n v lamps hslots
  rw [← hx] at hno hheld hfree
  have hnext : w.captureNext c = s.captureNext c := by rw [State.captureNext, State.captureNext, hwe 7 (by simp)]
  have hcaptures : w.captures c n v = s.captures c n v := by rw [State.captures, State.captures, hfrom, hfull]
  rw [hcaptures] at hno hheld hfree
  rw [hnext, hwe 8 (by simp), hwe 0x0B (by simp)] at hfree
  rw [hnext, hwe 0x0B (by simp), hwe 9 (by simp)] at hheld
  refine ⟨fun h => ?_, fun h h' => ?_, fun h h' => ?_⟩
  · obtain ⟨hxm, hxe⟩ := hno h
    refine ⟨?_, .of_mem (htm.trans (hxm.trans hwm)), ?_, ?_⟩
    · rw [hte 7 (by simp), hxe, hwe 7 (by simp)]
    · rw [hte 8 (by simp), hxe, hwe 8 (by simp)]
    · rw [hte 9 (by simp), hxe, hwe 9 (by simp)]
  · obtain ⟨hxm, h9⟩ := hheld h h'
    exact ⟨.of_mem (htm.trans (hxm.trans hwm)), (hte 9 (by simp)).trans h9⟩
  · obtain ⟨hbytes, hmem, h8, h7⟩ := hfree h h'
    rw [himage] at hbytes hmem
    refine ⟨(State.bytes_of_mem htm _ _).trans hbytes, (hte 8 (by simp)).trans h8, (hte 7 (by simp)).trans h7, fun a ha => ?_⟩
    exact (SameMemory.of_mem htm a).trans ((hmem a ha).trans (SameMemory.of_mem hwm a))

theorem finishView_facts {s u : State} {n v : Nat} {rest : List Nat} (hu : u.sound = true) (hup : u.pers = .tile)
    (hum : u.mem = s.mem) (hread : BlocksRead s.hid u.hid) (hue : ∀ q, q ∉ readEntries → u.entry q = s.entry q)
    (htodo : s.hid.compose.todo = v :: rest) {c : State} (hslots : c.entry (keyOf 0x4180 4) < 2 ^ 8)
    (clipped : Nat) (peak : Int) (lamps : List Nat) :
    let t := (finishView c n v clipped peak lamps).run u
    t.pers = u.pers ∧ t.outputs = u.outputs ∧ t.hid.compose.current = u.hid.compose.current ∧
    lookupKey t.hid.compose.images v = some ⟨n, s.hid.compose.olderBank v, lamps⟩ ∧
    (∀ w, w ≠ v → lookupKey t.hid.compose.images w = lookupKey s.hid.compose.images w) ∧
    (∀ o ∈ lookupKey s.hid.compose.images v, lookupKey t.hid.compose.older v = some o) ∧
    t.hid.compose.todo = rest.filter (· != v) ∧
    t.entry (keyOf 0x4200 4) = clipped % 2 ^ 32 ∧ t.entry (keyOf 0x4200 5) = ofSigned 32 (clampSigned 32 peak) ∧
    (rest.filter (· != v) = [] → t.entry (keyOf 0x4100 0x0A) = 2) ∧ ViewCaptured c s t n v lamps ∧
    t.hid = { s.hid with
      compose := t.hid.compose
      almanac := t.hid.almanac
      memory := { s.hid.memory with poison := t.hid.memory.poison } } ∧
    ∀ q, q ∉ viewEntries → t.entry q = u.entry q := by
  intro t
  have ht : t = (finishView c n v clipped peak lamps).run u := rfl
  clear_value t
  simp only [finishView, Effect.run_all_cons, Effect.run_all_nil, Effect.run_look, setInt] at ht
  have hclips := compose_settable.2.2.2.2.2.2.2.2.2.1
  have hpeak := compose_settable.2.2.2.2.2.2.2.2.2.2.1
  obtain ⟨hah, hap, ham, hao, hae⟩ := set_facts 0x4200 4 clipped hu
  have ha : ((set 0x4200 4 clipped).run u).sound = true := Effect.run_sound _ hu
  have ha4 : ((set 0x4200 4 clipped).run u).entry (keyOf 0x4200 4) = clipped % 2 ^ 32 := set_entry hu (hup ▸ hclips)
  generalize (set 0x4200 4 clipped).run u = a at *
  have hatile : a.pers = .tile := hap.trans hup
  obtain ⟨hbh, hbp, hbm, hbo, hbe⟩ := set_facts 0x4200 5 (ofSigned 32 (clampSigned 32 peak)) ha
  have hb : ((set 0x4200 5 (ofSigned 32 (clampSigned 32 peak))).run a).sound = true := Effect.run_sound _ ha
  have hb5 : ((set 0x4200 5 (ofSigned 32 (clampSigned 32 peak))).run a).entry (keyOf 0x4200 5) =
      ofSigned 32 (clampSigned 32 peak) :=
    (set_entry ha (hatile ▸ hpeak)).trans (Nat.mod_eq_of_lt (ofSigned_lt _ _))
  generalize (set 0x4200 5 (ofSigned 32 (clampSigned 32 peak))).run a = b at *
  obtain ⟨hw, hwp, hwm, hwo, hwe, poison, hwh⟩ := storeImage_facts hb c n v lamps
  generalize (storeImage c n v lamps).run b = w at *
  have hwtile : w.pers = .tile := hwp.trans (hbp.trans hatile)
  obtain ⟨hx, hxp, hxo, hxh, hxe, -⟩ := capture_facts hw hwtile c n v lamps hslots
  generalize hxdef : (capture c n v lamps).run w = x at *
  obtain ⟨htp, htm, hto, hlast, hte, margins, hth⟩ := tickEnd_facts hx (hxp.trans hwtile) c n
  rw [← ht] at htp htm hto hlast hte hth
  obtain ⟨cu, su, al, p, hu'⟩ : ∃ cu su al p, u.hid = { s.hid with
      compose := { s.hid.compose with current := cu, substituted := su }
      almanac := al
      memory := { s.hid.memory with poison := p } } := ⟨_, _, _, _, hread⟩
  obtain ⟨begun, full, p', hx'⟩ : ∃ begun full p', x.hid = { w.hid with
      compose := { w.hid.compose with captureFrom := begun, captureFull := full }
      memory := { w.hid.memory with poison := p' } } := ⟨_, _, _, hxh⟩
  have hbhid : b.hid = u.hid := hbh.trans hah
  rw [hbhid] at hwh
  have hucompose : u.hid.compose = { s.hid.compose with current := cu, substituted := su } := by rw [hu']
  have hwcompose : w.hid.compose = u.hid.compose.stored n v lamps := by rw [hwh]
  have hxcompose : x.hid.compose = { w.hid.compose with captureFrom := begun, captureFull := full } := by rw [hx']
  have htcompose : t.hid.compose = { x.hid.compose with margins := margins } := by rw [hth]
  have hwu : ∀ q, q ≠ keyOf 0x4200 4 → q ≠ keyOf 0x4200 5 → w.entry q = u.entry q := fun q h4 h5 => by
    rw [hwe, hbe q h5, hae q h4]
  have htw : ∀ q, q ∉ [keyOf 0x4100 8, keyOf 0x4100 0x0A, keyOf 0x4180 7, keyOf 0x4180 8, keyOf 0x4180 9] →
      t.entry q = w.entry q := fun q hq => by
    simp only [List.mem_cons, List.not_mem_nil, or_false, not_or] at hq
    obtain ⟨h8, h0A, hring⟩ := hq
    rw [hte q (by simp [h8, h0A]), hxe q (by simpa using hring)]
  have holder : s.hid.compose.olderBank v = u.hid.compose.olderBank v := by rw [hucompose]; rfl
  have hutodo : u.hid.compose.todo.filter (· != v) = rest.filter (· != v) := by
    rw [hucompose]
    show s.hid.compose.todo.filter (· != v) = _
    rw [htodo, List.filter_cons_of_neg (by simp)]
  refine ⟨htp.trans (hxp.trans (hwp.trans (hbp.trans hap))), hto.trans (hxo.trans (hwo.trans (hbo.trans hao))), ?_, ?_,
    fun y hy => ?_, fun o ho => ?_, ?_, ?_, ?_, fun hnone => ?_, ?_, ?_, fun q hq => ?_⟩
  · rw [htcompose, hxcompose, hwcompose]
    rfl
  · rw [htcompose, hxcompose, hwcompose, holder]
    exact lookupKey_insertKey_self v _ _
  · rw [htcompose, hxcompose, hwcompose]
    refine (lookupKey_insertKey_of_ne _ hy _).trans ?_
    rw [hucompose]
  · rw [htcompose, hxcompose, hwcompose]
    refine ComposeState.stored_older n lamps ?_
    rw [hucompose]
    exact ho
  · rw [htcompose, hxcompose, hwcompose]
    exact hutodo
  · rw [htw _ (by decide), hwe, hbe _ (by decide), ha4]
  · rw [htw _ (by decide), hwe, hb5]
  · refine hlast ?_
    rw [hxcompose, hwcompose]
    exact hutodo.trans hnone
  · refine ViewCaptured.of hw hwtile hslots hxdef.symm (fun sub hsub => ?_) ?_ ?_ ?_ htm (fun sub hsub => ?_) fun number => ?_
    · simp only [List.mem_cons, List.not_mem_nil, or_false] at hsub
      rcases hsub with rfl | rfl | rfl | rfl <;> rw [hwu _ (by decide) (by decide), hue _ (by decide)]
    · rw [hwcompose, hucompose]
      rfl
    · rw [hwcompose, hucompose]
      rfl
    · exact hwm.trans (hbm.trans (ham.trans hum))
    · refine hte _ ?_
      simp only [List.mem_cons, List.not_mem_nil, or_false] at hsub
      rcases hsub with rfl | rfl | rfl <;> decide
    · refine State.captureImage_congr (State.lt_congr ?_ (fun sub hsub => ?_) n) ?_ ?_ ?_ v lamps number
      · rw [hth, hx']
      · simp only [List.mem_cons, List.not_mem_nil, or_false] at hsub
        rcases hsub with rfl | rfl | rfl <;> rw [htw _ (by decide)]
      all_goals rw [htcompose, hxcompose]
  · rw [hth, hx', hwh, hu']
  · simp only [viewEntries, List.mem_cons, List.not_mem_nil, or_false, not_or] at hq
    obtain ⟨h4, h5, h8, h0A, hring⟩ := hq
    rw [htw q (by simp [h8, h0A, hring]), hwu q h4 h5]

end Sys2Proof.Machine
end

section
namespace Sys2Proof.Machine

/-- VIEW_COMPOSED stores the drive image of the next view. -/
theorem viewComposed_completes {s : State} {n v : Nat} {rest : List Nat} (hs : s.sound = true) (hup : s.up .pipe = true)
    (htile : s.isTile = true) (htick : s.hid.compose.tick = some n) (htodo : s.hid.compose.todo = v :: rest) :
    let c := s.configAt n
    let first : Bool := s.hid.compose.todo == c.viewsIn c.profileB
    Completes (.viewComposed v) s fun t =>
      let ys := c.viewLamps t.hid.compose.current (s.tdsFor n) v
      lookupKey t.hid.compose.images v = some ⟨n, s.hid.compose.olderBank v, ys.map driveOf⟩ ∧
      (∀ w, w ≠ v → lookupKey t.hid.compose.images w = lookupKey s.hid.compose.images w) ∧
      (∀ o ∈ lookupKey s.hid.compose.images v, lookupKey t.hid.compose.older v = some o) ∧
      t.hid.compose.todo = rest.filter (· != v) ∧
      t.entry (keyOf 0x4200 4) = clipCount ys (if first then 0 else s.entry (keyOf 0x4200 4)) % 2 ^ 32 ∧
      t.entry (keyOf 0x4200 5) = ofSigned 32 (clampSigned 32
        (peakValue ys (if first then -(2 ^ 31) else toSigned 32 (s.entry (keyOf 0x4200 5))))) ∧
      (rest.filter (· != v) = [] → t.entry (keyOf 0x4100 0x0A) = 2) ∧ t.outputs = s.outputs ∧
      ViewCaptured c s t n v (ys.map driveOf) ∧
      t.hid = { s.hid with
        compose := t.hid.compose
        almanac := t.hid.almanac
        memory := { s.hid.memory with poison := t.hid.memory.poison } } ∧
      SameEntriesBut ([keyOf 0x4200 4, keyOf 0x4200 5, keyOf 0x4100 8, keyOf 0x4100 0x0A, keyOf 0x4100 0x0B, keyOf 0x4100 0x0C,
        keyOf 0x4180 7, keyOf 0x4180 8, keyOf 0x4180 9, keyOf 0x1400 8] ++ layerCounts) s t := by
  intro c first
  have hp := State.isTile_iff.mp htile
  obtain ⟨hc, hcp⟩ := State.configAt_sound hs n
  have hslots : c.entry (keyOf 0x4180 4) < 2 ^ 8 :=
    State.entry_lt hc ((hcp.trans hp) ▸ compose_settable.2.2.2.2.2.2.2.2.1)
  obtain ⟨hu, hup', hum, huo, hread, hue⟩ := viewRead_facts hs n v
  have hexec : exec (.viewComposed v) s = .next ((finishView c n v
      (clipCount (State.lampsRead c (s.viewRead n v) n v) (if first then 0 else (s.viewRead n v).reg 0x4200 4))
      (peakValue (State.lampsRead c (s.viewRead n v) n v) (if first then -(2 ^ 31) else (s.viewRead n v).int 32 0x4200 5))
      ((State.lampsRead c (s.viewRead n v) n v).map driveOf)).run (s.viewRead n v)) := viewComposed_exec hup htick htodo
  generalize s.viewRead n v = u at *
  have hclips : u.reg 0x4200 4 = s.entry (keyOf 0x4200 4) := hue _ (by decide)
  have hpeak : u.int 32 0x4200 5 = toSigned 32 (s.entry (keyOf 0x4200 5)) := congrArg (toSigned 32) (hue _ (by decide))
  have hscan : u.hid.scan = s.hid.scan := by rw [hread]
  have hys : State.lampsRead c u n v = c.viewLamps u.hid.compose.current (s.tdsFor n) v := by
    rw [State.lampsRead, State.tdsFor, hscan, State.tdsFor]
  rw [hclips, hpeak, hys] at hexec
  clear_value c first
  obtain ⟨htp, hto, hcurrent, himage, himages, holder, hrest, hclip, hpk, hlast, hcaptured, hhid, hte⟩ :=
    finishView_facts (n := n) hu (hup'.trans hp) hum hread hue htodo hslots
      (clipCount (c.viewLamps u.hid.compose.current (s.tdsFor n) v) (if first then 0 else s.entry (keyOf 0x4200 4)))
      (peakValue (c.viewLamps u.hid.compose.current (s.tdsFor n) v)
        (if first then -(2 ^ 31) else toSigned 32 (s.entry (keyOf 0x4200 5))))
      ((c.viewLamps u.hid.compose.current (s.tdsFor n) v).map driveOf)
  refine ⟨_, hexec, ?_⟩
  generalize (finishView c n v _ _ _).run u = t at *
  rw [← hcurrent] at himage hclip hpk hcaptured
  refine ⟨himage, himages, holder, hrest, hclip, hpk, hlast, hto.trans huo, hcaptured, hhid, htp.trans hup', fun q hq => ?_⟩
  simp only [List.mem_append, List.mem_cons, List.not_mem_nil, or_false, not_or] at hq
  obtain ⟨⟨h4, h5, h8, h0A, h0B, h0C, hr7, hr8, hr9, halm⟩, hlayers⟩ := hq
  rw [hte q (by simp [viewEntries, h4, h5, h8, h0A, hr7, hr8, hr9]), hue q (by simp [readEntries, h0B, h0C, halm, hlayers])]

end Sys2Proof.Machine
end

section
namespace Sys2Proof.Machine

/-- Settles O50: a deadline fixes what every layer and view shows, and a view that is composed stores its image and is
captured, phase by phase. -/
theorem theCompositorRuns : Obligations.TheCompositorRuns := by
  unfold Obligations.TheCompositorRuns
  intro layers
  refine ⟨fun s hs htile hstep hscan hpipe => ?_, fun s n v rest hs hup htile htick htodo => ?_,
    fun s v hs htile hup hv => composeUnderrun_completes hs htile hup hv,
    fun s d hs htile hsv => ⟨captureRingEmpty_acts hs htile hsv, captureSlotRelease_acts hs htile hsv⟩⟩
  · refine ⟨fun hstarts => ?_, fun hidle => ?_⟩
    · obtain ⟨t, hexec, hran, hshown⟩ := composeDeadline_starts hs htile hstep hscan hpipe hstarts
      rw [← show s.composes (s.tick + 1) = true from hstarts] at hran
      exact ⟨t, hexec, hran, hshown⟩
    · obtain ⟨t, hexec, hran, hshown⟩ := composeDeadline_idles hs htile hstep hscan hpipe hidle
      rw [← show s.composes (s.tick + 1) = false from hidle] at hran
      exact ⟨t, hexec, hran, hshown⟩
  · obtain ⟨t, hexec, himage, himages, holder, hrest, hclip, hpeak, hlast, hout, ⟨hno, hheld, hfree⟩, hhid, hkeep⟩ :=
      viewComposed_completes hs hup htile htick htodo
    exact ⟨t, hexec, himage, himages, holder, hrest, hclip, hpeak, hlast, hout, hno, hheld, hfree, hhid, hkeep⟩

end Sys2Proof.Machine
end
